-- ==== Sys2Proof/Word.lean ====
section
/-! DEFINITION. The words of the model: a byte, a register word, and nothing else. -/

namespace Sys2Proof.Machine

/-- A byte of memory, of a frame or of a record. -/
abbrev Byte := BitVec 8

/-- A register word; a 32-bit register uses its low half. -/
abbrev Word := BitVec 64

end Sys2Proof.Machine
end

