-- ==== Sys2Proof/Syntax.lean ====
section
/-! DEFINITION. The commands the part takes: every row of the table of operations and events is one constructor of
`Instr`. Operand structures stand first: what a command carries from outside the part. -/

namespace Sys2Proof

open Machine (Byte)

/-- R16, R21, R582: who makes a register access: host software through BAR0, or a management core. -/
inductive Requester where | host | mc0 | mc1
  deriving DecidableEq, Repr

/-- R536, R538: the two halves of serving a mailbox request: the server takes it (BUSY), then answers it (DONE). -/
inductive Phase where | take | serve
  deriving DecidableEq, Repr

/-- A CTRL flit (11_fabric.md, Table 11.6): type, flags, SEQ, JOBID, origin node and system, destination, body. -/
structure CtrlFlit where
  typ : Nat
  flags : Nat
  seq : Nat
  jobid : Nat
  node : Nat
  sys : Nat
  dst : Nat
  body : List Byte
  deriving DecidableEq, Repr

/-- A frame of the request or reply network (11_fabric.md, Table 11.1). -/
structure Frame where
  net : Nat
  dst : Nat
  src : Nat
  op : Nat
  tag : Nat
  gen : Nat
  cls : Nat
  hops : Nat
  opspec : Nat
  addr : Nat
  status : Nat
  bytes : Nat
  payload : List Byte
  deriving DecidableEq, Repr

/-- A read of a register: its offset in BAR0 and its size in bytes (R20, R21). -/
structure RegRead where
  off : Nat
  size : Nat
  deriving DecidableEq, Repr

/-- A request a requester of the part hands to the request agent (R381). -/
structure ReqSpec where
  requester : Nat
  q : Option Nat
  node : Nat
  op : Nat
  addr : Nat
  bytes : Nat
  payload : List Byte
  timeout : Nat
  land : Nat
  beat : Option Nat
  jobid : Nat
  deriving DecidableEq, Repr


/-- The commands of the part: one constructor per row of the table of operations and events. A command is one whole step
(95_what_each_step_holds.md); its operands name the unit it acts on and what reaches the part from outside with it. -/
inductive Instr where
  /-- NOP, R233: A NOP control word issues in any queue, waits and signals per its header and does no other work. -/
  | nop (core queue : Nat)
  /-- LOOP, R234: A LOOP word executes in the SEQ queue, and its loop is pushed on the loop stack when it is
     inspected. -/
  | loop (core : Nat)
  /-- JUMP, R235: A JUMP word redirects fetch to its TARGET and discards words requested after it. -/
  | jump (core : Nat)
  /-- BEATEND, R236: A BEATEND word issues, ending the core's scheduled work of the beat and stopping fetch. -/
  | beatend (core : Nat)
  /-- BEATEND_COMPLETE, R236: A BEATEND completes in the first cc after issue in which the MAT, CHN, MOV and LNK
     queues are empty. -/
  | beatendComplete (core : Nat)
  /-- HALT, R237: A HALT word issues and fetch stops for the rest of the job. -/
  | halt (core : Nat)
  /-- HALT_COMPLETE, R237: A HALT completes once the other queues are empty, and the core issues nothing more in the
     job. -/
  | haltComplete (core : Nat)
  /-- LOADW, R86: A LOADW issues and writes one weight part from staging into the shadow tiles of the named arrays. -/
  | loadw (core : Nat)
  /-- LOADW_COMPLETE, R102: A LOADW completes in the cc after its shadow becomes READY, and its signal takes effect.
     -/
  | loadwComplete (core : Nat)
  /-- MMUL, R98: An MMUL issues its row-passes on the live tiles, swapping first when SWAP is set, and accumulates or
     overwrites entries. -/
  | mmul (core : Nat)
  /-- MMUL_COMPLETE, R102: An MMUL completes in the cc after the accumulator write of its last pass, and its signal
     takes effect. -/
  | mmulComplete (core : Nat)
  /-- CHAIN, R122: A CHAIN word issues and streams its vectors through the enabled stages of the chain engine. -/
  | chain (core : Nat)
  /-- CHAIN_COMPLETE, R123: A CHAIN word completes in the cc after its latest elementwise or reduction write, and its
     signal takes effect. -/
  | chainComplete (core : Nat)
  /-- SETK, R112: A SETK word writes its immediates into the chain scalars in the cc after issue. -/
  | setk (core : Nat)
  /-- COPY, R275: A COPY word runs the mover's address generator and moves elements between its local and far sides.
     -/
  | copy (core : Nat)
  /-- COPY_COMPLETE, R275: A COPY completes in the cc after its last destination write lands. -/
  | copyComplete (core : Nat)
  /-- PLEACH, R281: A PLEACH word issues and its send half appends the edge points to the partner's landing channel.
     -/
  | pleach (core : Nat)
  /-- PLEACH_RECEIVE, R281: At issue plus DUE, the receive half of a PLEACH takes its bytes from its own channel and
     writes the halo. -/
  | pleachReceive (core : Nat)
  /-- PLEACH_COMPLETE, R281: A PLEACH completes after its last edge byte enters the send buffer and its last halo
     write lands. -/
  | pleachComplete (core : Nat)
  /-- PUSH, R284: A PUSH reads its ring descriptor, advances WPOS, writes the slot and sets its guard bit. -/
  | push (core : Nat)
  /-- POP, R284: A POP reads its ring descriptor, advances RPOS, reads the slot and clears its guard bit. -/
  | pop (core : Nat)
  /-- TSUB, R149: A TSUB word reads a 64-byte thicket descriptor from the core store for submission to a cluster's
     thicket. -/
  | tsub (core : Nat)
  /-- TSUB_ACCEPT, R150: The descriptor is accepted into its queue 8 cc after issue, or after a full queue frees; it
     is checked and its timing computed. -/
  | tsubAccept (core : Nat)
  /-- SEND, R289: A SEND word reads its rows and places their words in the send buffer toward the destination core's
     channel. -/
  | send (core : Nat)
  /-- SEND_COMPLETE, R289: A SEND completes in the cc after its last word enters the send buffer. -/
  | sendComplete (core : Nat)
  /-- RECV, R291: A RECV removes its bytes from its landing channel and writes them as rows into its target. -/
  | recv (core : Nat)
  /-- RECV_COMPLETE, R291: A RECV completes after its last write lands, and any REMOTE signal carried by the consumed
     bytes takes effect. -/
  | recvComplete (core : Nat)
  /-- FETCH_REQUEST, R226: The sequencer requests the control word at the fetch address when the SEQ queue has room.
     -/
  | fetchRequest (core : Nat)
  /-- FETCH_INSPECT, R227: An arrived control word is inspected in request order and enters the SEQ queue, with JUMP,
     LOOP, BEATEND and HALT acting on fetch. -/
  | fetchInspect (core : Nat)
  /-- DISPATCH, R229: The word at the SEQ head is checked and dispatched to its queue once that queue has a free
     entry. -/
  | dispatch (core : Nat)
  /-- PEER_SIGNAL, R243: A PEER signal reaches a shared counter of the named core 6 cc after the local signal cc. -/
  | peerSignal (core : Nat)
  /-- CLUSTER_SIGNAL, R243: A CLUSTER signal reaches the shared counter of every enabled core of the cluster 6 cc
     after the local signal cc. -/
  | clusterSignal (core : Nat)
  /-- LANDING_ARRIVAL, R609: Bytes of a package-mesh SEND or PLEACH reach the destination core's landing channel
     port(s, c) cc after entering the send buffer. -/
  | landingArrival (cl : Nat)
  /-- SEND_BUFFER_DRAIN, R339: A flit leaves a cluster's send buffer into the outbound SCHED queue of its first-hop
     port when the queue has room. -/
  | sendBufferDrain (cl : Nat)
  /-- FREEZE_END, R305: The last awaited item becomes present and the partition resumes at the next cc edge. -/
  | freezeEnd (q : Nat)
  /-- GATHER_ROW, R162: A GATHER engine copies table rows named by an index list to destination rows. -/
  | gatherRow (cl e : Nat)
  /-- GATHER_PAGE, R162: A GATHER engine copies rows from the device addresses of a page list. -/
  | gatherPage (cl e : Nat)
  /-- SCATTER_ROW, R162: A SCATTER engine copies source rows to table rows named by an index list. -/
  | scatterRow (cl e : Nat)
  /-- KVAPPEND, R163: A SCATTER engine appends key and value positions into KV pages and updates page summaries. -/
  | kvappend (cl e : Nat)
  /-- TOPK, R165: A SELECT engine writes the indices and values of the K largest of N values. -/
  | topk (cl e : Nat)
  /-- PAGESCORE, R166: A SELECT engine ranks pages by an exact bound on q·k from their summaries. -/
  | pagescore (cl e : Nat)
  /-- SAMPLE, R167: A SELECT engine draws one index from the top-K scores with top-p using the counter-based
     generator. -/
  | sample (cl e : Nat)
  /-- SAMPLEALL, R167: A SELECT engine samples from the top-K scores with top-p taken as 1.0. -/
  | sampleall (cl e : Nat)
  /-- TRANSPOSE, R169: An XFORM engine writes a matrix of elements transposed. -/
  | transpose (cl e : Nat)
  /-- RELAYOUT, R169: An XFORM engine copies runs of bytes with source and destination pitches. -/
  | relayout (cl e : Nat)
  /-- REQUANT, R169: An XFORM engine converts elements between formats, computing block scales when asked. -/
  | requant (cl e : Nat)
  /-- COMPACT_FLAGS, R170: The COMPACT engine writes the count and indices of nonzero flag bytes. -/
  | compactFlags (cl e : Nat)
  /-- MOE, R171: The COMPACT engine builds expert slot lists from deferred entries and token choices, deferring or
     dropping overflows. -/
  | moe (cl e : Nat)
  /-- DIGEST, R172: The DIGEST engine runs SHA-256 over up to four ranges, holding or finalizing the state. -/
  | digest (cl e : Nat)
  /-- THKT_COMPLETE, R154: At issue plus DUE a timed descriptor completes: it signals its counter, writes its record
     and raises its event. -/
  | thktComplete (cl e : Nat)
  /-- UNTIMED_PICK, R158: An idle engine picks the oldest eligible untimed descriptor, from its own cluster or by a
     steal from a neighbour. -/
  | untimedPick (cl e : Nat)
  /-- UNTIMED_COMPLETE, R160: An untimed descriptor completes after its last write lands, writing its record and
     raising its event. -/
  | untimedComplete (cl e : Nat)
  /-- BULK_SLOT_TRANSFER, R200: A pending line transfer takes the first owned calendar slot of its tier-column and
     reads or lands its line. -/
  | bulkSlotTransfer (tc slot : Nat)
  /-- SCRUB_SLOT, R210: A free bulk slot reads the line at the scrub pointer, corrects it, and writes it back or
     advances the pointer. -/
  | scrubSlot (tc slot : Nat)
  /-- CORE_STORE_SCRUB, R211: An idle read port of a core-store or buffer bank scrubs a word and writes back a
     correction when the write port is free. -/
  | coreStoreScrub (core unit word : Nat)
  /-- ROOT_SWEEPCTL_WRITE, R217: A write of ROOT_SWEEPCTL starts a sweep of the named clusters' core stores and bulk
     columns, or is refused. -/
  | rootSweepctlWrite (by_ : Requester) (mask : Nat)
  /-- SWEEP_COMPLETE, R217: A sweep finishes writing the fill pattern, releases its tokens, reports OK and raises
     source 10. -/
  | sweepComplete
  /-- BEAT_START, R294: A partition begins a beat at the first cc edge at or after its wall-grid instant, or at once
     when late, with fetch resuming and serving decisions taken. -/
  | beatStart (q : Nat)
  /-- LAG_EVENT, R310: Lag first exceeds the lag limit and the LAG event is raised. -/
  | lagEvent (q : Nat)
  /-- LAG_FAULT, R310: Lag exceeds the fault limit and the job faults on this part with LAGF set. -/
  | lagFault (q : Nat)
  /-- BEAT_START_STEP, R409: Before beat n the part commits slots, applies ADMIT records, chooses the variant, fills
     slots and writes the plan. -/
  | beatStartStep (q : Nat)
  /-- STEP_CHANGE_RUN, R478: In the cc after beat n−1's work ends, the partition's clocks stop for 5,000 ns while
     rails and PLLs move to the new step. -/
  | stepChangeRun (q : Nat)
  /-- LAUNCH, R443: A write of HQ_JOB.CMD LAUNCH acts as a launch notice at the GTC of the write and may spread it on
     CTRL. -/
  | launch (q : Nat) (spread : Bool)
  /-- LAUNCH_RECEIVE, R298: A launch notice arriving on CTRL is matched to an ARMED partition and accepted or refused.
     -/
  | launchReceive (n : Nat) (f : CtrlFlit)
  /-- LOAD, R442: A write of HQ_JOB.CMD LOAD checks the partition's settings and moves it to ARMED. -/
  | load (q : Nat)
  /-- SLOT_FILL, R333: At the start of each flit slot the port transmitter fills it with replay, CTRL, frame, SCHED or
     idle content by priority. -/
  | slotFill (n : Nat)
  /-- GROUP_RECEIVE, R324: A received flit group is judged good or bad; good groups deliver flits and apply ACK and
     credit fields. -/
  | groupReceive (n : Nat) (raw : List Byte) (corr uncorr : Nat)
  /-- SCHED_FORWARD, R340: A SCHED message with hops left is forwarded cut-through by its next hop byte. -/
  | schedForward (n : Nat)
  /-- NAK_ISSUE, R345: In the port's next engine slice after a bad or out-of-order group, the receiver issues a NAK.
     -/
  | nakIssue (n : Nat)
  /-- REPLAY_START, R346: In the port's next slice after an accepted NAK, the transmitter resends every unacknowledged
     group. -/
  | replayStart (n : Nat)
  /-- REPLAY_TIMEOUT, R347: The oldest unacknowledged group passes 2L + 400 ns and a replay is started. -/
  | replayTimeout (n : Nat)
  /-- PROBE_EXCHANGE, R350: A PROBE and PROBE_REPLY pair is exchanged in training, and L is computed from 16 pairs. The operands are the
     four times of the pair that the port has received. -/
  | probeExchange (n t1 t2 t3 t4 : Nat)
  /-- IDENTITY_RESEND, R349: Every 1 ms in training step 6 the port resends its identity record. -/
  | identityResend (n : Nat)
  /-- NEIGHBOUR_RECORD, R352: A neighbour identity record arrives and is checked, placing the port in UP, MISWIRED,
     QUARANTINE or NBRMIN. -/
  | neighbourRecord (n : Nat) (rec : List Byte)
  /-- PORT_LOCK_LOSS, R356: A lane or FEC alignment loses lock for 1 µs and the port goes DOWN with cause LOCK. -/
  | portLockLoss (n : Nat)
  /-- TRAIN_TIMEOUT, R349: Training not ended within 1 s of step 1 takes the port DOWN with cause TRAIN. -/
  | trainTimeout (n : Nat)
  /-- IDENT_TIMEOUT, R356: No neighbour record within 10 ms takes the port DOWN with cause IDENT. -/
  | identTimeout (n : Nat)
  /-- PORT_CTL_ENABLE, R349: A write of PORT_CTL.ENABLE starts training, or disables the port when 0. -/
  | portCtlEnable (by_ : Requester) (n : Nat) (on : Bool)
  /-- PORT_CTL_RESET, R358: A write of 1 to PORT_CTL.RESET makes a PORT reset that starts training again. -/
  | portCtlReset (by_ : Requester) (n : Nat)
  /-- PORT_WIN_WRITE, R360: A write of PORT_WIN is judged as a whole against its resulting K and discarded if any
     field is reserved. -/
  | portWinWrite (by_ : Requester) (n : Nat) (value : Nat)
  /-- FRAME_ARRIVE, R372: A frame's first flit reaches the routing stage and the route table selects local delivery, a
     port, a group or discard. -/
  | frameArrive (from_ : Option Nat) (f : Frame)
  /-- REQUEST_INJECT, R381: A requester's request takes the lowest free tag with a new generation, or completes at
     once with NO_RESOURCE. -/
  | requestInject (r : ReqSpec)
  /-- RD, R380: A target serves an RD frame and returns RD_RSP with the first applicable status. -/
  | rd
  /-- WR, R380: A target serves a WR frame, lands its bytes and returns WR_RSP. -/
  | wr
  /-- MSG, R379: A MSG frame is delivered to the target's management cores and answered by MSG_RSP. -/
  | msg
  /-- REPLY_ARRIVE, R383: A reply frame arrives; with the tag's current generation it completes the request, otherwise
     it is discarded. -/
  | replyArrive (from_ : Option Nat) (f : Frame)
  /-- REQUEST_TIMEOUT, R382: A request timer expires at an event tick; the tag enters RETIRE and the request completes
     with TIMEOUT. -/
  | requestTimeout (tag : Nat)
  /-- RETIRE_EXPIRY, R383: T after entering RETIRE, a tag returns to FREE. -/
  | retireExpiry (tag : Nat)
  /-- DRAIN, R376: A ROUTE_CTL DRAIN command stops injection of new requests and starts draining. -/
  | drain (nets : Nat)
  /-- SWAP, R376: A ROUTE_CTL SWAP command exchanges active and shadow route banks and recomputes ROUTE_SHADOW. -/
  | swap (nets : Nat)
  /-- RESUME, R376: A ROUTE_CTL RESUME command injects held requests in order and returns the network to ACTIVE. -/
  | resume (nets : Nat)
  /-- CHANGE, R376: A ROUTE_CTL CHANGE command drains, swaps on reaching DRAINED, and resumes. -/
  | change (nets : Nat)
  /-- DRAINED, R376: A draining network reaches the first ns with no tag OUT and enters DRAINED. -/
  | drained (net : Nat)
  /-- BARRIER, R391: A ROUTE_GOPCMD BARRIER write enters the part into barrier BID. -/
  | barrier (q : Nat)
  /-- BCAST, R392: A ROUTE_GOPCMD BCAST write sends bytes as BCAST flits down the job's tree. -/
  | bcast (q : Nat)
  /-- SNAP, R394: A ROUTE_GOPCMD SNAP write announces a consistent snapshot at beat B, or is refused. -/
  | snap (q : Nat)
  /-- RESET, R393: A ROUTE_GOPCMD RESET write sends a RESET flit down the tree and resets the origin's partition. -/
  | reset (q : Nat)
  /-- ARRIVE, R391: An ARRIVE flit reaches a part and counts toward its barrier gather. -/
  | arrive (n : Nat) (f : CtrlFlit)
  /-- RELEASE, R391: A RELEASE flit reaches a part, is forwarded, and completes its barrier with the release's status.
     -/
  | release (n : Nat) (f : CtrlFlit)
  /-- BARRIER_ROOT_TIMEOUT, R391: TMO passes at the root without a completed gather and the root originates RELEASE
     with TIMEOUT. -/
  | barrierRootTimeout (q : Nat)
  /-- BARRIER_TIMEOUT, R391: A non-root part without RELEASE 2 × TMO after entering completes the barrier with
     TIMEOUT. -/
  | barrierTimeout (q : Nat)
  /-- BCAST_RECEIVE, R392: A BCAST flit is forwarded and its data written at DST under the target rules. -/
  | bcastReceive (n : Nat) (f : CtrlFlit)
  /-- SNAP_RECEIVE, R394: A SNAP flit is forwarded and held as the pending snapshot, or faults the job with LATE. -/
  | snapReceive (n : Nat) (f : CtrlFlit)
  /-- RESET_RECEIVE, R393: A RESET flit is forwarded and then makes a PART reset of the job's partition. -/
  | resetReceive (n : Nat) (f : CtrlFlit)
  /-- ADMIT_RECEIVE, R406: An ADMIT flit is checked against its origin and kept in the ADMIT store until its beat. -/
  | admitReceive (n : Nat) (f : CtrlFlit)
  /-- STEP_RECEIVE, R477: A STEP flit is checked for the part's partition and makes a step change pending, or faults
     the job. -/
  | stepReceive (n : Nat) (f : CtrlFlit)
  /-- WAKE_RECEIVE, R488: A WAKE flit on a wake port wakes the part, or is discarded in RUN. -/
  | wakeReceive (n : Nat) (f : CtrlFlit)
  /-- BEACON_SEND, R466: The time master originates a BEACON at every GTC multiple of 100,000 ns on every UP torus or
     express port. -/
  | beaconSend
  /-- BEACON_RECEIVE, R467: A BEACON is accepted, chooses master and parent, gives a correction, and is forwarded. -/
  | beaconReceive (n : Nat) (f : CtrlFlit)
  /-- BEACON_TIMEOUT, R468: No beacon from the parent for 1,000,000 ns clears SYNC and lets another master be taken.
     -/
  | beaconTimeout
  /-- SLEW_STEP, R464: While a slew remains, every 1,000,000 / MAXPPM ns GTC gains or withholds 1 ns. -/
  | slewStep
  /-- EVENT_TICK, R495: At each GTC multiple of 64 the EVC applies writes, applies occurrences, filters wire inputs
     and delivers eligible sources. -/
  | eventTick (wires : Nat)
  /-- WIRE_PULSE_LATCH, R498: With a bypassed filter, a wire assertion of at least 5 ns between ticks is latched for
     the next tick. -/
  | wirePulseLatch (j : Nat)
  /-- REFCLK_LOSS, R462: The reference clock is absent for more than 1 µs; GTC counts from the internal oscillator and
     REFLOSS is set. -/
  | refclkLoss
  /-- REFCLK_RETURN, R462: Counting returns to the reference at its first edge after it comes back. -/
  | refclkReturn
  /-- TIME_BASE_FAILOVER, R459: The primary time base fails and every die switches to RT1's within 1 µs. -/
  | timeBaseFailover
  /-- PPS_IN_EDGE, R469: A rising 1PPS edge gives the master a correction under SRC 1. -/
  | ppsInEdge
  /-- PPS_OUT_EDGE, R472: 1PPS output goes high at each GTC multiple of 10^9 and low 100,000,000 ns later. -/
  | ppsOutEdge
  /-- PTP_SYNC, R470: An IEEE 1588 Sync exchange on the management port gives the master a correction. -/
  | ptpSync (t : Int)
  /-- PTM_REQUEST, R469: Every 10 ms under SRC 3 the part issues a PTM request; its answer gives a correction. -/
  | ptmRequest
  /-- HOLDOVER, R469: The master's source goes silent past its limit; it counts from its reference alone and flags
     holdover. -/
  | holdover
  /-- TIME_SET_WRITE, R471: A write of TIME_SET on a free-running master is a correction to the written value. -/
  | timeSetWrite (by_ : Requester) (value : Nat)
  /-- TIME_ALARM_FIRE, R489: GTC reaches TIME_ALARM, raising source 36 and waking the part when selected. -/
  | timeAlarmFire
  /-- PLL_LOCK_LOSS, R475: A region PLL loses lock for more than 100 ns and every job holding a cluster of the region
     faults. -/
  | pllLockLoss (region : Nat)
  /-- PWR_STEPCMD, R476: A write of PWR_STEPCMD requests a frequency-step change for a partition at beat n, or is
     refused. -/
  | pwrStepcmd (by_ : Requester) (q : Nat) (value : Nat)
  /-- PWR_CAP_WRITE, R481: A write of PWR_CAP changes the power cap unless it would put the budget above the cap. -/
  | pwrCapWrite (by_ : Requester) (value : Nat)
  /-- PWR_PDECL_WRITE, R481: A write of PWR_PDECL changes a partition's declared power unless the budget would exceed
     the cap. -/
  | pwrPdeclWrite (by_ : Requester) (q : Nat) (value : Nat)
  /-- POWER_MEASURE, R482: Every 100 µs package power is measured; a 1 ms average above the cap trips the power guard.
     -/
  | powerMeasure (watts : Nat)
  /-- STATECMD_RUN, R484: A write of RUN to PWR_STATECMD wakes the part. -/
  | statecmdRun (by_ : Requester)
  /-- STATECMD_REST, R484: A request for REST is checked and the part enters REST within 20 µs. -/
  | statecmdRest (by_ : Requester)
  /-- STATECMD_DEEP, R484: A request for DEEP is checked and the part enters DEEP within 1 ms. -/
  | statecmdDeep (by_ : Requester)
  /-- STATECMD_DORMANT, R484: A request for DORMANT is checked and the part enters DORMANT within 100 ms. -/
  | statecmdDormant (by_ : Requester)
  /-- POWER_STATE_ENTERED, R484: A transition to a power state completes and source 352 is raised. -/
  | powerStateEntered
  /-- WAKE_PIN, R487: WAKE# low for 3 consecutive ticks wakes the part. -/
  | wakePin
  /-- WAKE_FRAME, R487: A management-port wake frame carrying the part's serial wakes the part. -/
  | wakeFrame (serial : Nat)
  /-- WAKE_COMPLETE, R487: A wake reaches RUN after its sweep or reset, raising source 352. -/
  | wakeComplete
  /-- THERMAL_ALERT, R487: The highest die temperature reaches PWR_THERM.ALERT, raising source 355 and ALERT#. -/
  | thermalAlert (temp : Int)
  /-- THERMAL_TRIP, R567: A junction reaches the trip point; THERMTRIP# asserts, every job faults and compute clocks
     are gated. -/
  | thermalTrip (temp : Int)
  /-- COLD_RESET, R555: The assertion of PG_L12 with every power-good asserted makes a COLD reset and a start attempt.
     -/
  | coldReset (straps : List (Option Nat))
  /-- POWER_LOSS, R599: A power-good deassertion of 1 µs or more puts the part in reset and ends its jobs. `veg33`: the evergreen rail is
     lost with it. -/
  | powerLoss (veg33 : Bool)
  /-- PERST_ASSERT, R510: PERST# asserted after stage 0 of an attempt causes a WARM reset. -/
  | perstAssert
  /-- ROOT_RESET_WARM, R556: A management core writes ROOT_RESET.KIND 1 to make a WARM reset. -/
  | rootResetWarm (by_ : Requester)
  /-- ROOT_RESET_MGMT, R558: A management core writes ROOT_RESET.KIND 2 to restart both management cores and reset
     class M registers. -/
  | rootResetMgmt (by_ : Requester)
  /-- PCIE_LINK_DOWN, R429: The PCI Express link goes down without PERST#; DMA in progress completes FAULTED and PCIe
     rings stop. -/
  | pcieLinkDown
  /-- BAR2_READ, R430: A BAR2 read reaches a device address, or is refused and returns zero. -/
  | bar2Read (off len : Nat)
  /-- BAR2_WRITE, R430: A BAR2 write reaches a device address, or is refused and discarded. -/
  | bar2Write (off : Nat) (data : List Byte)
  /-- REGISTER_WRITE, R17: A BAR0 write to a register without its own row sets its fields per their access codes, or
     is handled as an access error. -/
  | registerWrite (by_ : Requester) (off size value : Nat)
  /-- LOW_HALF_READ, R21: A 4-byte read of the low half of a 64-bit register latches its high half for that requester;
     reads of any other place and size are handled by R20. -/
  | lowHalfRead (by_ : Requester) (a : RegRead)
  /-- HQ_RHPOS_WRITE, R434: A host write of a ring's host position advances HPOS, or flags an overrun or underrun. -/
  | hqRhposWrite (by_ : Requester) (ring value : Nat) (slots : List (List Byte))
  /-- H2D, R438: A DMA descriptor moves bytes from host memory to device memory. -/
  | h2d (ch : Nat) (data : List Byte) (err : Bool)
  /-- D2H, R438: A DMA descriptor moves bytes from device memory to host memory. -/
  | d2h (ch : Nat) (err : Bool)
  /-- H2L, R439: A DMA descriptor appends host bytes to a core's landing channel. -/
  | h2l (ch : Nat) (data : List Byte) (err : Bool)
  /-- DMA_COMPLETE, R437: A DMA descriptor finishes and its completion is written to the completion ring. -/
  | dmaComplete (ch : Nat)
  /-- DIGEST_SLICE, R441: Each 64 ns slice the SHA-256 engine hashes 16 blocks for the next channel with unhashed
     bytes. -/
  | digestSlice
  /-- SUBMIT, R444: A SUBMIT slot arrives at the ingress part and its input bytes are staged. -/
  | submit (ring : Nat) (input : List Byte)
  /-- STAGING_COMPLETE, R402: A submission's staging completes, it is checked and joins the arrival queue or is
     refused. -/
  | stagingComplete
  /-- SERVE_ABORT_WRITE, R426: A write of SERVE_ABORT.REQID on the ingress part removes a waiting submission or takes
     an ABORT decision. -/
  | serveAbortWrite (by_ : Requester) (q : Nat) (reqid : Nat)
  /-- ETH_SLOT, R452: An Ethernet SLOT message is accepted in sequence and advances its ring's position. -/
  | ethSlot (port : Nat) (raw : List Byte)
  /-- ETH_ACK, R451: An Ethernet ACK message acknowledges sent messages of its stream. -/
  | ethAck (port : Nat) (raw : List Byte)
  /-- ETH_RESEND, R451: RTO after sending, unacknowledged messages are resent; after 8 resends the stream goes down.
     -/
  | ethResend (stream : Nat)
  /-- PARKD, R453: A PARKD message returns page data asked for by PARKR during a move in. -/
  | parkd (port : Nat) (raw : List Byte)
  /-- TELEM, R454: Every TELEMMS ms the part sends a TELEM message to the telemetry endpoint. -/
  | telem
  /-- BYPASS, R457: The boundary-scan BYPASS instruction selects the bypass register. -/
  | bypass
  /-- IDCODE, R457: The boundary-scan IDCODE instruction selects the identification register. -/
  | idcode
  /-- SAMPLE_PRELOAD, R457: The boundary-scan SAMPLE/PRELOAD instruction samples and preloads the boundary register.
     -/
  | samplePreload
  /-- EXTEST, R457: The boundary-scan EXTEST instruction drives lands from the boundary register while PERST# is
     asserted. -/
  | extest
  /-- CLAMP, R457: The boundary-scan CLAMP instruction holds outputs while PERST# is asserted. -/
  | clamp
  /-- HIGHZ, R457: The boundary-scan HIGHZ instruction floats outputs while PERST# is asserted. -/
  | highz
  /-- START_ATTEMPT, R511: A start attempt begins, counts itself in the boot record and runs its stages. -/
  | startAttempt (cause : Nat)
  /-- STAGE_OVERRUN, R509: A start-attempt stage passes its limit and the attempt fails with the stage's reason. -/
  | stageOverrun
  /-- SOLICIT, R520: Every 1 s until an OFFER is accepted, the part sends a fetch SOLICIT. -/
  | solicit
  /-- OFFER, R520: A fetch OFFER with an allowed image size is accepted and reading begins. -/
  | offer (server : Nat) (xid size : Nat)
  /-- DATA, R520: A fetch DATA block arrives; after the last block the image is verified and DONE sent. -/
  | data (xid off : Nat) (data : List Byte)
  /-- READ_RESEND, R520: A fetch READ unanswered for 100 ms is sent again. -/
  | readResend
  /-- SERVER_LOST, R520: No DATA for 5 s returns the fetch to SOLICIT with a new XID. -/
  | serverLost
  /-- BOOT_OK, R512: The primary core sets BOOT_OK; FAILCNT clears, READY asserts and source 5 is raised. -/
  | bootOk
  /-- WATCHDOG_EXPIRE, R523: A management core's watchdog expires; the core restarts and the primary role may pass to
     the other core. -/
  | watchdogExpire (m : Nat)
  /-- WATCHDOG_KICK, R522: A kick by its own core restarts a watchdog's count. -/
  | watchdogKick (m period : Nat)
  /-- MC_RUNNING, R521: A management core's firmware reports itself running and the core enters RUNNING. -/
  | mcRunning (m : Nat)
  /-- PS_DATA_WRITE, R531: A write of PS_DATA makes a persistent write of the selected Host word, or is refused. -/
  | psDataWrite (by_ : Requester) (value : Nat)
  /-- PS_WRITE_COMPLETE, R528: A persistent write completes on both root-die copies within 2 µs and its counter
     advances. -/
  | psWriteComplete
  /-- MBOX_POST, R536: A write of MBOX_POST.GO posts the request in MBOX_REQ to the primary core. -/
  | mboxPost (by_ : Requester)
  /-- MGMT_MESSAGE, R534: A management datagram to UDP port 19,262 is taken as a mailbox request on channel 1. -/
  | mgmtMessage (from_ : Nat) (bytes : List Byte)
  /-- GET_VERSION, R544: Mailbox command 0x0100 returns firmware and interface versions. -/
  | getVersion (ph : Phase)
  /-- NEGOTIATE, R540: Mailbox command 0x0101 sets the channel's interface version. -/
  | negotiate (ph : Phase)
  /-- GET_IDENTITY, R544: Mailbox command 0x0102 returns the part's identity. -/
  | getIdentity (ph : Phase)
  /-- GET_STATUS, R544: Mailbox command 0x0103 returns boot, management, power and thermal status. -/
  | getStatus (ph : Phase)
  /-- GET_BOOTREC, R544: Mailbox command 0x0104 returns the boot record, image slots and fuses. -/
  | getBootrec (ph : Phase)
  /-- PART_SET, R545: Mailbox command 0x0200 makes or changes a partition's cluster mask. -/
  | partSet (ph : Phase)
  /-- PART_QUERY, R545: Mailbox command 0x0201 returns a partition's mask and job state. -/
  | partQuery (ph : Phase)
  /-- PART_RESET, R559: Mailbox command 0x0202 makes a PART reset of a partition. -/
  | partReset (ph : Phase)
  /-- PART_LEDGER, R545: Mailbox command 0x0203 returns a partition's last committed beat and ledger address. -/
  | partLedger (ph : Phase)
  /-- SET_STATE, R546: Mailbox command 0x0300 requests a power state as PWR_STATECMD. -/
  | setState (ph : Phase)
  /-- SET_CAP, R546: Mailbox command 0x0301 sets the power cap as PWR_CAP. -/
  | setCap (ph : Phase)
  /-- SET_STEP, R546: Mailbox command 0x0302 requests a step change as PWR_STEPCMD. -/
  | setStep (ph : Phase)
  /-- SET_WAKESEL, R546: Mailbox command 0x0303 writes PWR_WAKESEL. -/
  | setWakesel (ph : Phase)
  /-- SET_PDECL, R546: Mailbox command 0x0304 writes a partition's declared power. -/
  | setPdecl (ph : Phase)
  /-- PORT_INFO, R547: Mailbox command 0x0400 returns a port's status and neighbour record. -/
  | portInfo (ph : Phase)
  /-- NBR_MAP, R547: Mailbox command 0x0401 returns the observed neighbour of every port. -/
  | nbrMap (ph : Phase)
  /-- PORT_ENABLE, R547: Mailbox command 0x0402 writes PORT_CTL.ENABLE and optionally the persistent enable mask. -/
  | portEnable (ph : Phase)
  /-- PORT_RESET, R547: Mailbox command 0x0403 makes a PORT reset as PORT_CTL.RESET. -/
  | portReset (ph : Phase)
  /-- SET_ROLE, R547: Mailbox command 0x0404 writes a port's role byte. -/
  | setRole (ph : Phase)
  /-- SET_DIMS, R547: Mailbox command 0x0405 writes ROUTE_DIMS. -/
  | setDims (ph : Phase)
  /-- ETH_ADDR, R547: Mailbox command 0x0406 sets an Ethernet port's address. -/
  | ethAddr (ph : Phase)
  /-- ETH_ENDPOINT, R547: Mailbox command 0x0407 sets a ring, park or telemetry endpoint. -/
  | ethEndpoint (ph : Phase)
  /-- MAINT_STATUS, R548: Mailbox command 0x0500 returns the activity and status of each maintenance token. -/
  | maintStatus (ph : Phase)
  /-- CORE_TEST, R577: Mailbox command 0x0501 runs the built-in test of a physical core slot. -/
  | coreTest (ph : Phase)
  /-- CORE_FENCE, R575: Mailbox command 0x0502 fences a physical slot and remaps its logical slot. -/
  | coreFence (ph : Phase)
  /-- TOPIARY_REMAP, R576: Mailbox command 0x0503 writes all eight topiary words of a die. -/
  | topiaryRemap (ph : Phase)
  /-- BANK_FAIL, R578: Mailbox command 0x0504 marks a bank of a tier-column failed. -/
  | bankFail (ph : Phase)
  /-- PORT_TEST, R579: Mailbox command 0x0505 runs a loopback or PRBS31 test on a port. -/
  | portTest (ph : Phase)
  /-- SWEEP, R548: Mailbox command 0x0506 starts a sweep as ROOT_SWEEPCTL. -/
  | sweep (ph : Phase)
  /-- MAINT_ACTIVITY_END, R582: A maintenance activity ends, releases its tokens, records its status and raises source
     13. -/
  | maintActivityEnd (id : Nat) (ok : Bool)
  /-- IMG_STATUS, R549: Mailbox command 0x0600 returns image slot and management-core states. -/
  | imgStatus (ph : Phase)
  /-- FETCH_RETRY, R514: Mailbox command 0x0601 starts a fetch-retry attempt into a named slot in minimal mode. -/
  | fetchRetry (ph : Phase)
  /-- STANDBY_FETCH, R526: Mailbox command 0x0602 fetches an image into the standby slot and verifies it. -/
  | standbyFetch (ph : Phase)
  /-- STANDBY_BEGIN, R549: Mailbox command 0x0603 opens a transfer of an image into the standby slot. -/
  | standbyBegin (ph : Phase)
  /-- STANDBY_DATA, R549: Mailbox command 0x0604 writes bytes of the standby image. -/
  | standbyData (ph : Phase)
  /-- STANDBY_END, R549: Mailbox command 0x0605 closes the transfer and verifies the standby image. -/
  | standbyEnd (ph : Phase)
  /-- SET_BOOTCFG, R549: Mailbox command 0x0606 writes the boot configuration word. -/
  | setBootcfg (ph : Phase)
  /-- ROLE_SWITCH, R525: Mailbox command 0x0607 restarts the standby core from a slot and passes it the primary role.
     -/
  | roleSwitch (ph : Phase)
  /-- FUSE_KEY, R518: Mailbox command 0x0608 programs a fuse key slot. -/
  | fuseKey (ph : Phase)
  /-- FUSE_REVOKE, R518: Mailbox command 0x0609 revokes a fuse key slot. -/
  | fuseRevoke (ph : Phase)
  /-- FUSE_SVN, R518: Mailbox command 0x060A raises the fused SVN floor. -/
  | fuseSvn (ph : Phase)
  /-- PS_READ, R550: Mailbox command 0x0700 returns persistent words. -/
  | psRead (ph : Phase)
  /-- PS_WRITE, R550: Mailbox command 0x0701 writes persistent words in order until one is refused. -/
  | psWrite (ph : Phase)
  /-- PS_WEAR, R550: Mailbox command 0x0702 returns write counters of persistent words. -/
  | psWear (ph : Phase)
  /-- TIME_STATUS, R551: Mailbox command 0x0800 returns GTC and time-sync status. -/
  | timeStatus (ph : Phase)
  /-- SET_MASTER, R551: Mailbox command 0x0801 writes TIME_MASTER. -/
  | setMaster (ph : Phase)
  /-- TIME_SET, R551: Mailbox command 0x0802 applies a correction as TIME_SET and returns it. -/
  | timeSet (ph : Phase)
  /-- SET_ALARM, R551: Mailbox command 0x0803 writes TIME_ALARM. -/
  | setAlarm (ph : Phase)
  /-- SET_PPS, R551: Mailbox command 0x0804 writes TIME_PPS. -/
  | setPps (ph : Phase)
  /-- SET_SLEW, R551: Mailbox command 0x0805 writes TIME_SLEW.MAXPPM. -/
  | setSlew (ph : Phase)
  /-- SET_DEADLINE, R552: Mailbox command 0x0900 writes a partition's deadline and park settings in one ns. -/
  | setDeadline (ph : Phase)
  /-- SERVE_STATUS, R552: Mailbox command 0x0901 returns a partition's serving status and counters. -/
  | serveStatus (ph : Phase)
  /-- SERVE_ABORT, R552: Mailbox command 0x0902 aborts a request as SERVE_ABORT. -/
  | serveAbort (ph : Phase)
  /-- EVC_CLEAR, R505: Mailbox command 0x0A00 runs one safe clearing pass on an EVC register and lists the sources
     handled. -/
  | evcClear (ph : Phase)
  /-- EVC_SETMASK, R553: Mailbox command 0x0A01 sets the mask that clearing passes restore. -/
  | evcSetmask (ph : Phase)
  /-- REG_READ, R553: Mailbox command 0x0A02 reads a BAR0 register. -/
  | regRead (ph : Phase)
  /-- REG_WRITE, R543: Mailbox command 0x0A03 writes a BAR0 register as the primary core. -/
  | regWrite (ph : Phase)
  /-- ECHO, R553: Mailbox command 0x0A04 returns its argument bytes. -/
  | echo (ph : Phase)
  /-- LANE_LOCK, R349: In training, every lane of a port locks and equalizes and lane order and polarity are found,
     moving training on to alignment. -/
  | laneLock (n : Nat) (lanes : Nat)
  /-- PCIE_LINK_UP, R458: The PCI Express link comes up, rings on the PCI Express medium move slots again and source
     324 is raised. -/
  | pcieLinkUp
  /-- ETH_LINK_UP, R458: An Ethernet port's link comes up after auto-negotiation and training, raising source 325 or
     326. -/
  | ethLinkUp (port : Nat)
  /-- ETH_LINK_DOWN, R458: An Ethernet port's link goes down, raising source 325 or 326. -/
  | ethLinkDown (port : Nat)
  /-- MGMT_LINK_UP, R520: The management port link comes up, letting a fetch send SOLICIT, and source 328 is raised.
     -/
  | mgmtLinkUp
  /-- MGMT_LINK_DOWN, R458: The management port link goes down and source 328 is raised. -/
  | mgmtLinkDown
  /-- PERST_RELEASE, R487: PERST# is released: the PCI Express endpoint leaves reset, boundary-scan EXTEST, CLAMP and
     HIGHZ stop acting, and in DORMANT it is a wake source. -/
  | perstRelease
  /-- PLL_RELOCK, R475: A region PLL that lost lock relocks on its own once the reference is present. -/
  | pllRelock (region : Nat)
  /-- THERMAL_ALERT_CLEAR, R591: The highest die temperature falls below PWR_THERM.ALERT and ALERT# is released unless
     the power guard has tripped. -/
  | thermalAlertClear (temp : Int)
  /-- DENIAN_WAKE_BEACON, R487: In DORMANT, signal on lane 0 of a wake port for 10 µs wakes the part. -/
  | denianWakeBeacon (n : Nat)
  /-- PTM_RESPONSE, R469: The answer to a PTM request arrives and gives the time master a correction under SRC 3. -/
  | ptmResponse (t : Int)
  /-- EVERGREEN_POWER_ON, R598: VEG33 reaches 3.0 V; the evergreen island starts 1 ms later and SMBus answers 20 ms
     after that. -/
  | evergreenPowerOn
  /-- MC_RESTART_TIMEOUT, R524: A restarted management core that has not reached RUNNING within 120 s counts as
     expired again, and after three such failures is HELD. -/
  | mcRestartTimeout (m : Nat)
  /-- IMAGE_VERIFIED, R517: Verification of a firmware slot ends, setting it VALID or INVALID and letting the attempt
     start firmware or fetch. -/
  | imageVerified (slot : Nat)
  deriving DecidableEq, Repr

end Sys2Proof
end

