-- ==== Sys2Proof/Decode.lean ====
section
/-! DEFINITION. The commands that words spell by the opcode table's bits: no row of spec/opcode_table.json gives bits. -/

namespace Sys2Proof

/-- The command that a word of `nbits` bits spells: none, since every row's word list is empty. -/
def decodeTableWord (nbits w : Nat) : Option Instr :=
  let _ := (nbits, w)
  none

end Sys2Proof
end

