-- ==== Sys2Proof/Config.lean ====
section
/-! DEFINITION. The values the spec leaves open, each a constant with no body: nothing can be proved of what it is. A field of
the state (`free`) or the operands it depends on are its arguments. -/

namespace Sys2Proof.Machine

/-- Table 4.6 (R130): the part's candidate for function `f` at FP32 input `x`; the model takes it where it lies within the
bound of the table. -/
opaque Config.chainFn : Nat → Nat → Nat

/-- R91: what a tile filled in one format reads as when an MMUL names a format of another width or part layout:
(LOADW format, MMUL format, part, element bits). -/
opaque Config.tileBits : Nat → Nat → Nat → Nat → Nat

/-- R203: the calendar page that a program image (by its digest) names for a beat variant and a compute die. -/
opaque Config.imagePage : Nat → Nat → Nat → Nat

/-- R518, ROOT_FUSE.KEYS "per part": the key hash that key slot 0 holds at shipment (48 bytes). -/
opaque Config.shipKey : List Byte

/-- R544: the ROM version that GET_VERSION returns. -/
opaque Config.romVersion : Nat

/-- R457: the JEDEC manufacturer identity of Lemhavos. -/
opaque Config.jedecId : Nat

/-- Any other value the spec does not state, by the count of free values taken. -/
opaque Config.freeValue : Nat → Nat

end Sys2Proof.Machine
end

