-- ==== Sys2Proof/Machine/Num.lean ====
section
/-! DEFINITION. Number formats and exact arithmetic (02_numerics.md): element formats (R41 to R45), rounding and
conversion (R74 to R78), the exact-mode values (R64 to R70), IEEE binary32 addition and multiplication (R60, R61).
A value is exact: a sign, a magnitude and a power of two. -/

namespace Sys2Proof.Machine

/-- Table 2.1: the element formats. -/
inductive Fmt where
  | e4m3 | e5m2 | e2m3 | e3m2 | e2m1 | int8 | uint8 | int4 | uint4 | bf16 | fp16 | fp32 | int16 | int32 | e8m0
  deriving DecidableEq, Repr

/-- R41: the format a 4-bit code names; 0xF names none. -/
def Fmt.ofCode : Nat → Option Fmt
  | 0 => some .e4m3 | 1 => some .e5m2 | 2 => some .e2m3 | 3 => some .e3m2 | 4 => some .e2m1
  | 5 => some .int8 | 6 => some .uint8 | 7 => some .int4 | 8 => some .uint4 | 9 => some .bf16
  | 10 => some .fp16 | 11 => some .fp32 | 12 => some .int16 | 13 => some .int32 | 14 => some .e8m0
  | _ => none

/-- Table 2.1, column Bits. -/
def Fmt.bits : Fmt → Nat
  | .e4m3 | .e5m2 | .int8 | .uint8 | .e8m0 => 8
  | .e2m3 | .e3m2 => 6
  | .e2m1 | .int4 | .uint4 => 4
  | .bf16 | .fp16 | .int16 => 16
  | .fp32 | .int32 => 32

/-- The integer formats of R45. -/
def Fmt.isInt : Fmt → Bool
  | .int8 | .uint8 | .int4 | .uint4 | .int16 | .int32 => true
  | _ => false

/-- The floating-point formats of Table 2.2. -/
def Fmt.isFp : Fmt → Bool
  | .e4m3 | .e5m2 | .e2m3 | .e3m2 | .e2m1 | .bf16 | .fp16 | .fp32 => true
  | _ => false

/-- Array operands of Table 2.1: all but INT32 and E8M0 (R58). -/
def Fmt.isOperand (f : Fmt) : Bool := f != .int32 && f != .e8m0

/-- The FP8 formats of R56. -/
def Fmt.isFp8 (f : Fmt) : Bool := f == .e4m3 || f == .e5m2

/-- The 4-bit formats of R59. -/
def Fmt.is4 (f : Fmt) : Bool := f.bits == 4

/-- Formats that take block scales: FP8, FP6, FP4 and the 8-bit and 4-bit integers (R47, R49). -/
def Fmt.scalable (f : Fmt) : Bool := decide (f.bits ≤ 8) && f != .e8m0

/-- R45: least and greatest value of an integer format. -/
def Fmt.intRange : Fmt → Int × Int
  | .int8 => (-128, 127) | .uint8 => (0, 255) | .int4 => (-8, 7) | .uint4 => (0, 15)
  | .int16 => (-32768, 32767) | .int32 => (-2147483648, 2147483647) | _ => (0, 0)

/-- An exact value: NaN, an infinity with its sign, or (-1)^neg * m * 2^e (a zero keeps its sign, R43). -/
inductive Num where
  | nan
  | inf (neg : Bool)
  | fin (neg : Bool) (m : Nat) (e : Int)
  deriving DecidableEq, Repr

namespace Num
/-- +0. -/
def zero : Num := .fin false 0 0
/-- 1. -/
def one : Num := .fin false 1 0
/-- The integer as an exact value; 0 is +0. -/
def ofInt (i : Int) : Num := .fin (decide (i < 0)) i.natAbs 0
/-- A zero of either sign. -/
def isZero : Num → Bool | .fin _ 0 _ => true | _ => false
/-- NaN. -/
def isNan : Num → Bool | .nan => true | _ => false
/-- An infinity. -/
def isInf : Num → Bool | .inf _ => true | _ => false
/-- A finite value. -/
def isFin : Num → Bool | .fin _ _ _ => true | _ => false
/-- The sign of a value; NaN has none. -/
def sign : Num → Bool | .nan => false | .inf s => s | .fin s _ _ => s
/-- The value with its sign turned. -/
def neg : Num → Num | .nan => .nan | .inf s => .inf (!s) | .fin s m e => .fin (!s) m e
/-- The value without its sign. -/
def abs : Num → Num | .nan => .nan | .inf _ => .inf false | .fin _ m e => .fin false m e
/-- The value times a power of two. -/
def scale2 : Num → Int → Num | .fin s m e, k => .fin s m (e + k) | x, _ => x
/-- Signed mantissa at exponent `q`, for `q` no more than the value's exponent. -/
def mantAt (s : Bool) (m : Nat) (e q : Int) : Int :=
  let v : Int := m * 2 ^ (e - q).toNat
  if s then -v else v
/-- The exact product (Table 2.7): NaN for an infinity times a zero. -/
def mul : Num → Num → Num
  | .nan, _ | _, .nan => .nan
  | .inf s, .inf t => .inf (s != t)
  | .inf s, .fin t m _ => if m = 0 then .nan else .inf (s != t)
  | .fin s m _, .inf t => if m = 0 then .nan else .inf (s != t)
  | .fin s m e, .fin t n f => .fin (s != t) (m * n) (e + f)
/-- The exact sum: x plus -x is +0, -0 plus -0 is -0, +infinity plus -infinity is NaN. -/
def add : Num → Num → Num
  | .nan, _ | _, .nan => .nan
  | .inf s, .inf t => if s = t then .inf s else .nan
  | .inf s, .fin _ _ _ => .inf s
  | .fin _ _ _, .inf t => .inf t
  | .fin s m e, .fin t n f =>
    if m = 0 ∧ n = 0 then .fin (s && t) 0 0
    else if m = 0 then .fin t n f
    else if n = 0 then .fin s m e
    else
      let q := min e f
      let v := mantAt s m e q + mantAt t n f q
      if v = 0 then .fin false 0 0 else .fin (decide (v < 0)) v.natAbs q
/-- The exact difference. -/
def sub (x y : Num) : Num := x.add y.neg
/-- The order of two values that are not NaN; -0 equals +0. -/
def lt : Num → Num → Bool
  | .nan, _ | _, .nan => false
  | .inf s, .inf t => s && !t
  | .inf s, .fin _ _ _ => s
  | .fin _ _ _, .inf t => !t
  | .fin s m e, .fin t n f =>
    let q := min e f
    decide (mantAt s m e q < mantAt t n f q)
/-- Equal values, neither NaN. -/
def eqv (x y : Num) : Bool := !x.isNan && !y.isNan && !lt x y && !lt y x
/-- Less or equal, neither NaN. -/
def le (x y : Num) : Bool := !x.isNan && !y.isNan && !lt y x
/-- The number of bits of a magnitude. -/
def bitLen (m : Nat) : Nat := if m = 0 then 0 else m.log2 + 1
end Num

/-- Table 2.2: significand bits with the hidden bit, exponent bits, exponent of the least subnormal, the largest finite
value (magnitude and exponent), whether the format has infinities and NaN, and its canonical NaN (R44). -/
structure FpPar where
  p : Nat
  ebits : Nat
  lsb : Int
  maxM : Nat
  maxE : Int
  hasInf : Bool
  hasNan : Bool
  nanBits : Nat
  deriving DecidableEq, Repr

/-- The parameters of a floating-point format (those of FP32 for a format that is none). -/
def Fmt.par : Fmt → FpPar
  | .e4m3 => ⟨4, 4, -9, 14, 5, false, true, 0x7F⟩
  | .e5m2 => ⟨3, 5, -16, 7, 13, true, true, 0x7E⟩
  | .e2m3 => ⟨4, 2, -3, 15, -1, false, false, 0⟩
  | .e3m2 => ⟨3, 3, -4, 7, 2, false, false, 0⟩
  | .e2m1 => ⟨2, 2, -1, 3, 1, false, false, 0⟩
  | .bf16 => ⟨8, 8, -133, 255, 120, true, true, 0x7FC0⟩
  | .fp16 => ⟨11, 5, -24, 2047, 5, true, true, 0x7E00⟩
  | _ => ⟨24, 8, -149, 16777215, 104, true, true, 0x7FC00000⟩

/-- The value of a floating-point encoding (R42, R43): subnormals at their value, every NaN quiet (R44). -/
def decodeFp (f : Fmt) (w : Nat) : Num :=
  let c := f.par
  let frac := w % 2 ^ (c.p - 1)
  let ex := w / 2 ^ (c.p - 1) % 2 ^ c.ebits
  let s := decide (w / 2 ^ (c.p - 1 + c.ebits) % 2 = 1)
  if c.hasInf && ex == 2 ^ c.ebits - 1 then (if frac = 0 then .inf s else .nan)
  else if f == .e4m3 && ex == 15 && frac == 7 then .nan
  else if ex = 0 then .fin s frac c.lsb
  else .fin s (frac + 2 ^ (c.p - 1)) (c.lsb + ex - 1)

/-- The stored integer of an integer encoding, two's complement for the signed formats (R45). -/
def decodeInt (f : Fmt) (w : Nat) : Int :=
  let b := f.bits
  let v := w % 2 ^ b
  if f.intRange.1 < 0 ∧ v ≥ 2 ^ (b - 1) then (v : Int) - 2 ^ b else v

/-- The two's-complement encoding of an integer in `b` bits. -/
def encodeInt (b : Nat) (i : Int) : Nat := (i % 2 ^ b).toNat

/-- R47: the scale a scale byte gives; 0xFF is NaN. -/
def scaleOf (x : Nat) : Num := if x = 255 then .nan else .fin false 1 ((x : Int) - 127)

/-- Round a magnitude `m * 2^e` to `p` bits, no bit below `lsb`: to nearest even, or toward zero. -/
def roundMag (rtz : Bool) (p : Nat) (lsb : Int) (m : Nat) (e : Int) : Nat × Int :=
  let q := max lsb (e + Num.bitLen m - p)
  if q ≤ e then (m * 2 ^ (e - q).toNat, q)
  else
    let sh := (q - e).toNat
    let d := m / 2 ^ sh
    let r := m % 2 ^ sh
    if rtz then (d, q)
    else if 2 * r > 2 ^ sh ∨ (2 * r = 2 ^ sh ∧ d % 2 = 1) then (d + 1, q) else (d, q)

/-- The five compatibility flags of Table 2.10. -/
structure CvFlags where
  inv : Bool := false
  dz : Bool := false
  ofl : Bool := false
  ufl : Bool := false
  inx : Bool := false
  deriving DecidableEq, Repr

/-- The OR of two sets of flags. -/
def CvFlags.or (a b : CvFlags) : CvFlags :=
  ⟨a.inv || b.inv, a.dz || b.dz, a.ofl || b.ofl, a.ufl || b.ufl, a.inx || b.inx⟩

/-- Encode a magnitude already rounded to the format (`m < 2^p` or the carry `2^p`). -/
def encodeMag (f : Fmt) (neg : Bool) (m : Nat) (q : Int) : Nat :=
  let c := f.par
  let (m, q) := if m = 2 ^ c.p then (2 ^ (c.p - 1), q + 1) else (m, q)
  let sg := if neg then 2 ^ (c.p - 1 + c.ebits) else 0
  if m < 2 ^ (c.p - 1) then sg + m
  else sg + ((q - c.lsb).toNat + 1) * 2 ^ (c.p - 1) + (m - 2 ^ (c.p - 1))

/-- The largest finite value of a format, encoded. -/
def maxBits (f : Fmt) (neg : Bool) : Nat := encodeMag f neg f.par.maxM f.par.maxE

/-- R75 and Table 2.8: conversion of an exact value to a floating-point format. `rtz`: round toward zero;
`ieee`: the saturation field holds IEEE. Answers the encoding and the flags of Table 2.10. DESIGN CHOICE (log 71): a nonzero exact result
that rounds to zero sets UFL. -/
def toFp (f : Fmt) (rtz ieee : Bool) (x : Num) : Nat × CvFlags :=
  let c := f.par
  match x with
  | .nan => if c.hasNan then (c.nanBits, {}) else (0, { inv := true })
  | .inf s =>
    if c.hasInf && ieee then
      (if s then 2 ^ (c.p - 1 + c.ebits) else 0) + (2 ^ c.ebits - 1) * 2 ^ (c.p - 1) |> fun b => (b, {})
    else (maxBits f s, { inx := true })
  | .fin s m e =>
    if m = 0 then (encodeMag f s 0 c.lsb, {})
    else
      let r := roundMag rtz c.p c.lsb m e
      let big := Num.lt (.fin false c.maxM c.maxE) (.fin false r.1 r.2)
      if big then
        if c.hasInf && ieee && !rtz then
          ((if s then 2 ^ (c.p - 1 + c.ebits) else 0) + (2 ^ c.ebits - 1) * 2 ^ (c.p - 1),
            { ofl := true, inx := true })
        else (maxBits f s, { ofl := true, inx := true })
      else
        let inx := !Num.eqv (.fin false m e) (.fin false r.1 r.2)
        let tiny := decide (r.1 < 2 ^ (c.p - 1))
        (encodeMag f s r.1 r.2, { ufl := tiny && inx, inx := inx })

/-- Rounding of an exact result to FP32, to nearest even, an overflow to infinity (R60, R61). -/
def toFp32 (x : Num) : Nat := (toFp .fp32 false true x).1

/-- The value of an FP32 word. -/
def fp32 (w : Nat) : Num := decodeFp .fp32 w

/-- R61: an IEEE binary32 addition, round to nearest even. -/
def addFp32 (a b : Nat) : Nat := toFp32 ((fp32 a).add (fp32 b))

/-- An IEEE binary32 multiplication, round to nearest even. -/
def mulFp32 (a b : Nat) : Nat := toFp32 ((fp32 a).mul (fp32 b))

/-- Round a value to an integer: nearest even, or toward zero. -/
def roundInt (rtz : Bool) : Num → Int
  | .fin s m e =>
    if e ≥ 0 then (if s then -((m : Int) * 2 ^ e.toNat) else (m : Int) * 2 ^ e.toNat)
    else
      let sh := (-e).toNat
      let d := m / 2 ^ sh
      let r := m % 2 ^ sh
      let n := if rtz then d else if 2 * r > 2 ^ sh ∨ (2 * r = 2 ^ sh ∧ d % 2 = 1) then d + 1 else d
      if s then -(n : Int) else n
  | _ => 0

/-- R77: conversion of `x / s` to an integer format with zero point `z`; `x` is already divided by the scale. -/
def toInt (f : Fmt) (rtz : Bool) (z : Int) (x : Num) : Nat × CvFlags :=
  let (lo, hi) := f.intRange
  match x with
  | .nan => (encodeInt f.bits z, { inv := true })
  | .inf s => (encodeInt f.bits (if s then lo else hi), { inv := true, inx := true })
  | .fin _ _ _ =>
    let n := roundInt rtz x
    let q := max lo (min hi (n + z))
    let out := decide (q ≠ n + z)
    (encodeInt f.bits q, { inv := out, inx := out || !Num.eqv x (.ofInt n) })

/-- The value of an element of a format, with zero point `z` for an integer format (R49, R51). -/
def elemVal (f : Fmt) (z : Int) (w : Nat) : Num :=
  if f.isInt then .ofInt (decodeInt f w - z)
  else if f == .e8m0 then scaleOf w
  else decodeFp f w

/-- Conversion of a value to any target format but E8M0 (R75, R77). -/
def toFmt (f : Fmt) (rtz ieee : Bool) (z : Int) (x : Num) : Nat × CvFlags :=
  if f.isInt then toInt f rtz z x else toFp f rtz ieee x

/-! Exact mode (R64 to R70). -/

/-- An exact-mode value: NaN, an infinity, or a finite integer in units of 2^(A - 96) (Table 2.4). -/
inductive Ex where
  | nan
  | inf (neg : Bool)
  | fin (v : Int)
  deriving DecidableEq, Repr

/-- The largest finite sum, 2^159 - 2^32 (Table 2.4). -/
def exLimit : Int := 2 ^ 159 - 2 ^ 32

/-- Table 2.4: what 160 bits stand for; out-of-range values read as the nearest finite limit. -/
def exOfBits (w : Nat) : Ex :=
  let w : Nat := w % (2 ^ 160 : Nat)
  if w = 2 ^ 159 - 1 then .inf false
  else if w = 2 ^ 159 + 1 then .inf true
  else if w = 2 ^ 159 then .nan
  else
    let v : Int := if w ≥ 2 ^ 159 then Int.ofNat w - 2 ^ 160 else Int.ofNat w
    .fin (max (-exLimit) (min exLimit v))

/-- Table 2.4: the 160 bits of a value. -/
def exToBits : Ex → Nat
  | .nan => 2 ^ 159
  | .inf false => 2 ^ 159 - 1
  | .inf true => 2 ^ 159 + 1
  | .fin v => encodeInt 160 v

/-- Table 2.5: exact-mode addition, and whether it clamped. -/
def exAdd : Ex → Ex → Ex × Bool
  | .nan, _ | _, .nan => (.nan, false)
  | .inf s, .inf t => (if s = t then .inf s else .nan, false)
  | .inf s, .fin _ => (.inf s, false)
  | .fin _, .inf t => (.inf t, false)
  | .fin x, .fin y =>
    let z := x + y
    if z > exLimit then (.fin exLimit, true)
    else if z < -exLimit then (.fin (-exLimit), true)
    else (.fin z, false)

/-- R66, R67: conversion of an exact product to fixed point at anchor `a`, and whether it saturated. -/
def exOfNum (a : Int) : Num → Ex × Bool
  | .nan => (.nan, false)
  | .inf s => (.inf s, false)
  | .fin s m e =>
    let k := e - (a - 96)
    let n : Nat := if k ≥ 0 then m * 2 ^ k.toNat else m / 2 ^ (-k).toNat
    let sat := decide (n > 2 ^ 127 - 1)
    let n := if sat then 2 ^ 127 - 1 else n
    (.fin (if s then -(n : Int) else n), sat)

/-- R70 and Table 2.6: the value an exact-mode value stands for at anchor `a`; zero drains as +0. -/
def exVal (a : Int) : Ex → Num
  | .nan => .nan
  | .inf s => .inf s
  | .fin v => if v = 0 then .zero else .fin (decide (v < 0)) v.natAbs (a - 96)

/-! Elements in memory (R46): element `i` of a format of `b` bits lies at bit `i * b` of the little-endian bit stream. -/

/-- The number in a list of bytes, least significant first. -/
def ofBytes : List Byte → Nat
  | [] => 0
  | b :: r => b.toNat + 256 * ofBytes r

/-- `n` bytes of a number, least significant first. -/
def toBytes : Nat → Nat → List Byte
  | 0, _ => []
  | n + 1, w => BitVec.ofNat 8 w :: toBytes n (w / 256)

/-- Element `i` of `b` bits in a list of bytes; bytes beyond the list read as 0. -/
def elemAt (b : Nat) (bs : List Byte) (i : Nat) : Nat :=
  ofBytes ((bs.drop (i * b / 8)).take ((i * b % 8 + b + 7) / 8)) / 2 ^ (i * b % 8) % 2 ^ b

/-- Elements packed into bytes, R46; a last partial byte is filled with zeros. -/
def packElems (b : Nat) (xs : List Nat) : List Byte :=
  toBytes ((xs.length * b + 7) / 8) (xs.foldr (fun x acc => x % 2 ^ b + 2 ^ b * acc) 0)

end Sys2Proof.Machine
end

