-- ==== Sys2Proof/Machine/Func.lean ====
section
/-! DEFINITION. The functions of stage 4 of the chain engine (04_chain_engine.md R129 to R131, Tables 4.6 and 4.7). A result is
the part's own candidate where that lies within the bound of Table 4.6, and otherwise the exact value rounded to
nearest even. Exact values are computed in fixed point with 320 bits after the point. -/

namespace Sys2Proof.Machine

namespace Fx

/-- One. -/
def one : Int := 2 ^ 320
/-- Product of two fixed-point numbers. -/
def mul (a b : Int) : Int := (a * b).fdiv one
/-- Quotient of two fixed-point numbers. -/
def div (a b : Int) : Int := (a * one).fdiv b

/-- A finite value as a fixed-point number (exact for FP32 values). -/
def ofNum : Num → Int
  | .fin s m e =>
    let v : Int := if e + 320 ≥ 0 then Int.ofNat (m * 2 ^ (e + 320).toNat) else Int.ofNat (m / 2 ^ (-(e + 320)).toNat)
    if s then -v else v
  | _ => 0

/-- The value of a fixed-point number. -/
def toNum (v : Int) : Num := if v = 0 then .zero else .fin (decide (v < 0)) v.natAbs (-320)

/-- The series of the exponential, from term `k` on, `n` terms. -/
def expSeries (x : Int) : Nat → Int → Nat → Int
  | 0, _, _ => 0
  | n + 1, t, k => t + expSeries x n ((mul t x).fdiv (Int.ofNat (k + 1))) (k + 1)

/-- The series of the inverse hyperbolic tangent: `t` is z^k, `z2` is z². -/
def atanhSeries (z2 : Int) : Nat → Int → Nat → Int
  | 0, _, _ => 0
  | n + 1, t, k => t.fdiv (Int.ofNat k) + atanhSeries z2 n (mul t z2) (k + 2)

/-- ln 2 = 2 atanh(1/3). -/
def ln2 : Int :=
  let z := one.fdiv 3
  2 * atanhSeries (mul z z) 110 z 1

/-- 2^x for x of magnitude at most 200, and saturating beyond. -/
def exp2 (x : Int) : Int :=
  if x > 200 * one then 2 ^ 200 * one
  else if x < -310 * one then 0
  else
    let n := x.fdiv one
    let f := x - n * one
    let r := expSeries (mul f ln2) 70 one 0
    if n ≥ 0 then r * 2 ^ n.toNat else r.fdiv (2 ^ (-n).toNat)

/-- log2 e = 1 / ln 2. -/
def log2e : Int := div one ln2

/-- e^x. -/
def exp (x : Int) : Int := exp2 (mul x log2e)

/-- log2 of m * 2^e, m positive. -/
def log2 (m : Nat) (e : Int) : Int :=
  let k : Int := Int.ofNat m.log2
  -- the significand lies in [3/4, 3/2)
  let k := if 2 * m ≥ 3 * 2 ^ m.log2 then k + 1 else k
  let y : Int := (Int.ofNat m * one).fdiv (2 ^ k.toNat)
  let z := div (y - one) (y + one)
  (k + e) * one + mul (2 * atanhSeries (mul z z) 150 z 1) log2e

/-- Integer square root by bisection on `fuel` bits. -/
def isqrtAux (n : Nat) : Nat → Nat → Nat
  | 0, r => r
  | b + 1, r => if (r + 2 ^ b) * (r + 2 ^ b) ≤ n then isqrtAux n b (r + 2 ^ b) else isqrtAux n b r

/-- The integer square root. -/
def isqrt (n : Nat) : Nat := isqrtAux n (n.log2 / 2 + 1) 0

/-- The series of arctangent with alternating signs. -/
def atanSeries (z2 : Int) : Nat → Int → Nat → Int
  | 0, _, _ => 0
  | n + 1, t, k => t.fdiv (Int.ofNat k) - atanSeries z2 n (mul t z2) (k + 2)

/-- π by Machin's formula. -/
def pi : Int :=
  let a := one.fdiv 5
  let b := one.fdiv 239
  4 * (4 * atanSeries (mul a a) 75 a 1 - atanSeries (mul b b) 25 b 1)

/-- The alternating series of sine (k = 1) and cosine (k = 0). -/
def trigSeries (x2 : Int) : Nat → Int → Nat → Int
  | 0, _, _ => 0
  | n + 1, t, k => t - trigSeries x2 n ((mul t x2).fdiv (Int.ofNat ((k + 1) * (k + 2)))) (k + 2)

/-- sin(2πf) and cos(2πf) for |f| ≤ 1/8. -/
def sinSmall (f : Int) : Int := let x := mul (2 * pi) f; trigSeries (mul x x) 40 x 1
def cosSmall (f : Int) : Int := let x := mul (2 * pi) f; trigSeries (mul x x) 40 one 0

/-- sin(2πx) of a turn count x: the nearest multiple of a quarter is taken off (R129). -/
def sinTurn (x : Int) : Int :=
  let k := (4 * x + one.fdiv 2).fdiv one
  let f := x - (k * one).fdiv 4
  match (k % 4).toNat with
  | 0 => sinSmall f
  | 1 => cosSmall f
  | 2 => -(sinSmall f)
  | _ => -(cosSmall f)

/-- cos(2πx). -/
def cosTurn (x : Int) : Int := sinTurn (x + one.fdiv 4)

/-- e^(-|x|), for the quotients of SIGMOID, TANH, GELU and SILU. -/
def sigmoid (x : Int) : Int :=
  if x ≥ 0 then div one (one + exp (-x)) else let t := exp x; div t (one + t)

/-- tanh. -/
def tanh (x : Int) : Int :=
  let t := exp (-2 * Int.ofNat x.natAbs)
  let r := div (one - t) (one + t)
  if x < 0 then -r else r

/-- √(2/π). -/
def sqrt2pi : Int := Int.ofNat (isqrt ((div (2 * one) pi).toNat * 2 ^ 320))

/-- GELU, tanh form (R129): 0.5 x (1 + tanh(√(2/π)(x + 0.044715 x³))), written x * sigmoid(2u). -/
def gelu (x : Int) : Int :=
  let u := mul sqrt2pi (x + (mul (mul x x) x * 44715).fdiv 1000000)
  mul x (sigmoid (2 * u))

end Fx

/-- The unit in the last place of FP32 at a fixed-point value, as a fixed-point number. -/
def ulpFx (v : Int) : Int :=
  let l := v.natAbs
  if l = 0 then 2 ^ 171 else 2 ^ (max 171 (l.log2 - 23))

/-- Table 4.6: the exact value of function `f` at a finite nonzero FP32 value outside the special and exact cases. -/
def fnExact (f : Nat) (x : Num) : Int :=
  let v := Fx.ofNum x
  match f with
  | 0 => Fx.exp2 v
  | 1 => match x with | .fin _ m e => Fx.log2 m e | _ => 0
  | 2 => Fx.div Fx.one v
  | 3 => Int.ofNat (Fx.isqrt (Fx.div Fx.one v * 2 ^ 320).toNat)
  | 4 => Fx.sigmoid v
  | 5 => Fx.tanh v
  | 6 => Fx.gelu v
  | 7 => Fx.mul v (Fx.sigmoid v)
  | 8 => Fx.sinTurn v
  | _ => Fx.cosTurn v

/-- Table 4.6: the error bound of function `f` at `x`, whose exact value is `v`. -/
def fnBound (f : Nat) (x : Num) (v : Int) : Int :=
  let xv := Fx.ofNum x
  let tiny : Int := 2 ^ (320 - 126)
  match f with
  | 0 | 2 | 3 => ulpFx v
  | 1 | 5 | 8 => 2 * ulpFx v
  | 4 | 7 => if xv ≥ -87 * Fx.one then 2 * ulpFx v else tiny
  | 6 => if xv ≥ -9 * Fx.one then 4 * ulpFx v else tiny
  | _ => 2 * ulpFx v

/-- Whether an FP32 word lies within the bound of Table 4.6. -/
def fnOk (f : Nat) (x : Num) (v : Int) (y : Nat) : Bool :=
  match fp32 y with
  | .fin s m e => decide ((Fx.ofNum (.fin s m e) - v).natAbs ≤ (fnBound f x v).natAbs)
  | _ => false

/-- A power of two? -/
def isPow2 (m : Nat) : Bool := m != 0 && m == 2 ^ m.log2

/-- The exact cases of Table 4.6: answered exactly. -/
def fnExactCase (f : Nat) (x : Num) : Option Nat :=
  match x with
  | .fin s m e =>
    match f with
    | 0 =>
      let i := roundInt true x
      if Num.eqv x (.ofInt i) && decide (-149 ≤ i ∧ i ≤ 127) then some (toFp32 (.fin false 1 i)) else none
    | 1 => if isPow2 m && !s then some (toFp32 (.ofInt (e + m.log2))) else none
    | 2 => if isPow2 m then some (toFp32 (.fin s 1 (-(e + m.log2)))) else none
    | 3 =>
      let k := e + m.log2
      if isPow2 m && !s && decide (k % 2 = 0) then some (toFp32 (.fin false 1 (-(k / 2)))) else none
    | 5 => if Num.lt x.abs (.fin false 1 (-12)) then some (toFp32 x) else none
    | 8 | 9 =>
      -- multiples of a quarter turn
      let i := roundInt true (.fin s m (e + 2))
      if Num.eqv (.fin s m (e + 2)) (.ofInt i) then
        let k := if f = 8 then i % 4 else (i + 1) % 4
        if k = 1 then some 0x3F800000 else if k = 3 then some 0xBF800000
        else some (if f = 8 && s then 0x80000000 else 0)
      else none
    | _ => none
  | _ => none

/-- Table 4.7: special operands. -/
def fnSpecial (f : Nat) (x : Num) : Option Nat :=
  let nan := 0x7FC00000
  let inf := 0x7F800000
  let one := 0x3F800000
  match x with
  | .nan => some nan
  | .inf s =>
    some (match f with
      | 0 => if s then 0 else inf
      | 1 => if s then nan else inf
      | 2 => if s then 0x80000000 else 0
      | 3 => if s then nan else 0
      | 4 => if s then 0 else one
      | 5 => if s then 0xBF800000 else one
      | 6 => if s then 0x80000000 else inf
      | 7 => if s then 0x80000000 else inf
      | _ => nan)
  | .fin s 0 _ =>
    let z := if s then 0x80000000 else 0
    some (match f with
      | 0 => one
      | 1 => 0xFF800000
      | 2 => if s then 0xFF800000 else inf
      | 3 => if s then 0xFF800000 else inf
      | 4 => 0x3F000000
      | 5 | 6 | 7 | 8 => z
      | _ => one)
  | .fin s _ _ =>
    match f with
    | 0 => if Num.le (.ofInt 128) x then some inf
           else if Num.lt x (.ofInt (-149)) then some (toFp32 (Fx.toNum (Fx.exp2 (Fx.ofNum x)))) else none
    | 1 => if s then some nan else none
    | 2 => if Num.le x.abs (.fin false 1 (-128)) then some (if s then 0xFF800000 else inf) else none
    | 3 => if s then some nan else none
    | _ => none

/-- R129 to R131: function `f` (a code of Table 4.6) of an FP32 word. -/
def chainFn (f x : Nat) : Nat :=
  let v := fp32 x
  match fnSpecial f v with
  | some r => r
  | none =>
    match fnExactCase f v with
    | some r => r
    | none =>
      let e := fnExact f v
      let c := Config.chainFn f x % 2 ^ 32
      if fnOk f v e c then c else toFp32 (Fx.toNum e)

/-- The flags of stage 4 (Table 2.10): DZ for RCP, RSQRT and LOG2 of a zero, INV for a NaN made from no NaN, and the flags of
the final rounding. -/
def chainFnFlags (f x : Nat) : CvFlags :=
  let v := fp32 x
  let r := chainFn f x
  let base : CvFlags :=
    { inv := !v.isNan && (fp32 r).isNan, dz := v.isZero && (f == 1 || f == 2 || f == 3) }
  match v with
  | .fin _ m _ =>
    if m = 0 then base
    else if (fp32 r).isInf then { base with ofl := true, inx := true }
    else if (fp32 r).isNan then base
    else
      let e := fnExact f v
      let inx := (fnExactCase f v).isNone || !decide (Fx.ofNum (fp32 r) = e)
      { base with inx := inx, ufl := inx && decide (r % 2 ^ 31 < 2 ^ 23) }
  | _ => base

end Sys2Proof.Machine
end

