-- ==== Sys2Proof/Machine/Words.lean ====
section
/-! DEFINITION. The fields of control words (08_control_words.md): Table 8.1 (header), Tables 8.4 to 8.14 and 8.16, R266,
R285. A control word is a number below 2^256; a field is named by word and field as the tables name it. -/

namespace Sys2Proof.Machine

/-- Bits `[hi:lo]` of a number. -/
def bits (w hi lo : Nat) : Nat := w / 2 ^ lo % 2 ^ (hi + 1 - lo)

/-- Bits `[hi:lo]` of a number read as two's complement. -/
def sbits (w hi lo : Nat) : Int :=
  let v := bits w hi lo
  if v ≥ 2 ^ (hi - lo) then Int.ofNat v - 2 ^ (hi + 1 - lo) else Int.ofNat v

namespace W

/-! Table 8.1, the header -/
def QUEUE (w : Nat) : Nat := bits w 255 252
def OPCODE (w : Nat) : Nat := bits w 251 244
def WAITCTR (w : Nat) : Nat := bits w 243 239
def WAITVAL (w : Nat) : Nat := bits w 238 223
def SIGCTR (w : Nat) : Nat := bits w 222 218
def SIGINC (w : Nat) : Nat := bits w 217 210
def SIGTGT (w : Nat) : Nat := bits w 209 208
def REPEAT (w : Nat) : Nat := bits w 207 192

/-! Table 8.4 -/
def LOOP_COUNT (w : Nat) : Nat := bits w 191 176
def LOOP_END (w : Nat) : Nat := bits w 175 158
/-- The reserved bits of the LOOP body (R256). -/
def LOOP_RES (w : Nat) : Nat := bits w 157 0

/-! Table 8.4 -/
def JUMP_TARGET (w : Nat) : Nat := bits w 191 174
/-- The reserved bits of the JUMP body (R256). -/
def JUMP_RES (w : Nat) : Nat := bits w 173 0

/-! Table 8.4 -/
def BEATEND_NEXT (w : Nat) : Nat := bits w 191 191
def BEATEND_VTAB (w : Nat) : Nat := bits w 190 173
/-- The reserved bits of the BEATEND body (R256). -/
def BEATEND_RES (w : Nat) : Nat := bits w 172 0

/-! Table 8.5 -/
def LOADW_WFMT (w : Nat) : Nat := bits w 191 188
def LOADW_ARRAYS (w : Nat) : Nat := bits w 187 184
def LOADW_PART (w : Nat) : Nat := bits w 183 182
def LOADW_CPLX (w : Nat) : Nat := bits w 181 181
def LOADW_GAUSS (w : Nat) : Nat := bits w 180 180
def LOADW_WSCL (w : Nat) : Nat := bits w 179 179
def LOADW_SBASE (w : Nat) : Nat := bits w 178 168
def LOADW_SSBASE (w : Nat) : Nat := bits w 167 153
/-- The reserved bits of the LOADW body (R256). -/
def LOADW_RES (w : Nat) : Nat := bits w 152 0

/-! Table 8.6 -/
def MMUL_AFMT (w : Nat) : Nat := bits w 191 188
def MMUL_WFMT (w : Nat) : Nat := bits w 187 184
def MMUL_ARRAYS (w : Nat) : Nat := bits w 183 180
def MMUL_SWAP (w : Nat) : Nat := bits w 179 179
def MMUL_OVW (w : Nat) : Nat := bits w 178 178
def MMUL_FAST (w : Nat) : Nat := bits w 177 177
def MMUL_CPLX (w : Nat) : Nat := bits w 176 176
def MMUL_GAUSS (w : Nat) : Nat := bits w 175 175
def MMUL_ASCL (w : Nat) : Nat := bits w 174 174
def MMUL_WSCL (w : Nat) : Nat := bits w 173 173
def MMUL_ANCHOR (w : Nat) : Int := sbits w 172 163
def MMUL_ZA (w : Nat) : Nat := bits w 162 155
def MMUL_ZW (w : Nat) : Nat := bits w 154 147
def MMUL_MROWS (w : Nat) : Nat := bits w 146 138
def MMUL_ACCROW (w : Nat) : Nat := bits w 137 129
def MMUL_ABASE (w : Nat) : Nat := bits w 128 117
def MMUL_ASTRIDE (w : Nat) : Nat := bits w 116 105
def MMUL_ASBASE (w : Nat) : Nat := bits w 104 89
def MMUL_ASTEP (w : Nat) : Int := sbits w 88 77
def MMUL_ACCSTEP (w : Nat) : Int := sbits w 76 67
def MMUL_ASSTEP (w : Nat) : Int := sbits w 66 51
/-- The reserved bits of the MMUL body (R256). -/
def MMUL_RES (w : Nat) : Nat := bits w 50 0

/-! R266 -/
def SETK_FIRST (w : Nat) : Nat := bits w 191 188
def SETK_COUNT (w : Nat) : Nat := bits w 187 186
/-- The reserved bits of the SETK body (R256). -/
def SETK_RES (w : Nat) : Nat := bits w 185 128

/-! Table 8.7 -/
def CHAIN_ENABLE (w : Nat) : Nat := bits w 191 184
def CHAIN_COUNT (w : Nat) : Nat := bits w 183 171
def CHAIN_KIND (w : Nat) : Nat := bits w 170 169
def CHAIN_SEGLOG (w : Nat) : Nat := bits w 168 165
def CHAIN_XSRC (w : Nat) : Nat := bits w 164 162
def CHAIN_XFMT (w : Nat) : Nat := bits w 161 158
def CHAIN_XSCL (w : Nat) : Nat := bits w 157 157
def CHAIN_XZP (w : Nat) : Nat := bits w 156 149
def CHAIN_YSRC (w : Nat) : Nat := bits w 148 146
def CHAIN_YFMT (w : Nat) : Nat := bits w 145 142
def CHAIN_YSCL (w : Nat) : Nat := bits w 141 141
def CHAIN_YZP (w : Nat) : Nat := bits w 140 133
def CHAIN_ARRAYS (w : Nat) : Nat := bits w 132 129
def CHAIN_ACCROW (w : Nat) : Nat := bits w 128 120
def CHAIN_ANCHOR (w : Nat) : Int := sbits w 119 110
def CHAIN_AMODE (w : Nat) : Nat := bits w 109 108
def CHAIN_ASCALAR (w : Nat) : Nat := bits w 107 104
def CHAIN_AMOD (w : Nat) : Nat := bits w 103 102
def CHAIN_BMODE (w : Nat) : Nat := bits w 101 100
def CHAIN_BSCALAR (w : Nat) : Nat := bits w 99 96
def CHAIN_BMOD (w : Nat) : Nat := bits w 95 94
def CHAIN_VFMT (w : Nat) : Nat := bits w 93 93
def CHAIN_VPERIOD (w : Nat) : Nat := bits w 92 90
def CHAIN_COMB (w : Nat) : Nat := bits w 89 87
def CHAIN_FUNC (w : Nat) : Nat := bits w 86 83
def CHAIN_RED (w : Nat) : Nat := bits w 82 80
def CHAIN_RDST (w : Nat) : Nat := bits w 79 78
def CHAIN_RFMT (w : Nat) : Nat := bits w 77 76
def CHAIN_SEED (w : Nat) : Nat := bits w 75 75
def CHAIN_EMASK (w : Nat) : Nat := bits w 74 74
def CHAIN_DIAG (w : Nat) : Int := sbits w 73 60
def CHAIN_SELPRED (w : Nat) : Nat := bits w 59 58
def CHAIN_SELCMP (w : Nat) : Nat := bits w 57 55
def CHAIN_SELK (w : Nat) : Nat := bits w 54 51
def CHAIN_SELACT (w : Nat) : Nat := bits w 50 49
def CHAIN_SELV (w : Nat) : Nat := bits w 48 45
def CHAIN_SELINV (w : Nat) : Nat := bits w 44 44
def CHAIN_OFMT (w : Nat) : Nat := bits w 43 40
def CHAIN_OSCALED (w : Nat) : Nat := bits w 39 39
def CHAIN_RND (w : Nat) : Nat := bits w 38 38
def CHAIN_SAT (w : Nat) : Nat := bits w 37 37
def CHAIN_SCLMODE (w : Nat) : Nat := bits w 36 36
def CHAIN_OZP (w : Nat) : Nat := bits w 35 28
def CHAIN_DST (w : Nat) : Nat := bits w 27 25
def CHAIN_PADMODE (w : Nat) : Nat := bits w 24 24
def CHAIN_PADK (w : Nat) : Nat := bits w 23 20
def CHAIN_FLAG (w : Nat) : Nat := bits w 19 19
def CHAIN_XPEER (w : Nat) : Nat := bits w 18 16
def CHAIN_YPEER (w : Nat) : Nat := bits w 15 13
def CHAIN_DPEER (w : Nat) : Nat := bits w 12 10
def CHAIN_VSRC (w : Nat) : Nat := bits w 9 8
/-- The reserved bits of the CHAIN body (R256). -/
def CHAIN_RES (w : Nat) : Nat := bits w 7 0

/-! Table 8.8 -/
def CHAINX_XADDR (w : Nat) : Nat := bits w 243 226
def CHAINX_XSCLA (w : Nat) : Nat := bits w 225 208
def CHAINX_XPITCH (w : Nat) : Nat := bits w 207 190
def CHAINX_YADDR (w : Nat) : Nat := bits w 189 172
def CHAINX_YSCLA (w : Nat) : Nat := bits w 171 154
def CHAINX_AVEC (w : Nat) : Nat := bits w 153 136
def CHAINX_BVEC (w : Nat) : Nat := bits w 135 118
def CHAINX_RADDR (w : Nat) : Nat := bits w 117 100
def CHAINX_DADDR (w : Nat) : Nat := bits w 99 82
def CHAINX_DSCLA (w : Nat) : Nat := bits w 81 64
def CHAINX_DPITCH (w : Nat) : Nat := bits w 63 46
def CHAINX_XRUN (w : Nat) : Int := sbits w 45 35
def CHAINX_YRUN (w : Nat) : Int := sbits w 34 24
def CHAINX_DRUN (w : Nat) : Int := sbits w 23 13
def CHAINX_RRUN (w : Nat) : Int := sbits w 12 2
/-- The reserved bits of the CHAINX body (R256). -/
def CHAINX_RES (w : Nat) : Nat := bits w 1 0

/-! Table 8.9 (and the PLEACH lead, R280) -/
def COPY_LTGT (w : Nat) : Nat := bits w 191 189
def COPY_DIR (w : Nat) : Nat := bits w 188 188
def COPY_ESZ (w : Nat) : Nat := bits w 187 185
def COPY_LBASE (w : Nat) : Nat := bits w 184 167
def COPY_CNT0 (w : Nat) : Nat := bits w 166 155
def COPY_CNT1 (w : Nat) : Nat := bits w 154 143
def COPY_CNT2 (w : Nat) : Nat := bits w 142 131
def COPY_CNT3 (w : Nat) : Nat := bits w 130 119
def COPY_LSTR0 (w : Nat) : Int := sbits w 118 100
def COPY_LSTR1 (w : Nat) : Int := sbits w 99 81
def COPY_LSTR2 (w : Nat) : Int := sbits w 80 62
def COPY_LSTR3 (w : Nat) : Int := sbits w 61 43
def COPY_PAD (w : Nat) : Nat := bits w 42 11
/-- The reserved bits of the COPY body (R256). -/
def COPY_RES (w : Nat) : Nat := bits w 10 0

/-! Table 8.10 -/
def COPYX_FBASE (w : Nat) : Nat := bits w 243 196
def COPYX_FUNIT (w : Nat) : Nat := bits w 195 195
def COPYX_FSTR0 (w : Nat) : Int := sbits w 194 176
def COPYX_FSTR1 (w : Nat) : Int := sbits w 175 157
def COPYX_FSTR2 (w : Nat) : Int := sbits w 156 138
def COPYX_FSTR3 (w : Nat) : Int := sbits w 137 119
def COPYX_LO0 (w : Nat) : Nat := bits w 118 107
def COPYX_HI0 (w : Nat) : Nat := bits w 106 95
def COPYX_LO1 (w : Nat) : Nat := bits w 94 83
def COPYX_HI1 (w : Nat) : Nat := bits w 82 71
def COPYX_LO2 (w : Nat) : Nat := bits w 70 59
def COPYX_HI2 (w : Nat) : Nat := bits w 58 47
def COPYX_LO3 (w : Nat) : Nat := bits w 46 35
def COPYX_HI3 (w : Nat) : Nat := bits w 34 23
/-- The reserved bits of the COPYX body (R256). -/
def COPYX_RES (w : Nat) : Nat := bits w 22 0

/-! Table 8.11 -/
def PLEACHX_HALO (w : Nat) : Nat := bits w 243 226
def PLEACHX_PKIND (w : Nat) : Nat := bits w 225 224
def PLEACHX_PCORE (w : Nat) : Nat := bits w 223 215
def PLEACHX_PORT (w : Nat) : Nat := bits w 214 209
def PLEACHX_CH (w : Nat) : Nat := bits w 208 205
def PLEACHX_DUE (w : Nat) : Nat := bits w 204 185
/-- The reserved bits of the PLEACHX body (R256). -/
def PLEACHX_RES (w : Nat) : Nat := bits w 184 0

/-! Table 8.12, PUSH and POP -/
def RING_RDSLOT (w : Nat) : Nat := bits w 191 189
def RING_RDADDR (w : Nat) : Nat := bits w 188 171
def RING_LTGT (w : Nat) : Nat := bits w 170 169
def RING_LBASE (w : Nat) : Nat := bits w 168 151
def RING_LRUN (w : Nat) : Int := sbits w 150 132
/-- The reserved bits of the RING body (R256). -/
def RING_RES (w : Nat) : Nat := bits w 131 0

/-! R285 -/
def TSUB_DADDR (w : Nat) : Nat := bits w 191 174
def TSUB_TCLUSTER (w : Nat) : Nat := bits w 173 171
/-- The reserved bits of the TSUB body (R256). -/
def TSUB_RES (w : Nat) : Nat := bits w 170 0

/-! Table 8.13 -/
def SEND_STGT (w : Nat) : Nat := bits w 191 190
def SEND_SADDR (w : Nat) : Nat := bits w 189 172
def SEND_ROWS (w : Nat) : Nat := bits w 171 160
def SEND_RWORDS (w : Nat) : Nat := bits w 159 148
def SEND_RSTRIDE (w : Nat) : Int := sbits w 147 129
def SEND_DCORE (w : Nat) : Nat := bits w 128 120
def SEND_CH (w : Nat) : Nat := bits w 119 116
def SEND_RUNSTEP (w : Nat) : Int := sbits w 115 97
/-- The reserved bits of the SEND body (R256). -/
def SEND_RES (w : Nat) : Nat := bits w 96 0

/-! Table 8.14 -/
def SENDX_HOPS (w : Nat) : Nat := bits w 243 239
def SENDX_HOPBYTES (w : Nat) : Nat := bits w 238 79
/-- The reserved bits of the SENDX body (R256). -/
def SENDX_RES (w : Nat) : Nat := bits w 78 0

/-! Table 8.16 -/
def RECV_CH (w : Nat) : Nat := bits w 191 188
def RECV_DTGT (w : Nat) : Nat := bits w 187 186
def RECV_DADDR (w : Nat) : Nat := bits w 185 168
def RECV_ROWS (w : Nat) : Nat := bits w 167 156
def RECV_RWORDS (w : Nat) : Nat := bits w 155 144
def RECV_RSTRIDE (w : Nat) : Int := sbits w 143 125
def RECV_RUNSTEP (w : Nat) : Int := sbits w 124 106
/-- The reserved bits of the RECV body (R256). -/
def RECV_RES (w : Nat) : Nat := bits w 105 0

/-- HOPn of a SEND extension, bits [238 - 8n : 231 - 8n]. -/
def SENDX_HOP (w n : Nat) : Nat := bits w (238 - 8 * n) (231 - 8 * n)

end W

end Sys2Proof.Machine
end

