-- ==== Sys2Proof/Machine/Dist.lean ====
section
/-! DEFINITION. Distances (06_memories.md R190, R194, R195; 01 R31 to R35): latencies in cc between sources, tier-columns and
core stores. A source is die * 8 + cluster (0 to 63), 64 + n for I/O die n, 76 for RT0 and 77 for RT1 (DIST_BULK). -/

namespace Sys2Proof.Machine

/-- Steps between two places of a grid of four columns (Table 1.2, Table 6.3). -/
def gridHops (a b : Nat) : Nat :=
  ((a % 4 : Int) - (b % 4 : Int)).natAbs + ((a / 4 : Int) - (b / 4 : Int)).natAbs

/-- Table 6.3: the gateway clusters. -/
def gwNorth : Nat := 1
def gwEast : Nat := 3
def gwWest : Nat := 4
def gwSouth : Nat := 6

/-- The gateway a route leaves die `e` by on its way to die `d`, column first (R32). -/
def gwExit (e d : Nat) : Nat :=
  if d % 4 > e % 4 then gwEast else if d % 4 < e % 4 then gwWest
  else if d / 4 > e / 4 then gwSouth else gwNorth

/-- The gateway a route from die `e` enters die `d` by: the edge of its last link. -/
def gwEntry (e d : Nat) : Nat :=
  if d / 4 > e / 4 then gwNorth else if d / 4 < e / 4 then gwSouth
  else if d % 4 > e % 4 then gwWest else gwEast

/-- R33, R35: the two compute dies an I/O or root source is attached to. -/
def attached (src : Nat) : Nat × Nat :=
  if src = 76 then (0, 4) else if src = 77 then (3, 7)
  else
    let k := (src - 64) % 6
    if k < 3 then (k, k + 1) else (k + 1, k + 2)

/-- R194: the gateway an attachment link meets its compute die at. -/
def gwAttach (src : Nat) : Nat :=
  if src = 76 then gwWest else if src = 77 then gwEast
  else if (src - 64) % 6 < 3 then gwNorth else gwSouth

/-- R194: the attached die a route from an I/O or root source enters by. -/
def entryDie (src d : Nat) : Nat :=
  let p := attached src
  if gridHops p.2 d < gridHops p.1 d then p.2 else p.1

/-- R194: port(src, c) for cluster `c` of die `d`. -/
def portDist (src d c : Nat) : Nat :=
  if src < 64 then
    let e := src / 8
    let s := src % 8
    if e = d then 4 + 6 * gridHops s c + (if s / 2 = c / 2 then 0 else 2)
    else 101 + 25 * gridHops e d + 6 * (gridHops s (gwExit e d) + gridHops (gwEntry e d) c)
  else
    let e := entryDie src d
    let g := if e = d then gwAttach src else gwEntry e d
    76 + 25 * (1 + gridHops e d) + 6 * gridHops g c

/-- R194: the latency of a bulk access to tier `t`, column `c` of die `d`. -/
def bulkLat (src d t c : Nat) : Nat :=
  if src = d * 8 + c then 48 + 4 * t else portDist src d c + 54 + 4 * t

/-- R188: the bank of a core-store word. -/
def csBank (w : Nat) : Nat := (w % 64) ^^^ (w / 64 % 64) ^^^ (w / 4096 % 64)

/-- R190: the distance class of a core-store word. -/
def csClass (w : Nat) : Nat := csBank w / 16

/-- Table 6.2: own-core latency of a core-store word. -/
def ownLat (w : Nat) : Nat := 6 + 2 * csClass w

/-- R190: the side of a physical slot, 0 west and 1 east. -/
def slotSide (p : Nat) : Nat := if p ≤ 4 then 0 else 1

/-- Table 6.2: a peer's latency, from the physical slots of the two cores and the word's class. -/
def peerLat (pa pb k : Nat) : Nat := 20 + 2 * k + (if slotSide pa = slotSide pb then 0 else 2)

/-- The source number of an I/O or root die calendar owner, or of a cluster (Table 6.5 KIND and ID). -/
def ownerSrc (owner : Nat) : Nat :=
  let k := owner / 2 ^ 13
  let i := owner % 512
  if k = 1 then i / 8 else if k = 2 then i else if k = 3 then 64 + i else 76 + i

/-- Table 6.5: the calendar entries that name a core, a thicket, an I/O die and a root die. -/
def ownCore (c : Nat) : Nat := 2 ^ 13 + c
def ownThkt (cl : Nat) : Nat := 2 * 2 ^ 13 + cl
def ownIo (n : Nat) : Nat := 3 * 2 ^ 13 + n
def ownRoot (n : Nat) : Nat := 4 * 2 ^ 13 + n

/-! Device addresses (R14, R15, R180). -/

/-- The space of a device address. -/
def daSpace (a : Nat) : Nat := bits a 47 44
/-- Space 0x0: die, tier, column; tier-column number die * 32 + tier * 8 + column. -/
def daTc (a : Nat) : Nat := bits a 35 33 * 32 + bits a 32 31 * 8 + bits a 30 28
/-- Space 0x1: the core id. -/
def daCore (a : Nat) : Nat := bits a 35 33 * 64 + bits a 32 30 * 8 + bits a 29 27
/-- The cluster (die * 8 + cluster) whose column or core store an address names. -/
def daCluster (a : Nat) : Nat :=
  if daSpace a = 0 then bits a 35 33 * 8 + bits a 30 28 else bits a 35 33 * 8 + bits a 32 30
/-- The offset within the column or the core store. -/
def daOff (a : Nat) : Nat := if daSpace a = 0 then a % 2 ^ 28 else a % 2 ^ 22
/-- The device address of a core-store byte. -/
def csAddr (core off : Nat) : Nat :=
  2 ^ 44 + core / 64 * 2 ^ 33 + core / 8 % 8 * 2 ^ 30 + core % 8 * 2 ^ 27 + off
/-- The device address of a bulk byte. -/
def bulkAddr (tc off : Nat) : Nat := tc / 32 * 2 ^ 33 + tc / 8 % 4 * 2 ^ 31 + tc % 8 * 2 ^ 28 + off
/-- The cluster of a tier-column. -/
def tcCluster (tc : Nat) : Nat := tc / 32 * 8 + tc % 8

end Sys2Proof.Machine
end

