-- ==== Sys2Proof/Machine/Regs.lean ====
section
/-! DEFINITION. The register table of the part: one row for every register description of the spec (the headings
"mnemonic, block, offset, width, class" and their field tables), Table 0.5 (access codes) and Table 0.6 (classes). -/

namespace Sys2Proof.Machine

/-- The registers of the spec, by mnemonic. An indexed register is one name with an index (R17 to R22). -/
inductive RegName where
  | ROOT_ID | ROOT_CLASSVEC | CORECTL_NUMSTAT | CORECTL_CVFLAGS | CORECTL_MATSTAT | CORECTL_CHNSTAT | THKT_QFILL0
  | THKT_QFILL1 | THKT_UQFILL | THKT_CNT | THKT_MOECNT | ROOT_FILLCFG | ROOT_SWEEPCTL | ROOT_SWEEPSTAT
  | CORECTL_MEMSTAT | CORECTL_MEMLOG | CAL_ENTRY | CAL_LEN | CAL_COLSTAT | CAL_SCRUB | CAL_CUR | DIST_BULK
  | DIST_PORT | DIST_CS | DIST_GEN | CORECTL_QFILL | CORECTL_SEQSTAT | CORECTL_SEQCFG | CORECTL_QSTAT
  | CORECTL_SYNC | CORECTL_ILLEGAL | CORECTL_LANDING | TIME_JOB_CFG | TIME_BEAT_CFG | TIME_LAUNCH | TIME_JOB_STAT
  | TIME_LAG | TIME_FRZ | TIME_FRZLAST | TIME_CHOICE | TIME_CHOICEBY | TIME_DIGEST | PORT_CTL | PORT_CFG | PORT_WIN
  | PORT_STAT | PORT_RETRY | PORT_DEFER | PORT_DISC | PORT_FEC | PORT_NBR | PORT_OWN | ROUTE_NODE | ROUTE_DIMS
  | ROUTE_ROLE | ROUTE_CTL | ROUTE_STAT | ROUTE_TMO | ROUTE_ERR0 | ROUTE_ERR1 | ROUTE_ENTRY | ROUTE_SHADOW
  | ROUTE_JOBBOX | ROUTE_JOBROOT | ROUTE_GOPCFG | ROUTE_GOPCMD | ROUTE_GOPARG0 | ROUTE_GOPARG1 | ROUTE_GOPSTAT
  | SERVE_PCFG | SERVE_PLANCFG | SERVE_POOL0 | SERVE_POOL1 | SERVE_POOL2 | SERVE_POOL3 | SERVE_DLCFG | SERVE_DLCFG2
  | SERVE_PARKTH | SERVE_PARK | SERVE_PARKBASE | SERVE_PSTAT | SERVE_SEQ | SERVE_CNT0 | SERVE_CNT1 | SERVE_ABORT
  | SERVE_RATIO | SERVE_VAR | SERVE_INGNODE | SERVE_TBANK | SERVE_TABLE | HQ_ACCERR | HQ_BAR2CFG | HQ_RBASE
  | HQ_RCFG | HQ_RHPOS | HQ_RSTAT | HQ_DCFG | HQ_JOB | HQ_LAUNCHCNT | HQ_EMIT | HQ_INDESC | HQ_INSTAGE | HQ_INCFG
  | HQ_NETCFG | TIME_GTC | TIME_STAT | TIME_ERR | TIME_SLEW | TIME_MASTER | TIME_SET | TIME_ALARM | TIME_PPS
  | PWR_CAP | PWR_BUDGET | PWR_STATE | PWR_STATECMD | PWR_WAKESEL | PWR_THERM | PWR_PLL | PWR_STEP | PWR_STEPCMD
  | PWR_PDECL | EVC_PEND | EVC_MASK | EVC_NEXT | EVC_WIRE | EVC_GLOG | EVC_GLOGPOS | EVC_CNT | EVC_ROUTE
  | ROOT_BOOT | ROOT_IMG | ROOT_MGMT | ROOT_WDOG | ROOT_FUSE | PS_INDEX | PS_DATA | PS_WCOUNT | PS_STAT
  | PS_BOOTREC | PS_BOOTCNT | MBOX_STAT | MBOX_POST | MBOX_REQ | MBOX_RSP | ROOT_RESET | ROOT_MAINT | TIME_LEDGER
  | TIME_FAULT | DIST_SLOTS
  deriving DecidableEq, Repr

/-- Table 0.5: the access code of a field. -/
inductive Acc where | rw | ro | wo | w1c | ps
  deriving DecidableEq, Repr

/-- Table 0.6: the survival class of a register. -/
inductive SClass where | P | C | W | M | J
  deriving DecidableEq, Repr

/-- One field of a register: its bits `[hi:lo]`, access code, default, and the range of legal values of R19
(a value outside `[minV, maxV]` is a reserved encoding). -/
structure Fld where
  reg : RegName
  hi : Nat
  lo : Nat
  acc : Acc
  dflt : Nat
  minV : Nat
  maxV : Nat
  deriving DecidableEq, Repr

/-- Where a register lies: offset in BAR0 of index 0, the (stride, count) pairs of its indices from the outermost in,
its width in bits and its survival class. -/
structure RegInfo where
  base : Nat
  dims : List (Nat × Nat)
  width : Nat
  cls : SClass
  deriving DecidableEq, Repr

/-! The fields, named as the spec names them (register mnemonic, field). -/
namespace F
def ROOT_ID_ARCH : Fld := ⟨.ROOT_ID, 63, 48, .ro, 2, 0, 65535⟩
def ROOT_ID_CODE : Fld := ⟨.ROOT_ID, 47, 40, .ro, 0, 0, 255⟩
def ROOT_ID_STEP : Fld := ⟨.ROOT_ID, 39, 32, .ro, 176, 0, 255⟩
def ROOT_ID_TIERS : Fld := ⟨.ROOT_ID, 31, 28, .ro, 0, 0, 15⟩
def ROOT_ID_IODIES : Fld := ⟨.ROOT_ID, 27, 24, .ro, 0, 0, 15⟩
def ROOT_ID_PORTS : Fld := ⟨.ROOT_ID, 23, 16, .ro, 0, 0, 255⟩
def ROOT_ID_PHYSLOT : Fld := ⟨.ROOT_ID, 15, 8, .ro, 9, 0, 255⟩
def ROOT_CLASSVEC_CLASS : Fld := ⟨.ROOT_CLASSVEC, 63, 0, .ro, 0, 0, 18446744073709551615⟩
def CORECTL_NUMSTAT_SATCNT : Fld := ⟨.CORECTL_NUMSTAT, 63, 32, .rw, 0, 0, 4294967295⟩
def CORECTL_NUMSTAT_ISAT : Fld := ⟨.CORECTL_NUMSTAT, 1, 1, .w1c, 0, 0, 1⟩
def CORECTL_NUMSTAT_XSAT : Fld := ⟨.CORECTL_NUMSTAT, 0, 0, .w1c, 0, 0, 1⟩
def CORECTL_CVFLAGS_DZ : Fld := ⟨.CORECTL_CVFLAGS, 4, 4, .w1c, 0, 0, 1⟩
def CORECTL_CVFLAGS_INX : Fld := ⟨.CORECTL_CVFLAGS, 3, 3, .w1c, 0, 0, 1⟩
def CORECTL_CVFLAGS_UFL : Fld := ⟨.CORECTL_CVFLAGS, 2, 2, .w1c, 0, 0, 1⟩
def CORECTL_CVFLAGS_OFL : Fld := ⟨.CORECTL_CVFLAGS, 1, 1, .w1c, 0, 0, 1⟩
def CORECTL_CVFLAGS_INV : Fld := ⟨.CORECTL_CVFLAGS, 0, 0, .w1c, 0, 0, 1⟩
def CORECTL_MATSTAT_SPACECNT : Fld := ⟨.CORECTL_MATSTAT, 63, 32, .rw, 0, 0, 4294967295⟩
def CORECTL_MATSTAT_SWAPCNT : Fld := ⟨.CORECTL_MATSTAT, 31, 0, .rw, 0, 0, 4294967295⟩
def CORECTL_CHNSTAT_WAITCNT : Fld := ⟨.CORECTL_CHNSTAT, 63, 32, .rw, 0, 0, 4294967295⟩
def CORECTL_CHNSTAT_SATTAGCNT : Fld := ⟨.CORECTL_CHNSTAT, 31, 0, .rw, 0, 0, 4294967295⟩
def THKT_QFILL0_FILL : Fld := ⟨.THKT_QFILL0, 63, 0, .ro, 0, 0, 18446744073709551615⟩
def THKT_QFILL1_FILL : Fld := ⟨.THKT_QFILL1, 63, 0, .ro, 0, 0, 18446744073709551615⟩
def THKT_UQFILL_FILL : Fld := ⟨.THKT_UQFILL, 47, 0, .ro, 0, 0, 281474976710655⟩
def THKT_CNT_STEAL : Fld := ⟨.THKT_CNT, 63, 32, .rw, 0, 0, 4294967295⟩
def THKT_CNT_SUBWAIT : Fld := ⟨.THKT_CNT, 31, 0, .rw, 0, 0, 4294967295⟩
def THKT_MOECNT_DROPPED : Fld := ⟨.THKT_MOECNT, 63, 32, .rw, 0, 0, 4294967295⟩
def THKT_MOECNT_DEFERRED : Fld := ⟨.THKT_MOECNT, 31, 0, .rw, 0, 0, 4294967295⟩
def ROOT_FILLCFG_POISON : Fld := ⟨.ROOT_FILLCFG, 32, 32, .rw, 0, 0, 1⟩
def ROOT_FILLCFG_PATTERN : Fld := ⟨.ROOT_FILLCFG, 31, 0, .rw, 0, 0, 4294967295⟩
def ROOT_SWEEPCTL_MASK : Fld := ⟨.ROOT_SWEEPCTL, 63, 0, .wo, 0, 0, 18446744073709551615⟩
def ROOT_SWEEPSTAT_STATUS : Fld := ⟨.ROOT_SWEEPSTAT, 63, 56, .ro, 0, 0, 255⟩
def ROOT_SWEEPSTAT_ACTIVE : Fld := ⟨.ROOT_SWEEPSTAT, 0, 0, .ro, 0, 0, 1⟩
def CORECTL_MEMSTAT_CECNT : Fld := ⟨.CORECTL_MEMSTAT, 63, 32, .rw, 0, 0, 4294967295⟩
def CORECTL_MEMSTAT_POISCNT : Fld := ⟨.CORECTL_MEMSTAT, 31, 0, .rw, 0, 0, 4294967295⟩
def CORECTL_MEMLOG_KIND : Fld := ⟨.CORECTL_MEMLOG, 63, 60, .ro, 0, 0, 15⟩
def CORECTL_MEMLOG_UNIT : Fld := ⟨.CORECTL_MEMLOG, 59, 56, .ro, 0, 0, 15⟩
def CORECTL_MEMLOG_MORE : Fld := ⟨.CORECTL_MEMLOG, 55, 48, .ro, 0, 0, 255⟩
def CORECTL_MEMLOG_ADDR : Fld := ⟨.CORECTL_MEMLOG, 47, 0, .ro, 0, 0, 281474976710655⟩
def CAL_ENTRY_ODD : Fld := ⟨.CAL_ENTRY, 31, 16, .rw, 0, 0, 65535⟩
def CAL_ENTRY_EVEN : Fld := ⟨.CAL_ENTRY, 15, 0, .rw, 0, 0, 65535⟩
def CAL_LEN_LEN : Fld := ⟨.CAL_LEN, 11, 0, .rw, 0, 0, 3200⟩
def CAL_COLSTAT_CECNT : Fld := ⟨.CAL_COLSTAT, 63, 40, .rw, 0, 0, 16777215⟩
def CAL_COLSTAT_REBUILD : Fld := ⟨.CAL_COLSTAT, 39, 24, .rw, 0, 0, 65535⟩
def CAL_COLSTAT_UECNT : Fld := ⟨.CAL_COLSTAT, 23, 8, .rw, 0, 0, 65535⟩
def CAL_COLSTAT_FAILED : Fld := ⟨.CAL_COLSTAT, 5, 5, .ro, 0, 0, 1⟩
def CAL_COLSTAT_FBANK : Fld := ⟨.CAL_COLSTAT, 4, 0, .ro, 0, 0, 31⟩
def CAL_SCRUB_PASSES : Fld := ⟨.CAL_SCRUB, 63, 32, .ro, 0, 0, 4294967295⟩
def CAL_SCRUB_POINTER : Fld := ⟨.CAL_SCRUB, 19, 0, .ro, 0, 0, 1048575⟩
def CAL_CUR_PAGE : Fld := ⟨.CAL_CUR, 15, 0, .ro, 0, 0, 65535⟩
def DIST_BULK_ODD : Fld := ⟨.DIST_BULK, 31, 16, .ro, 0, 0, 65535⟩
def DIST_BULK_EVEN : Fld := ⟨.DIST_BULK, 15, 0, .ro, 0, 0, 65535⟩
def DIST_PORT_ODD : Fld := ⟨.DIST_PORT, 31, 16, .ro, 0, 0, 65535⟩
def DIST_PORT_EVEN : Fld := ⟨.DIST_PORT, 15, 0, .ro, 0, 0, 65535⟩
def DIST_CS_ODD : Fld := ⟨.DIST_CS, 31, 16, .ro, 0, 0, 65535⟩
def DIST_CS_EVEN : Fld := ⟨.DIST_CS, 15, 0, .ro, 0, 0, 65535⟩
def DIST_GEN_GEN : Fld := ⟨.DIST_GEN, 31, 0, .ro, 0, 0, 4294967295⟩
def CORECTL_QFILL_LNK : Fld := ⟨.CORECTL_QFILL, 55, 48, .ro, 0, 0, 255⟩
def CORECTL_QFILL_MOV : Fld := ⟨.CORECTL_QFILL, 47, 40, .ro, 0, 0, 255⟩
def CORECTL_QFILL_CHN : Fld := ⟨.CORECTL_QFILL, 39, 32, .ro, 0, 0, 255⟩
def CORECTL_QFILL_MAT : Fld := ⟨.CORECTL_QFILL, 31, 24, .ro, 0, 0, 255⟩
def CORECTL_QFILL_SEQ : Fld := ⟨.CORECTL_QFILL, 23, 16, .ro, 0, 0, 255⟩
def CORECTL_QFILL_INFLT : Fld := ⟨.CORECTL_QFILL, 15, 8, .ro, 0, 0, 255⟩
def CORECTL_QFILL_LOOPS : Fld := ⟨.CORECTL_QFILL, 2, 0, .ro, 0, 0, 7⟩
def CORECTL_SEQSTAT_STATE : Fld := ⟨.CORECTL_SEQSTAT, 63, 61, .ro, 0, 0, 7⟩
def CORECTL_SEQSTAT_BEATS : Fld := ⟨.CORECTL_SEQSTAT, 49, 34, .ro, 0, 0, 65535⟩
def CORECTL_SEQSTAT_FETCH : Fld := ⟨.CORECTL_SEQSTAT, 17, 0, .ro, 0, 0, 262143⟩
def CORECTL_SEQCFG_ENTRY : Fld := ⟨.CORECTL_SEQCFG, 17, 1, .rw, 0, 0, 131071⟩
def CORECTL_QSTAT_FULLCNT : Fld := ⟨.CORECTL_QSTAT, 63, 32, .rw, 0, 0, 4294967295⟩
def CORECTL_QSTAT_SAT : Fld := ⟨.CORECTL_QSTAT, 8, 8, .w1c, 0, 0, 1⟩
def CORECTL_QSTAT_SATCTR : Fld := ⟨.CORECTL_QSTAT, 4, 0, .ro, 0, 0, 31⟩
def CORECTL_SYNC_VALUE : Fld := ⟨.CORECTL_SYNC, 15, 0, .ro, 0, 0, 65535⟩
def CORECTL_ILLEGAL_REASON : Fld := ⟨.CORECTL_ILLEGAL, 63, 56, .ro, 0, 0, 255⟩
def CORECTL_ILLEGAL_QUEUE : Fld := ⟨.CORECTL_ILLEGAL, 55, 52, .ro, 0, 0, 15⟩
def CORECTL_ILLEGAL_OPCODE : Fld := ⟨.CORECTL_ILLEGAL, 51, 44, .ro, 0, 0, 255⟩
def CORECTL_ILLEGAL_MORE : Fld := ⟨.CORECTL_ILLEGAL, 43, 36, .ro, 0, 0, 255⟩
def CORECTL_ILLEGAL_ADDR : Fld := ⟨.CORECTL_ILLEGAL, 17, 0, .ro, 0, 0, 262143⟩
def CORECTL_LANDING_FILL : Fld := ⟨.CORECTL_LANDING, 12, 0, .ro, 0, 0, 8191⟩
def TIME_JOB_CFG_JOBID : Fld := ⟨.TIME_JOB_CFG, 63, 32, .rw, 0, 0, 4294967295⟩
def TIME_JOB_CFG_MODE : Fld := ⟨.TIME_JOB_CFG, 0, 0, .rw, 0, 0, 1⟩
def TIME_BEAT_CFG_FAULTLIM : Fld := ⟨.TIME_BEAT_CFG, 63, 48, .rw, 64, 2, 65535⟩
def TIME_BEAT_CFG_LAGLIM : Fld := ⟨.TIME_BEAT_CFG, 47, 40, .rw, 8, 1, 255⟩
def TIME_BEAT_CFG_K : Fld := ⟨.TIME_BEAT_CFG, 4, 0, .rw, 14, 12, 20⟩
def TIME_LAUNCH_COUNT : Fld := ⟨.TIME_LAUNCH, 63, 0, .ro, 0, 0, 18446744073709551615⟩
def TIME_JOB_STAT_STATE : Fld := ⟨.TIME_JOB_STAT, 63, 61, .ro, 0, 0, 7⟩
def TIME_JOB_STAT_LSTATUS : Fld := ⟨.TIME_JOB_STAT, 55, 48, .ro, 0, 0, 255⟩
def TIME_JOB_STAT_FROZEN : Fld := ⟨.TIME_JOB_STAT, 34, 34, .ro, 0, 0, 1⟩
def TIME_JOB_STAT_GATE : Fld := ⟨.TIME_JOB_STAT, 33, 33, .ro, 0, 0, 1⟩
def TIME_JOB_STAT_LAGF : Fld := ⟨.TIME_JOB_STAT, 32, 32, .ro, 0, 0, 1⟩
def TIME_JOB_STAT_BEAT : Fld := ⟨.TIME_JOB_STAT, 31, 0, .ro, 0, 0, 4294967295⟩
def TIME_LAG_MAX : Fld := ⟨.TIME_LAG, 63, 32, .rw, 0, 0, 4294967295⟩
def TIME_LAG_NOW : Fld := ⟨.TIME_LAG, 31, 0, .ro, 0, 0, 4294967295⟩
def TIME_FRZ_COUNT : Fld := ⟨.TIME_FRZ, 63, 32, .rw, 0, 0, 4294967295⟩
def TIME_FRZ_TOTAL : Fld := ⟨.TIME_FRZ, 31, 0, .rw, 0, 0, 4294967295⟩
def TIME_FRZLAST_CAUSE : Fld := ⟨.TIME_FRZLAST, 63, 60, .ro, 0, 0, 15⟩
def TIME_FRZLAST_CH : Fld := ⟨.TIME_FRZLAST, 59, 56, .ro, 0, 0, 15⟩
def TIME_FRZLAST_CORE : Fld := ⟨.TIME_FRZLAST, 55, 47, .ro, 0, 0, 511⟩
def TIME_FRZLAST_BEAT : Fld := ⟨.TIME_FRZLAST, 31, 0, .ro, 0, 0, 4294967295⟩
def TIME_CHOICE_COUNT : Fld := ⟨.TIME_CHOICE, 63, 0, .ro, 0, 0, 18446744073709551615⟩
def TIME_CHOICEBY_STEAL : Fld := ⟨.TIME_CHOICEBY, 63, 48, .ro, 0, 0, 65535⟩
def TIME_CHOICEBY_SERVE : Fld := ⟨.TIME_CHOICEBY, 47, 32, .ro, 0, 0, 65535⟩
def TIME_CHOICEBY_REQNET : Fld := ⟨.TIME_CHOICEBY, 31, 16, .ro, 0, 0, 65535⟩
def TIME_CHOICEBY_OUTCOME : Fld := ⟨.TIME_CHOICEBY, 15, 0, .ro, 0, 0, 65535⟩
def TIME_DIGEST_BYTES : Fld := ⟨.TIME_DIGEST, 63, 0, .rw, 0, 0, 18446744073709551615⟩
def PORT_CTL_RESET : Fld := ⟨.PORT_CTL, 1, 1, .wo, 0, 0, 1⟩
def PORT_CTL_ENABLE : Fld := ⟨.PORT_CTL, 0, 0, .rw, 0, 0, 1⟩
def PORT_CFG_SCHEDMASK : Fld := ⟨.PORT_CFG, 63, 56, .rw, 0, 0, 255⟩
def PORT_WIN_PHASE : Fld := ⟨.PORT_WIN, 63, 44, .rw, 0, 0, 1048575⟩
def PORT_WIN_SLEN : Fld := ⟨.PORT_WIN, 29, 15, .rw, 0, 0, 32767⟩
def PORT_WIN_K : Fld := ⟨.PORT_WIN, 4, 0, .rw, 14, 0, 31⟩
def PORT_STAT_STATE : Fld := ⟨.PORT_STAT, 63, 60, .ro, 0, 0, 15⟩
def PORT_STAT_DOWNCAUSE : Fld := ⟨.PORT_STAT, 59, 56, .ro, 0, 0, 15⟩
def PORT_STAT_NBRPORT : Fld := ⟨.PORT_STAT, 55, 48, .ro, 0, 0, 255⟩
def PORT_STAT_MINOR : Fld := ⟨.PORT_STAT, 47, 44, .ro, 0, 0, 15⟩
def PORT_STAT_LANEMAP : Fld := ⟨.PORT_STAT, 43, 43, .ro, 0, 0, 1⟩
def PORT_STAT_SWITCH : Fld := ⟨.PORT_STAT, 42, 42, .ro, 0, 0, 1⟩
def PORT_STAT_NBRMIN : Fld := ⟨.PORT_STAT, 41, 41, .ro, 0, 0, 1⟩
def PORT_STAT_PERMUTED : Fld := ⟨.PORT_STAT, 40, 40, .ro, 0, 0, 1⟩
def PORT_STAT_LAT : Fld := ⟨.PORT_STAT, 31, 0, .ro, 0, 0, 4294967295⟩
def PORT_RETRY_RETRY : Fld := ⟨.PORT_RETRY, 63, 32, .rw, 0, 0, 4294967295⟩
def PORT_RETRY_RTO : Fld := ⟨.PORT_RETRY, 31, 16, .rw, 0, 0, 65535⟩
def PORT_RETRY_MAXRUN : Fld := ⟨.PORT_RETRY, 7, 0, .rw, 0, 0, 255⟩
def PORT_DEFER_DEFER : Fld := ⟨.PORT_DEFER, 63, 32, .rw, 0, 0, 4294967295⟩
def PORT_DEFER_REFUSED : Fld := ⟨.PORT_DEFER, 31, 0, .rw, 0, 0, 4294967295⟩
def PORT_DISC_BADHOP : Fld := ⟨.PORT_DISC, 63, 48, .rw, 0, 0, 65535⟩
def PORT_DISC_NODEST : Fld := ⟨.PORT_DISC, 47, 32, .rw, 0, 0, 65535⟩
def PORT_DISC_OVERLONG : Fld := ⟨.PORT_DISC, 31, 16, .rw, 0, 0, 65535⟩
def PORT_FEC_CORR : Fld := ⟨.PORT_FEC, 63, 32, .rw, 0, 0, 4294967295⟩
def PORT_FEC_UNCORR : Fld := ⟨.PORT_FEC, 31, 0, .rw, 0, 0, 4294967295⟩
def PORT_NBR_BYTES : Fld := ⟨.PORT_NBR, 63, 0, .ro, 0, 0, 18446744073709551615⟩
def PORT_OWN_BYTES : Fld := ⟨.PORT_OWN, 63, 0, .ro, 0, 0, 18446744073709551615⟩
def ROUTE_NODE_STRAPERR : Fld := ⟨.ROUTE_NODE, 61, 61, .ro, 0, 0, 1⟩
def ROUTE_NODE_OUTSIDE : Fld := ⟨.ROUTE_NODE, 60, 60, .ro, 0, 0, 1⟩
def ROUTE_NODE_RAW : Fld := ⟨.ROUTE_NODE, 59, 30, .ro, 0, 0, 1073741823⟩
def ROUTE_NODE_ORIENT : Fld := ⟨.ROUTE_NODE, 29, 28, .ro, 0, 0, 3⟩
def ROUTE_NODE_SYSTEM : Fld := ⟨.ROUTE_NODE, 27, 20, .ro, 0, 0, 255⟩
def ROUTE_NODE_NODE : Fld := ⟨.ROUTE_NODE, 19, 0, .ro, 0, 0, 1048575⟩
def ROUTE_DIMS_DZ : Fld := ⟨.ROUTE_DIMS, 31, 24, .ps, 4, 1, 128⟩
def ROUTE_DIMS_DY : Fld := ⟨.ROUTE_DIMS, 23, 16, .ps, 4, 1, 128⟩
def ROUTE_DIMS_DX : Fld := ⟨.ROUTE_DIMS, 6, 0, .ps, 4, 1, 64⟩
def ROUTE_ROLE_ROLES : Fld := ⟨.ROUTE_ROLE, 63, 0, .rw, 0, 0, 18446744073709551615⟩
def ROUTE_CTL_NETS : Fld := ⟨.ROUTE_CTL, 9, 8, .wo, 0, 0, 3⟩
def ROUTE_CTL_CMD : Fld := ⟨.ROUTE_CTL, 3, 0, .wo, 0, 0, 15⟩
def ROUTE_STAT_STATUS : Fld := ⟨.ROUTE_STAT, 63, 56, .ro, 0, 0, 255⟩
def ROUTE_STAT_OUT : Fld := ⟨.ROUTE_STAT, 44, 32, .ro, 0, 0, 8191⟩
def ROUTE_STAT_RSPSTATE : Fld := ⟨.ROUTE_STAT, 3, 2, .ro, 0, 0, 3⟩
def ROUTE_STAT_REQSTATE : Fld := ⟨.ROUTE_STAT, 1, 0, .ro, 0, 0, 3⟩
def ROUTE_TMO_US : Fld := ⟨.ROUTE_TMO, 15, 0, .rw, 50, 1, 65535⟩
def ROUTE_ERR0_LATE_COMPLETION : Fld := ⟨.ROUTE_ERR0, 63, 32, .rw, 0, 0, 4294967295⟩
def ROUTE_ERR0_BADEXP : Fld := ⟨.ROUTE_ERR0, 31, 24, .rw, 0, 0, 255⟩
def ROUTE_ERR0_BADOP : Fld := ⟨.ROUTE_ERR0, 23, 16, .rw, 0, 0, 255⟩
def ROUTE_ERR0_CTRLDISC : Fld := ⟨.ROUTE_ERR0, 15, 0, .rw, 0, 0, 65535⟩
def ROUTE_ERR1_TIMEOUT : Fld := ⟨.ROUTE_ERR1, 63, 48, .rw, 0, 0, 65535⟩
def ROUTE_ERR1_LINKLOST : Fld := ⟨.ROUTE_ERR1, 47, 32, .rw, 0, 0, 65535⟩
def ROUTE_ERR1_NOROUTE : Fld := ⟨.ROUTE_ERR1, 31, 16, .rw, 0, 0, 65535⟩
def ROUTE_ERR1_HOPLIMIT : Fld := ⟨.ROUTE_ERR1, 15, 0, .rw, 0, 0, 65535⟩
def ROUTE_ENTRY_VALID : Fld := ⟨.ROUTE_ENTRY, 63, 63, .rw, 0, 0, 1⟩
def ROUTE_ENTRY_PRIO : Fld := ⟨.ROUTE_ENTRY, 62, 61, .rw, 0, 0, 3⟩
def ROUTE_ENTRY_ACTION : Fld := ⟨.ROUTE_ENTRY, 60, 58, .rw, 0, 0, 3⟩
def ROUTE_ENTRY_TARGET : Fld := ⟨.ROUTE_ENTRY, 57, 52, .rw, 0, 0, 63⟩
def ROUTE_ENTRY_HI : Fld := ⟨.ROUTE_ENTRY, 39, 20, .rw, 0, 0, 1048575⟩
def ROUTE_ENTRY_LO : Fld := ⟨.ROUTE_ENTRY, 19, 0, .rw, 0, 0, 1048575⟩
def ROUTE_SHADOW_SHADOWED : Fld := ⟨.ROUTE_SHADOW, 63, 0, .ro, 0, 0, 18446744073709551615⟩
def ROUTE_JOBBOX_EXPRESS : Fld := ⟨.ROUTE_JOBBOX, 63, 63, .rw, 0, 0, 1⟩
def ROUTE_JOBBOX_ZN : Fld := ⟨.ROUTE_JOBBOX, 42, 35, .rw, 0, 0, 255⟩
def ROUTE_JOBBOX_ZLO : Fld := ⟨.ROUTE_JOBBOX, 34, 28, .rw, 0, 0, 127⟩
def ROUTE_JOBBOX_YN : Fld := ⟨.ROUTE_JOBBOX, 27, 20, .rw, 0, 0, 255⟩
def ROUTE_JOBBOX_YLO : Fld := ⟨.ROUTE_JOBBOX, 19, 13, .rw, 0, 0, 127⟩
def ROUTE_JOBBOX_XN : Fld := ⟨.ROUTE_JOBBOX, 12, 6, .rw, 0, 0, 127⟩
def ROUTE_JOBBOX_XLO : Fld := ⟨.ROUTE_JOBBOX, 5, 0, .rw, 0, 0, 63⟩
def ROUTE_JOBROOT_ROOT : Fld := ⟨.ROUTE_JOBROOT, 19, 0, .rw, 0, 0, 1048575⟩
def ROUTE_GOPCFG_HOPNS : Fld := ⟨.ROUTE_GOPCFG, 63, 48, .rw, 150, 1, 65535⟩
def ROUTE_GOPCFG_TMO : Fld := ⟨.ROUTE_GOPCFG, 31, 0, .rw, 10000, 1, 4294967295⟩
def ROUTE_GOPCMD_OP : Fld := ⟨.ROUTE_GOPCMD, 3, 0, .wo, 0, 0, 15⟩
def ROUTE_GOPARG0_VALUE : Fld := ⟨.ROUTE_GOPARG0, 63, 0, .rw, 0, 0, 18446744073709551615⟩
def ROUTE_GOPARG1_SNAPVAR : Fld := ⟨.ROUTE_GOPARG1, 63, 60, .rw, 0, 0, 15⟩
def ROUTE_GOPARG1_SIZE : Fld := ⟨.ROUTE_GOPARG1, 59, 48, .rw, 0, 0, 4095⟩
def ROUTE_GOPARG1_DST : Fld := ⟨.ROUTE_GOPARG1, 47, 0, .rw, 0, 0, 281474976710655⟩
def ROUTE_GOPSTAT_STATUS : Fld := ⟨.ROUTE_GOPSTAT, 63, 56, .ro, 0, 0, 255⟩
def ROUTE_GOPSTAT_OP : Fld := ⟨.ROUTE_GOPSTAT, 55, 52, .ro, 0, 0, 15⟩
def ROUTE_GOPSTAT_BUSY : Fld := ⟨.ROUTE_GOPSTAT, 51, 51, .ro, 0, 0, 1⟩
def ROUTE_GOPSTAT_DROOT : Fld := ⟨.ROUTE_GOPSTAT, 39, 32, .ro, 0, 0, 255⟩
def ROUTE_GOPSTAT_BID : Fld := ⟨.ROUTE_GOPSTAT, 15, 0, .ro, 0, 0, 65535⟩
def SERVE_PCFG_EN : Fld := ⟨.SERVE_PCFG, 63, 63, .rw, 0, 0, 1⟩
def SERVE_PCFG_INGRESS : Fld := ⟨.SERVE_PCFG, 62, 62, .rw, 0, 0, 1⟩
def SERVE_PCFG_LOGMODE : Fld := ⟨.SERVE_PCFG, 61, 61, .rw, 0, 0, 1⟩
def SERVE_PCFG_LOGRING : Fld := ⟨.SERVE_PCFG, 53, 48, .rw, 0, 0, 63⟩
def SERVE_PCFG_ALAG : Fld := ⟨.SERVE_PCFG, 47, 40, .rw, 2, 1, 255⟩
def SERVE_PCFG_MAXDEC : Fld := ⟨.SERVE_PCFG, 39, 34, .rw, 16, 1, 63⟩
def SERVE_PCFG_MOVEBEATS : Fld := ⟨.SERVE_PCFG, 33, 27, .rw, 8, 1, 127⟩
def SERVE_PCFG_ECOUNT : Fld := ⟨.SERVE_PCFG, 26, 13, .rw, 0, 0, 8192⟩
def SERVE_PCFG_EFIRST : Fld := ⟨.SERVE_PCFG, 12, 0, .rw, 0, 0, 8191⟩
def SERVE_PLANCFG_SLOTMAX : Fld := ⟨.SERVE_PLANCFG, 63, 53, .rw, 0, 0, 1024⟩
def SERVE_PLANCFG_PLAN : Fld := ⟨.SERVE_PLANCFG, 47, 0, .rw, 0, 0, 281474976710655⟩
def SERVE_POOL0_KBASE : Fld := ⟨.SERVE_POOL0, 47, 0, .rw, 0, 0, 281474976710655⟩
def SERVE_POOL1_VBASE : Fld := ⟨.SERVE_POOL1, 47, 0, .rw, 0, 0, 281474976710655⟩
def SERVE_POOL2_KPAGE : Fld := ⟨.SERVE_POOL2, 63, 48, .rw, 0, 0, 65535⟩
def SERVE_POOL2_VPAGE : Fld := ⟨.SERVE_POOL2, 47, 32, .rw, 0, 0, 65535⟩
def SERVE_POOL2_NPAGES : Fld := ⟨.SERVE_POOL2, 20, 0, .rw, 0, 0, 1048576⟩
def SERVE_POOL3_PLSTRIDE : Fld := ⟨.SERVE_POOL3, 63, 48, .rw, 0, 0, 65535⟩
def SERVE_POOL3_PLBASE : Fld := ⟨.SERVE_POOL3, 47, 0, .rw, 0, 0, 281474976710655⟩
def SERVE_DLCFG_RESUMETH : Fld := ⟨.SERVE_DLCFG, 63, 32, .rw, 0, 0, 4294967295⟩
def SERVE_DLCFG_PAUSETH : Fld := ⟨.SERVE_DLCFG, 31, 0, .rw, 0, 0, 4294967295⟩
def SERVE_DLCFG2_TOKNS : Fld := ⟨.SERVE_DLCFG2, 63, 40, .rw, 0, 0, 16777215⟩
def SERVE_DLCFG2_PAUSEPRIO : Fld := ⟨.SERVE_DLCFG2, 34, 32, .rw, 7, 2, 7⟩
def SERVE_DLCFG2_PAUSEN : Fld := ⟨.SERVE_DLCFG2, 31, 26, .rw, 1, 1, 63⟩
def SERVE_DLCFG2_RESUMEN : Fld := ⟨.SERVE_DLCFG2, 25, 20, .rw, 1, 1, 63⟩
def SERVE_DLCFG2_PARKN : Fld := ⟨.SERVE_DLCFG2, 19, 16, .rw, 0, 0, 15⟩
def SERVE_DLCFG2_PARKAFTER : Fld := ⟨.SERVE_DLCFG2, 15, 0, .rw, 64, 0, 65535⟩
def SERVE_PARKTH_PARKHIGH : Fld := ⟨.SERVE_PARKTH, 63, 43, .rw, 0, 0, 2097151⟩
def SERVE_PARKTH_PARKLOW : Fld := ⟨.SERVE_PARKTH, 42, 22, .rw, 0, 0, 2097151⟩
def SERVE_PARK_PEER : Fld := ⟨.SERVE_PARK, 63, 63, .rw, 0, 0, 1⟩
def SERVE_PARK_NODE : Fld := ⟨.SERVE_PARK, 19, 0, .rw, 0, 0, 1048575⟩
def SERVE_PARKBASE_BASE : Fld := ⟨.SERVE_PARKBASE, 63, 0, .rw, 0, 0, 18446744073709551615⟩
def SERVE_PSTAT_FREEPAGES : Fld := ⟨.SERVE_PSTAT, 63, 43, .ro, 0, 0, 2097151⟩
def SERVE_PSTAT_INUSE : Fld := ⟨.SERVE_PSTAT, 42, 29, .ro, 0, 0, 16383⟩
def SERVE_PSTAT_VAR : Fld := ⟨.SERVE_PSTAT, 28, 25, .ro, 0, 0, 15⟩
def SERVE_SEQ_ADMSEQ : Fld := ⟨.SERVE_SEQ, 63, 32, .ro, 0, 0, 4294967295⟩
def SERVE_SEQ_BEAT : Fld := ⟨.SERVE_SEQ, 31, 0, .ro, 0, 0, 4294967295⟩
def SERVE_CNT0_ADMITTED : Fld := ⟨.SERVE_CNT0, 63, 32, .rw, 0, 0, 4294967295⟩
def SERVE_CNT0_REFUSED : Fld := ⟨.SERVE_CNT0, 31, 16, .rw, 0, 0, 65535⟩
def SERVE_CNT0_NOPAGE : Fld := ⟨.SERVE_CNT0, 15, 0, .rw, 0, 0, 65535⟩
def SERVE_CNT1_PAUSED : Fld := ⟨.SERVE_CNT1, 63, 48, .rw, 0, 0, 65535⟩
def SERVE_CNT1_PARKED : Fld := ⟨.SERVE_CNT1, 47, 32, .rw, 0, 0, 65535⟩
def SERVE_CNT1_STALE : Fld := ⟨.SERVE_CNT1, 31, 16, .rw, 0, 0, 65535⟩
def SERVE_CNT1_DROPREC : Fld := ⟨.SERVE_CNT1, 15, 0, .rw, 0, 0, 65535⟩
def SERVE_ABORT_STATUS : Fld := ⟨.SERVE_ABORT, 63, 56, .ro, 0, 0, 255⟩
def SERVE_ABORT_REQID : Fld := ⟨.SERVE_ABORT, 31, 0, .wo, 0, 0, 4294967295⟩
def SERVE_RATIO_VALID : Fld := ⟨.SERVE_RATIO, 63, 63, .rw, 0, 0, 1⟩
def SERVE_RATIO_VAR : Fld := ⟨.SERVE_RATIO, 35, 32, .rw, 0, 0, 15⟩
def SERVE_RATIO_TH : Fld := ⟨.SERVE_RATIO, 23, 0, .rw, 0, 0, 16777215⟩
def SERVE_VAR_CHUNKMAX : Fld := ⟨.SERVE_VAR, 63, 48, .rw, 256, 1, 65535⟩
def SERVE_VAR_DSLOTS : Fld := ⟨.SERVE_VAR, 47, 32, .rw, 0, 0, 1024⟩
def SERVE_VAR_PBUDGET : Fld := ⟨.SERVE_VAR, 19, 0, .rw, 0, 0, 1048575⟩
def SERVE_INGNODE_NODE : Fld := ⟨.SERVE_INGNODE, 19, 0, .rw, 0, 0, 1048575⟩
def SERVE_TBANK_BANK : Fld := ⟨.SERVE_TBANK, 2, 0, .rw, 0, 0, 7⟩
def SERVE_TABLE_BYTES : Fld := ⟨.SERVE_TABLE, 63, 0, .ro, 0, 0, 18446744073709551615⟩
def HQ_ACCERR_VALID : Fld := ⟨.HQ_ACCERR, 63, 63, .w1c, 0, 0, 1⟩
def HQ_ACCERR_KIND : Fld := ⟨.HQ_ACCERR, 62, 59, .ro, 0, 0, 15⟩
def HQ_ACCERR_BAR : Fld := ⟨.HQ_ACCERR, 58, 58, .ro, 0, 0, 1⟩
def HQ_ACCERR_WRITE : Fld := ⟨.HQ_ACCERR, 57, 57, .ro, 0, 0, 1⟩
def HQ_ACCERR_MORE : Fld := ⟨.HQ_ACCERR, 56, 49, .ro, 0, 0, 255⟩
def HQ_ACCERR_OFFSET : Fld := ⟨.HQ_ACCERR, 35, 0, .ro, 0, 0, 68719476735⟩
def HQ_BAR2CFG_SPACE : Fld := ⟨.HQ_BAR2CFG, 3, 0, .rw, 0, 0, 1⟩
def HQ_RBASE_BASE : Fld := ⟨.HQ_RBASE, 63, 12, .rw, 0, 0, 4503599627370495⟩
def HQ_RCFG_EN : Fld := ⟨.HQ_RCFG, 63, 63, .rw, 0, 0, 1⟩
def HQ_RCFG_DIR : Fld := ⟨.HQ_RCFG, 62, 62, .rw, 0, 0, 1⟩
def HQ_RCFG_MEDIUM : Fld := ⟨.HQ_RCFG, 61, 60, .rw, 0, 0, 2⟩
def HQ_RCFG_USE : Fld := ⟨.HQ_RCFG, 59, 56, .rw, 0, 0, 6⟩
def HQ_RCFG_PART : Fld := ⟨.HQ_RCFG, 55, 53, .rw, 0, 0, 7⟩
def HQ_RCFG_IRQ : Fld := ⟨.HQ_RCFG, 52, 52, .rw, 0, 0, 1⟩
def HQ_RCFG_VEC : Fld := ⟨.HQ_RCFG, 51, 44, .rw, 0, 0, 255⟩
def HQ_RCFG_SLOTLOG : Fld := ⟨.HQ_RCFG, 43, 40, .rw, 6, 6, 12⟩
def HQ_RCFG_NSLOTLOG : Fld := ⟨.HQ_RCFG, 39, 35, .rw, 4, 4, 16⟩
def HQ_RHPOS_HPOS : Fld := ⟨.HQ_RHPOS, 31, 0, .rw, 0, 0, 4294967295⟩
def HQ_RSTAT_DPOS : Fld := ⟨.HQ_RSTAT, 63, 32, .ro, 0, 0, 4294967295⟩
def HQ_RSTAT_OVR : Fld := ⟨.HQ_RSTAT, 31, 31, .w1c, 0, 0, 1⟩
def HQ_RSTAT_UND : Fld := ⟨.HQ_RSTAT, 30, 30, .w1c, 0, 0, 1⟩
def HQ_RSTAT_DEPTH : Fld := ⟨.HQ_RSTAT, 16, 0, .ro, 0, 0, 131071⟩
def HQ_DCFG_EN : Fld := ⟨.HQ_DCFG, 63, 63, .rw, 0, 0, 1⟩
def HQ_DCFG_DSTATE : Fld := ⟨.HQ_DCFG, 62, 62, .ro, 0, 0, 1⟩
def HQ_DCFG_DESCRING : Fld := ⟨.HQ_DCFG, 61, 56, .rw, 0, 0, 63⟩
def HQ_DCFG_CPLRING : Fld := ⟨.HQ_DCFG, 53, 48, .rw, 0, 0, 63⟩
def HQ_DCFG_DONE : Fld := ⟨.HQ_DCFG, 31, 0, .ro, 0, 0, 4294967295⟩
def HQ_JOB_STATUS : Fld := ⟨.HQ_JOB, 63, 56, .ro, 0, 0, 255⟩
def HQ_JOB_SPREAD : Fld := ⟨.HQ_JOB, 8, 8, .wo, 0, 0, 1⟩
def HQ_JOB_CMD : Fld := ⟨.HQ_JOB, 3, 0, .wo, 0, 0, 15⟩
def HQ_LAUNCHCNT_COUNT : Fld := ⟨.HQ_LAUNCHCNT, 63, 0, .rw, 0, 0, 18446744073709551615⟩
def HQ_EMIT_DESC : Fld := ⟨.HQ_EMIT, 47, 0, .rw, 0, 0, 281474976710655⟩
def HQ_INDESC_INBASE : Fld := ⟨.HQ_INDESC, 47, 0, .rw, 0, 0, 281474976710655⟩
def HQ_INSTAGE_STBASE : Fld := ⟨.HQ_INSTAGE, 47, 0, .rw, 0, 0, 281474976710655⟩
def HQ_INCFG_SLOTLINES : Fld := ⟨.HQ_INCFG, 63, 44, .rw, 0, 1, 262144⟩
def HQ_INCFG_NSTAGE : Fld := ⟨.HQ_INCFG, 31, 20, .rw, 0, 0, 2047⟩
def HQ_NETCFG_UDPPORT : Fld := ⟨.HQ_NETCFG, 63, 48, .rw, 19260, 0, 65535⟩
def HQ_NETCFG_RTO : Fld := ⟨.HQ_NETCFG, 47, 32, .rw, 200, 1, 65535⟩
def HQ_NETCFG_TELEMMS : Fld := ⟨.HQ_NETCFG, 31, 16, .rw, 0, 0, 65535⟩
def HQ_NETCFG_PARKNET : Fld := ⟨.HQ_NETCFG, 0, 0, .rw, 0, 0, 1⟩
def TIME_GTC_GTC : Fld := ⟨.TIME_GTC, 63, 0, .ro, 0, 0, 18446744073709551615⟩
def TIME_STAT_SYNC : Fld := ⟨.TIME_STAT, 63, 63, .ro, 0, 0, 1⟩
def TIME_STAT_INIT : Fld := ⟨.TIME_STAT, 62, 62, .ro, 0, 0, 1⟩
def TIME_STAT_HOLDOVER : Fld := ⟨.TIME_STAT, 61, 61, .ro, 0, 0, 1⟩
def TIME_STAT_REFLOSS : Fld := ⟨.TIME_STAT, 60, 60, .ro, 0, 0, 1⟩
def TIME_STAT_PRIMARY : Fld := ⟨.TIME_STAT, 59, 59, .ro, 0, 0, 1⟩
def TIME_STAT_PARENT : Fld := ⟨.TIME_STAT, 55, 48, .ro, 0, 0, 255⟩
def TIME_STAT_HOPS : Fld := ⟨.TIME_STAT, 47, 32, .ro, 0, 0, 65535⟩
def TIME_STAT_MASTERID : Fld := ⟨.TIME_STAT, 19, 0, .ro, 0, 0, 1048575⟩
def TIME_ERR_LAST : Fld := ⟨.TIME_ERR, 63, 32, .ro, 0, 0, 4294967295⟩
def TIME_ERR_REMAIN : Fld := ⟨.TIME_ERR, 31, 0, .ro, 0, 0, 4294967295⟩
def TIME_SLEW_REFUSED : Fld := ⟨.TIME_SLEW, 63, 32, .rw, 0, 0, 4294967295⟩
def TIME_SLEW_MAXPPM : Fld := ⟨.TIME_SLEW, 7, 0, .rw, 200, 1, 200⟩
def TIME_MASTER_MASTER : Fld := ⟨.TIME_MASTER, 31, 31, .ps, 0, 0, 1⟩
def TIME_MASTER_SRC : Fld := ⟨.TIME_MASTER, 9, 8, .ps, 0, 0, 3⟩
def TIME_MASTER_DOMAIN : Fld := ⟨.TIME_MASTER, 7, 0, .ps, 0, 0, 255⟩
def TIME_SET_VALUE : Fld := ⟨.TIME_SET, 63, 0, .wo, 0, 0, 18446744073709551615⟩
def TIME_ALARM_AT : Fld := ⟨.TIME_ALARM, 63, 0, .rw, 18446744073709551615, 0, 18446744073709551615⟩
def TIME_PPS_OFFSET : Fld := ⟨.TIME_PPS, 29, 0, .rw, 0, 0, 999999999⟩
def PWR_CAP_CAP : Fld := ⟨.PWR_CAP, 10, 0, .ps, 1200, 250, 1200⟩
def PWR_BUDGET_STATUS : Fld := ⟨.PWR_BUDGET, 63, 56, .ro, 0, 0, 255⟩
def PWR_BUDGET_TRIP : Fld := ⟨.PWR_BUDGET, 55, 55, .w1c, 0, 0, 1⟩
def PWR_BUDGET_NOW : Fld := ⟨.PWR_BUDGET, 42, 32, .ro, 0, 0, 2047⟩
def PWR_BUDGET_TOTAL : Fld := ⟨.PWR_BUDGET, 21, 11, .ro, 0, 0, 2047⟩
def PWR_BUDGET_BASE : Fld := ⟨.PWR_BUDGET, 10, 0, .ro, 0, 0, 2047⟩
def PWR_STATE_STATUS : Fld := ⟨.PWR_STATE, 63, 56, .ro, 0, 0, 255⟩
def PWR_STATE_WAKESRC : Fld := ⟨.PWR_STATE, 7, 5, .ro, 0, 0, 7⟩
def PWR_STATE_BUSY : Fld := ⟨.PWR_STATE, 4, 4, .ro, 0, 0, 1⟩
def PWR_STATE_CUR : Fld := ⟨.PWR_STATE, 1, 0, .ro, 0, 0, 3⟩
def PWR_STATECMD_TARGET : Fld := ⟨.PWR_STATECMD, 1, 0, .wo, 0, 0, 3⟩
def PWR_WAKESEL_PORTS : Fld := ⟨.PWR_WAKESEL, 63, 16, .ps, 0, 0, 281474976710655⟩
def PWR_WAKESEL_TIMEKEEP : Fld := ⟨.PWR_WAKESEL, 8, 8, .ps, 1, 0, 1⟩
def PWR_WAKESEL_SOURCES : Fld := ⟨.PWR_WAKESEL, 5, 0, .ps, 63, 0, 63⟩
def PWR_THERM_ALERT : Fld := ⟨.PWR_THERM, 23, 16, .rw, 100, 70, 110⟩
def PWR_THERM_TEMP : Fld := ⟨.PWR_THERM, 15, 0, .ro, 0, 0, 65535⟩
def PWR_PLL_LOST : Fld := ⟨.PWR_PLL, 31, 0, .w1c, 0, 0, 4294967295⟩
def PWR_STEP_STATUS : Fld := ⟨.PWR_STEP, 63, 56, .ro, 0, 0, 255⟩
def PWR_STEP_PENDING : Fld := ⟨.PWR_STEP, 55, 55, .ro, 0, 0, 1⟩
def PWR_STEP_NEXT : Fld := ⟨.PWR_STEP, 50, 48, .ro, 0, 0, 7⟩
def PWR_STEP_CUR : Fld := ⟨.PWR_STEP, 34, 32, .ro, 7, 0, 7⟩
def PWR_STEP_BEAT : Fld := ⟨.PWR_STEP, 31, 0, .ro, 0, 0, 4294967295⟩
def PWR_STEPCMD_SPREAD : Fld := ⟨.PWR_STEPCMD, 63, 63, .wo, 0, 0, 1⟩
def PWR_STEPCMD_STEP : Fld := ⟨.PWR_STEPCMD, 50, 48, .wo, 0, 0, 7⟩
def PWR_STEPCMD_BEAT : Fld := ⟨.PWR_STEPCMD, 47, 0, .wo, 0, 0, 281474976710655⟩
def PWR_PDECL_W : Fld := ⟨.PWR_PDECL, 10, 0, .rw, 0, 0, 2047⟩
def EVC_PEND_PEND : Fld := ⟨.EVC_PEND, 63, 0, .rw, 0, 0, 18446744073709551615⟩
def EVC_MASK_MASK : Fld := ⟨.EVC_MASK, 63, 0, .rw, 18446744073709551615, 0, 18446744073709551615⟩
def EVC_NEXT_VALID : Fld := ⟨.EVC_NEXT, 63, 63, .ro, 0, 0, 1⟩
def EVC_NEXT_SRC : Fld := ⟨.EVC_NEXT, 9, 0, .ro, 0, 0, 1023⟩
def EVC_WIRE_FILT : Fld := ⟨.EVC_WIRE, 17, 17, .ro, 0, 0, 1⟩
def EVC_WIRE_RAW : Fld := ⟨.EVC_WIRE, 16, 16, .ro, 0, 0, 1⟩
def EVC_WIRE_EDGE : Fld := ⟨.EVC_WIRE, 9, 8, .rw, 0, 0, 2⟩
def EVC_WIRE_N : Fld := ⟨.EVC_WIRE, 7, 0, .rw, 4, 0, 255⟩
def EVC_GLOG_TICK : Fld := ⟨.EVC_GLOG, 63, 10, .ro, 0, 0, 18014398509481983⟩
def EVC_GLOG_SRC : Fld := ⟨.EVC_GLOG, 9, 0, .ro, 0, 0, 1023⟩
def EVC_GLOGPOS_TOTAL : Fld := ⟨.EVC_GLOGPOS, 31, 16, .ro, 0, 0, 65535⟩
def EVC_GLOGPOS_NEXT : Fld := ⟨.EVC_GLOGPOS, 4, 0, .ro, 0, 0, 31⟩
def EVC_CNT_COUNT : Fld := ⟨.EVC_CNT, 63, 0, .rw, 0, 0, 18446744073709551615⟩
def EVC_ROUTE_VEC : Fld := ⟨.EVC_ROUTE, 23, 16, .rw, 0, 0, 255⟩
def EVC_ROUTE_GREEN : Fld := ⟨.EVC_ROUTE, 4, 4, .rw, 0, 0, 1⟩
def EVC_ROUTE_HOST : Fld := ⟨.EVC_ROUTE, 3, 3, .rw, 0, 0, 1⟩
def EVC_ROUTE_PRIMARY : Fld := ⟨.EVC_ROUTE, 2, 2, .rw, 1, 0, 1⟩
def EVC_ROUTE_MC1 : Fld := ⟨.EVC_ROUTE, 1, 1, .rw, 0, 0, 1⟩
def EVC_ROUTE_MC0 : Fld := ⟨.EVC_ROUTE, 0, 0, .rw, 0, 0, 1⟩
def ROOT_BOOT_BOOT_OK : Fld := ⟨.ROOT_BOOT, 63, 63, .ro, 0, 0, 1⟩
def ROOT_BOOT_MINIMAL : Fld := ⟨.ROOT_BOOT, 62, 62, .ro, 0, 0, 1⟩
def ROOT_BOOT_STAGE : Fld := ⟨.ROOT_BOOT, 61, 58, .ro, 0, 0, 15⟩
def ROOT_BOOT_REASON : Fld := ⟨.ROOT_BOOT, 55, 48, .ro, 0, 0, 255⟩
def ROOT_BOOT_CAUSE : Fld := ⟨.ROOT_BOOT, 47, 44, .ro, 0, 0, 15⟩
def ROOT_BOOT_FAILCNT : Fld := ⟨.ROOT_BOOT, 43, 42, .ro, 0, 0, 3⟩
def ROOT_BOOT_SLOT : Fld := ⟨.ROOT_BOOT, 41, 41, .ro, 0, 0, 1⟩
def ROOT_BOOT_VERSION : Fld := ⟨.ROOT_BOOT, 31, 0, .ro, 0, 0, 4294967295⟩
def ROOT_IMG_STATE : Fld := ⟨.ROOT_IMG, 63, 62, .ro, 0, 0, 3⟩
def ROOT_IMG_KEYIDX : Fld := ⟨.ROOT_IMG, 39, 32, .ro, 0, 0, 255⟩
def ROOT_IMG_VERSION : Fld := ⟨.ROOT_IMG, 31, 0, .ro, 0, 0, 4294967295⟩
def ROOT_MGMT_PRIMARY : Fld := ⟨.ROOT_MGMT, 63, 63, .ro, 0, 0, 1⟩
def ROOT_MGMT_MC0STATE : Fld := ⟨.ROOT_MGMT, 62, 60, .ro, 0, 0, 7⟩
def ROOT_MGMT_MC1STATE : Fld := ⟨.ROOT_MGMT, 59, 57, .ro, 0, 0, 7⟩
def ROOT_MGMT_MC0SLOT : Fld := ⟨.ROOT_MGMT, 56, 56, .ro, 0, 0, 1⟩
def ROOT_MGMT_MC1SLOT : Fld := ⟨.ROOT_MGMT, 55, 55, .ro, 0, 0, 1⟩
def ROOT_MGMT_MC1EXP : Fld := ⟨.ROOT_MGMT, 15, 8, .ro, 0, 0, 255⟩
def ROOT_MGMT_MC0EXP : Fld := ⟨.ROOT_MGMT, 7, 0, .ro, 0, 0, 255⟩
def ROOT_WDOG_REMAIN : Fld := ⟨.ROOT_WDOG, 47, 32, .ro, 0, 0, 65535⟩
def ROOT_WDOG_PERIOD : Fld := ⟨.ROOT_WDOG, 15, 0, .ro, 0, 0, 65535⟩
def ROOT_FUSE_REVOKED : Fld := ⟨.ROOT_FUSE, 63, 60, .ro, 0, 0, 15⟩
def ROOT_FUSE_KEYS : Fld := ⟨.ROOT_FUSE, 59, 56, .ro, 0, 0, 15⟩
def ROOT_FUSE_SVNFLOOR : Fld := ⟨.ROOT_FUSE, 31, 0, .ro, 0, 0, 4294967295⟩
def PS_INDEX_WORD : Fld := ⟨.PS_INDEX, 13, 0, .rw, 0, 0, 16383⟩
def PS_DATA_VALUE : Fld := ⟨.PS_DATA, 31, 0, .ps, 0, 0, 4294967295⟩
def PS_WCOUNT_COUNT : Fld := ⟨.PS_WCOUNT, 19, 0, .ro, 0, 0, 1048575⟩
def PS_STAT_STATUS : Fld := ⟨.PS_STAT, 63, 56, .ro, 0, 0, 255⟩
def PS_STAT_WEAR : Fld := ⟨.PS_STAT, 55, 55, .w1c, 0, 0, 1⟩
def PS_STAT_BUSY : Fld := ⟨.PS_STAT, 54, 54, .ro, 0, 0, 1⟩
def PS_STAT_LOST : Fld := ⟨.PS_STAT, 47, 40, .ro, 0, 0, 255⟩
def PS_STAT_REFWORD : Fld := ⟨.PS_STAT, 29, 16, .ro, 0, 0, 16383⟩
def PS_STAT_WEARWORD : Fld := ⟨.PS_STAT, 13, 0, .ro, 0, 0, 16383⟩
def PS_BOOTREC_VERSION : Fld := ⟨.PS_BOOTREC, 63, 32, .ro, 0, 0, 4294967295⟩
def PS_BOOTREC_RECORD : Fld := ⟨.PS_BOOTREC, 31, 0, .ro, 0, 0, 4294967295⟩
def PS_BOOTCNT_COUNT : Fld := ⟨.PS_BOOTCNT, 31, 0, .ro, 0, 0, 4294967295⟩
def MBOX_STAT_STATE : Fld := ⟨.MBOX_STAT, 63, 62, .ro, 0, 0, 3⟩
def MBOX_STAT_AVAIL : Fld := ⟨.MBOX_STAT, 61, 61, .ro, 0, 0, 1⟩
def MBOX_STAT_SERVER : Fld := ⟨.MBOX_STAT, 60, 59, .ro, 0, 0, 3⟩
def MBOX_STAT_IFMAJOR : Fld := ⟨.MBOX_STAT, 55, 48, .ro, 4, 0, 255⟩
def MBOX_STAT_IFMINOR : Fld := ⟨.MBOX_STAT, 47, 40, .ro, 0, 0, 255⟩
def MBOX_STAT_POSTERR : Fld := ⟨.MBOX_STAT, 39, 32, .rw, 0, 0, 255⟩
def MBOX_STAT_SEQ : Fld := ⟨.MBOX_STAT, 15, 0, .ro, 0, 0, 65535⟩
def MBOX_POST_GO : Fld := ⟨.MBOX_POST, 0, 0, .wo, 0, 0, 1⟩
def MBOX_REQ_BYTES : Fld := ⟨.MBOX_REQ, 63, 0, .rw, 0, 0, 18446744073709551615⟩
def MBOX_RSP_BYTES : Fld := ⟨.MBOX_RSP, 63, 0, .ro, 0, 0, 18446744073709551615⟩
def ROOT_RESET_LAST : Fld := ⟨.ROOT_RESET, 11, 8, .ro, 0, 0, 15⟩
def ROOT_RESET_KIND : Fld := ⟨.ROOT_RESET, 1, 0, .wo, 0, 0, 3⟩
def ROOT_MAINT_HELD : Fld := ⟨.ROOT_MAINT, 63, 63, .ro, 0, 0, 1⟩
def ROOT_MAINT_PROGRESS : Fld := ⟨.ROOT_MAINT, 23, 16, .ro, 0, 0, 255⟩
def ROOT_MAINT_STATUS : Fld := ⟨.ROOT_MAINT, 15, 8, .ro, 0, 0, 255⟩
def ROOT_MAINT_ACT : Fld := ⟨.ROOT_MAINT, 7, 0, .ro, 0, 0, 255⟩
def TIME_LEDGER_BAD : Fld := ⟨.TIME_LEDGER, 63, 63, .ro, 0, 0, 1⟩
def TIME_LEDGER_BASE : Fld := ⟨.TIME_LEDGER, 47, 0, .rw, 0, 0, 281474976710655⟩
def TIME_FAULT_CAUSE : Fld := ⟨.TIME_FAULT, 63, 56, .ro, 0, 0, 255⟩
def TIME_FAULT_STATUS : Fld := ⟨.TIME_FAULT, 55, 48, .ro, 0, 0, 255⟩
def TIME_FAULT_CORE : Fld := ⟨.TIME_FAULT, 47, 39, .ro, 0, 0, 511⟩
def TIME_FAULT_PORT : Fld := ⟨.TIME_FAULT, 38, 33, .ro, 0, 0, 63⟩
def TIME_FAULT_MORE : Fld := ⟨.TIME_FAULT, 31, 24, .ro, 0, 0, 255⟩
def TIME_FAULT_BEAT : Fld := ⟨.TIME_FAULT, 23, 0, .ro, 0, 0, 16777215⟩
def DIST_SLOTS_FENCED : Fld := ⟨.DIST_SLOTS, 24, 16, .ro, 0, 0, 511⟩
def DIST_SLOTS_MAPPED : Fld := ⟨.DIST_SLOTS, 8, 0, .ro, 0, 0, 511⟩
end F

/-- The fields of a register, from the top bit down. Bits of no field are reserved: they read zero (R18). -/
def fieldsOf : RegName → List Fld
  | .ROOT_ID => [F.ROOT_ID_ARCH, F.ROOT_ID_CODE, F.ROOT_ID_STEP, F.ROOT_ID_TIERS, F.ROOT_ID_IODIES, F.ROOT_ID_PORTS, F.ROOT_ID_PHYSLOT]
  | .ROOT_CLASSVEC => [F.ROOT_CLASSVEC_CLASS]
  | .CORECTL_NUMSTAT => [F.CORECTL_NUMSTAT_SATCNT, F.CORECTL_NUMSTAT_ISAT, F.CORECTL_NUMSTAT_XSAT]
  | .CORECTL_CVFLAGS => [F.CORECTL_CVFLAGS_DZ, F.CORECTL_CVFLAGS_INX, F.CORECTL_CVFLAGS_UFL, F.CORECTL_CVFLAGS_OFL, F.CORECTL_CVFLAGS_INV]
  | .CORECTL_MATSTAT => [F.CORECTL_MATSTAT_SPACECNT, F.CORECTL_MATSTAT_SWAPCNT]
  | .CORECTL_CHNSTAT => [F.CORECTL_CHNSTAT_WAITCNT, F.CORECTL_CHNSTAT_SATTAGCNT]
  | .THKT_QFILL0 => [F.THKT_QFILL0_FILL]
  | .THKT_QFILL1 => [F.THKT_QFILL1_FILL]
  | .THKT_UQFILL => [F.THKT_UQFILL_FILL]
  | .THKT_CNT => [F.THKT_CNT_STEAL, F.THKT_CNT_SUBWAIT]
  | .THKT_MOECNT => [F.THKT_MOECNT_DROPPED, F.THKT_MOECNT_DEFERRED]
  | .ROOT_FILLCFG => [F.ROOT_FILLCFG_POISON, F.ROOT_FILLCFG_PATTERN]
  | .ROOT_SWEEPCTL => [F.ROOT_SWEEPCTL_MASK]
  | .ROOT_SWEEPSTAT => [F.ROOT_SWEEPSTAT_STATUS, F.ROOT_SWEEPSTAT_ACTIVE]
  | .CORECTL_MEMSTAT => [F.CORECTL_MEMSTAT_CECNT, F.CORECTL_MEMSTAT_POISCNT]
  | .CORECTL_MEMLOG => [F.CORECTL_MEMLOG_KIND, F.CORECTL_MEMLOG_UNIT, F.CORECTL_MEMLOG_MORE, F.CORECTL_MEMLOG_ADDR]
  | .CAL_ENTRY => [F.CAL_ENTRY_ODD, F.CAL_ENTRY_EVEN]
  | .CAL_LEN => [F.CAL_LEN_LEN]
  | .CAL_COLSTAT => [F.CAL_COLSTAT_CECNT, F.CAL_COLSTAT_REBUILD, F.CAL_COLSTAT_UECNT, F.CAL_COLSTAT_FAILED, F.CAL_COLSTAT_FBANK]
  | .CAL_SCRUB => [F.CAL_SCRUB_PASSES, F.CAL_SCRUB_POINTER]
  | .CAL_CUR => [F.CAL_CUR_PAGE]
  | .DIST_BULK => [F.DIST_BULK_ODD, F.DIST_BULK_EVEN]
  | .DIST_PORT => [F.DIST_PORT_ODD, F.DIST_PORT_EVEN]
  | .DIST_CS => [F.DIST_CS_ODD, F.DIST_CS_EVEN]
  | .DIST_GEN => [F.DIST_GEN_GEN]
  | .CORECTL_QFILL => [F.CORECTL_QFILL_LNK, F.CORECTL_QFILL_MOV, F.CORECTL_QFILL_CHN, F.CORECTL_QFILL_MAT, F.CORECTL_QFILL_SEQ, F.CORECTL_QFILL_INFLT, F.CORECTL_QFILL_LOOPS]
  | .CORECTL_SEQSTAT => [F.CORECTL_SEQSTAT_STATE, F.CORECTL_SEQSTAT_BEATS, F.CORECTL_SEQSTAT_FETCH]
  | .CORECTL_SEQCFG => [F.CORECTL_SEQCFG_ENTRY]
  | .CORECTL_QSTAT => [F.CORECTL_QSTAT_FULLCNT, F.CORECTL_QSTAT_SAT, F.CORECTL_QSTAT_SATCTR]
  | .CORECTL_SYNC => [F.CORECTL_SYNC_VALUE]
  | .CORECTL_ILLEGAL => [F.CORECTL_ILLEGAL_REASON, F.CORECTL_ILLEGAL_QUEUE, F.CORECTL_ILLEGAL_OPCODE, F.CORECTL_ILLEGAL_MORE, F.CORECTL_ILLEGAL_ADDR]
  | .CORECTL_LANDING => [F.CORECTL_LANDING_FILL]
  | .TIME_JOB_CFG => [F.TIME_JOB_CFG_JOBID, F.TIME_JOB_CFG_MODE]
  | .TIME_BEAT_CFG => [F.TIME_BEAT_CFG_FAULTLIM, F.TIME_BEAT_CFG_LAGLIM, F.TIME_BEAT_CFG_K]
  | .TIME_LAUNCH => [F.TIME_LAUNCH_COUNT]
  | .TIME_JOB_STAT => [F.TIME_JOB_STAT_STATE, F.TIME_JOB_STAT_LSTATUS, F.TIME_JOB_STAT_FROZEN, F.TIME_JOB_STAT_GATE, F.TIME_JOB_STAT_LAGF, F.TIME_JOB_STAT_BEAT]
  | .TIME_LAG => [F.TIME_LAG_MAX, F.TIME_LAG_NOW]
  | .TIME_FRZ => [F.TIME_FRZ_COUNT, F.TIME_FRZ_TOTAL]
  | .TIME_FRZLAST => [F.TIME_FRZLAST_CAUSE, F.TIME_FRZLAST_CH, F.TIME_FRZLAST_CORE, F.TIME_FRZLAST_BEAT]
  | .TIME_CHOICE => [F.TIME_CHOICE_COUNT]
  | .TIME_CHOICEBY => [F.TIME_CHOICEBY_STEAL, F.TIME_CHOICEBY_SERVE, F.TIME_CHOICEBY_REQNET, F.TIME_CHOICEBY_OUTCOME]
  | .TIME_DIGEST => [F.TIME_DIGEST_BYTES]
  | .PORT_CTL => [F.PORT_CTL_RESET, F.PORT_CTL_ENABLE]
  | .PORT_CFG => [F.PORT_CFG_SCHEDMASK]
  | .PORT_WIN => [F.PORT_WIN_PHASE, F.PORT_WIN_SLEN, F.PORT_WIN_K]
  | .PORT_STAT => [F.PORT_STAT_STATE, F.PORT_STAT_DOWNCAUSE, F.PORT_STAT_NBRPORT, F.PORT_STAT_MINOR, F.PORT_STAT_LANEMAP, F.PORT_STAT_SWITCH, F.PORT_STAT_NBRMIN, F.PORT_STAT_PERMUTED, F.PORT_STAT_LAT]
  | .PORT_RETRY => [F.PORT_RETRY_RETRY, F.PORT_RETRY_RTO, F.PORT_RETRY_MAXRUN]
  | .PORT_DEFER => [F.PORT_DEFER_DEFER, F.PORT_DEFER_REFUSED]
  | .PORT_DISC => [F.PORT_DISC_BADHOP, F.PORT_DISC_NODEST, F.PORT_DISC_OVERLONG]
  | .PORT_FEC => [F.PORT_FEC_CORR, F.PORT_FEC_UNCORR]
  | .PORT_NBR => [F.PORT_NBR_BYTES]
  | .PORT_OWN => [F.PORT_OWN_BYTES]
  | .ROUTE_NODE => [F.ROUTE_NODE_STRAPERR, F.ROUTE_NODE_OUTSIDE, F.ROUTE_NODE_RAW, F.ROUTE_NODE_ORIENT, F.ROUTE_NODE_SYSTEM, F.ROUTE_NODE_NODE]
  | .ROUTE_DIMS => [F.ROUTE_DIMS_DZ, F.ROUTE_DIMS_DY, F.ROUTE_DIMS_DX]
  | .ROUTE_ROLE => [F.ROUTE_ROLE_ROLES]
  | .ROUTE_CTL => [F.ROUTE_CTL_NETS, F.ROUTE_CTL_CMD]
  | .ROUTE_STAT => [F.ROUTE_STAT_STATUS, F.ROUTE_STAT_OUT, F.ROUTE_STAT_RSPSTATE, F.ROUTE_STAT_REQSTATE]
  | .ROUTE_TMO => [F.ROUTE_TMO_US]
  | .ROUTE_ERR0 => [F.ROUTE_ERR0_LATE_COMPLETION, F.ROUTE_ERR0_BADEXP, F.ROUTE_ERR0_BADOP, F.ROUTE_ERR0_CTRLDISC]
  | .ROUTE_ERR1 => [F.ROUTE_ERR1_TIMEOUT, F.ROUTE_ERR1_LINKLOST, F.ROUTE_ERR1_NOROUTE, F.ROUTE_ERR1_HOPLIMIT]
  | .ROUTE_ENTRY => [F.ROUTE_ENTRY_VALID, F.ROUTE_ENTRY_PRIO, F.ROUTE_ENTRY_ACTION, F.ROUTE_ENTRY_TARGET, F.ROUTE_ENTRY_HI, F.ROUTE_ENTRY_LO]
  | .ROUTE_SHADOW => [F.ROUTE_SHADOW_SHADOWED]
  | .ROUTE_JOBBOX => [F.ROUTE_JOBBOX_EXPRESS, F.ROUTE_JOBBOX_ZN, F.ROUTE_JOBBOX_ZLO, F.ROUTE_JOBBOX_YN, F.ROUTE_JOBBOX_YLO, F.ROUTE_JOBBOX_XN, F.ROUTE_JOBBOX_XLO]
  | .ROUTE_JOBROOT => [F.ROUTE_JOBROOT_ROOT]
  | .ROUTE_GOPCFG => [F.ROUTE_GOPCFG_HOPNS, F.ROUTE_GOPCFG_TMO]
  | .ROUTE_GOPCMD => [F.ROUTE_GOPCMD_OP]
  | .ROUTE_GOPARG0 => [F.ROUTE_GOPARG0_VALUE]
  | .ROUTE_GOPARG1 => [F.ROUTE_GOPARG1_SNAPVAR, F.ROUTE_GOPARG1_SIZE, F.ROUTE_GOPARG1_DST]
  | .ROUTE_GOPSTAT => [F.ROUTE_GOPSTAT_STATUS, F.ROUTE_GOPSTAT_OP, F.ROUTE_GOPSTAT_BUSY, F.ROUTE_GOPSTAT_DROOT, F.ROUTE_GOPSTAT_BID]
  | .SERVE_PCFG => [F.SERVE_PCFG_EN, F.SERVE_PCFG_INGRESS, F.SERVE_PCFG_LOGMODE, F.SERVE_PCFG_LOGRING, F.SERVE_PCFG_ALAG, F.SERVE_PCFG_MAXDEC, F.SERVE_PCFG_MOVEBEATS, F.SERVE_PCFG_ECOUNT, F.SERVE_PCFG_EFIRST]
  | .SERVE_PLANCFG => [F.SERVE_PLANCFG_SLOTMAX, F.SERVE_PLANCFG_PLAN]
  | .SERVE_POOL0 => [F.SERVE_POOL0_KBASE]
  | .SERVE_POOL1 => [F.SERVE_POOL1_VBASE]
  | .SERVE_POOL2 => [F.SERVE_POOL2_KPAGE, F.SERVE_POOL2_VPAGE, F.SERVE_POOL2_NPAGES]
  | .SERVE_POOL3 => [F.SERVE_POOL3_PLSTRIDE, F.SERVE_POOL3_PLBASE]
  | .SERVE_DLCFG => [F.SERVE_DLCFG_RESUMETH, F.SERVE_DLCFG_PAUSETH]
  | .SERVE_DLCFG2 => [F.SERVE_DLCFG2_TOKNS, F.SERVE_DLCFG2_PAUSEPRIO, F.SERVE_DLCFG2_PAUSEN, F.SERVE_DLCFG2_RESUMEN, F.SERVE_DLCFG2_PARKN, F.SERVE_DLCFG2_PARKAFTER]
  | .SERVE_PARKTH => [F.SERVE_PARKTH_PARKHIGH, F.SERVE_PARKTH_PARKLOW]
  | .SERVE_PARK => [F.SERVE_PARK_PEER, F.SERVE_PARK_NODE]
  | .SERVE_PARKBASE => [F.SERVE_PARKBASE_BASE]
  | .SERVE_PSTAT => [F.SERVE_PSTAT_FREEPAGES, F.SERVE_PSTAT_INUSE, F.SERVE_PSTAT_VAR]
  | .SERVE_SEQ => [F.SERVE_SEQ_ADMSEQ, F.SERVE_SEQ_BEAT]
  | .SERVE_CNT0 => [F.SERVE_CNT0_ADMITTED, F.SERVE_CNT0_REFUSED, F.SERVE_CNT0_NOPAGE]
  | .SERVE_CNT1 => [F.SERVE_CNT1_PAUSED, F.SERVE_CNT1_PARKED, F.SERVE_CNT1_STALE, F.SERVE_CNT1_DROPREC]
  | .SERVE_ABORT => [F.SERVE_ABORT_STATUS, F.SERVE_ABORT_REQID]
  | .SERVE_RATIO => [F.SERVE_RATIO_VALID, F.SERVE_RATIO_VAR, F.SERVE_RATIO_TH]
  | .SERVE_VAR => [F.SERVE_VAR_CHUNKMAX, F.SERVE_VAR_DSLOTS, F.SERVE_VAR_PBUDGET]
  | .SERVE_INGNODE => [F.SERVE_INGNODE_NODE]
  | .SERVE_TBANK => [F.SERVE_TBANK_BANK]
  | .SERVE_TABLE => [F.SERVE_TABLE_BYTES]
  | .HQ_ACCERR => [F.HQ_ACCERR_VALID, F.HQ_ACCERR_KIND, F.HQ_ACCERR_BAR, F.HQ_ACCERR_WRITE, F.HQ_ACCERR_MORE, F.HQ_ACCERR_OFFSET]
  | .HQ_BAR2CFG => [F.HQ_BAR2CFG_SPACE]
  | .HQ_RBASE => [F.HQ_RBASE_BASE]
  | .HQ_RCFG => [F.HQ_RCFG_EN, F.HQ_RCFG_DIR, F.HQ_RCFG_MEDIUM, F.HQ_RCFG_USE, F.HQ_RCFG_PART, F.HQ_RCFG_IRQ, F.HQ_RCFG_VEC, F.HQ_RCFG_SLOTLOG, F.HQ_RCFG_NSLOTLOG]
  | .HQ_RHPOS => [F.HQ_RHPOS_HPOS]
  | .HQ_RSTAT => [F.HQ_RSTAT_DPOS, F.HQ_RSTAT_OVR, F.HQ_RSTAT_UND, F.HQ_RSTAT_DEPTH]
  | .HQ_DCFG => [F.HQ_DCFG_EN, F.HQ_DCFG_DSTATE, F.HQ_DCFG_DESCRING, F.HQ_DCFG_CPLRING, F.HQ_DCFG_DONE]
  | .HQ_JOB => [F.HQ_JOB_STATUS, F.HQ_JOB_SPREAD, F.HQ_JOB_CMD]
  | .HQ_LAUNCHCNT => [F.HQ_LAUNCHCNT_COUNT]
  | .HQ_EMIT => [F.HQ_EMIT_DESC]
  | .HQ_INDESC => [F.HQ_INDESC_INBASE]
  | .HQ_INSTAGE => [F.HQ_INSTAGE_STBASE]
  | .HQ_INCFG => [F.HQ_INCFG_SLOTLINES, F.HQ_INCFG_NSTAGE]
  | .HQ_NETCFG => [F.HQ_NETCFG_UDPPORT, F.HQ_NETCFG_RTO, F.HQ_NETCFG_TELEMMS, F.HQ_NETCFG_PARKNET]
  | .TIME_GTC => [F.TIME_GTC_GTC]
  | .TIME_STAT => [F.TIME_STAT_SYNC, F.TIME_STAT_INIT, F.TIME_STAT_HOLDOVER, F.TIME_STAT_REFLOSS, F.TIME_STAT_PRIMARY, F.TIME_STAT_PARENT, F.TIME_STAT_HOPS, F.TIME_STAT_MASTERID]
  | .TIME_ERR => [F.TIME_ERR_LAST, F.TIME_ERR_REMAIN]
  | .TIME_SLEW => [F.TIME_SLEW_REFUSED, F.TIME_SLEW_MAXPPM]
  | .TIME_MASTER => [F.TIME_MASTER_MASTER, F.TIME_MASTER_SRC, F.TIME_MASTER_DOMAIN]
  | .TIME_SET => [F.TIME_SET_VALUE]
  | .TIME_ALARM => [F.TIME_ALARM_AT]
  | .TIME_PPS => [F.TIME_PPS_OFFSET]
  | .PWR_CAP => [F.PWR_CAP_CAP]
  | .PWR_BUDGET => [F.PWR_BUDGET_STATUS, F.PWR_BUDGET_TRIP, F.PWR_BUDGET_NOW, F.PWR_BUDGET_TOTAL, F.PWR_BUDGET_BASE]
  | .PWR_STATE => [F.PWR_STATE_STATUS, F.PWR_STATE_WAKESRC, F.PWR_STATE_BUSY, F.PWR_STATE_CUR]
  | .PWR_STATECMD => [F.PWR_STATECMD_TARGET]
  | .PWR_WAKESEL => [F.PWR_WAKESEL_PORTS, F.PWR_WAKESEL_TIMEKEEP, F.PWR_WAKESEL_SOURCES]
  | .PWR_THERM => [F.PWR_THERM_ALERT, F.PWR_THERM_TEMP]
  | .PWR_PLL => [F.PWR_PLL_LOST]
  | .PWR_STEP => [F.PWR_STEP_STATUS, F.PWR_STEP_PENDING, F.PWR_STEP_NEXT, F.PWR_STEP_CUR, F.PWR_STEP_BEAT]
  | .PWR_STEPCMD => [F.PWR_STEPCMD_SPREAD, F.PWR_STEPCMD_STEP, F.PWR_STEPCMD_BEAT]
  | .PWR_PDECL => [F.PWR_PDECL_W]
  | .EVC_PEND => [F.EVC_PEND_PEND]
  | .EVC_MASK => [F.EVC_MASK_MASK]
  | .EVC_NEXT => [F.EVC_NEXT_VALID, F.EVC_NEXT_SRC]
  | .EVC_WIRE => [F.EVC_WIRE_FILT, F.EVC_WIRE_RAW, F.EVC_WIRE_EDGE, F.EVC_WIRE_N]
  | .EVC_GLOG => [F.EVC_GLOG_TICK, F.EVC_GLOG_SRC]
  | .EVC_GLOGPOS => [F.EVC_GLOGPOS_TOTAL, F.EVC_GLOGPOS_NEXT]
  | .EVC_CNT => [F.EVC_CNT_COUNT]
  | .EVC_ROUTE => [F.EVC_ROUTE_VEC, F.EVC_ROUTE_GREEN, F.EVC_ROUTE_HOST, F.EVC_ROUTE_PRIMARY, F.EVC_ROUTE_MC1, F.EVC_ROUTE_MC0]
  | .ROOT_BOOT => [F.ROOT_BOOT_BOOT_OK, F.ROOT_BOOT_MINIMAL, F.ROOT_BOOT_STAGE, F.ROOT_BOOT_REASON, F.ROOT_BOOT_CAUSE, F.ROOT_BOOT_FAILCNT, F.ROOT_BOOT_SLOT, F.ROOT_BOOT_VERSION]
  | .ROOT_IMG => [F.ROOT_IMG_STATE, F.ROOT_IMG_KEYIDX, F.ROOT_IMG_VERSION]
  | .ROOT_MGMT => [F.ROOT_MGMT_PRIMARY, F.ROOT_MGMT_MC0STATE, F.ROOT_MGMT_MC1STATE, F.ROOT_MGMT_MC0SLOT, F.ROOT_MGMT_MC1SLOT, F.ROOT_MGMT_MC1EXP, F.ROOT_MGMT_MC0EXP]
  | .ROOT_WDOG => [F.ROOT_WDOG_REMAIN, F.ROOT_WDOG_PERIOD]
  | .ROOT_FUSE => [F.ROOT_FUSE_REVOKED, F.ROOT_FUSE_KEYS, F.ROOT_FUSE_SVNFLOOR]
  | .PS_INDEX => [F.PS_INDEX_WORD]
  | .PS_DATA => [F.PS_DATA_VALUE]
  | .PS_WCOUNT => [F.PS_WCOUNT_COUNT]
  | .PS_STAT => [F.PS_STAT_STATUS, F.PS_STAT_WEAR, F.PS_STAT_BUSY, F.PS_STAT_LOST, F.PS_STAT_REFWORD, F.PS_STAT_WEARWORD]
  | .PS_BOOTREC => [F.PS_BOOTREC_VERSION, F.PS_BOOTREC_RECORD]
  | .PS_BOOTCNT => [F.PS_BOOTCNT_COUNT]
  | .MBOX_STAT => [F.MBOX_STAT_STATE, F.MBOX_STAT_AVAIL, F.MBOX_STAT_SERVER, F.MBOX_STAT_IFMAJOR, F.MBOX_STAT_IFMINOR, F.MBOX_STAT_POSTERR, F.MBOX_STAT_SEQ]
  | .MBOX_POST => [F.MBOX_POST_GO]
  | .MBOX_REQ => [F.MBOX_REQ_BYTES]
  | .MBOX_RSP => [F.MBOX_RSP_BYTES]
  | .ROOT_RESET => [F.ROOT_RESET_LAST, F.ROOT_RESET_KIND]
  | .ROOT_MAINT => [F.ROOT_MAINT_HELD, F.ROOT_MAINT_PROGRESS, F.ROOT_MAINT_STATUS, F.ROOT_MAINT_ACT]
  | .TIME_LEDGER => [F.TIME_LEDGER_BAD, F.TIME_LEDGER_BASE]
  | .TIME_FAULT => [F.TIME_FAULT_CAUSE, F.TIME_FAULT_STATUS, F.TIME_FAULT_CORE, F.TIME_FAULT_PORT, F.TIME_FAULT_MORE, F.TIME_FAULT_BEAT]
  | .DIST_SLOTS => [F.DIST_SLOTS_FENCED, F.DIST_SLOTS_MAPPED]

/-- The heading of a register description: offset, indices, width, class. -/
def regInfo : RegName → RegInfo
  | .ROOT_ID => ⟨0x0, [], 64, .P⟩
  | .ROOT_CLASSVEC => ⟨0x8, [], 64, .P⟩
  | .CORECTL_NUMSTAT => ⟨0x1000100, [(0x1000000, 8), (0x1000, 64)], 64, .J⟩
  | .CORECTL_CVFLAGS => ⟨0x1000108, [(0x1000000, 8), (0x1000, 64)], 32, .J⟩
  | .CORECTL_MATSTAT => ⟨0x1000110, [(0x1000000, 8), (0x1000, 64)], 64, .J⟩
  | .CORECTL_CHNSTAT => ⟨0x1000118, [(0x1000000, 8), (0x1000, 64)], 64, .J⟩
  | .THKT_QFILL0 => ⟨0x1800000, [(0x1000000, 8), (0x1000, 8)], 64, .J⟩
  | .THKT_QFILL1 => ⟨0x1800008, [(0x1000000, 8), (0x1000, 8)], 64, .J⟩
  | .THKT_UQFILL => ⟨0x1800020, [(0x1000000, 8), (0x1000, 8)], 64, .J⟩
  | .THKT_CNT => ⟨0x1800010, [(0x1000000, 8), (0x1000, 8)], 64, .J⟩
  | .THKT_MOECNT => ⟨0x1800018, [(0x1000000, 8), (0x1000, 8)], 64, .J⟩
  | .ROOT_FILLCFG => ⟨0x40, [], 64, .C⟩
  | .ROOT_SWEEPCTL => ⟨0x48, [], 64, .W⟩
  | .ROOT_SWEEPSTAT => ⟨0x50, [], 64, .W⟩
  | .CORECTL_MEMSTAT => ⟨0x1000120, [(0x1000000, 8), (0x1000, 64)], 64, .W⟩
  | .CORECTL_MEMLOG => ⟨0x1000128, [(0x1000000, 8), (0x1000, 64)], 64, .J⟩
  | .CAL_ENTRY => ⟨0x1200000, [(0x1000000, 8), (0x40000, 4), (0x2000, 32), (0x4, 1600)], 32, .W⟩
  | .CAL_LEN => ⟨0x1201F00, [(0x1000000, 8), (0x40000, 4), (0x2000, 32)], 32, .W⟩
  | .CAL_COLSTAT => ⟨0x1300000, [(0x1000000, 8), (0x10, 32)], 64, .W⟩
  | .CAL_SCRUB => ⟨0x1300008, [(0x1000000, 8), (0x10, 32)], 64, .W⟩
  | .CAL_CUR => ⟨0x1301000, [(0x1000000, 8)], 64, .J⟩
  | .DIST_BULK => ⟨0x1400000, [(0x1000000, 8), (0x40, 78), (0x10, 4), (0x4, 4)], 32, .W⟩
  | .DIST_PORT => ⟨0x1402000, [(0x1000000, 8), (0x10, 78), (0x4, 4)], 32, .W⟩
  | .DIST_CS => ⟨0x1403000, [(0x1000000, 8), (0x400, 8), (0x40, 10), (0x8, 8), (0x4, 2)], 32, .W⟩
  | .DIST_GEN => ⟨0x1405000, [(0x1000000, 8)], 32, .C⟩
  | .CORECTL_QFILL => ⟨0x1000000, [(0x1000000, 8), (0x1000, 64)], 64, .J⟩
  | .CORECTL_SEQSTAT => ⟨0x1000008, [(0x1000000, 8), (0x1000, 64)], 64, .J⟩
  | .CORECTL_SEQCFG => ⟨0x1000010, [(0x1000000, 8), (0x1000, 64)], 64, .J⟩
  | .CORECTL_QSTAT => ⟨0x1000018, [(0x1000000, 8), (0x1000, 64)], 64, .J⟩
  | .CORECTL_SYNC => ⟨0x1000200, [(0x1000000, 8), (0x1000, 64), (0x4, 32)], 32, .J⟩
  | .CORECTL_ILLEGAL => ⟨0x1000020, [(0x1000000, 8), (0x1000, 64)], 64, .J⟩
  | .CORECTL_LANDING => ⟨0x1000300, [(0x1000000, 8), (0x1000, 64), (0x4, 16)], 32, .J⟩
  | .TIME_JOB_CFG => ⟨0x21000, [(0x100, 8)], 64, .J⟩
  | .TIME_BEAT_CFG => ⟨0x21008, [(0x100, 8)], 64, .J⟩
  | .TIME_LAUNCH => ⟨0x21010, [(0x100, 8)], 64, .J⟩
  | .TIME_JOB_STAT => ⟨0x21018, [(0x100, 8)], 64, .J⟩
  | .TIME_LAG => ⟨0x21020, [(0x100, 8)], 64, .J⟩
  | .TIME_FRZ => ⟨0x21028, [(0x100, 8)], 64, .J⟩
  | .TIME_FRZLAST => ⟨0x21030, [(0x100, 8)], 64, .J⟩
  | .TIME_CHOICE => ⟨0x21038, [(0x100, 8)], 64, .J⟩
  | .TIME_CHOICEBY => ⟨0x21040, [(0x100, 8)], 64, .J⟩
  | .TIME_DIGEST => ⟨0x21080, [(0x100, 8), (0x8, 8)], 64, .J⟩
  | .PORT_CTL => ⟨0x100000, [(0x4000, 48)], 64, .W⟩
  | .PORT_CFG => ⟨0x100008, [(0x4000, 48)], 64, .W⟩
  | .PORT_WIN => ⟨0x100010, [(0x4000, 48)], 64, .W⟩
  | .PORT_STAT => ⟨0x100018, [(0x4000, 48)], 64, .W⟩
  | .PORT_RETRY => ⟨0x100020, [(0x4000, 48)], 64, .W⟩
  | .PORT_DEFER => ⟨0x100028, [(0x4000, 48)], 64, .W⟩
  | .PORT_DISC => ⟨0x100030, [(0x4000, 48)], 64, .W⟩
  | .PORT_FEC => ⟨0x100038, [(0x4000, 48)], 64, .W⟩
  | .PORT_NBR => ⟨0x100100, [(0x4000, 48), (0x8, 8)], 64, .W⟩
  | .PORT_OWN => ⟨0x100140, [(0x4000, 48), (0x8, 8)], 64, .W⟩
  | .ROUTE_NODE => ⟨0x200000, [], 64, .C⟩
  | .ROUTE_DIMS => ⟨0x200008, [], 32, .P⟩
  | .ROUTE_ROLE => ⟨0x200010, [(0x8, 6)], 64, .W⟩
  | .ROUTE_CTL => ⟨0x200040, [], 64, .W⟩
  | .ROUTE_STAT => ⟨0x200048, [], 64, .W⟩
  | .ROUTE_TMO => ⟨0x200050, [], 32, .W⟩
  | .ROUTE_ERR0 => ⟨0x200058, [], 64, .W⟩
  | .ROUTE_ERR1 => ⟨0x200060, [], 64, .W⟩
  | .ROUTE_ENTRY => ⟨0x201000, [(0x1000, 2), (0x800, 2), (0x8, 256)], 64, .W⟩
  | .ROUTE_SHADOW => ⟨0x203000, [(0x20, 2), (0x8, 4)], 64, .W⟩
  | .ROUTE_JOBBOX => ⟨0x204000, [(0x100, 8)], 64, .J⟩
  | .ROUTE_JOBROOT => ⟨0x204008, [(0x100, 8)], 32, .J⟩
  | .ROUTE_GOPCFG => ⟨0x204010, [(0x100, 8)], 64, .J⟩
  | .ROUTE_GOPCMD => ⟨0x204018, [(0x100, 8)], 64, .J⟩
  | .ROUTE_GOPARG0 => ⟨0x204020, [(0x100, 8)], 64, .J⟩
  | .ROUTE_GOPARG1 => ⟨0x204028, [(0x100, 8)], 64, .J⟩
  | .ROUTE_GOPSTAT => ⟨0x204030, [(0x100, 8)], 64, .J⟩
  | .SERVE_PCFG => ⟨0x60000, [(0x200, 8)], 64, .J⟩
  | .SERVE_PLANCFG => ⟨0x60008, [(0x200, 8)], 64, .J⟩
  | .SERVE_POOL0 => ⟨0x60010, [(0x200, 8)], 64, .J⟩
  | .SERVE_POOL1 => ⟨0x60018, [(0x200, 8)], 64, .J⟩
  | .SERVE_POOL2 => ⟨0x60020, [(0x200, 8)], 64, .J⟩
  | .SERVE_POOL3 => ⟨0x60028, [(0x200, 8)], 64, .J⟩
  | .SERVE_DLCFG => ⟨0x60030, [(0x200, 8)], 64, .J⟩
  | .SERVE_DLCFG2 => ⟨0x60038, [(0x200, 8)], 64, .J⟩
  | .SERVE_PARKTH => ⟨0x60048, [(0x200, 8)], 64, .J⟩
  | .SERVE_PARK => ⟨0x60040, [(0x200, 8)], 64, .J⟩
  | .SERVE_PARKBASE => ⟨0x60050, [(0x200, 8)], 64, .J⟩
  | .SERVE_PSTAT => ⟨0x60058, [(0x200, 8)], 64, .J⟩
  | .SERVE_SEQ => ⟨0x60060, [(0x200, 8)], 64, .J⟩
  | .SERVE_CNT0 => ⟨0x60068, [(0x200, 8)], 64, .J⟩
  | .SERVE_CNT1 => ⟨0x60070, [(0x200, 8)], 64, .J⟩
  | .SERVE_ABORT => ⟨0x60078, [(0x200, 8)], 64, .J⟩
  | .SERVE_RATIO => ⟨0x60080, [(0x200, 8), (0x8, 16)], 64, .J⟩
  | .SERVE_VAR => ⟨0x60100, [(0x200, 8), (0x8, 16)], 64, .J⟩
  | .SERVE_INGNODE => ⟨0x60180, [(0x200, 8)], 64, .J⟩
  | .SERVE_TBANK => ⟨0x61000, [], 32, .W⟩
  | .SERVE_TABLE => ⟨0x70000, [(0x40, 1024), (0x8, 8)], 64, .J⟩
  | .HQ_ACCERR => ⟨0x50000, [], 64, .W⟩
  | .HQ_BAR2CFG => ⟨0x50008, [], 32, .W⟩
  | .HQ_RBASE => ⟨0x51000, [(0x20, 64)], 64, .W⟩
  | .HQ_RCFG => ⟨0x51008, [(0x20, 64)], 64, .W⟩
  | .HQ_RHPOS => ⟨0x51010, [(0x20, 64)], 32, .W⟩
  | .HQ_RSTAT => ⟨0x51018, [(0x20, 64)], 64, .W⟩
  | .HQ_DCFG => ⟨0x52000, [(0x8, 64)], 64, .W⟩
  | .HQ_JOB => ⟨0x50100, [(0x40, 8)], 64, .J⟩
  | .HQ_LAUNCHCNT => ⟨0x50108, [(0x40, 8)], 64, .J⟩
  | .HQ_EMIT => ⟨0x50110, [(0x40, 8)], 64, .J⟩
  | .HQ_INDESC => ⟨0x50118, [(0x40, 8)], 64, .J⟩
  | .HQ_INSTAGE => ⟨0x50120, [(0x40, 8)], 64, .J⟩
  | .HQ_INCFG => ⟨0x50128, [(0x40, 8)], 64, .J⟩
  | .HQ_NETCFG => ⟨0x50010, [], 64, .W⟩
  | .TIME_GTC => ⟨0x20000, [], 64, .C⟩
  | .TIME_STAT => ⟨0x20008, [], 64, .C⟩
  | .TIME_ERR => ⟨0x20010, [], 64, .W⟩
  | .TIME_SLEW => ⟨0x20018, [], 64, .W⟩
  | .TIME_MASTER => ⟨0x20020, [], 32, .P⟩
  | .TIME_SET => ⟨0x20028, [], 64, .W⟩
  | .TIME_ALARM => ⟨0x20030, [], 64, .C⟩
  | .TIME_PPS => ⟨0x20038, [], 32, .C⟩
  | .PWR_CAP => ⟨0x80000, [], 32, .P⟩
  | .PWR_BUDGET => ⟨0x80008, [], 64, .W⟩
  | .PWR_STATE => ⟨0x80010, [], 64, .C⟩
  | .PWR_STATECMD => ⟨0x80018, [], 32, .W⟩
  | .PWR_WAKESEL => ⟨0x80020, [], 64, .P⟩
  | .PWR_THERM => ⟨0x80028, [], 32, .C⟩
  | .PWR_PLL => ⟨0x80030, [], 32, .W⟩
  | .PWR_STEP => ⟨0x80100, [(0x20, 8)], 64, .J⟩
  | .PWR_STEPCMD => ⟨0x80108, [(0x20, 8)], 64, .J⟩
  | .PWR_PDECL => ⟨0x80110, [(0x20, 8)], 32, .J⟩
  | .EVC_PEND => ⟨0x10000, [(0x8, 16)], 64, .W⟩
  | .EVC_MASK => ⟨0x10080, [(0x8, 16)], 64, .M⟩
  | .EVC_NEXT => ⟨0x10100, [(0x8, 4)], 64, .W⟩
  | .EVC_WIRE => ⟨0x10200, [(0x4, 16)], 32, .M⟩
  | .EVC_GLOG => ⟨0x10300, [(0x8, 32)], 64, .C⟩
  | .EVC_GLOGPOS => ⟨0x10400, [], 32, .C⟩
  | .EVC_CNT => ⟨0x10800, [(0x8, 128)], 64, .W⟩
  | .EVC_ROUTE => ⟨0x11000, [(0x4, 1024)], 32, .M⟩
  | .ROOT_BOOT => ⟨0x80, [], 64, .W⟩
  | .ROOT_IMG => ⟨0x88, [(0x8, 2)], 64, .C⟩
  | .ROOT_MGMT => ⟨0xA0, [], 64, .W⟩
  | .ROOT_WDOG => ⟨0xA8, [(0x8, 2)], 64, .M⟩
  | .ROOT_FUSE => ⟨0xB8, [], 64, .P⟩
  | .PS_INDEX => ⟨0x30000, [], 32, .W⟩
  | .PS_DATA => ⟨0x30008, [], 32, .P⟩
  | .PS_WCOUNT => ⟨0x30010, [], 32, .P⟩
  | .PS_STAT => ⟨0x30018, [], 64, .W⟩
  | .PS_BOOTREC => ⟨0x30020, [], 64, .P⟩
  | .PS_BOOTCNT => ⟨0x30028, [], 32, .P⟩
  | .MBOX_STAT => ⟨0x40000, [], 64, .M⟩
  | .MBOX_POST => ⟨0x40008, [], 32, .M⟩
  | .MBOX_REQ => ⟨0x41000, [(0x8, 512)], 64, .M⟩
  | .MBOX_RSP => ⟨0x42000, [(0x8, 512)], 64, .M⟩
  | .ROOT_RESET => ⟨0xC0, [], 64, .W⟩
  | .ROOT_MAINT => ⟨0x100, [(0x8, 9)], 64, .W⟩
  | .TIME_LEDGER => ⟨0x21048, [(0x100, 8)], 64, .J⟩
  | .TIME_FAULT => ⟨0x21050, [(0x100, 8)], 64, .J⟩
  | .DIST_SLOTS => ⟨0x1405010, [(0x1000000, 8), (0x4, 8)], 32, .C⟩

/-- A number for each register, its place in the table (the key of the register file). -/
def RegName.num (r : RegName) : Nat := r.ctorIdx

/-- Registers of the table, thirty at a time. -/
def allRegs0 : List RegName :=
  [.ROOT_ID, .ROOT_CLASSVEC, .CORECTL_NUMSTAT, .CORECTL_CVFLAGS, .CORECTL_MATSTAT, .CORECTL_CHNSTAT,
   .THKT_QFILL0, .THKT_QFILL1, .THKT_UQFILL, .THKT_CNT, .THKT_MOECNT, .ROOT_FILLCFG,
   .ROOT_SWEEPCTL, .ROOT_SWEEPSTAT, .CORECTL_MEMSTAT, .CORECTL_MEMLOG, .CAL_ENTRY, .CAL_LEN,
   .CAL_COLSTAT, .CAL_SCRUB, .CAL_CUR, .DIST_BULK, .DIST_PORT, .DIST_CS,
   .DIST_GEN, .CORECTL_QFILL, .CORECTL_SEQSTAT, .CORECTL_SEQCFG, .CORECTL_QSTAT, .CORECTL_SYNC]

/-- Registers of the table, thirty at a time. -/
def allRegs1 : List RegName :=
  [.CORECTL_ILLEGAL, .CORECTL_LANDING, .TIME_JOB_CFG, .TIME_BEAT_CFG, .TIME_LAUNCH, .TIME_JOB_STAT,
   .TIME_LAG, .TIME_FRZ, .TIME_FRZLAST, .TIME_CHOICE, .TIME_CHOICEBY, .TIME_DIGEST,
   .PORT_CTL, .PORT_CFG, .PORT_WIN, .PORT_STAT, .PORT_RETRY, .PORT_DEFER,
   .PORT_DISC, .PORT_FEC, .PORT_NBR, .PORT_OWN, .ROUTE_NODE, .ROUTE_DIMS,
   .ROUTE_ROLE, .ROUTE_CTL, .ROUTE_STAT, .ROUTE_TMO, .ROUTE_ERR0, .ROUTE_ERR1]

/-- Registers of the table, thirty at a time. -/
def allRegs2 : List RegName :=
  [.ROUTE_ENTRY, .ROUTE_SHADOW, .ROUTE_JOBBOX, .ROUTE_JOBROOT, .ROUTE_GOPCFG, .ROUTE_GOPCMD,
   .ROUTE_GOPARG0, .ROUTE_GOPARG1, .ROUTE_GOPSTAT, .SERVE_PCFG, .SERVE_PLANCFG, .SERVE_POOL0,
   .SERVE_POOL1, .SERVE_POOL2, .SERVE_POOL3, .SERVE_DLCFG, .SERVE_DLCFG2, .SERVE_PARKTH,
   .SERVE_PARK, .SERVE_PARKBASE, .SERVE_PSTAT, .SERVE_SEQ, .SERVE_CNT0, .SERVE_CNT1,
   .SERVE_ABORT, .SERVE_RATIO, .SERVE_VAR, .SERVE_INGNODE, .SERVE_TBANK, .SERVE_TABLE]

/-- Registers of the table, thirty at a time. -/
def allRegs3 : List RegName :=
  [.HQ_ACCERR, .HQ_BAR2CFG, .HQ_RBASE, .HQ_RCFG, .HQ_RHPOS, .HQ_RSTAT,
   .HQ_DCFG, .HQ_JOB, .HQ_LAUNCHCNT, .HQ_EMIT, .HQ_INDESC, .HQ_INSTAGE,
   .HQ_INCFG, .HQ_NETCFG, .TIME_GTC, .TIME_STAT, .TIME_ERR, .TIME_SLEW,
   .TIME_MASTER, .TIME_SET, .TIME_ALARM, .TIME_PPS, .PWR_CAP, .PWR_BUDGET,
   .PWR_STATE, .PWR_STATECMD, .PWR_WAKESEL, .PWR_THERM, .PWR_PLL, .PWR_STEP]

/-- Registers of the table, thirty at a time. -/
def allRegs4 : List RegName :=
  [.PWR_STEPCMD, .PWR_PDECL, .EVC_PEND, .EVC_MASK, .EVC_NEXT, .EVC_WIRE,
   .EVC_GLOG, .EVC_GLOGPOS, .EVC_CNT, .EVC_ROUTE, .ROOT_BOOT, .ROOT_IMG,
   .ROOT_MGMT, .ROOT_WDOG, .ROOT_FUSE, .PS_INDEX, .PS_DATA, .PS_WCOUNT,
   .PS_STAT, .PS_BOOTREC, .PS_BOOTCNT, .MBOX_STAT, .MBOX_POST, .MBOX_REQ,
   .MBOX_RSP, .ROOT_RESET, .ROOT_MAINT, .TIME_LEDGER, .TIME_FAULT, .DIST_SLOTS]

/-- Every register of the spec, in the order of the table. -/
def allRegs : List RegName :=
  List.flatten [allRegs0, allRegs1, allRegs2, allRegs3, allRegs4]

/-- The width of a field in bits. -/
def Fld.width (f : Fld) : Nat := f.hi + 1 - f.lo

/-- The value of a field in a register word. -/
def Fld.get (f : Fld) (w : Word) : Nat := w.toNat / 2 ^ f.lo % 2 ^ f.width

/-- A register word with one field replaced (the value is cut to the field's width). -/
def Fld.put (f : Fld) (w : Word) (v : Nat) : Word :=
  BitVec.ofNat 64 (w.toNat - f.get w * 2 ^ f.lo + v % 2 ^ f.width * 2 ^ f.lo)

/-- The default of a register: every field at its default, reserved bits zero. -/
def RegName.dflt (r : RegName) : Word :=
  (fieldsOf r).foldl (fun w f => f.put w f.dflt) 0

/-- Split an offset over the strides of a register: the mixed-radix index and what is left, none outside the counts. -/
def splitDims : List (Nat × Nat) → Nat → Nat → Option (Nat × Nat)
  | [], i, o => some (i, o)
  | (st, n) :: ds, i, o => if o / st < n then splitDims ds (i * n + o / st) (o % st) else none

/-- The register (and index) that starts at, or whose high half starts at, a BAR0 offset; the Bool says high half. -/
def regAtIn (off : Nat) : List RegName → Option (RegName × Nat × Bool)
  | [] => none
  | r :: rs =>
    let inf := regInfo r
    if off < inf.base then regAtIn off rs
    else match splitDims inf.dims 0 (off - inf.base) with
      | some (i, 0) => some (r, i, false)
      | some (i, 4) => if inf.width = 64 then some (r, i, true) else regAtIn off rs
      | _ => regAtIn off rs

/-- R17, R20: what register an offset of BAR0 holds. -/
def regAt (off : Nat) : Option (RegName × Nat × Bool) := regAtIn off allRegs

/-- How many registers of a name there are. -/
def RegName.count (r : RegName) : Nat := (regInfo r).dims.foldl (fun n d => n * d.2) 1

end Sys2Proof.Machine
end

