-- ==== Sys2Proof/Machine/SMap.lean ====
section
/-! DEFINITION. Sparse maps from a number to plain data: the one form in which every indexed piece of state is held
(registers, cores, ports, bytes of memory). Keys strictly rise and no entry equals its default. -/

namespace Sys2Proof.Machine

/-- A sparse map: (key, value) pairs, keys strictly rising, no value equal to what an unlisted key reads as. -/
abbrev SMap (α : Type) := List (Nat × α)

/-- The value at a key, `d` where the key is not listed. -/
def SMap.get {α : Type} (d : α) (m : SMap α) (k : Nat) : α :=
  match m with
  | [] => d
  | (j, v) :: r => if j = k then v else SMap.get d r k

/-- The map without a key. -/
def SMap.erase {α : Type} (m : SMap α) (k : Nat) : SMap α := m.filter fun e => e.1 != k

/-- The map with a pair put at its place (the key is not in the map). -/
def SMap.insert {α : Type} (m : SMap α) (k : Nat) (v : α) : SMap α :=
  match m with
  | [] => [(k, v)]
  | (j, w) :: r => if k < j then (k, v) :: (j, w) :: r else (j, w) :: SMap.insert r k v

/-- The map with a value at a key; writing the default removes the entry. -/
def SMap.put {α : Type} [DecidableEq α] (d : α) (m : SMap α) (k : Nat) (v : α) : SMap α :=
  if v = d then m.erase k else (m.erase k).insert k v

/-- The map with the value at a key changed by a function. -/
def SMap.modify {α : Type} [DecidableEq α] (d : α) (m : SMap α) (k : Nat) (f : α → α) : SMap α :=
  m.put d k (f (m.get d k))

/-- Every key of a list strictly rises from a bound. -/
def SMap.rising {α : Type} (m : SMap α) : Bool :=
  match m with
  | [] => true
  | (k, _) :: r => r.all (fun e => decide (k < e.1)) && SMap.rising r

/-- The canonical form: keys strictly rising, no value equal to the default of its key. -/
def SMap.wf {α : Type} [DecidableEq α] (d : Nat → α) (m : SMap α) : Bool :=
  m.rising && m.all fun e => decide (e.2 ≠ d e.1)

end Sys2Proof.Machine
end

