-- ==== Sys2Proof/Machine/CoreState.lean ====
section
/-! DEFINITION. The state of a core, as plain data (02, 03, 04, 07, 08), and the identity of the part. -/

namespace Sys2Proof.Machine

/-! ## Names used throughout -/

/-- Table 0.1: the ordering codes. -/
inductive Code where | a40 | m48 | n46
  deriving DecidableEq, Repr

/-- What assembly and shipment fix (R29, R351, R518): the ordering code, the serial number and the four built-in
addresses. No command changes it. -/
structure PartId where
  code : Code
  serial : Nat
  mac0 : Nat
  mac1 : Nat
  macMgmt : Nat
  deriving DecidableEq, Repr

/-- Table 0.1 and R29: tiers per compute die. -/
def PartId.tiers (p : PartId) : Nat := match p.code with | .a40 => 3 | .m48 => 4 | .n46 => 3
/-- Table 0.1: I/O dies. -/
def PartId.ioDies (p : PartId) : Nat := match p.code with | .a40 => 6 | .m48 => 6 | .n46 => 12
/-- Table 0.1: Denian ports. -/
def PartId.ports (p : PartId) : Nat := match p.code with | .a40 => 24 | .m48 => 24 | .n46 => 48
/-- ROOT_ID.CODE. -/
def PartId.codeNum (p : PartId) : Nat := match p.code with | .a40 => 1 | .m48 => 2 | .n46 => 3

/-! ## The core (02, 03, 04, 07, 08) -/

/-- One entry of a core queue (R224): the control word (and its extension), where it was fetched from, the logical cycle
from which it may issue, the runs issued, the weight-part phases of the present run done (MMUL), and the completion
cycles of the runs issued and not completed. -/
structure QEntry where
  id : Nat
  lead : Nat
  ext : Nat
  addr : Nat
  avail : Nat
  issued : Nat
  phase : Nat
  runs : List Nat
  /-- A reason found at inspection (R234, R238): 0 none. -/
  pre : Nat
  /-- What a word in progress keeps: the issue cycle of a PLEACH plus 1, the first position of a ring word (P). -/
  aux : Nat
  /-- The completion cycle of a PLEACH once its receive half has run (0: not yet). -/
  aux2 : Nat
  deriving DecidableEq, Repr

/-- One loop on the loop stack (R227, R228): its LOOP's address, first and last body word, iterations left. -/
structure LoopFrame where
  loopAddr : Nat
  first : Nat
  last : Nat
  left : Nat
  deriving DecidableEq, Repr

/-- R613: what the word at a fetched address is checked for, and the LOOP or JUMP that named it. -/
structure FetchCheck where
  kind : Nat
  owner : Nat
  deriving DecidableEq, Repr

/-- A fetch request not yet inspected (R226, R227): its address, the key its two words are captured under, its arrival cycle, the loop
stack before the request, and the checks of R613. -/
structure FetchReq where
  addr : Nat
  key : Nat
  arr : Nat
  snap : List LoopFrame
  checks : List FetchCheck
  deriving DecidableEq, Repr

/-- A tile of an array (R85, R91): the LOADW fields that filled it, its bytes as staged (of a Gauss part both tiles) and its scale
bytes, each by its offset. A tile never loaded holds all-zero bits. The LOADW fields say which part was extracted, and where the spec
states the bits that another format reads. -/
structure Tile where
  fmt : Nat
  part : Nat
  cplx : Bool
  gauss : Bool
  data : SMap Byte
  scales : SMap Byte
  deriving DecidableEq, Repr

/-- R87: the state of a shadow tile. -/
inductive Shadow where | empty | loading | ready
  deriving DecidableEq, Repr

/-- One matrix array (R82): live and shadow tile, shadow state and the cycle a load ends, whether the shadow was loaded
since the last swap (R89), swaps still to come from issued MMULs, accumulator entries by row * 64 + column (R94), and
the cycle of the last write of each row (R100). -/
structure Arr where
  live : Tile
  shadow : Tile
  sstate : Shadow
  /-- While LOADING: the cycle from which the shadow is READY. -/
  readyAt : Nat
  fresh : Bool
  swaps : Nat
  acc : SMap (BitVec 192)
  /-- Rows last written by an integer word without block scales (R116). -/
  accInt : SMap Bool
  accAt : SMap Nat
  deriving DecidableEq, Repr

/-- R610: the medium by which a channel last received bytes since the launch. -/
inductive Medium where | none | denian | dma | mesh
  deriving DecidableEq, Repr

/-- A landing channel (R277): its bytes in order, the medium of the last, and the REMOTE signals that travel with bytes
(R289): (bytes in front of and with the last byte of the send, counter, increment). -/
structure Channel where
  bytes : List Byte
  medium : Medium
  marks : List (Nat × Nat × Nat)
  deriving DecidableEq, Repr

/-- A PEER or CLUSTER signal in flight (R243): due cycle, target core (PEER) or whole cluster, shared counter, increment. -/
structure SigFlight where
  due : Nat
  toCluster : Bool
  core : Nat
  ctr : Nat
  inc : Nat
  deriving DecidableEq, Repr

/-! ## Work in flight (R90, R93, R97, R99, R115, R122, R182, R275, R284, R289)

A word plans its accesses when it issues; each takes place in its own logical cycle. -/

/-- What a planned access does in its bank cycle: the word read is captured under a key; bits are written under a mask; or a captured
word is written whole. -/
inductive PlanAct where
  | read (key : Nat)
  | write (val mask : Nat)
  | put (key : Nat)
  deriving DecidableEq, Repr

/-- A planned access of the scheduled path: its bank cycle, the place of its requester in the order of R191, the core whose bank it
is, the unit (0 core store, 1 ABUF, 2 CBUF, 3 weight staging), the word, what it does; of a write of the chain engine the run that makes it
(0: none) and the bits that are of a reduction result (R142). -/
structure Plan where
  cc : Nat
  rank : Nat
  core : Nat
  unit : Nat
  word : Nat
  act : PlanAct
  tag : Nat := 0
  prot : Nat := 0
  deriving DecidableEq, Repr

/-- A lane (R109): its FP32 value or RAW pattern, its WIDE value, its saturation tag, whether it is masked at entry and by
stage 6. -/
structure Lane where
  v : Nat
  x : Ex
  tag : Bool
  m0 : Bool
  m6 : Bool
  deriving DecidableEq, Repr

/-- What a run of a CHAIN word latches at issue (R113). -/
structure Latched where
  a : Nat
  b : Nat
  selk : Nat
  selv : Nat
  pad : Nat
  xk : Nat
  seedM : Nat
  seedS : Nat
  flags : CvFlags
  deriving DecidableEq, Repr

/-- A run of a CHAIN word in the engine: lead and extension, run, latched scalars, the cycle vector 0 enters and the interval, the key of
its captured words, the next vector, and the lanes that have passed stage 5. -/
structure ChRun where
  w : Nat
  x : Nat
  run : Nat
  lt : Latched
  e0 : Nat
  r : Nat
  key : Nat
  next : Nat
  lanes : List Lane
  deriving DecidableEq, Repr

/-- A row-pass of an MMUL still to run: its cycle and latency, the word, the run, the phase, the pass within the phase, the row, and the
key of its captured words. -/
structure RowRun where
  t : Nat
  lat : Nat
  w : Nat
  run : Nat
  phase : Nat
  pass : Nat
  r : Nat
  key : Nat
  deriving DecidableEq, Repr

/-- The tree sum of one column in a row-pass, in its class (R61, R63, R105); of exact mode with the saturations it made. -/
inductive PassSum where
  | fp (v : Nat)
  | int (v : Int)
  | ex (v : Ex) (sat : Nat)
  deriving DecidableEq, Repr

/-- An accumulator write still to come (R99): its cycle, the array, the row, whether it overwrites, the sums of the 64 columns. -/
structure AccW where
  cc : Nat
  arr : Nat
  line : Nat
  first : Bool
  sums : List PassSum
  deriving DecidableEq, Repr

/-- A LOADW on the weight port (R86, R90): its word, the cycle of its first byte, its cycles in all. -/
structure LoadRun where
  w : Nat
  start : Nat
  n : Nat
  deriving DecidableEq, Repr

/-- A ring word whose descriptor is being read (R284): PUSH or POP, the queue entry, the run, the cycle the descriptor arrives, the key of
its words. -/
structure RingRead where
  push : Bool
  qid : Nat
  run : Nat
  at_ : Nat
  key : Nat
  deriving DecidableEq, Repr

/-- A RECV of more than 4,096 bytes that takes its groups as they are due (R291): its word, run and key of REMOTE signals, its issue
cycle, the next group. -/
structure RecvRun where
  w : Nat
  run : Nat
  key : Nat
  at_ : Nat
  next : Nat
  deriving DecidableEq, Repr

/-- The read of the variant table that a beat begins with (R236): the cycle its word arrives, the key it is captured under, the entry
within the word, the BEATEND that named the table. -/
structure VtabRead where
  at_ : Nat
  key : Nat
  idx : Nat
  addr : Nat
  deriving DecidableEq, Repr

/-- The words of a SEND or of the send half of a PLEACH that have not entered the send buffer (R279, R281, R289): first port and hop
bytes that follow (none within the part), destination core and channel, the REMOTE signal of the last byte, the bytes in all and those
that have entered, the number of the run among the core's groups of accesses, and the entry cycle and key of each word to come. -/
structure SendRun where
  link : Option (Nat × List Nat)
  dcore : Nat
  ch : Nat
  sig : Option (Nat × Nat)
  total : Nat
  off : Nat
  run : Nat
  words : List (Nat × Nat)
  deriving DecidableEq, Repr

/-- The state of one core. -/
structure Core where
  seq : List QEntry
  mat : List QEntry
  chn : List QEntry
  mov : List QEntry
  lnk : List QEntry
  nextId : Nat
  /-- Queue places still held in the cycle of a completion (R224): queue code, first free cycle. -/
  held : List (Nat × Nat)
  fetchAddr : Nat
  fetchOn : Bool
  checks : List FetchCheck
  inflight : List FetchReq
  loops : List LoopFrame
  vtab : Option (Nat × Nat)
  lastReq : Nat
  lastIssue : SMap Nat
  beatDone : Bool
  halted : Bool
  haltBeat : Option Nat
  stopped : Bool
  beats : Nat
  sync : SMap Nat
  /-- R247: the cycle of the last saturation plus 1 (0: none), and whether CORECTL_QSTAT.SATCTR was recorded in it. -/
  satAt : Nat
  satNew : Bool
  sigs : List SigFlight
  /-- REMOTE signals taken with bytes and due at a word's completion: (entry number * 65536 + run, counter, increment). -/
  remote : List (Nat × Nat × Nat)
  ks : SMap (BitVec 32)
  /-- R124: the cc after the last vector of the last CHAIN word entered, and the cc after it left stage 8 (0: no stage 8). -/
  chnFree : Nat
  chnLeave : Nat
  arrs : SMap Arr
  wport : Nat
  matFree : Nat
  movFree : Nat
  /-- Landing cycles of the mover's points in flight (R275, R276). -/
  movLands : List Nat
  chans : SMap Channel
  /-- Operand buffers by 65,536 * buffer + byte: 0 ABUF, 1 CBUF, 2 weight staging. -/
  bufs : SMap Byte
  /-- Set by a launch (R185): unlisted buffer bytes read as zero; a sweep clears it (R215). -/
  bufZero : Bool
  /-- The fill pattern of the operand buffers' last sweep (R215). -/
  bufFill : Nat
  /-- Accesses planned and not made, words captured by key, and the next key. -/
  plan : List Plan
  caps : SMap Nat
  nextKey : Nat
  /-- Words of the operand buffers written in the last two cycles, as they stood before: cycle, 4,096 * unit + word, bits. -/
  recent : List (Nat × Nat × Nat)
  /-- CHAIN runs, MMUL row-passes, accumulator writes, LOADWs, scalar writes (cycle, scalar, value), waits under R100 (from, to), ring words,
      sends, long RECVs and the variant-table read in flight. -/
  chruns : List ChRun
  rows : List RowRun
  accw : List AccW
  loads : List LoadRun
  kplan : List (Nat × Nat × Nat)
  spaces : List (Nat × Nat)
  ringrd : List RingRead
  sends : List SendRun
  recvs : List RecvRun
  vread : Option VtabRead
  deriving DecidableEq, Repr

/-- An all-zero tile (R91, R96). -/
def Tile.init : Tile := ⟨0, 0, false, false, [], []⟩
/-- An array as a launch leaves it (R96). -/
def Arr.init : Arr := ⟨.init, .init, .empty, 0, false, 0, [], [], []⟩
/-- An empty landing channel (R277). -/
def Channel.init : Channel := ⟨[], .none, []⟩
/-- A core as a launch leaves it (R225), before its fetch address is set. -/
def Core.init : Core :=
  { seq := [], mat := [], chn := [], mov := [], lnk := [], nextId := 0, held := [], fetchAddr := 0, fetchOn := false, checks := [],
    inflight := [], loops := [], vtab := none, lastReq := 0, lastIssue := [], beatDone := false,
    halted := false, haltBeat := none, stopped := false, beats := 0, sync := [], satAt := 0, satNew := false, sigs := [], remote := [], ks := [],
    chnFree := 0, chnLeave := 0, arrs := [], wport := 0, matFree := 0, movFree := 0, movLands := [], chans := [], bufs := [],
    bufZero := false, bufFill := 0, plan := [], caps := [], nextKey := 0, recent := [], chruns := [], rows := [], accw := [], loads := [],
    kplan := [], spaces := [], ringrd := [], sends := [], recvs := [], vread := none }

end Sys2Proof.Machine
end

