-- ==== Sys2Proof/Machine/FabricState.lean ====
section
/-! DEFINITION. The state of the request agent and of global operations, as plain data (11). -/

namespace Sys2Proof.Machine

/-- Table 11.7: the states of a tag. -/
inductive TagState where | free | out | retire
  deriving DecidableEq, Repr

/-- A tag (R381 to R383): state, generation, the request it carries, the port the request left by, when its first flit left, the
event tick at which its timer expires, when it leaves RETIRE (GTC). -/
structure Tag where
  state : TagState
  gen : Nat
  req : Option ReqSpec
  port : Option Nat
  sent : Option Nat
  expires : Nat
  until_ : Nat
  deriving DecidableEq, Repr

/-- A tag never used. -/
def Tag.init : Tag := ⟨.free, 0, none, none, none, 0, 0⟩

/-- A completion delivered to a requester (R383): the request, its status, the bytes read. -/
structure ReqDone where
  req : ReqSpec
  status : Nat
  data : List Byte
  deriving DecidableEq, Repr

/-- The drain state of a network (R376), and whether a CHANGE runs. -/
structure Net where
  state : Nat
  change : Bool
  held : List ReqSpec
  deriving DecidableEq, Repr

def Net.init : Net := ⟨0, false, []⟩

/-- Global operations of a partition (R391 to R395): the operation held (0 none), its barrier number, whether it was entered and
when (GTC), ARRIVE flits kept for a barrier (its number, the nodes they came from), a pending snapshot (beat, variant), whether a barrier's
gather is over, the next SEQ, and whether a flit of the broadcast being received has failed the target rules. -/
structure Gop where
  op : Nat
  bid : Nat
  entered : Bool
  enteredAt : Nat
  keptBid : Option Nat
  kept : List Nat
  snap : Option (Nat × Nat)
  spent : Bool
  seq : Nat
  bcBad : Bool
  deriving DecidableEq, Repr

def Gop.init : Gop := ⟨0, 0, false, 0, none, [], none, false, 0, false⟩

/-- The state of the fabric as a whole: tags, networks (0 REQ, 1 RSP), delivered requests (arrival port, whether they
still stand in its receive buffer), delivered replies,
completions not yet taken, global operations by partition, and the slots that the RD and the WR first in line have taken so far. -/
structure Fabric where
  tags : SMap Tag
  nets : SMap Net
  inReq : List (Option Nat × Bool × Frame)
  inRsp : List Frame
  dones : List ReqDone
  gops : SMap Gop
  rdGot : Nat
  wrGot : Nat
  deriving DecidableEq, Repr

def Fabric.init : Fabric := ⟨[], [], [], [], [], [], 0, 0⟩

end Sys2Proof.Machine
end

