-- ==== Sys2Proof/Machine/ServeState.lean ====
section
/-! DEFINITION. The state of serving, as plain data (12_serving.md, 13 R444 to R447, 09 R315). -/

namespace Sys2Proof.Machine

/-- A SHA-256 computation held (FIPS 180-4): the words of the state (empty: the standard initial value), the bytes not yet
hashed, the bytes taken so far. -/
structure HashSt where
  h : List Nat
  tail : List Byte
  len : Nat
  deriving DecidableEq, Repr

/-- Nothing hashed. -/
def HashSt.init : HashSt := ⟨[], [], 0⟩

/-- Table 12.1, Table 12.2: one entry of the request table; and what the part holds for it: the numbers of its pages in order of
position, its audit digest, the record count, whether a record with END has committed, its input bytes not yet consumed, its
staging slot (plus 1; 0 none), and the ledger's view of its last record (beat, input length, digest). -/
structure Entry where
  state : Nat
  prio : Nat
  part : Nat
  ring : Nat
  flags : Nat
  reqid : Nat
  length : Nat
  pages : Nat
  plist : Nat
  deadline : Nat
  admseq : Nat
  prompt : Nat
  maxlen : Nat
  served : Nat
  key : Nat
  stamp : Nat
  pgs : List Nat
  dig : HashSt
  recs : Nat
  ended : Bool
  input : List Byte
  stage : Nat
  deriving DecidableEq, Repr

/-- A FREE entry: all fields zero. -/
def Entry.free : Entry :=
  { state := 0, prio := 0, part := 0, ring := 0, flags := 0, reqid := 0, length := 0, pages := 0, plist := 0, deadline := 0, admseq := 0,
    prompt := 0, maxlen := 0, served := 0, key := 0, stamp := 0, pgs := [], dig := .init, recs := 0, ended := false, input := [],
    stage := 0 }

/-- A submission (R401, Table 13.4) that is being staged or waits: its fields, its input bytes, the staging slot it holds. -/
structure Sub where
  reqid : Nat
  prio : Nat
  flags : Nat
  ring : Nat
  prompt : Nat
  maxlen : Nat
  deadline : Nat
  key : Nat
  input : List Byte
  slot : Nat
  deriving DecidableEq, Repr

/-- A part of a page move still to be made: the address in the pool, the offset in the park area, the length. -/
structure MoveBit where
  addr : Nat
  off : Nat
  len : Nat
  deriving DecidableEq, Repr

/-- A page move (R419): its entry, whether it goes out, the beat at which it is due, what is still to be sent or asked for, how many
parts have been sent and not answered, and the first status other than OK. -/
structure Move where
  e : Nat
  out : Bool
  due : Nat
  left : List MoveBit
  flying : List MoveBit
  status : Nat
  deriving DecidableEq, Repr

/-- Serving of one partition: submissions being staged and waiting, the ADMIT store (bodies of flits, R406), the last ADMSEQ
given, decisions taken and not yet applied (entry, beat, OP), submissions admitted and not yet applied with their entries, entries whose END record committed, requests to abort, page moves,
the slots of the last plan (entry, count), the next beat whose step is to run, whether a record was sent late (R421), the
status with which a move failed, an output ring found full in this beat (R435). -/
structure Serve where
  staging : List Sub
  arrivals : List Sub
  store : List (List Byte)
  lastSeq : Nat
  pend : List (Nat × Nat × Nat)
  taken : List (Nat × Sub)
  ends : List Nat
  aborts : List Nat
  moves : List Move
  slots : List (Nat × Nat)
  next : Nat
  late : Bool
  moveBad : Option Nat
  full : Bool
  deriving DecidableEq, Repr

def Serve.init : Serve :=
  { staging := [], arrivals := [], store := [], lastSeq := 0, pend := [], taken := [], ends := [], aborts := [], moves := [], slots := [], next := 0,
    late := false, moveBad := none, full := false }

end Sys2Proof.Machine
end

