-- ==== Sys2Proof/Machine/HostState.lean ====
section
/-! DEFINITION. The state of the host interface, as plain data (13_host_interfaces.md). -/

namespace Sys2Proof.Machine

/-- What registers do not hold of a host ring: on an in-ring the slots that host software has filled and the part has not taken,
each with the input bytes that follow it; the DPOS of the last interrupt message; a SUBMIT whose messages have not all come
(R452). -/
structure HRing where
  slots : List (List Byte × List Byte)
  irqPos : Nat
  partial_ : Option (List Byte × List Byte)
  deriving DecidableEq, Repr

def HRing.init : HRing := ⟨[], 0, none⟩

/-- A DMA channel (R437 to R441): the descriptor in progress (its 64 bytes), the status it will have when that is known, the bytes
moved, the bytes of an H2L still to append, the bytes not yet taken by the digest engine, the digest, whether it is held. -/
structure DmaCh where
  desc : Option (List Byte)
  status : Option Nat
  moved : Nat
  rest : List Byte
  unhashed : List Byte
  dig : HashSt
  deriving DecidableEq, Repr

def DmaCh.init : DmaCh := ⟨none, none, 0, [], [], .init⟩

/-- A message on an Ethernet stream: TYPE, FLAGS, SEQ, body. -/
structure EthMsg where
  typ : Nat
  flags : Nat
  seq : Nat
  body : List Byte
  deriving DecidableEq, Repr

/-- A stream (R451): the next SEQ to send and to accept, messages not acknowledged with when they were last sent (ns), resends
without a new acknowledgement, whether it is down. -/
structure EthStream where
  tx : Nat
  rx : Nat
  unacked : List EthMsg
  sent : Nat
  resends : Nat
  down : Bool
  deriving DecidableEq, Repr

def EthStream.init : EthStream := ⟨0, 0, [], 0, 0, false⟩

/-- An endpoint set by ETH_ENDPOINT: Ethernet port, UDP port, IPv6 address. -/
structure Endpoint where
  port : Nat
  udp : Nat
  addr : Nat
  deriving DecidableEq, Repr

/-- The host interface: rings, DMA channels, the channel the digest engine served last, MSI-X vectors and pending bits, the bytes of
host memory that the part wrote, links (0 PCI Express, 1 and 2 Ethernet, 3 management), streams (64 is stream 0xFFFF),
endpoints (ring; 64 park; 65 telemetry), Ethernet addresses (prefix length, address), when TELEM was last sent. -/
structure HostIf where
  rings : SMap HRing
  dma : SMap DmaCh
  digLast : Nat
  msix : SMap Word
  pba : SMap Bool
  hostMem : SMap (Option Byte)
  links : SMap Bool
  streams : SMap EthStream
  ends : SMap Endpoint
  addrs : SMap (Nat × Nat)
  telemAt : Nat
  deriving DecidableEq, Repr

def HostIf.init : HostIf :=
  { rings := [], dma := [], digLast := 63, msix := [], pba := [], hostMem := [], links := [], streams := [], ends := [], addrs := [],
    telemAt := 0 }

end Sys2Proof.Machine
end

