-- ==== Sys2Proof/Machine/JobState.lean ====
section
/-! DEFINITION. The state of thickets, bulk columns and partitions, as plain data (05, 06, 09). -/

namespace Sys2Proof.Machine

/-! ## The thicket (05) -/

/-- A thicket descriptor in a queue or on an engine (R149 to R161): its 64 bytes as a number, the submitting core, its TSUB's issue
cycle, its start, finish and completion cycles (of an untimed one the cycle from which its next unit may run, and that of its last
transfer), whether it was stolen, whether its work is done, whether the slots up to its finish were too few (R156), the units of its work done
(R157), and what its record will hold: status, units, AUX0, AUX1. -/
structure TDesc where
  raw : Nat
  core : Nat
  issue : Nat
  start : Nat
  finish : Nat
  due : Nat
  stolen : Bool
  ran : Bool
  late : Bool
  prog : Nat
  status : Nat
  units : Nat
  aux0 : Nat
  aux1 : Nat
  deriving DecidableEq, Repr

/-- A TSUB that has issued and is not yet accepted (R149): core, queue entry, target cluster, descriptor, the TSUB's core-store word,
issue cycle, the cycle it is accepted in, whether it waits on a full queue, whether a place that freed is kept for it, and the number of
its reads among the core's groups of accesses (`raw` is 0 until they are made). -/
structure TSub where
  core : Nat
  qid : Nat
  tcl : Nat
  raw : Nat
  addr : Nat
  issue : Nat
  due : Nat
  waits : Bool
  given : Bool
  key : Nat
  deriving DecidableEq, Repr

/-- Bytes of a SEND or PLEACH on the package mesh (R609): sending core, destination core and channel, the bytes (at most 256),
the REMOTE signal of the last byte (R289), the logical cycle they enter the send buffer, the cc still to travel, and the cc since they
arrived in which their channel has not taken them. -/
structure MeshGrp where
  src : Nat
  dcore : Nat
  ch : Nat
  bytes : List Byte
  sig : Option (Nat × Nat)
  entry : Nat
  left : Nat
  held : Nat
  deriving DecidableEq, Repr

/-- A SCHED message in a send buffer (R279, R326, R339): partition, sending core, first port, hop bytes that follow, destination
core and channel, its length, the bytes entered and not drained, the bytes drained, whether the port discards it (R612),
its REMOTE signal, the run of the core it belongs to, and the ns in which its first flit was whole. -/
structure SendMsg where
  q : Nat
  src : Nat
  run : Nat
  port : Nat
  hops : List Nat
  dcore : Nat
  ch : Nat
  len : Nat
  bytes : List Byte
  drained : Nat
  drop : Bool
  sig : Option (Nat × Nat)
  reach : Option Nat
  deriving DecidableEq, Repr

/-- A change of a guard bit still to come (R220): its cycle, whether a pop makes it, the bit, the core that moves the slot, the
device address of the ring's descriptor. -/
structure GuardEv where
  due : Nat
  pop : Bool
  bit : Nat
  core : Nat
  addr : Nat
  deriving DecidableEq, Repr

/-- One cluster: its thicket, guard array and send buffer. `subNote` is the cycle up to which THKT_CNT.SUBWAIT has counted. -/
structure Cluster where
  timed : SMap (List TDesc)
  untimed : SMap (List TDesc)
  running : SMap (Option TDesc)
  tend : SMap Nat
  subs : List TSub
  subNote : Nat
  guards : SMap Bool
  gpend : List GuardEv
  send : List SendMsg
  mesh : List MeshGrp
  deriving DecidableEq, Repr

/-! ## Bulk memory columns (06) -/

/-- What a pending line transfer does in its slot (R193, R200): read `len` bytes at an offset of the line into words of a core's
local memory, the write request made in cycle `req`; write `n` words captured under consecutive keys at an offset; write bytes at an offset
(after the read of a read-modify-write the whole line); or a write of RT0 for partition `q` (R201, R416, R444, R571), which has no slot of its own yet:
its precedence (R439: 0 input-descriptor write, 1 serving sequencer, 2 input staging), whether it is one of the ledger, its bytes at their offset. -/
inductive XferAct where
  | toLocal (core unit word off len req : Nat)
  | store (off key n : Nat)
  | write (off : Nat) (bytes : List Byte)
  | root (q pri : Nat) (led : Bool) (off : Nat) (bytes : List Byte)
  deriving DecidableEq, Repr

/-- A pending line transfer of a tier-column: the calendar entry that owns its slots, the word that made it (core, queue entry,
run), the line, its slot, the second slot of a read-modify-write (R193), and what it does. -/
structure Xfer where
  owner : Nat
  core : Nat
  qid : Nat
  run : Nat
  line : Nat
  slot : Nat
  slot2 : Option Nat
  act : XferAct
  deriving DecidableEq, Repr

/-- One tier-column: pending transfers, the slots of this beat taken by transfers that are not pending (thickets), the write-back owed by patrol scrub (R210), the next scrub slot's number within the beat,
and the lines found with uncorrectable pieces by bank (R208). -/
structure TierCol where
  slot : Nat
  pend : List Xfer
  used : List Nat
  scrubBack : Bool
  badLines : List (Nat × Nat)
  deriving DecidableEq, Repr

/-! ## Partitions (09, 18) -/

/-- Table 9.1: the states of a partition's job. -/
inductive Job where | idle | armed | launched | run | ended | faulted
  deriving DecidableEq, Repr

/-- TIME_JOB_STAT.STATE. -/
def Job.num : Job → Nat
  | .idle => 0 | .armed => 1 | .launched => 2 | .run => 3 | .ended => 4 | .faulted => 5

/-- A fault met in a logical cycle that is to stop the job at the end of that cycle (R563, R564). -/
structure CycleFault where
  cause : Nat
  status : Nat
  core : Nat
  port : Nat
  /-- GTC of the fault. -/
  at_ : Nat
  deriving DecidableEq, Repr

/-- One partition: its clusters (bit die * 8 + cluster), job state, beat and cycles, the freeze and what it awaits
(cause, channel, core), lag arming, ledger writes, pending step change, one-off work held for a beat. -/
structure Part where
  mask : Nat
  job : Job
  beat : Nat
  /-- Logical cycles since the launch. -/
  lc : Nat
  /-- Logical cycles of the present beat. -/
  bc : Nat
  gate : Bool
  frozen : Bool
  frzCause : Nat
  /-- The instant (in units of `tu`) of the latest freeze, and the part of a ns of freeze time not yet in TIME_FRZ.TOTAL. -/
  frzFrom : Option Nat
  frzRem : Nat
  /-- The instant from which the freeze time of the present freeze is still to be added to TIME_FRZ.TOTAL. -/
  frzSince : Nat
  /-- R305: every awaited item of the freeze was present before the present cc edge. -/
  thawOk : Bool
  lagArm : Bool
  /-- R175: what the thicket engines have written in the present cycle: place of the engine, address, the bytes before. -/
  thkw : List (Nat × Nat × List Byte)
  /-- A guarded-ring violation of this beat: the core that made it (R221). -/
  ringBad : Option Nat
  /-- Clock stop of a step change: the reference time (in units of `tu`) at which clocks run again. -/
  stopUntil : Option Nat
  /-- Pending step change: beat, step. -/
  stepPend : Option (Nat × Nat)
  /-- Present frequency step. -/
  step : Nat
  /-- Output records committed since the launch. -/
  records : Nat
  /-- GTC of the fault. -/
  faultGtc : Nat
  /-- R563: what stops the job at the end of the logical cycle in progress. -/
  fault : Option CycleFault
  /-- LAG event taken since lag was last zero is `lagArm`; the fault of R310 is `job = faulted`. -/
  variant : Nat
  /-- R571: the last beat committed, TIME_CHOICE at that commit, and the beat of the fault. -/
  lastBeat : Option Nat
  choiceAt : Nat
  deriving DecidableEq, Repr

/-- A cluster as a launch leaves it (R177, R220). -/
def Cluster.init : Cluster :=
  { timed := [], untimed := [], running := [], tend := [], subs := [], subNote := 0, guards := [], gpend := [], send := [], mesh := [] }
/-- A tier-column with nothing pending. -/
def TierCol.init : TierCol := ⟨0, [], [], false, []⟩
/-- A partition with no cluster and no job. -/
def Part.init : Part :=
  { mask := 0, job := .idle, beat := 0, lc := 0, bc := 0, gate := false, frozen := false, frzCause := 0,
    frzFrom := none, frzRem := 0, frzSince := 0, thawOk := false, lagArm := true, thkw := [], ringBad := none, stopUntil := none, stepPend := none,
    step := 7, records := 0, faultGtc := 0, fault := none, variant := 0, lastBeat := none, choiceAt := 0 }

end Sys2Proof.Machine
end

