-- ==== Sys2Proof/Machine/MgmtState.lean ====
section
/-! DEFINITION. The state of boot, of the mailbox, of the event controller and of the package pins, as plain data (15, 16, 17, 19). -/

namespace Sys2Proof.Machine

/-- A fetch of a firmware image (R520): the slot, its XID, the server and the image size once an OFFER is accepted, the next
block to read, the blocks read for and not answered with when they were last asked for (ns), the blocks that have come, when the
last DATA came or the reading began, when SOLICIT was last sent (ns; none: not yet), whether it is a standby fetch (R526), the
reason of a verification of it that failed. -/
structure Fetch where
  slot : Nat
  xid : Nat
  offer : Option (Nat × Nat)
  next : Nat
  reads : List (Nat × Nat)
  got : SMap (List Byte)
  heard : Nat
  solicit : Option Nat
  standby : Bool
  bad : Nat
  deriving DecidableEq, Repr

/-- Who asked for the verification of a slot (R516, R520, R523, R525, R526): the attempt, the attempt's fetch, a standby write, the
restart of a core, a role switch to a core. -/
inductive Asker where | attempt | fetched | standby | restart (m : Nat) | switch (m : Nat)
  deriving DecidableEq, Repr

/-- What registers do not hold of a management core: when it was last kicked or its watchdog armed (ns; none: not armed), when its
restart began (ns; none: no restart runs), consecutive restarts that failed. -/
structure Mc where
  kickAt : Option Nat
  restartAt : Option Nat
  fails : Nat
  deriving DecidableEq, Repr

def Mc.init : Mc := ⟨none, none, 0⟩

/-- Boot (R509 to R526): the cause of an attempt that is to start, when the present stage began (ns), the slot that a fetch retry
names, the slot of a failed attempt, slots still to be tried (R516), image contents by slot, the fetches in progress (0 of the attempt, 1 standby), verifications
in progress (slot, asker), key hashes programmed since shipment, the management cores, the core a role switch passes the role to. -/
structure Boot where
  due : Option Nat
  stageAt : Nat
  retry : Option Nat
  failed : Option Nat
  order : List Nat
  imgs : SMap (List Byte)
  fetches : SMap (Option Fetch)
  verifs : List (Nat × Asker)
  keys : SMap (Option (List Byte))
  mcs : SMap Mc
  switchTo : Option Nat
  deriving DecidableEq, Repr

def Boot.init : Boot :=
  { due := some 1, stageAt := 0, retry := none, failed := none, order := [], imgs := [], fetches := [], verifs := [], keys := [], mcs := [],
    switchTo := none }

/-- A STANDBY_BEGIN left open (R549): slot, size, bytes that have come. -/
structure Standby where
  slot : Nat
  size : Nat
  got : SMap (Option Byte)
  deriving DecidableEq, Repr

/-- The mailbox (R534 to R541): posted channels, oldest first; the channel being served; the requests buffered on channels 1 (sender,
bytes) and 2 (the MSG frame, its arrival port); negotiated minor versions of channels 1 and 2; a standby write left open; after an interruption, when a new primary that was
RUNNING has set AVAIL at the latest (ns; R541). -/
structure Mbox where
  posted : List Nat
  busy : Option Nat
  ch1 : Option (Nat × List Byte)
  ch2 : Option (Option Nat × Bool × Frame)
  minors : SMap Nat
  standby : Option Standby
  downUntil : Option Nat
  deriving DecidableEq, Repr

def Mbox.init : Mbox := ⟨[], none, none, none, [], none, none⟩

/-- A write to an EVC register that waits for the next tick (R495, R500): its sender (0 host, 1 MC0, 2 MC1), the register and
its index, the value, the bits it writes. -/
structure EvcWrite where
  from_ : Nat
  reg : RegName
  idx : Nat
  value : Nat
  mask : Nat
  deriving DecidableEq, Repr

/-- A wire input (R498, R499): the samples that were the same as the last one, in a row; a pulse latched between ticks; the filtered
value takes the next sample. -/
structure WireIn where
  run : Nat
  pulse : Bool
  fresh : Bool
  deriving DecidableEq, Repr

def WireIn.init : WireIn := ⟨0, false, true⟩

/-- The event controller: writes that wait, wire inputs, the sources eligible at the last tick for the host and for the evergreen log
(bit s for source s), the GTC of the last tick, whether a forward step carried GTC past a tick (R465). -/
structure Evc where
  writes : List EvcWrite
  wires : SMap WireIn
  hostEl : Nat
  greenEl : Nat
  tick : Option Nat
  stepped : Bool
  deriving DecidableEq, Repr

def Evc.init : Evc := ⟨[], [], 0, 0, none, false⟩

/-- The package (19, R457, R510): whether PERST# is asserted, whether the part is in reset for want of a power-good input, the
instruction of the boundary-scan port, its boundary register, what drives the lands (0 the part, 1 the boundary register, 2
the boundary register held, 3 nothing), whether THERMTRIP# is asserted, whether the evergreen island runs. -/
structure Pins where
  perst : Bool
  held : Bool
  ir : Nat
  boundary : Nat
  drive : Nat
  trip : Bool
  green : Bool
  deriving DecidableEq, Repr

def Pins.init : Pins := ⟨false, false, 0xFF, 0, 0, false, true⟩

end Sys2Proof.Machine
end

