-- ==== Sys2Proof/Machine/OutState.lean ====
section
/-! DEFINITION. What the part sends out, and its maintenance activities, as plain data. -/

namespace Sys2Proof.Machine

/-- Something that leaves the part: a flit group on a Denian port; a write to host memory (address, bytes); an interrupt message to
the host (vector); a message on an Ethernet port; a datagram on the management port (to a host named by a
number, 0 all nodes; its body); a level on the 1PPS output; a timing request
(PTM) on PCI Express; an interrupt to a management core; the bytes that answer a read of a register or of the BAR2 window. -/
inductive Out where
  | group (n : Nat) (bytes : List Byte)
  | host (addr : Nat) (bytes : List Byte)
  | vector (v : Nat)
  | eth (port : Nat) (bytes : List Byte)
  | mgmt (dest : Nat) (bytes : List Byte)
  | pps (high : Bool)
  | ptm
  | toMc (m src : Nat)
  | cpl (bytes : List Byte)
  deriving DecidableEq, Repr

/-- A maintenance activity (Table 18.6): its number, code, tokens (a mask), the physical slots (cluster * 16 + slot), tier-columns,
ports and clusters (a mask) it names, the earliest end the spec states, the fill pattern and the
poison bit of a sweep, a value of its own (the step, the state, the pattern). -/
structure Act where
  id : Nat
  code : Nat
  tokens : Nat
  slots : List Nat
  cols : List Nat
  ports : List Nat
  clusters : Nat
  ends : Nat
  pat : Nat
  poison : Bool
  arg : Nat
  deriving DecidableEq, Repr

end Sys2Proof.Machine
end

