-- ==== Sys2Proof/Machine/PortState.lean ====
section
/-! DEFINITION. The state of Denian ports, as plain data (10). -/

namespace Sys2Proof.Machine

/-! ## Denian ports (10): the part that other chapters touch; the rest of a port stands below. -/

/-- A SCHED message on a port (R326, R339, R340): the partition that sent it here (none when it is forwarded), its hop bytes still
to follow, destination core and channel, sending core, length, REMOTE signal, its flits here, how many flits have entered, and
whether its first flit has left. -/
structure SchedMsg where
  q : Option Nat
  hops : List Nat
  dcore : Nat
  ch : Nat
  src : Nat
  len : Nat
  sig : Option (Nat × Nat)
  flits : List (List Byte)
  entered : Nat
  begun : Bool
  deriving DecidableEq, Repr

/-- The flits of a message (R326). -/
def SchedMsg.total (m : SchedMsg) : Nat := (m.len + 63) / 64

/-- A SCHED message in a receive buffer (R331, R340, R341): its route header (hop bytes still to follow, destination core and
channel, length, REMOTE signal), how many of its flits have arrived, those not yet passed on with the time (ns) each is ready, how
many have been passed on, and whether it is discarded. -/
structure RxMsg where
  hops : List Nat
  dcore : Nat
  ch : Nat
  len : Nat
  sig : Option (Nat × Nat)
  got : Nat
  flits : List (Nat × List Byte)
  passed : Nat
  drop : Bool
  deriving DecidableEq, Repr

/-- A sequenced group (R343, R346): its number, when it was last sent (ns), its slots (tag, 64 bytes) and route headers. -/
structure Group where
  gseq : Nat
  sent : Nat
  slots : List (Nat × List Byte)
  rh : List (List Byte)
  deriving DecidableEq, Repr

/-- A group that a replay resends (R346): the group, how many of its slots have gone, the ACK and CREDIT fields of its trailer. -/
structure Replaying where
  g : Group
  at_ : Nat
  ack : Nat
  credit : Nat
  deriving DecidableEq, Repr

/-- One Denian port. Virtual channels are numbered as in Table 10.4. -/
structure Port where
  /-- Outbound queues: SCHED, dynamic frames by channel, a frame that has started (channel, flits left), CTRL, MAINT. `ties` holds for a
  channel the ns in which units last reached its queue and where those units came from (R333): the arrival port, 1024 for local origin. -/
  sched : List SchedMsg
  dyn : SMap (List Frame)
  frm : Option (Nat × List (List Byte))
  ctrl : List CtrlFlit
  maint : List (List Byte)
  ties : SMap (Nat × List Nat)
  /-- Credits held, the last CREDIT field of each channel received, and the flits freed here (R329, R330). -/
  credits : SMap Nat
  lastCredit : SMap Nat
  freed : SMap Nat
  /-- Slots: when slot 0 began (ns), how many have begun, the slots and route headers of the present group. -/
  epoch : Nat
  slots : Nat
  cur : List (Nat × List Byte)
  curRh : List (List Byte)
  /-- The ACK and CREDIT fields that the present group's trailer took at its beginning, and whether it must be null (R343). -/
  curAck : Nat
  curCredit : Nat
  curNull : Bool
  /-- Retry (R343 to R348): last number used, last group accepted, replay buffer, groups still to resend, the one being resent. -/
  gseq : Nat
  ackSeq : Nat
  replay : List Group
  resend : List Group
  rep : Option Replaying
  /-- A NAK to issue and when it was found due (ns), one found due since the last accepted group, one to go in the next trailer; a replay to
  start and when its NAK was accepted. -/
  nakWant : Option Nat
  nakHeld : Bool
  nakOut : Bool
  replayWant : Option Nat
  retryRun : Nat
  /-- Received: SCHED messages, flits of frames not yet whole, whole frames, CTRL and MAINT flits. -/
  rx : List RxMsg
  rxDyn : SMap (List (List Byte))
  frames : List Frame
  ctrlIn : List CtrlFlit
  maintIn : List (List Byte)
  /-- Training (R349): the step, when step 1 and step 6 began, when the record was last sent, whether one has arrived since, consecutive
  good null groups, PROBE pairs delivered (t1 to t4), the results of those taken (half ns), the observed lane map. -/
  step : Nat
  since : Nat
  ident : Nat
  sentId : Nat
  heard : Bool
  nulls : Nat
  pairs : List (Nat × Nat × Nat × Nat)
  probes : List Int
  lanes : Nat
  /-- When the port went DOWN (ns), and the DOWNCAUSE before (R356). -/
  stopped : Option (Nat × Nat)
  /-- The last good neighbour record. -/
  nbr : Option (List Byte)
  /-- The identity record last queued to send (R351), and the role and torus sizes in force since the last training (R363, R366). -/
  lastRec : List Byte
  role : Option Nat
  dims : Nat
  /-- The window period in which the head frame of a channel was last deferred, plus 1 (R335). -/
  deferAt : SMap Nat
  deriving DecidableEq, Repr

/-- A port that is off: nothing queued, nothing received. -/
def Port.init : Port :=
  { sched := [], dyn := [], frm := none, ctrl := [], maint := [], ties := [], credits := [], lastCredit := [], freed := [], epoch := 0, slots := 0,
    cur := [], curRh := [], curAck := 0, curCredit := 0, curNull := false, gseq := 0, ackSeq := 0, replay := [], resend := [],
    rep := none, nakWant := none, nakHeld := false, nakOut := false, replayWant := none, retryRun := 0, rx := [], rxDyn := [],
    frames := [], ctrlIn := [], maintIn := [], step := 0, since := 0, ident := 0, sentId := 0, heard := false, nulls := 0, pairs := [], probes := [], lanes := 0xE4, stopped := none,
    nbr := none, lastRec := [], role := none, dims := 0, deferAt := [] }

end Sys2Proof.Machine
end

