-- ==== Sys2Proof/Machine/TimeState.lean ====
section
/-! DEFINITION. The state of the time base, of power states and of the sideband, as plain data (14, 19). -/

namespace Sys2Proof.Machine

/-- Time (R459 to R472): whether a time parent is kept, the last SEQ seen from its master, when M's last beacon came (GTC), the
number of corrections of at most 8 ns in a row, the remaining slew, when its last ns was added or withheld (reference ns), the
next beacon's SEQ, whether the alarm has fired, when the master's source was last heard (reference ns), PTM requests
unanswered, when the last was issued (reference ns, GTC), whether the 1PPS output is high, whether the reference is absent, ns still
to withhold, the GTC of the last BEACON sent, when the parent's last beacon came (GTC), the phase point (reference ns) that R607
counts from. -/
structure TimeSt where
  parent : Bool
  seqSeen : Option Nat
  heard : Nat
  good : Nat
  slew : Int
  slewAt : Nat
  beaconSeq : Nat
  alarmed : Bool
  srcAt : Nat
  ptmOut : Nat
  ptmAt : Nat
  ppsHigh : Bool
  refLost : Bool
  ptmGtc : Nat
  hold : Nat
  sentAt : Option Nat
  heardP : Nat
  phase : Nat
  deriving DecidableEq, Repr

def TimeSt.init : TimeSt :=
  { parent := false, seqSeen := none, heard := 0, good := 0, slew := 0, slewAt := 0, beaconSeq := 0, alarmed := false, srcAt := 0, ptmOut := 0,
    ptmAt := 0, ppsHigh := false, refLost := false, ptmGtc := 0, hold := 0, sentAt := none, heardP := 0, phase := 0 }

/-- Power (R482 to R488): the state a transition goes to (none: no transition), a wake that occurred during an entry (its code),
the tick in which the last wake began, FLOOD of the WAKE flit that woke the part, the last ten power measurements, the ns in which the sweep of the COLD reset ends (R214), region
PLLs without lock (die * 4 + region). -/
structure PowSt where
  trans : Option Nat
  wakeNext : Option Nat
  wakeTick : Nat
  flood : Bool
  samples : List Nat
  unlocked : List Nat
  sweepEnd : Nat
  deriving DecidableEq, Repr

def PowSt.init : PowSt :=
  { trans := none, wakeNext := none, wakeTick := 0, flood := false, samples := [], unlocked := [], sweepEnd := 536872 }

end Sys2Proof.Machine
end

