-- ==== Sys2Proof/Machine/State.lean ====
section
/-! DEFINITION. The state of the part, as plain data: every register, memory, queue, counter, mode and pin the spec gives it,
and the queue of commands that wait. Indexed pieces are sparse maps (`SMap`) from an index to a record. -/

namespace Sys2Proof.Machine

/-- Why the part could stop with a fault. No command of this model stops so: every fault the spec describes (a job fault,
a status, an error record) is an effect on the state and the part goes on. -/
inductive Fault where
  /-- Raised by no meaning (safe): a name is kept so that a stop, were one needed, would have one. -/
  | noEffectStated
  deriving DecidableEq, Repr

/-- Why a command has no meaning. -/
inductive Refusal where
  /-- The command has no meaning in the model yet; raised by the dispatch alone (safe). -/
  | notModelled (mnemonic : String)
  deriving DecidableEq, Repr

/-- What the part itself did to a register in the present cc or ns (R81, R360): `key` the register's place in the register file, `fld` the
field, `kind` 0 for an increment by `k`, 1 for bits set, 2 for a rise to `k`, and the clock that counts it: a partition, or 8 for the ns. -/
structure HwNote where
  key : Nat
  fld : Fld
  kind : Nat
  k : Nat
  idx : Nat
  clk : Nat
  deriving DecidableEq, Repr

/-- R211: a correction of a core store or operand buffer owed its write-back: the bank's core, unit and word, the units of the word, those
corrected, and whether the cycle of the scrub read is over. -/
structure ScrubBack where
  core : Nat
  unit : Nat
  word : Nat
  units : List Nat
  fix : List Nat
  ripe : Bool
  deriving DecidableEq, Repr

/-! ## The whole machine -/

/-- Everything the spec gives the part, and the queue of commands that wait. -/
@[ext]
structure State where
  /-- Commands waiting, first in first out. -/
  pending : List Instr
  /-- Composition and identity, fixed at assembly and shipment. -/
  id : PartId
  /-- The register file: by 2^24 * register + index; an unlisted register reads its default. -/
  regs : SMap Word
  /-- R21: the high halves latched, by 2^40 * requester (0 host, 1 MC0, 2 MC1) + the register's place in the register file. -/
  latch : SMap (Option Nat)
  /-- The hardware changes of the present cc or ns, which come after a host write of the same (R81, R107, R145, R179, R319, R360). -/
  hw : List HwNote
  /-- Bulk memory and core stores by device address. -/
  mem : List Host.Cell
  /-- R215: the fill pattern of a memory (tier-column or core store) by `fillKey`. -/
  fill : SMap Nat
  /-- Cells in error (R206, R207): by unit number, 1 a single-bit error, 2 a double-bit error. -/
  bad : SMap Nat
  /-- R211: scrub corrections not yet written back. -/
  scrubs : List ScrubBack
  /-- R216: memories whose units the last sweep marked poisoned, and the units that differ from their memory. -/
  poisonMem : SMap Bool
  poison : SMap Bool
  cores : SMap Core
  clusters : SMap Cluster
  cols : SMap TierCol
  parts : SMap Part
  ports : SMap Port
  /-- The persistent store (16): words that differ from their shipment value, and write counters. -/
  ps : SMap Nat
  psCount : SMap Nat
  /-- Persistent writes accepted and not complete (R528), oldest first: word, old value, new value. -/
  psQ : List (Nat × Nat × Nat)
  /-- The topiary map in force (R30, R197), by cluster: the words as the last rebuild took them, those that differ from the shipment value. -/
  topo : SMap Nat
  /-- Bank-port uses of the scheduled path in the present beat (R191): by use key, the rank of the requester plus 1, plus 4,096 times the
      word. -/
  bankUse : SMap Nat
  fab : Fabric
  /-- The request table, and serving by partition (12). -/
  table : SMap Entry
  serve : SMap Serve
  /-- The host interface (13). -/
  host : HostIf
  /-- Time and power (14). -/
  tm : TimeSt
  pow : PowSt
  /-- Boot, mailbox, event controller, package. -/
  boot : Boot
  mbox : Mbox
  evc : Evc
  pins : Pins
  /-- Maintenance activities in progress (R581), and the number of the next. -/
  acts : List Act
  nextAct : Nat
  /-- What the part has sent out, oldest first. -/
  out : List Out
  /-- EVC occurrences waiting for the next tick (R495). -/
  occ : List Nat
  /-- GTC. -/
  gtc : Nat
  /-- Reference time in ns since the COLD reset, and the time since that ns in the units of `tu`. -/
  refNs : Nat
  sub : Nat
  /-- How many free values have been taken. -/
  free : Nat
  deriving DecidableEq, Repr

/-- Registers whose default is of the part (R364, Table 16.7) and the last reset, as a COLD reset leaves them on this part. -/
def resetRegs : SMap Word :=
  List.flatten [(List.range 24).map (fun n => (RegName.PORT_CTL.num * 2 ^ 24 + n, 1)),
    [(RegName.ROUTE_ROLE.num * 2 ^ 24, 0x0303020202010101), (RegName.ROUTE_ROLE.num * 2 ^ 24 + 1, 0x0605050504040403),
     (RegName.ROUTE_ROLE.num * 2 ^ 24 + 2, 0x2020101010100606), (RegName.ROOT_RESET.num * 2 ^ 24, 0x100)]]

/-- The machine right after a COLD reset with power good (R555, R561): no partition, every register at its default, every
memory swept to the fill pattern 0. -/
def State.reset : State :=
  { pending := [], id := ⟨.a40, 0, 0, 0, 0⟩, regs := resetRegs, latch := [], hw := [], mem := [], fill := [], bad := [], scrubs := [], poisonMem := [], poison := [],
    cores := [], clusters := [], cols := [], parts := [], ports := [], ps := [], psCount := [], psQ := [], topo := [], bankUse := [], fab := .init, table := [], serve := [], host := .init, tm := .init, pow := .init,
    boot := .init, mbox := .init, evc := .init, pins := .init, acts := [], nextAct := 0, out := [], occ := [], gtc := 0, refNs := 0, sub := 0, free := 0 }

end Sys2Proof.Machine
end

