-- ==== Sys2Proof/Machine/Ops.lean ====
section
/-! DEFINITION. The named operations over the state: registers, partitions and cores, memories with their protection (06),
events. Every meaning is written over these. -/

namespace Sys2Proof.Machine

/-- What a meaning answers. -/
abbrev Res := Host.Outcome State Fault Refusal

/-- A command's effect: everything but the queue of waiting commands and what assembly fixed (R29). -/
def done (s t : State) : Res := .next { t with pending := s.pending, id := s.id }

/-! ## Persistent words (R528 to R531, Table 16.7) -/

/-- Table 16.7: the shipment value of a persistent word. -/
def psDflt (p : PartId) (w : Nat) : Nat :=
  if w < 4 then p.serial / 2 ^ (32 * w) % 2 ^ 32
  else if w < 6 then p.macMgmt / 2 ^ (32 * (w - 4)) % 2 ^ 32
  else if w = 6 then 0x58
  else if w = 0x10 then 0x04040004
  else if w = 0x12 then 0x4B0
  else if w = 0x13 then 0x13F
  else if w = 0x15 then (if p.ports = 48 then 2 ^ 32 - 1 else 2 ^ 24 - 1)
  else if w = 0x16 then (if p.ports = 48 then 2 ^ 16 - 1 else 0)
  else if 0x40 ≤ w ∧ w < 0x70 then 0x000E40E4
  else if 0x200 ≤ w ∧ w < 0x240 then 0x76543210
  else 0

/-- The value of a persistent word. -/
def State.psWord (s : State) (w : Nat) : Nat := SMap.get (psDflt s.id w) s.ps w

/-! ## Registers -/

/-- The place of a register in the register file. -/
def regKey (r : RegName) (i : Nat) : Nat := r.num * 2 ^ 24 + i

/-- Writes of a persistent word that wait for completion. -/
def State.psWaiting (s : State) (w : Nat) : Nat := (s.psQ.filter fun e => e.1 == w).length

/-- Set a field of a register that lies in the register file. -/
def State.setPlain (s : State) (f : Fld) (v : Nat) : State :=
  let k := regKey f.reg 0
  { s with regs := SMap.put f.reg.dflt s.regs k (f.put (SMap.get f.reg.dflt s.regs k) v) }

/-- R529: the writes a persistent word takes. -/
def psLimit : Nat := 1000000

/-- A persistent write (R528, R529): the value reads at once, the write completes later; a word written 1,000,000 times refuses it;
one that changes nothing is not made. -/
def State.psSet (s : State) (w v : Nat) : State :=
  let v := v % 2 ^ 32
  let old := s.psWord w
  if v = old then s
  else if psLimit ≤ SMap.get 0 s.psCount w + s.psWaiting w then
    let s := (s.setPlain F.PS_STAT_REFWORD w).setPlain F.PS_STAT_STATUS 3
    { s with occ := s.occ ++ [7] }
  else { s with ps := SMap.put (psDflt s.id w) s.ps w v, psQ := s.psQ ++ [(w, old, v)] }.setPlain F.PS_STAT_STATUS 0

/-- Registers that are persistent words (Table 16.7): the first word. -/
def psReg : RegName → Option Nat
  | .ROUTE_DIMS => some 0x10
  | .TIME_MASTER => some 0x11
  | .PWR_CAP => some 0x12
  | .PWR_WAKESEL => some 0x13
  | _ => none

/-- The stored word of a register. -/
def State.reg (s : State) (r : RegName) (i : Nat) : Word :=
  match psReg r with
  | some w => BitVec.ofNat 64 (s.psWord w + (if (regInfo r).width = 64 then s.psWord (w + 1) * 2 ^ 32 else 0))
  | none => SMap.get r.dflt s.regs (regKey r i)

/-- Store a register word. -/
def State.setReg (s : State) (r : RegName) (i : Nat) (w : Word) : State :=
  match psReg r with
  | some p =>
    let t := s.psSet p (w.toNat % 2 ^ 32)
    if (regInfo r).width = 64 then t.psSet (p + 1) (w.toNat / 2 ^ 32) else t
  | none => { s with regs := SMap.put r.dflt s.regs (regKey r i) w }

/-- A field of a register. -/
def State.fld (s : State) (f : Fld) (i : Nat) : Nat := f.get (s.reg f.reg i)

/-- Set a field of a register. -/
def State.setFld (s : State) (f : Fld) (i v : Nat) : State := s.setReg f.reg i (f.put (s.reg f.reg i) v)

/-- The cluster (die * 8 + cluster) of a register of the core, thicket, calendar or distance blocks. -/
def regCluster (r : RegName) (i : Nat) : Option Nat :=
  match (regInfo r).dims with
  | (0x1000000, _) :: (0x1000, n) :: ds => let u := i / ds.foldl (fun k d => k * d.2) 1; some (if n = 64 then u / 8 else u)
  | (0x1000000, _) :: (0x10, 32) :: [] => some (i / 32 * 8 + i % 8)
  | _ => none

/-- The register belongs to a partition's time block: `q` is its index (R319). -/
def regTime : RegName → Bool
  | .TIME_LAG => true | .TIME_FRZ => true | .TIME_FRZLAST => true | .TIME_CHOICE => true | .TIME_CHOICEBY => true | .TIME_FAULT => true
  | _ => false

/-- R26: whether a cluster belongs to partition `q`. -/
def State.inPart (s : State) (q cl : Nat) : Bool := decide (cl < 64) && (SMap.get Part.init s.parts q).mask.testBit cl

/-- R26: the partition that holds a cluster. -/
def State.partOf (s : State) (cl : Nat) : Option Nat := (List.range 8).find? fun q => s.inPart q cl

/-- The clock in whose cycle a change of a register falls: a partition's cc, or 8 for the ns. -/
def State.clockOf (s : State) (r : RegName) (i : Nat) : Nat :=
  if regTime r then i else ((regCluster r i).bind s.partOf).getD 8

/-- Note a hardware change: a host write of the same cc or ns comes before it (R81, R360). -/
def State.note (s : State) (f : Fld) (i kind k : Nat) : State :=
  { s with hw := s.hw ++ [⟨regKey f.reg i, f, kind, k, i, s.clockOf f.reg i⟩] }

/-- Forget the hardware changes of a cycle that is over. -/
def State.dropNotes (s : State) (clk : Nat) : State := { s with hw := s.hw.filter fun n => n.clk != clk }

/-- Add to a counter field, which stops at its largest value. -/
def State.addFld (s : State) (f : Fld) (i k : Nat) : State :=
  (s.setFld f i (min (2 ^ f.width - 1) (s.fld f i + k))).note f i 0 k

/-- The part sets bits of a W1C field. -/
def State.hwSet (s : State) (f : Fld) (i v : Nat) : State := (s.setFld f i (s.fld f i ||| v)).note f i 1 v

/-- The part raises a field to at least `v`. -/
def State.hwMax (s : State) (f : Fld) (i v : Nat) : State := (s.setFld f i (max (s.fld f i) v)).note f i 2 v

/-- Return a register to its default. -/
def State.clrReg (s : State) (r : RegName) (i : Nat) : State :=
  { s with regs := s.regs.erase (regKey r i), hw := s.hw.filter fun n => n.key != regKey r i }

/-- An occurrence of an event source, which the EVC applies at its next tick (R495). -/
def State.raise (s : State) (n : Nat) : State := { s with occ := s.occ ++ [n] }

/-- The next free value: the count of values taken advances, and the value is that of the count before. -/
def State.takeFree (s : State) : State × Nat := ({ s with free := s.free + 1 }, s.free)

/-! ## Units -/

def State.core (s : State) (c : Nat) : Core := SMap.get Core.init s.cores c
def State.setCore (s : State) (c : Nat) (v : Core) : State := { s with cores := SMap.put Core.init s.cores c v }
def State.modCore (s : State) (c : Nat) (f : Core → Core) : State := s.setCore c (f (s.core c))
def State.cluster (s : State) (k : Nat) : Cluster := SMap.get Cluster.init s.clusters k
def State.setCluster (s : State) (k : Nat) (v : Cluster) : State :=
  { s with clusters := SMap.put Cluster.init s.clusters k v }
def State.modCluster (s : State) (k : Nat) (f : Cluster → Cluster) : State := s.setCluster k (f (s.cluster k))
def State.col (s : State) (tc : Nat) : TierCol := SMap.get TierCol.init s.cols tc
def State.setCol (s : State) (tc : Nat) (v : TierCol) : State := { s with cols := SMap.put TierCol.init s.cols tc v }
def State.part (s : State) (q : Nat) : Part := SMap.get Part.init s.parts q
def State.setPart (s : State) (q : Nat) (v : Part) : State := { s with parts := SMap.put Part.init s.parts q v }
def State.modPart (s : State) (q : Nat) (f : Part → Part) : State := s.setPart q (f (s.part q))

def State.port (s : State) (n : Nat) : Port := SMap.get Port.init s.ports n
def State.setPort (s : State) (n : Nat) (v : Port) : State := { s with ports := SMap.put Port.init s.ports n v }
def State.modPort (s : State) (n : Nat) (f : Port → Port) : State := s.setPort n (f (s.port n))

/-- The topiary word in force of a cluster (die * 8 + cluster), R30, R197. -/
def State.topiary (s : State) (cl : Nat) : Nat := SMap.get 0x76543210 s.topo cl

/-- R197: a rebuild takes the topiary word of a cluster as the persistent store holds it. -/
def State.loadTopo (s : State) (cl : Nat) : State := { s with topo := SMap.put 0x76543210 s.topo cl (s.psWord (0x200 + cl)) }

/-- R30, Table 16.7: the physical slot of a logical slot; none for slot 7 of a cluster with 7 enabled cores. -/
def State.physSlot (s : State) (cl slot : Nat) : Option Nat :=
  let p := s.topiary cl / 2 ^ (4 * slot) % 16
  if slot < 8 ∧ p ≤ 8 then some p else none

/-- R9, R30: whether a core id names an enabled core. -/
def State.coreExists (s : State) (c : Nat) : Bool :=
  decide (c < 512) && (s.physSlot (c / 8) (c % 8)).isSome

/-- The enabled cores of a cluster. -/
def State.clusterCores (s : State) (cl : Nat) : List Nat :=
  ((List.range 8).map (fun j => cl * 8 + j)).filter s.coreExists

/-- The clusters of a partition in increasing order (R251). -/
def State.partClusters (s : State) (q : Nat) : List Nat := (List.range 64).filter (s.inPart q)

/-- The enabled cores of a partition, by cluster and then logical slot (R251). -/
def State.partCores (s : State) (q : Nat) : List Nat := (s.partClusters q).flatMap s.clusterCores

/-- Change every core of a partition. -/
def State.modPartCores (s : State) (q : Nat) (f : Core → Core) : State :=
  (s.partCores q).foldl (fun t c => t.modCore c f) s

/-- Table 1.5: the frequency of a step in MHz. -/
def freqOf (step : Nat) : Nat :=
  match step with | 0 => 350 | 1 => 500 | 2 => 650 | 3 => 800 | 4 => 950 | 5 => 1100 | 6 => 1200 | _ => 1250

/-- The frequency of a partition in MHz. -/
def State.freq (s : State) (q : Nat) : Nat := freqOf (s.part q).step

/-- R293: the beat length in ns. -/
def State.beatLen (s : State) (q : Nat) : Nat := 2 ^ s.fld F.TIME_BEAT_CFG_K q

/-- R293: the wall-grid instant of beat `n`. -/
def State.grid (s : State) (q n : Nat) : Nat := s.fld F.TIME_LAUNCH_COUNT q + n * s.beatLen q

/-- R296: the job of the partition is in exact mode. -/
def State.exact (s : State) (q : Nat) : Bool := s.fld F.TIME_JOB_CFG_MODE q == 1

/-- The partition runs a logical cycle now: RUN, at no gate, not frozen, its clocks not stopped. -/
def Part.live (p : Part) : Bool := p.job == .run && !p.gate && !p.frozen && p.stopUntil.isNone

/-- The partition of a core, when it runs a logical cycle now. -/
def State.liveQ (s : State) (c : Nat) : Option Nat :=
  match s.partOf (c / 8) with
  | some q => if (s.part q).live && s.coreExists c then some q else none
  | none => none

/-! Time (R459, R607, R611). A unit of time is 1 ns / 1,141,140: every cc period of Table 1.5 is a whole number of units. -/

/-- The units of 1 ns. -/
def tu : Nat := 1141140

/-- The reference time in units. -/
def State.now (s : State) : Nat := s.refNs * tu + s.sub

/-- R607: the time since the last phase point, in units. -/
def State.phaseT (s : State) : Nat := (s.now - s.tm.phase * tu) % (20 * tu)

/-- The cc period of a partition in units: exactly the inverse of its frequency. -/
def State.period (s : State) (q : Nat) : Nat := 1000 * tu / s.freq q

/-- The present instant is a cc edge of the partition's clock. -/
def State.atEdge (s : State) (q : Nat) : Bool := s.phaseT % s.period q == 0

/-- R11, R294, R611: the lag of a partition in units: 0 while it waits at a gate before the beat's wall-grid instant, and from that instant
on that of the beat with c = 0 (R309, R478). -/
def State.lagU (s : State) (q : Nat) : Nat :=
  let p := s.part q
  if p.job != .run && p.job != .launched then 0
  else (s.gtc * tu + s.sub) - (s.grid q p.beat * tu + min (p.bc * s.period q) (s.beatLen q * tu))

/-- The partition holds a job that has been launched and has not ended or faulted. -/
def Part.jobLive (p : Part) : Bool := p.job == .run || p.job == .launched

/-! ## Memories (06) -/

/-- R215: the number of a memory that has a fill pattern: a tier-column, or 256 + a core's core store. -/
def fillKey (a : Nat) : Nat := if daSpace a = 1 then 256 + daCore a else daTc a

/-- The byte of a fill pattern at an address: it stands in each aligned 4-byte group (R215). -/
def patByte (pat a : Nat) : Byte := BitVec.ofNat 8 (pat / 2 ^ (8 * (a % 4)))

/-- R215: what an unlisted byte of bulk memory or core store reads as. -/
def State.fillByte (s : State) (a : Nat) : Byte := patByte (SMap.get 0 s.fill (fillKey a)) a

/-- One byte of bulk memory or core store, as it stands. -/
def State.rdByte (s : State) (a : Nat) : Byte := SMap.get (s.fillByte a) s.mem a

/-- Write one byte of bulk memory or core store. -/
def State.wrByte (s : State) (a : Nat) (b : Byte) : State := { s with mem := SMap.put (s.fillByte a) s.mem a b }

/-- `n` bytes as they stand. -/
def State.rdBytes (s : State) (a n : Nat) : List Byte := (List.range n).map fun i => s.rdByte (a + i)

/-- Bytes written as they are. -/
def State.wrBytes (s : State) (a : Nat) : List Byte → State
  | [] => s
  | b :: r => (s.wrByte a b).wrBytes (a + 1) r

/-- The canonical form of the device memory (Host.Cell): addresses strictly rising, no entry equal to what an unlisted
address reads as. -/
def State.memWf (s : State) : Bool := SMap.wf s.fillByte s.mem

/-- R180: an address that names no target of this part. -/
def State.absent (s : State) (a : Nat) : Bool :=
  let sp := daSpace a
  decide (sp ≥ 3) || decide (bits a 43 36 ≠ 0 ∧ sp ≠ 2) || decide (a ≥ 2 ^ 48)
    || (sp == 0 && decide (bits a 32 31 ≥ s.id.tiers))
    || (sp == 1 && (decide (bits a 26 22 ≠ 0) || !s.coreExists (daCore a)))
    || (sp == 2 && decide (bits a 43 28 ≠ 0))

/-- R27: an address that lies in a memory of partition `q`. -/
def State.within (s : State) (q a : Nat) : Bool :=
  !s.absent a && decide (daSpace a ≤ 1) && s.inPart q (daCluster a)

/-- R215: `n` bytes of the fill pattern of the memory at an address; ROOT_FILLCFG.PATTERN for an absent target. -/
def State.fillBytes (s : State) (a n : Nat) : List Byte :=
  (List.range n).map fun i =>
    if s.absent a then patByte (s.fld F.ROOT_FILLCFG_PATTERN 0) (a + i) else s.fillByte (a + i)

/-- Who makes a read (R209, R216): a core, a thicket, or another requester. -/
inductive Who where | core (c : Nat) | thkt (cl : Nat) | other
  deriving DecidableEq, Repr

/-- R216: the event of one read of a poisoned unit. -/
def State.poisonEvent (s : State) : Who → State
  | .core c => (s.raise (384 + c)).addFld F.CORECTL_MEMSTAT_POISCNT c 1
  | .thkt cl => s.raise (896 + cl)
  | .other => s.raise 9

/-- The memory that holds a poison unit: its number of `fillKey`, or 1024 + 4 * core + buffer. -/
def poisonMemOf (u : Nat) : Nat := if u < 2 ^ 60 then fillKey (u * 16) else 1024 + (u - 2 ^ 60) / 4096

/-- R216: a unit (by address / 16, or a buffer word's number) is poisoned. -/
def State.isPoison (s : State) (u : Nat) : Bool := SMap.get (SMap.get false s.poisonMem (poisonMemOf u)) s.poison u

/-- A write clears the mark of a unit. -/
def State.unpoison (s : State) (u : Nat) : State :=
  { s with poison := SMap.put (SMap.get false s.poisonMem (poisonMemOf u)) s.poison u false }

/-- Unit numbers of the error marks: an aligned 8 bytes of core store, piece `p` (16 is parity) of a bulk line. -/
def csUnit (a : Nat) : Nat := a / 8 * 32
def pieceUnit (line p : Nat) : Nat := line / 8 * 32 + p

/-- R207: the bank that holds a piece of the line at an address: the parity bank of line i of its tier-column is bank i mod 17. -/
def pieceBank (line p : Nat) : Nat :=
  let par := daOff line / 256 % 17
  if p = 16 then par else if p < par then p else p + 1

/-- CORECTL_MEMLOG: the first event since launch, further events counted. -/
def State.memLog (s : State) (c kind unit addr : Nat) : State :=
  if s.fld F.CORECTL_MEMLOG_KIND c = 0 then
    (((s.setFld F.CORECTL_MEMLOG_KIND c kind).setFld F.CORECTL_MEMLOG_UNIT c unit).setFld F.CORECTL_MEMLOG_ADDR c addr)
  else s.addFld F.CORECTL_MEMLOG_MORE c 1

/-- The index of a tier-column's CAL_COLSTAT and CAL_SCRUB. -/
def colIdx (tc : Nat) : Nat := tc

/-- R208: the bank of a tier-column marked failed. -/
def State.failedBank (s : State) (tc : Nat) : Option Nat :=
  if s.fld F.CAL_COLSTAT_FAILED (colIdx tc) = 1 then some (s.fld F.CAL_COLSTAT_FBANK (colIdx tc)) else none

/-- R208: the pieces of a line that lie outside a failed bank: those that a write of the line writes. -/
def State.linePieces (s : State) (line : Nat) : List Nat :=
  ((List.range 17).filter fun p => s.failedBank (daTc line) != some (pieceBank line p)).map (pieceUnit line)

/-- R212: a count of CAL_COLSTAT goes up; each change of it raises the memory-health event. -/
def State.health (s : State) (f : Fld) (ci : Nat) : State :=
  if s.fld f ci < 2 ^ f.width - 1 then (s.addFld f ci 1).raise 8 else s

/-- R208, R212: a bank is marked failed. -/
def State.failBank (s : State) (ci bank : Nat) : State :=
  ((s.setFld F.CAL_COLSTAT_FAILED ci 1).setFld F.CAL_COLSTAT_FBANK ci bank).raise 8

/-- R208: a line found with an uncorrectable piece in a bank; the 16th line marks the bank failed, when none is. -/
def State.noteBadPiece (s : State) (tc line bank : Nat) : State :=
  let c := s.col tc
  if c.badLines.contains (bank, line) then s
  else
    let bl := c.badLines ++ [(bank, line)]
    let s := s.setCol tc { c with badLines := bl }
    if (bl.filter (fun e => e.1 == bank)).length ≥ 16 ∧ s.fld F.CAL_COLSTAT_FAILED (colIdx tc) = 0 then
      s.failBank (colIdx tc) bank
    else s

/-- R206 to R209, R212: read a bulk line's 17 pieces: count corrections, rebuild or find the line uncorrectable. -/
def State.readLine (s : State) (a : Nat) : State × Bool :=
  let line := a / 256 * 256
  let tc := daTc a
  let ci := colIdx tc
  let failed := s.fld F.CAL_COLSTAT_FAILED ci = 1
  let fb := s.fld F.CAL_COLSTAT_FBANK ci
  let live := (List.range 17).filter fun p => !(decide failed && pieceBank line p == fb)
  let ce := (live.filter fun p => SMap.get 0 s.bad (pieceUnit line p) == 1).length
  let ue := live.filter fun p => SMap.get 0 s.bad (pieceUnit line p) == 2
  let s := if ce = 0 then s else s.addFld F.CAL_COLSTAT_CECNT ci ce
  let s := ue.foldl (fun t p => t.noteBadPiece tc line (pieceBank line p)) s
  if ue.length ≥ 2 ∨ (ue.length = 1 ∧ failed) then
    (s.health F.CAL_COLSTAT_UECNT ci, true)
  else if ue.length = 1 then (s.health F.CAL_COLSTAT_REBUILD ci, false)
  else (s, false)

/-- Cut a range of addresses at the multiples of `u`. -/
def chunks (u : Nat) : Nat → Nat → Nat → List (Nat × Nat)
  | 0, _, _ => []
  | fuel + 1, a, n =>
    if n = 0 then []
    else
      let k := min n (u - a % u)
      (a, k) :: chunks u fuel (a + k) (n - k)

/-- Read the bytes of one 16-byte word of a core store: corrections counted on its core, an uncorrectable 64-bit unit
or a poisoned word delivers the fill pattern. -/
def State.readCsWord (s : State) (who : Who) (a n : Nat) : State × List Byte × Bool :=
  let c := daCore a
  let us := (chunks 8 3 a n)
  let ce := (us.filter fun u => SMap.get 0 s.bad (csUnit u.1) == 1).length
  let ue := us.any fun u => SMap.get 0 s.bad (csUnit u.1) == 2
  let psn := s.isPoison (a / 16)
  let bytes := us.flatMap fun u =>
    if psn || SMap.get 0 s.bad (csUnit u.1) == 2 then s.fillBytes u.1 u.2 else s.rdBytes u.1 u.2
  let s := if ce = 0 then s else s.addFld F.CORECTL_MEMSTAT_CECNT c ce
  let s := if psn then s.poisonEvent who else s
  let s := if ue then s.memLog c 1 0 (a / 16 * 16) else s
  (s, bytes, ue)

/-- Read bytes of one bulk line. -/
def State.readBulk (s : State) (who : Who) (a n : Nat) : State × List Byte × Bool :=
  let psn := s.isPoison (a / 256 * 16)
  let r := s.readLine a
  let bytes := if psn || r.2 then s.fillBytes a n else s.rdBytes a n
  (if psn then r.1.poisonEvent who else r.1, bytes, r.2)

/-- Read `n` bytes of bulk memory or core store, protection and poison included (R206 to R209, R215, R216). The Bool says
that an uncorrectable error was met; the requester's own rule says what follows. -/
def State.readMem (s : State) (who : Who) (a n : Nat) : State × List Byte × Bool :=
  let cs := daSpace a == 1
  (chunks (if cs then 16 else 256) (n + 1) a n).foldl
    (fun acc u =>
      let r := if cs then acc.1.readCsWord who u.1 u.2 else acc.1.readBulk who u.1 u.2
      (r.1, acc.2.1 ++ r.2.1, acc.2.2 || r.2.2)) (s, [], false)

/-- Clear the error marks of units that are written whole or merged (R608); a scrub correction of their word is then dropped (R211). -/
def State.clearBad (s : State) (ks : List Nat) : State :=
  { s with bad := ks.foldl (fun m k => m.erase k) s.bad, scrubs := s.scrubs.filter fun x => !x.units.any ks.contains }

/-- Write the bytes of one 16-byte word of a core store (R189, R216, R608). -/
def State.writeCsWord (s : State) (who : Who) (a : Nat) (bs : List Byte) : State × Bool :=
  let n := bs.length
  let us := chunks 8 3 a n
  let part := us.filter fun u => u.2 < 8
  let ue := part.any fun u => SMap.get 0 s.bad (csUnit u.1) == 2
  let ce := (part.filter fun u => SMap.get 0 s.bad (csUnit u.1) == 1).length
  let psn := s.isPoison (a / 16)
  let s := if ce = 0 then s else s.addFld F.CORECTL_MEMSTAT_CECNT (daCore a) ce
  let s := if psn && decide (n < 16) then s.poisonEvent who else s
  let s := if ue then s.memLog (daCore a) 1 0 (a / 16 * 16) else s
  let s := part.foldl (fun t u =>
    if SMap.get 0 t.bad (csUnit u.1) == 2 then t.wrBytes (u.1 / 8 * 8) (t.fillBytes (u.1 / 8 * 8) 8) else t) s
  let s := s.clearBad (us.map fun u => csUnit u.1)
  let s := s.unpoison (a / 16)
  (s.wrBytes a bs, ue)

/-- The scrub pointer of a tier-column advances (R210). -/
def State.scrubNext (s : State) (tc : Nat) : State :=
  let p := s.fld F.CAL_SCRUB_POINTER tc + 1
  if p = 2 ^ 20 then (s.setFld F.CAL_SCRUB_POINTER tc 0).addFld F.CAL_SCRUB_PASSES tc 1 else s.setFld F.CAL_SCRUB_POINTER tc p

/-- R210: a requester writes the line whose correction patrol scrub is to write back: the write-back is dropped and the pointer advances. -/
def State.dropBack (s : State) (line : Nat) : State :=
  let tc := daTc line
  if (s.col tc).scrubBack && s.fld F.CAL_SCRUB_POINTER tc == daOff line / 256 then
    (s.setCol tc { s.col tc with scrubBack := false }).scrubNext tc
  else s

/-- Write bytes of one bulk line: a write of part of a line is a read-modify-write (R193, R608). -/
def State.writeBulk (s : State) (who : Who) (a : Nat) (bs : List Byte) : State × Bool :=
  let line := a / 256 * 256
  let whole := bs.length == 256
  let psn := s.isPoison (line / 16)
  let r := if whole then (s, false) else s.readLine a
  let s := if psn && !whole then r.1.poisonEvent who else r.1
  let s := if r.2 then s.wrBytes line (s.fillBytes line 256) else s
  let s := (s.clearBad (s.linePieces line)).dropBack line
  let s := s.unpoison (line / 16)
  (s.wrBytes a bs, r.2)

/-- Write bytes of bulk memory or core store, protection and poison included. -/
def State.writeMem (s : State) (who : Who) (a : Nat) (bs : List Byte) : State × Bool :=
  let cs := daSpace a == 1
  ((chunks (if cs then 16 else 256) (bs.length + 1) a bs.length).foldl
    (fun (acc : (State × Bool) × List Byte) u =>
      let d := acc.2.take u.2
      let r := if cs then acc.1.1.writeCsWord who u.1 d else acc.1.1.writeBulk who u.1 d
      ((r.1, acc.1.2 || r.2), acc.2.drop u.2)) ((s, false), bs)).1

/-! Operand buffers (R184, R185): buffer 0 ABUF, 1 CBUF, 2 weight staging. -/

/-- The bytes of a buffer. -/
def bufSize (b : Nat) : Nat := if b = 0 then 65536 else 32768

/-- What an unlisted buffer byte reads as: zero since a launch (R185), else the buffers' fill pattern. -/
def Core.bufByte (k : Core) (i : Nat) : Byte := if k.bufZero then 0 else patByte k.bufFill i

def Core.rdBuf (k : Core) (b i : Nat) : Byte :=
  SMap.get (k.bufByte (i % bufSize b)) k.bufs (b * 65536 + i % bufSize b)

def Core.wrBuf (k : Core) (b i : Nat) (v : Byte) : Core :=
  { k with bufs := SMap.put (k.bufByte (i % bufSize b)) k.bufs (b * 65536 + i % bufSize b) v }

/-- Unit number of the error and poison marks of a buffer's 8-byte unit and 16-byte word. -/
def bufUnit (c b i : Nat) : Nat := 2 ^ 60 + ((c * 4 + b) * 65536 + i) / 8
def bufWord (c b i : Nat) : Nat := 2 ^ 60 + ((c * 4 + b) * 65536 + i) / 16

/-- Read `n` bytes of a buffer, wrapping at its end. -/
def State.readBuf (s : State) (c b i n : Nat) : State × List Byte × Bool :=
  (List.range n).foldl (fun (acc : State × List Byte × Bool) j =>
    let o := (i + j) % bufSize b
    let s := acc.1
    let k := s.core c
    let m := SMap.get 0 s.bad (bufUnit c b o)
    let psn := s.isPoison (bufWord c b o)
    let fst := decide (j = 0 ∨ o % 8 = 0)
    let s := if m = 1 && fst then s.addFld F.CORECTL_MEMSTAT_CECNT c 1 else s
    let s := if psn && decide (j = 0 ∨ o % 16 = 0) then s.poisonEvent (.core c) else s
    let s := if m = 2 && fst then s.memLog c 1 (b + 1) (o / 16) else s
    let v := if m = 2 || psn then patByte k.bufFill o else k.rdBuf b o
    (s, acc.2.1 ++ [v], acc.2.2 || m == 2)) (s, [], false)

/-- Write bytes of a buffer, wrapping at its end; a write clears the marks of what it covers. -/
def State.writeBuf (s : State) (c b i : Nat) (bs : List Byte) : State :=
  let n := bs.length
  let s := (chunks 16 (n / 16 + 2) i n).foldl (fun t u =>
    let o := u.1 % bufSize b
    let t := if t.isPoison (bufWord c b o) && decide (u.2 < 16) then t.poisonEvent (.core c) else t
    let t := t.unpoison (bufWord c b o)
    t.clearBad [bufUnit c b o, bufUnit c b (o + u.2 - 1)]) s
  s.modCore c fun k => (bs.foldl (fun (acc : Core × Nat) v => (acc.1.wrBuf b acc.2 v, acc.2 + 1)) (k, i)).1

/-! Writes of single words under a bit mask (R121, R189, R608). -/

/-- The bits of a mask and of a value over old bytes. -/
def mergeBytes (old : List Byte) (val mask : Nat) : List Byte :=
  toBytes old.length (((ofBytes old) &&& (2 ^ (8 * old.length) - 1 - mask)) ||| (val &&& mask))

/-- The aligned 8-byte units (0, 1) of a word of which a mask covers a part only. -/
def partUnits (mask : Nat) : List Nat :=
  [0, 1].filter fun u => let m := mask / 2 ^ (64 * u) % 2 ^ 64; m != 0 && m != 2 ^ 64 - 1

/-- The units a mask touches. -/
def maskUnits (mask : Nat) : List Nat := [0, 1].filter fun u => mask / 2 ^ (64 * u) % 2 ^ 64 != 0

/-- Write bits of one word of a core store: units written in part are read first (R608); the Bool says that such a read met
an uncorrectable error. -/
def State.writeCsMask (s : State) (who : Who) (a val mask : Nat) : State × Bool :=
  let c := daCore a
  let ps := partUnits mask
  let bad (u k : Nat) : Bool := SMap.get 0 s.bad (csUnit (a + 8 * u)) == k
  let ce := (ps.filter fun u => bad u 1).length
  let ues := ps.filter fun u => bad u 2
  let psn := s.isPoison (a / 16)
  let s := if ce = 0 then s else s.addFld F.CORECTL_MEMSTAT_CECNT c ce
  let s := if psn && mask != 2 ^ 128 - 1 then s.poisonEvent who else s
  let s := if ues.isEmpty then s else s.memLog c 1 0 a
  let s := ues.foldl (fun t u => t.wrBytes (a + 8 * u) (t.fillBytes (a + 8 * u) 8)) s
  let s := s.clearBad ((maskUnits mask).map fun u => csUnit (a + 8 * u))
  let s := s.unpoison (a / 16)
  (s.wrBytes a (mergeBytes (s.rdBytes a 16) val mask), !ues.isEmpty)

/-- Write bits of one word of an operand buffer. -/
def State.writeBufMask (s : State) (c b word val mask : Nat) : State × Bool :=
  let i := word * 16 % bufSize b
  let ps := partUnits mask
  let bad (u k : Nat) : Bool := SMap.get 0 s.bad (bufUnit c b (i + 8 * u)) == k
  let ce := (ps.filter fun u => bad u 1).length
  let ues := ps.filter fun u => bad u 2
  let psn := s.isPoison (bufWord c b i)
  let s := if ce = 0 then s else s.addFld F.CORECTL_MEMSTAT_CECNT c ce
  let s := if psn && mask != 2 ^ 128 - 1 then s.poisonEvent (.core c) else s
  let s := if ues.isEmpty then s else s.memLog c 1 (b + 1) (i / 16)
  let k := s.core c
  let old := (List.range 16).map fun j => if ues.contains (j / 8) then patByte k.bufFill (i + j) else k.rdBuf b (i + j)
  let s := s.clearBad ((maskUnits mask).map fun u => bufUnit c b (i + 8 * u))
  let s := s.unpoison (bufWord c b i)
  (s.modCore c fun k =>
    ((mergeBytes old val mask).foldl (fun (acc : Core × Nat) v => (acc.1.wrBuf b acc.2 v, acc.2 + 1)) (k, i)).1, !ues.isEmpty)

end Sys2Proof.Machine
end

