-- ==== Sys2Proof/Machine/Job.lean ====
section
/-! DEFINITION. What stops or signals a job: the job fault and the progress ledger (18_resets_faults_maintenance.md R562 to
R573), the freeze (09 R303 to R307, R610), sync-counter increments (07 R243 to R247), and word accesses through bank
ports (06 R182, R191). -/

namespace Sys2Proof.Machine

/-- The partition waits for the start of its beat: in LAUNCHED, at a gate, or frozen at that start (causes 5 and 6). -/
def Part.waiting (p : Part) : Bool := p.job == .launched || (p.job == .run && (p.gate || (p.frozen && p.bc == 0 && (p.frzCause == 5 || p.frzCause == 6))))

/-- The partition has begun beat `b`. -/
def Part.begun (p : Part) (b : Nat) : Bool := p.job == .run && (decide (b < p.beat) || (p.beat == b && !p.waiting))

/-! Status codes (Table 0.7). -/
def stOK : Nat := 0
def stBUSY : Nat := 1
def stBAD_ARG : Nat := 2
def stNOT_PERMITTED : Nat := 3
def stTIMEOUT : Nat := 4
def stLINK_LOST : Nat := 5
def stLATE : Nat := 6
def stMISWIRED : Nat := 7
def stVERSION : Nat := 8
def stNO_RESOURCE : Nat := 9
def stFAULTED : Nat := 10
def stMINIMAL_MODE : Nat := 11
def stNOT_READY : Nat := 12
def stABORTED : Nat := 13

/-! Table 18.3: the causes of a job fault. -/
def caILLEGAL : Nat := 1
def caBANK : Nat := 2
def caMEMORY : Nat := 3
def caTHKT_DUE : Nat := 4
def caRING : Nat := 5
def caLAG : Nat := 6
def caLINK : Nat := 7
def caLATE : Nat := 8
def caSERVE : Nat := 9
def caCONTROL : Nat := 10
def caSTEP : Nat := 11
def caPLL : Nat := 12
def caPOWER : Nat := 13
def caTHERMAL : Nat := 14
def caLEDGER : Nat := 15

/-! ## The progress ledger -/

/-- R569: the ledger of a partition is on. -/
def State.ledgerOn (s : State) (q : Nat) : Bool :=
  s.fld F.TIME_LEDGER_BASE q != 0 && s.fld F.TIME_LEDGER_BAD q == 0

/-- R569: the conditions on TIME_LEDGER.BASE. -/
def State.ledgerOk (s : State) (q : Nat) : Bool :=
  let b := s.fld F.TIME_LEDGER_BASE q
  let n := 4352 + 64 * s.fld F.SERVE_PCFG_ECOUNT q
  daSpace b == 0 && s.within q b && b % 256 == 0 && decide (daOff b + n ≤ 2 ^ 28)

/-- ASCII "FLVLEDG1". -/
def ledgerMagic : List Byte := [0x46, 0x4C, 0x56, 0x4C, 0x45, 0x44, 0x47, 0x31]

/-- Table 18.4: the first 64 bytes of the ledger header. -/
def State.ledgerHead (s : State) (q st cause status port : Nat) (faultBeat : Nat) (core : Nat) : List Byte :=
  let p := s.part q
  ledgerMagic ++ toBytes 4 (s.fld F.TIME_JOB_CFG_JOBID q) ++ toBytes 1 st ++ toBytes 1 cause ++ toBytes 1 status
    ++ toBytes 1 port ++ toBytes 8 (p.lastBeat.getD (2 ^ 64 - 1)) ++ toBytes 8 p.records ++ toBytes 8 faultBeat
    ++ toBytes 8 p.faultGtc ++ toBytes 2 core ++ toBytes 6 0 ++ toBytes 8 p.choiceAt

/-- R563, R572: the queued writes of RT0 for a partition land, in order. -/
def State.landLedger (s : State) (q : Nat) : State :=
  let mine (x : Xfer) : Bool := match x.act with | .root p _ _ _ _ => p == q | _ => false
  s.cols.foldl (fun t e =>
    let c := t.col e.1
    let t := (c.pend.filter mine).foldl (fun u x =>
      match x.act with
      | .root _ _ _ off bs => (u.writeMem .other (bulkAddr e.1 (x.line * 256 + off)) bs).1
      | _ => u) t
    t.setCol e.1 { c with pend := c.pend.filter fun x => !mine x }) s

/-! ## Faults -/

/-- R563, step 2: SCHED messages of a partition not yet begun on a port are discarded. -/
def State.dropSched (s : State) (q : Nat) : State :=
  { s with ports := s.ports.foldl (fun m e =>
      SMap.put Port.init m e.1
        { e.2 with sched := e.2.sched.filter fun x => !(x.q == some q) || x.begun }) s.ports }

/-- The freeze time of the freeze in progress, in units, with the part of a ns carried over. -/
def State.frzTime (s : State) (q : Nat) : Nat :=
  let p := s.part q
  if p.frozen then p.frzRem + (s.now - p.frzSince) else p.frzRem

/-- A freeze is over: its time is added to TIME_FRZ.TOTAL. -/
def State.unfreeze (s : State) (q : Nat) : State :=
  let u := s.frzTime q
  let s := s.addFld F.TIME_FRZ_TOTAL q (u / tu)
  s.modPart q fun p => { p with frozen := false, frzRem := u % tu }

/-- R563: the stop of the job of partition `q`. -/
def State.stopJob (s : State) (q : Nat) (f : CycleFault) : State :=
  let s := if (s.part q).frozen then s.unfreeze q else s
  let p := s.part q
  let s := s.setPart q { p with job := .faulted, frozen := false, gate := false, faultGtc := f.at_, fault := none }
  let s := ((((s.setFld F.TIME_FAULT_CAUSE q f.cause).setFld F.TIME_FAULT_STATUS q f.status).setFld F.TIME_FAULT_CORE q
    f.core).setFld F.TIME_FAULT_PORT q f.port).setFld F.TIME_FAULT_BEAT q p.beat
  let s := if f.cause = caLAG then s.setFld F.TIME_JOB_STAT_LAGF q 1 else s
  let s := s.dropSched q
  let s := (s.partClusters q).foldl (fun t k => t.modCluster k fun v => { v with send := [] }) s
  let s := s.modPartCores q fun k => { k with stopped := true, sends := [], vread := none }
  let s := s.landLedger q
  let s :=
    if s.ledgerOn q then
      (s.writeMem .other (s.fld F.TIME_LEDGER_BASE q)
        (s.ledgerHead q 3 f.cause f.status (if f.cause = caLINK then f.port else 255) p.beat
          (if f.cause ≤ 5 then f.core else 0xFFFF))).1
    else s
  s.raise (960 + 6 * q + 1)

/-- R564: of two faults of one cycle the one with the lower code. -/
def CycleFault.or (f : CycleFault) : Option CycleFault → CycleFault
  | some g => if f.cause < g.cause then f else g
  | none => f

/-- R563, R564: a fault of partition `q` with a cause of Table 18.3. `core` and `port` are those of the cause (0 where it has
none). The faults that stop at a cycle (causes 1 to 4) stop the job at the end of the logical cycle in progress; the others, and
those met while no cycle is in progress, at once. Among faults of one cycle or one instant the lowest code is recorded; a fault
that arises after the stop is counted. A partition with no launched job has no job to stop. -/
def State.jobFault (s : State) (q cause status core port : Nat) : State :=
  let p := s.part q
  if p.job == .faulted then
    if p.faultGtc = s.gtc then
      if cause < s.fld F.TIME_FAULT_CAUSE q then
        ((((s.setFld F.TIME_FAULT_CAUSE q cause).setFld F.TIME_FAULT_STATUS q status).setFld F.TIME_FAULT_CORE q core).setFld
          F.TIME_FAULT_PORT q port)
      else s
    else s.addFld F.TIME_FAULT_MORE q 1
  else if p.jobLive then
    let f := CycleFault.or ⟨cause, status, core, port, s.gtc⟩ p.fault
    if cause ≤ 4 ∧ p.live then s.setPart q { p with fault := some f } else s.stopJob q f
  else s

/-- Every partition with a live job faults (R567, R482). -/
def State.faultAll (s : State) (cause status : Nat) : State :=
  (List.range 8).foldl (fun t q => if (t.part q).jobLive then t.jobFault q cause status 0 0 else t) s

/-- R313: a timing-dependent choice of the job, counted by kind. -/
def State.choice (s : State) (q : Nat) (f : Fld) : State := (s.addFld F.TIME_CHOICE_COUNT q 1).addFld f q 1

/-! ## Illegal words -/

/-- R292: CORECTL_ILLEGAL of a core: the first rejection since the launch, later ones counted. A job stops with the cycle of its
first rejection, so every later one is of the same cc; the lower queue code is then the one recorded. -/
def State.recordIllegal (s : State) (c reason queue opcode addr : Nat) : State :=
  let put (t : State) : State :=
    (((t.setFld F.CORECTL_ILLEGAL_REASON c reason).setFld F.CORECTL_ILLEGAL_QUEUE c queue).setFld
      F.CORECTL_ILLEGAL_OPCODE c opcode).setFld F.CORECTL_ILLEGAL_ADDR c addr
  if s.fld F.CORECTL_ILLEGAL_REASON c = 0 then put s
  else
    let t := if queue < s.fld F.CORECTL_ILLEGAL_QUEUE c then put s else s
    t.addFld F.CORECTL_ILLEGAL_MORE c 1

/-- A word that a unit rejects in a cycle (R150, R201, R284): the cause is recorded and the job faults. The sequencer stops with the job at
the end of that cycle, so a rejection at its head in the same cycle is recorded as well (R292). -/
def State.rejectWord (s : State) (q c reason queue opcode addr : Nat) : State :=
  (s.recordIllegal c reason queue opcode addr).jobFault q caILLEGAL stFAULTED c 0

/-- R231: a word is rejected at the head of the sequencer of core `c`: the cause is recorded, the sequencer stops and discards every word
behind it, and the job faults. -/
def State.reject (s : State) (q c reason queue opcode addr : Nat) : State :=
  let s := s.modCore c fun k => { k with stopped := true, seq := [], inflight := [], fetchOn := false }
  s.rejectWord q c reason queue opcode addr

/-! ## The freeze -/

/-- TIME_FRZLAST for a late arrival of core `core`: several of one cycle give the lowest cause and the lowest core id. -/
def State.recordFreeze (s : State) (q cause core ch : Nat) (again : Bool) : State :=
  let was := s.fld F.TIME_FRZLAST_CAUSE q
  let s := if again && decide (was ≤ cause) then s
    else (s.setFld F.TIME_FRZLAST_CAUSE q cause).setFld F.TIME_FRZLAST_CH q (if 1 ≤ cause ∧ cause ≤ 3 then ch else 0)
  if again && decide (s.fld F.TIME_FRZLAST_CORE q ≤ core) then s
  else s.setFld F.TIME_FRZLAST_CORE q (if cause = 5 ∨ cause = 6 then 0 else core)

/-- R303 to R307: a late arrival met by core `core` (or by the partition) freezes it, with a cause of TIME_FRZLAST. Late arrivals of
one logical cycle cause one freeze (R305). -/
def State.freeze (s : State) (q cause core ch : Nat) : State :=
  let p := s.part q
  if p.frozen then s
  else
    let again := p.frzFrom == some s.now
    let s := s.setPart q { p with
      frozen := true, frzCause := (if again then min p.frzCause cause else cause), frzFrom := some s.now,
      frzSince := (if again then p.frzSince else s.now), thawOk := false }
    let s := s.recordFreeze q cause core ch again
    if again then s else (s.addFld F.TIME_FRZ_COUNT q 1).setFld F.TIME_FRZLAST_BEAT q p.beat

/-- The partition of a core, frozen at this very instant by a word of one of its cores. -/
def State.frozenNow (s : State) (c : Nat) : Option Nat :=
  match s.partOf (c / 8) with
  | some q =>
    let p := s.part q
    if p.frozen && p.frzFrom == some s.now && p.frzCause != 5 && p.frzCause != 6 then some q else none
  | none => none

/-- A word that may meet a late arrival: in the cycle of a freeze it does no more than meet its own (R305). -/
def State.lateRow (s : State) (c : Nat) (f : State → State) : State :=
  match s.frozenNow c with
  | none => f s
  | some q =>
    let t := f (s.modPart q fun p => { p with frozen := false })
    if (t.part q).frozen then t else s

/-- R610: the cause of a freeze on a short channel. -/
def Medium.cause : Medium → Nat
  | .denian => 1 | .dma => 2 | .mesh => 3 | .none => 7

/-! ## Sync counters -/

/-- The cycle of a core's partition, plus 1. -/
def State.cycleOf (s : State) (c : Nat) : Nat := match s.partOf (c / 8) with | some q => (s.part q).lc + 1 | none => 0

/-- R247: a counter of a core saturates: of several in one cc the lowest number is recorded, and the event is raised once. -/
def State.noteSyncSat (s : State) (c n : Nat) : State :=
  let k := s.core c
  let now := s.cycleOf c
  let same := k.satAt == now
  let fresh := s.fld F.CORECTL_QSTAT_SAT c == 0
  let t := s.setCore c { k with satAt := now, satNew := fresh || (same && k.satNew) }
  let t := if fresh then (t.hwSet F.CORECTL_QSTAT_SAT c 1).setFld F.CORECTL_QSTAT_SATCTR c n
    else if same && k.satNew && decide (n < s.fld F.CORECTL_QSTAT_SATCTR c) then t.setFld F.CORECTL_QSTAT_SATCTR c n
    else t
  if same then t else t.raise (384 + c)

/-- R246, R247: an increment of a counter; it stops at 65,535, and a saturation is recorded and raises the core's event. -/
def State.syncAdd (s : State) (c n inc : Nat) : State :=
  let k := s.core c
  let v := SMap.get 0 k.sync n + inc
  let s := s.setCore c { k with sync := SMap.put 0 k.sync n (min 65535 v) }
  if v ≤ 65535 then s else s.noteSyncSat c n

/-- R243, Table 7.3: the signal of a control word at its signal cycle `lc`. A REMOTE signal travels with its data. -/
def State.signal (s : State) (c w lc : Nat) : State :=
  let inc := W.SIGINC w
  if inc = 0 then s
  else
    let ctr := W.SIGCTR w
    match W.SIGTGT w with
    | 0 => s.syncAdd c ctr inc
    | 1 => s.modCore c fun k =>
        { k with sigs := k.sigs ++ [⟨lc + 6, false, c / 8 * 8 + ctr / 4, 28 + ctr % 4, inc⟩] }
    | 3 => s.modCore c fun k => { k with sigs := k.sigs ++ [⟨lc + 6, true, c, 28 + ctr % 4, inc⟩] }
    | _ => s

/-! ## Bank ports -/

/-- R182, R191: an access of the scheduled path. `rank` is the place of its requester in the order of R191, `core` the core
that owns the bank, `unit` 0 core store, 1 ABUF, 2 CBUF; `who` the core whose word makes it; `cc` its bank cycle. -/
structure Access where
  q : Nat
  rank : Nat
  who : Nat
  core : Nat
  unit : Nat
  word : Nat
  cc : Nat
  deriving DecidableEq, Repr

/-- The bank of a word of a core store or of a buffer (R184, R188). -/
def accBank (unit word : Nat) : Nat := if unit = 0 then csBank word else word % 16

/-- The key of one bank port in one cycle. -/
def portKey (a : Access) (wr : Bool) : Nat :=
  (((a.core * 4 + a.unit) * 64 + accBank a.unit a.word) * 2 + (if wr then 1 else 0)) * 2 ^ 48 + a.cc

/-- The requesters whose streams may read one word in one cycle as one access: the chain engine, of its own core or by PEER. -/
def rankShares (r : Nat) : Bool := r == 64 || decide (112 ≤ r ∧ r < 120)

/-- R191: take a bank port in a cycle. Where another access of the scheduled path has it, the conflict is recorded and
the job faults; the access completes only if its requester comes first. Reads of one word that two streams of one chain
vector make are one access (DEDUCED: Example 4.3 multiplies a row by itself). The Bool says it completes. -/
def State.takePort (s : State) (a : Access) (wr : Bool) : State × Bool :=
  let k := portKey a wr
  let r := SMap.get 0 s.bankUse k
  let use := a.rank + 1 + 4096 * a.word
  if r = 0 then ({ s with bankUse := SMap.put 0 s.bankUse k use }, true)
  else if !wr && r == use && rankShares a.rank then (s, true)
  else
    let addr := if a.unit = 0 then csAddr a.core (a.word * 16) else a.word
    let s := s.memLog a.core 2 a.unit addr
    let s := s.jobFault a.q caBANK stFAULTED a.core 0
    (s, decide (a.rank + 1 < r % 4096))

/-- R183: a word of the activation buffer as a read whose bank cycle has passed finds it: the bits that the first write since stands
over. -/
def Core.past (k : Core) (cc word cur : Nat) : Nat :=
  match k.recent.find? fun r => decide (cc ≤ r.1) && r.2.1 == word with | some r => r.2.2 | none => cur

/-- Read `n` bytes of a word from byte `o` on, through its bank port: an access discarded by R191, an uncorrectable unit (R209) or a
poisoned word (R216) delivers the fill pattern; an uncorrectable error faults the job. -/
def State.portBytes (s : State) (a : Access) (o n : Nat) : State × List Byte :=
  let r := if a.unit = 3 then (s, true) else s.takePort a false
  let s := r.1
  let v :=
    if a.unit = 0 then
      let ad := csAddr a.core (a.word * 16 + o)
      if !r.2 then (s, s.fillBytes ad n, false) else s.readCsWord (.core a.who) ad n
    else if !r.2 then (s, (List.range n).map fun i => patByte (s.core a.core).bufFill (o + i), false)
    else s.readBuf a.core (a.unit - 1) (a.word * 16 + o) n
  (if v.2.2 then v.1.jobFault a.q caMEMORY stFAULTED a.who 0 else v.1, v.2.1)

/-- Read one 16-byte word through its bank port. -/
def State.portRead (s : State) (a : Access) : State × List Byte := s.portBytes a 0 16

/-- The words of the activation buffer that a write overlays are kept for reads whose bank cycle has passed. -/
def State.keepOld (s : State) (a : Access) : State :=
  if a.unit = 1 then s.modCore a.core fun k =>
    { k with recent := k.recent ++ [(a.cc, a.word, ofBytes ((List.range 16).map fun i => k.rdBuf 0 (a.word * 16 + i)))] }
  else s

/-- Write bits of one word through its bank port. -/
def State.portWrite (s : State) (a : Access) (val mask : Nat) : State :=
  let r := if a.unit = 3 then (s, true) else s.takePort a true
  if !r.2 then r.1
  else
    let s := r.1.keepOld a
    let v := if a.unit = 0 then s.writeCsMask (.core a.who) (csAddr a.core (a.word * 16)) val mask
      else s.writeBufMask a.core (a.unit - 1) a.word val mask
    if v.2 then v.1.jobFault a.q caMEMORY stFAULTED a.who 0 else v.1

/-! ## Planned accesses -/

/-- Bits put over a word. -/
def mergeWord (w val mask : Nat) : Nat := (w &&& (2 ^ 128 - 1 - mask)) ||| (val &&& mask)

/-- The key of captured word `sub` of a group of accesses. -/
def groupKey (g sub : Nat) : Nat := g * 2 ^ 40 + sub

/-- A captured word. -/
def Core.cap (k : Core) (key : Nat) : Nat := SMap.get 0 k.caps key
def Core.capture (k : Core) (key v : Nat) : Core := { k with caps := SMap.put 0 k.caps key v }
/-- The words of a group are no longer needed. -/
def Core.dropGroup (k : Core) (g : Nat) : Core := { k with caps := k.caps.filter fun e => e.1 / 2 ^ 40 != g }
/-- A new group of accesses begins. -/
def Core.nextGroup (k : Core) : Core := { k with nextKey := k.nextKey + 1 }

/-- Accesses of words of core `c` are planned. -/
def State.planFor (s : State) (c : Nat) (ps : List Plan) : State := s.modCore c fun k => { k with plan := k.plan ++ ps }

/-- A planned access of a word of core `who`, as it meets its port. -/
def Plan.access (p : Plan) (q who : Nat) : Access := ⟨q, p.rank, who, p.core, p.unit, p.word, p.cc⟩

/-- R189: a write of part of an 8-byte unit, which reads in the cc before its bank cycle. -/
def Plan.inPart (p : Plan) : Bool := match p.act with | .write _ mask => p.unit != 3 && !(partUnits mask).isEmpty | _ => false

/-- A planned read whose bank cycle has come in cycle `lc`, and a planned write whose bank cycle has come. -/
def Plan.readsBy (lc : Nat) (p : Plan) : Bool := match p.act with | .read _ => decide (p.cc ≤ lc) | _ => false
def Plan.writesBy (lc : Nat) (p : Plan) : Bool := match p.act with | .read _ => false | _ => decide (p.cc ≤ lc)

/-- What takes a read port in cycle `lc`: the reads, and the reads of the read-modify-writes of the next cycle. -/
def Plan.portBy (lc : Nat) (p : Plan) : Bool := p.readsBy lc || (p.inPart && p.cc == lc + 1)

/-- Insert an access by rank, behind those of the same rank. -/
def insertRank (x : Nat × Plan) : List (Nat × Plan) → List (Nat × Plan)
  | [] => [x]
  | y :: r => if x.2.rank < y.2.rank then x :: y :: r else y :: insertRank x r

/-- The accesses of a partition's cores that a test picks, in the order of R191. -/
def State.ranked (s : State) (q : Nat) (f : Plan → Bool) : List (Nat × Plan) :=
  ((s.partCores q).flatMap fun c => ((s.core c).plan.filter f).map fun p => (c, p)).foldl (fun l x => insertRank x l) []

/-- A planned read takes place, or the read of a read-modify-write: where R191 discards that, the write puts the fill pattern into the rest
of the units it covers in part. -/
def State.planRead (s : State) (q c : Nat) (p : Plan) : State :=
  match p.act with
  | .read key => let r := s.portRead (p.access q c); r.1.modCore c fun k => k.capture key (ofBytes r.2)
  | .write val mask =>
    let r := s.takePort { p.access q c with cc := p.cc - 1 } false
    if r.2 then r.1
    else
      let full := (partUnits mask).foldl (fun m u => m ||| (2 ^ 64 - 1) * 2 ^ (64 * u)) mask
      let pat := ofBytes ((List.range 16).map fun i =>
        if p.unit = 0 then r.1.fillByte (csAddr p.core (p.word * 16 + i)) else patByte (r.1.core p.core).bufFill i)
      r.1.modCore c fun k =>
        { k with plan := k.plan.map fun x => if x = p then { x with act := .write (mergeWord pat val mask) full } else x }
  | .put _ => s

/-- A planned write takes place. -/
def State.planWrite (s : State) (q c : Nat) (p : Plan) : State :=
  match p.act with
  | .read _ => s
  | .write val mask => s.portWrite (p.access q c) val mask
  | .put key => (s.portWrite (p.access q c) ((s.core c).cap key) (2 ^ 128 - 1)).modCore c fun k => k.capture key 0

/-- The reads of cycle `lc` of a partition. -/
def State.readPhase (s : State) (q lc : Nat) : State :=
  ((s.ranked q (Plan.portBy lc)).foldl (fun t x => t.planRead q x.1 x.2) s).modPartCores q
    fun k => { k with plan := k.plan.filter fun p => !p.readsBy lc }

/-- The writes of cycle `lc` of a partition. -/
def State.writePhase (s : State) (q lc : Nat) : State :=
  ((s.ranked q (Plan.writesBy lc)).foldl (fun t x => t.planWrite q x.1 x.2) s).modPartCores q
    fun k => { k with plan := k.plan.filter fun p => !p.writesBy lc }

/-- R191: the places of requesters in the order of bank-port conflicts. -/
def rkFetch : Nat := 16
def rkMover : Nat := 32
def rkLink : Nat := 48
def rkChain : Nat := 64
def rkMat : Nat := 80
def rkThkt : Nat := 96
def rkPeer (c : Nat) : Nat := 112 + c % 8
def rkPort : Nat := 128

/-- Table 6.1, Table 6.2: the write latency of a core's own unit, and its read latency. -/
def ownWrLat (unit word : Nat) : Nat := match unit with | 0 => ownLat word | 1 => 6 | _ => 4
def ownRdLat (unit word : Nat) : Nat := if unit = 0 then ownLat word else 3
/-- The bank cycle of a read requested at `cc` (R182, Table 6.1). -/
def rdCycle (unit word cc : Nat) : Nat := if unit = 0 then cc + ownLat word / 2 else cc + 1

/-- Words of a unit (Table 6.1, R187). -/
def unitWords (unit : Nat) : Nat := match unit with | 0 => 262144 | 1 => 4096 | _ => 2048

end Sys2Proof.Machine
end

