-- ==== Sys2Proof/Machine/Check.lean ====
section
/-! DEFINITION. The checks of control words at dispatch (08_control_words.md, R231, R254 to R292): for a word, the REASON codes of
Table 8.17 of the checks it fails. Also the fields of a word as a run uses them (Table 8.3). -/

namespace Sys2Proof.Machine

/-! ## Words -/

/-- R257, Table 8.2: the lead of a long word. -/
def isLong (w : Nat) : Bool :=
  let q := W.QUEUE w
  let o := W.OPCODE w
  (q == 2 && o == 0x20) || (q == 3 && (o == 0x30 || o == 0x31)) || (q == 4 && o == 0x40)

/-- An EXT word (R257, Table 8.2): the code is an opcode of the four queues that have long words; a reserved queue code has none. -/
def isExt (w : Nat) : Bool := W.OPCODE w == 0xFF && decide (1 ≤ W.QUEUE w ∧ W.QUEUE w ≤ 4)

/-- Table 8.2: an opcode of a queue, EXT apart. -/
def isOpcode (q o : Nat) : Bool :=
  o == 0 || (q == 0 && decide (o ≤ 4)) || (q == 1 && (o == 0x10 || o == 0x11)) || (q == 2 && (o == 0x20 || o == 0x21))
    || (q == 3 && decide (0x30 ≤ o ∧ o ≤ 0x34)) || (q == 4 && (o == 0x40 || o == 0x41))

/-- Table 7.1: the depth of a queue. -/
def depth (q : Nat) : Nat := match q with | 0 => 16 | 1 => 32 | 2 => 32 | _ => 64

/-- The lowest code of the checks that fail; 0 where none does (R292). -/
def lowest (rs : List (Bool × Nat)) : Nat :=
  rs.foldl (fun m r => if r.1 && (m == 0 || decide (r.2 < m)) then r.2 else m) 0

/-- An integer address of a run as a natural number (legal addresses are not negative). -/
def addrN (i : Int) : Nat := i.toNat

/-- The first and the last run of a word: a field that steps by a constant has its extremes there. -/
def endRuns (w : Nat) : List Nat := [0, W.REPEAT w]

/-! ## Boxes (R270 to R273) -/

/-- The four counts of a generator word. -/
def genCount (w d : Nat) : Nat :=
  1 + (match d with | 0 => W.COPY_CNT0 w | 1 => W.COPY_CNT1 w | 2 => W.COPY_CNT2 w | _ => W.COPY_CNT3 w)
def genLStr (w d : Nat) : Int :=
  match d with | 0 => W.COPY_LSTR0 w | 1 => W.COPY_LSTR1 w | 2 => W.COPY_LSTR2 w | _ => W.COPY_LSTR3 w
def genFStr (x d : Nat) : Int :=
  match d with | 0 => W.COPYX_FSTR0 x | 1 => W.COPYX_FSTR1 x | 2 => W.COPYX_FSTR2 x | _ => W.COPYX_FSTR3 x
def genLo (x d : Nat) : Nat :=
  match d with | 0 => W.COPYX_LO0 x | 1 => W.COPYX_LO1 x | 2 => W.COPYX_LO2 x | _ => W.COPYX_LO3 x
def genHi (x d : Nat) : Nat :=
  match d with | 0 => W.COPYX_HI0 x | 1 => W.COPYX_HI1 x | 2 => W.COPYX_HI2 x | _ => W.COPYX_HI3 x

/-- R270: the number of points of a generator word. -/
def genPoints (w : Nat) : Nat := genCount w 0 * genCount w 1 * genCount w 2 * genCount w 3

/-- R270: index `d` of point `k`. -/
def genIdx (w k d : Nat) : Nat :=
  match d with
  | 0 => k % genCount w 0
  | 1 => k / genCount w 0 % genCount w 1
  | 2 => k / (genCount w 0 * genCount w 1) % genCount w 2
  | _ => k / (genCount w 0 * genCount w 1 * genCount w 2)

/-- R271: the displacement of point `k` under strides. -/
def genOff (str : Nat → Int) (w k : Nat) : Int :=
  Int.ofNat (genIdx w k 0) * str 0 + Int.ofNat (genIdx w k 1) * str 1 + Int.ofNat (genIdx w k 2) * str 2
    + Int.ofNat (genIdx w k 3) * str 3

/-- R272: point `k` is in bounds. -/
def genIn (w x k : Nat) : Bool :=
  (List.range 4).all fun d => decide (genLo x d ≤ genIdx w k d ∧ genIdx w k d ≤ genHi x d)

/-- R273: least and greatest displacement over a box of index ranges. -/
def boxExt (str : Nat → Int) (rng : Nat → Nat × Nat) : Int × Int :=
  (List.range 4).foldl (fun (acc : Int × Int) d =>
    let a := Int.ofNat (rng d).1 * str d
    let b := Int.ofNat (rng d).2 * str d
    (acc.1 + min a b, acc.2 + max a b)) (0, 0)

/-- The index ranges of all points, and of the in-bounds points. -/
def allRng (w d : Nat) : Nat × Nat := (0, genCount w d - 1)
def inRng (w x d : Nat) : Nat × Nat := (genLo x d, min (genHi x d) (genCount w d - 1))
/-- Whether any point is in bounds. -/
def anyIn (w x : Nat) : Bool := (List.range 4).all fun d => decide ((inRng w x d).1 ≤ (inRng w x d).2)

/-- Words of an element (R271). -/
def genEsz (w : Nat) : Nat := 2 ^ W.COPY_ESZ w

/-! ## Calendars (R198 to R203) -/

/-- R203: the calendar page a tier-column uses. -/
def State.calPage (s : State) (tc : Nat) : Nat := s.fld F.CAL_CUR_PAGE (tc / 32) / 4 ^ (tc % 8) % 4

/-- The length of a calendar page of a tier-column. -/
def State.calLen (s : State) (tc page : Nat) : Nat := s.fld F.CAL_LEN_LEN ((tc / 32 * 4 + page) * 32 + tc % 32)

/-- Entry `e` of a calendar page of a tier-column. -/
def State.calEntryAt (s : State) (tc page e : Nat) : Nat :=
  let i := ((tc / 32 * 4 + page) * 32 + tc % 32) * 1600 + e / 2
  if e % 2 = 0 then s.fld F.CAL_ENTRY_EVEN i else s.fld F.CAL_ENTRY_ODD i

/-- R199: the entry as it acts: 0 where it is unassigned. -/
def State.calOwner (s : State) (tc page e : Nat) : Nat :=
  let v := s.calEntryAt tc page e
  let k := v / 2 ^ 13
  let i := v % 512
  let q := s.partOf (tcCluster tc)
  let ok :=
    bits v 12 9 == 0 &&
      (match k with
      | 1 => s.coreExists i && q.isSome && q == s.partOf (i / 8)
      | 2 => decide (i < 64) && q.isSome && q == s.partOf i
      | 3 => decide (i < s.id.ioDies)
      | 4 => decide (i < 2)
      | _ => false)
  if ok then v else 0

/-- R201: a requester owns at least one entry of the page in use of a tier-column. -/
def State.ownsSlot (s : State) (tc owner : Nat) : Bool :=
  let p := s.calPage tc
  (List.range (s.calLen tc p)).any fun e => s.calOwner tc p e == owner

/-- R198: who owns slot `n` of a tier-column. -/
def State.slotOwner (s : State) (tc n : Nat) : Nat :=
  let p := s.calPage tc
  let l := s.calLen tc p
  if l = 0 then 0 else s.calOwner tc p (n % l)

/-! ## Checks common to every word -/

/-- R245: an illegal signal target. -/
def State.badSignal (s : State) (c w : Nat) : Bool :=
  match W.SIGTGT w with
  | 1 => !s.coreExists (c / 8 * 8 + W.SIGCTR w / 4)
  | 2 => !(W.QUEUE w == 4 && W.OPCODE w == 0x40)
  | 3 => decide (W.SIGCTR w / 4 ≠ 0)
  | _ => false

/-- Table 8.3: words whose REPEAT must be 0. -/
def repeatZero (w : Nat) : Bool :=
  let q := W.QUEUE w
  let o := W.OPCODE w
  (q == 0 && o != 0) || (q == 1 && o == 0x10) || (q == 2 && o == 0x21) || (q == 3 && (o == 0x30 || o == 0x31))

/-! ## SEQ words (R232 to R238, R261) -/

/-- Checks of a SEQ word; `pre` is what inspection found (R234, R235, R238). -/
def seqChecks (pre w : Nat) : List (Bool × Nat) :=
  match W.OPCODE w with
  | 1 => [(W.LOOP_RES w != 0, 3), (pre != 0, pre)]
  | 2 => [(W.JUMP_RES w != 0, 3), (decide (W.JUMP_TARGET w % 2 = 1), 0x0C), (pre != 0, pre)]
  | 3 => [(W.BEATEND_RES w != 0, 3), (W.BEATEND_NEXT w == 1 && decide (W.BEATEND_VTAB w > 262140), 5), (pre != 0, pre)]
  | _ => [(bits w 191 0 != 0, 3), (pre != 0, pre)]

/-! ## MAT words (R262 to R265) -/

/-- Table 3.1: parts of a weight format under the flags. -/
def weightParts (f : Fmt) (cplx gauss : Bool) : Nat :=
  if cplx then (if gauss then 3 else 2)
  else match f with | .bf16 | .fp16 | .int16 => 2 | .fp32 => 3 | _ => 1

/-- Table 2.3: parts of an activation format. -/
def actParts (f : Fmt) : Nat := match f with | .bf16 | .fp16 | .int16 => 2 | .fp32 => 3 | _ => 1

/-- Checks of a LOADW (R263). -/
def loadwChecks (w : Nat) : List (Bool × Nat) :=
  let cplx := W.LOADW_CPLX w == 1
  let gauss := W.LOADW_GAUSS w == 1
  (W.LOADW_RES w != 0, 3) :: (W.LOADW_ARRAYS w == 0, 6) :: (gauss && !cplx, 6) ::
    (match Fmt.ofCode (W.LOADW_WFMT w) with
    | none => [(true, 4)]
    | some f =>
      [(!f.isOperand, 6), (decide (W.LOADW_PART w ≥ weightParts f cplx gauss), 6), (cplx && !f.isFp8, 6),
        (W.LOADW_WSCL w == 1 && decide (f.bits > 8), 6)])

/-- R59: two products per cell. -/
def twoPer (a w : Fmt) : Bool := a.is4 && w.is4

/-- R92: the bytes of one activation row. -/
def rowBytes (a w : Fmt) (cplx : Bool) : Nat :=
  if cplx then 128 else if twoPer a w then 64 else 64 * a.bits / 8

/-- R92: the scale bytes of one activation row. -/
def rowScales (a w : Fmt) : Nat := if twoPer a w then 4 else 2

/-- R51: a zero point as the word holds it, for a format. DESIGN CHOICE (log 62): a format that R51 gives no zero point takes 0, whatever the
field holds, and the word is accepted (R77, R78). -/
def zpVal (f : Fmt) (z : Nat) : Int :=
  match f with
  | .int8 | .int4 => if z ≥ 128 then Int.ofNat z - 256 else Int.ofNat z
  | .uint8 | .uint4 => Int.ofNat z
  | _ => 0

/-- R51, R52, R265: a zero point outside what its format takes. -/
def zpBad (f : Fmt) (z : Nat) : Bool :=
  match f with
  | .int8 | .uint8 => false
  | .int4 | .uint4 => decide (zpVal f z < f.intRange.1) || decide (zpVal f z > f.intRange.2)
  | _ => z != 0

/-- R265: the rows or scales of a run reach beyond the activation buffer. -/
def mmulReach (a w : Fmt) (x : Nat) (j : Nat) : Bool :=
  let m := W.MMUL_MROWS x + 1
  let base := ((Int.ofNat (W.MMUL_ABASE x) + Int.ofNat j * W.MMUL_ASTEP x) % 4096).toNat
  let sb := ((Int.ofNat (W.MMUL_ASBASE x) + Int.ofNat j * W.MMUL_ASSTEP x) % 65536).toNat
  decide (base * 16 + (m - 1) * W.MMUL_ASTRIDE x * 16 + rowBytes a w (W.MMUL_CPLX x == 1) > 65536)
    || (W.MMUL_ASCL x == 1 && decide (sb + m * rowScales a w > 65536))

/-- Checks of an MMUL (R41, R52, R55, R57, R58, R92, R95, R265). -/
def mmulChecks (exact : Bool) (x : Nat) : List (Bool × Nat) :=
  let cplx := W.MMUL_CPLX x == 1
  let gauss := W.MMUL_GAUSS x == 1
  let m := W.MMUL_MROWS x + 1
  let lim : Int := if exact then 63 else 383
  let rows : Int := Int.ofNat (if cplx then 2 * m else m)
  let acc (j : Nat) : Int := Int.ofNat (W.MMUL_ACCROW x) + Int.ofNat j * W.MMUL_ACCSTEP x
  (W.MMUL_RES x != 0, 3) :: (W.MMUL_ARRAYS x == 0, 5) :: (gauss && !cplx, 6) ::
    (decide (W.MMUL_MROWS x > 383) || decide (W.MMUL_ACCROW x > 383), 5) ::
    (exact && decide (W.MMUL_MROWS x > 63), 5) ::
    ((endRuns x).any (fun j => decide (acc j < 0) || decide (acc j + rows - 1 > lim)), 0x0B) ::
    (match Fmt.ofCode (W.MMUL_AFMT x), Fmt.ofCode (W.MMUL_WFMT x) with
    | some a, some w =>
      [(!a.isOperand || !w.isOperand, 6), (a.isInt != w.isInt, 6), (cplx && (!a.isFp8 || !w.isFp8), 6),
        (W.MMUL_FAST x == 1 && !((a == .bf16 || a == .fp16) && (w == .bf16 || w == .fp16)), 6),
        ((a == .int16 && W.MMUL_ZA x != 0) || (w == .int16 && W.MMUL_ZW x != 0), 6),
        (zpBad a (W.MMUL_ZA x) || zpBad w (W.MMUL_ZW x), 5),
        ((W.MMUL_ASCL x == 1 && decide (a.bits > 8)) || (W.MMUL_WSCL x == 1 && decide (w.bits > 8)), 6),
        ((List.range (W.REPEAT x + 1)).any (mmulReach a w x), 0x0B)]
    | _, _ => [(true, 4)])

/-! ## CHN words (R112, R266 to R269) -/

/-- A stage of the chain engine is enabled. -/
def stageOn (w j : Nat) : Bool := (W.CHAIN_ENABLE w).testBit (j - 1)

/-- Elements of a CHAIN word, and its vectors (R119). -/
def chCount (w : Nat) : Nat := W.CHAIN_COUNT w + 1
def chVecs (w : Nat) : Nat := (chCount w + 63) / 64
/-- The segment length. -/
def chSeg (w : Nat) : Nat := 2 ^ W.CHAIN_SEGLOG w

/-- The Y stream is used (stages 3 and 6, R144). -/
def chYUsed (w : Nat) : Bool :=
  stageOn w 3 || (stageOn w 6 && decide (W.CHAIN_SELPRED w ≠ 0) && (W.CHAIN_SELPRED w == 2 || W.CHAIN_SELACT w == 1))

/-- Vector operands are used by stage 2. -/
def chAVec (w : Nat) : Bool := stageOn w 2 && decide (W.CHAIN_AMODE w ≥ 2)
def chBVec (w : Nat) : Bool := stageOn w 2 && W.CHAIN_BMODE w == 2

/-- A stream source that is a memory (Table 4.3). -/
def srcMem (src : Nat) : Bool := decide (2 ≤ src ∧ src ≤ 5)
/-- Words of a stream source or destination memory: CBUF, ABUF, CS, PEER. -/
def srcWords (src : Nat) : Nat := match src with | 2 => 2048 | 3 => 4096 | _ => 262144
def dstWords (dst : Nat) : Nat := match dst with | 1 => 2048 | 2 => 4096 | _ => 262144
def vsrcWords (v : Nat) : Nat := match v with | 1 => 2048 | 2 => 4096 | _ => 262144

/-- Bits of an element of a stream in memory: 32 under RAW, 160 under WIDE (R70), else the format's. -/
def chBits (w code : Nat) : Nat :=
  match W.CHAIN_KIND w with
  | 1 => 32
  | 2 => 160
  | _ => match Fmt.ofCode code with | some f => f.bits | none => 32

/-- Bits of an element stage 8 writes (R139, R141). -/
def chOBits (w : Nat) : Nat :=
  if stageOn w 7 then (match Fmt.ofCode (W.CHAIN_OFMT w) with | some f => f.bits | none => 32)
  else if W.CHAIN_KIND w = 2 then 160 else 32

/-- Bit offset of element `i` from the start of a stream (R110 pitches). -/
def elBit (pitch seg b i : Nat) : Nat :=
  if pitch = 0 then i * b else (i / seg) * pitch * 128 + (i % seg) * b

/-- The number of words elements 0 to n - 1 of a stream reach. -/
def reachWords (pitch seg b n : Nat) : Nat :=
  if n = 0 then 0
  else
    let e := elBit pitch seg b (n - 1) + b
    let f := n / seg * seg
    let g := if f = 0 then 0 else elBit pitch seg b (f - 1) + b
    (max e g + 127) / 128

/-- R269, R141: the byte of the block scale of element `i`, from the start of the scales. -/
def scaleByte (seg i : Nat) : Nat := i / seg * ((seg + 31) / 32) + i % seg / 32

/-- R136: the bytes of one reduction result in memory. -/
def redBytes (w : Nat) : Nat :=
  if W.CHAIN_RED w = 3 then 12 else match W.CHAIN_RFMT w with | 0 => 4 | 1 => 2 | _ => 20

/-- Segments of the word. -/
def chSegs (w : Nat) : Nat := (chCount w + chSeg w - 1) / chSeg w

/-- Elements stage 8 writes: whole vectors under PAD (R120), N under KEEP or with DST K. -/
def chTail (w : Nat) : Nat := if W.CHAIN_PADMODE w = 0 && W.CHAIN_DST w != 5 then 64 * chVecs w else chCount w

/-- Table 8.3: the fields of run `j`. -/
def chXaddr (x j : Nat) : Int := Int.ofNat (W.CHAINX_XADDR x) + Int.ofNat j * W.CHAINX_XRUN x
def chYaddr (x j : Nat) : Int := Int.ofNat (W.CHAINX_YADDR x) + Int.ofNat j * W.CHAINX_YRUN x
def chDaddr (x j : Nat) : Int := Int.ofNat (W.CHAINX_DADDR x) + Int.ofNat j * W.CHAINX_DRUN x
def chRaddr (x j : Nat) : Int := Int.ofNat (W.CHAINX_RADDR x) + Int.ofNat j * W.CHAINX_RRUN x
def chAccrow (w x j : Nat) : Int := Int.ofNat (W.CHAIN_ACCROW w) + Int.ofNat j * W.CHAINX_XRUN x

/-- The number of set bits of a 4-bit mask. -/
def popcount4 (m : Nat) : Nat := (List.range 4).countP m.testBit

/-- Words `[a, a + n)` reach beyond a target of `size` words. -/
def outOf (a : Int) (n size : Nat) : Bool := decide (a < 0) || decide (a + Int.ofNat n > Int.ofNat size)

/-- Reserved encodings of the CHAIN lead (R41, R129, R267). -/
def chainEncBad (w : Nat) : Bool :=
  W.CHAIN_KIND w == 3 || W.CHAIN_SEGLOG w == 0 || decide (W.CHAIN_SEGLOG w ≥ 14)
    || W.CHAIN_XSRC w == 7 || W.CHAIN_XSRC w == 0 || W.CHAIN_YSRC w == 7 || W.CHAIN_YSRC w == 1 || W.CHAIN_YSRC w == 6
    || W.CHAIN_XFMT w == 15 || W.CHAIN_YFMT w == 15 || decide (W.CHAIN_OFMT w ≥ 14)
    || (srcMem (W.CHAIN_XSRC w) && W.CHAIN_KIND w == 0 && W.CHAIN_XFMT w == 14)
    || (srcMem (W.CHAIN_YSRC w) && chYUsed w && W.CHAIN_KIND w == 0 && W.CHAIN_YFMT w == 14)
    || W.CHAIN_AMOD w == 3 || W.CHAIN_BMODE w == 3 || W.CHAIN_BMOD w == 3 || decide (W.CHAIN_COMB w ≥ 6)
    || decide (W.CHAIN_FUNC w ≥ 10) || decide (W.CHAIN_RED w ≥ 5) || W.CHAIN_RFMT w == 3
    || decide (W.CHAIN_SELCMP w ≥ 6) || W.CHAIN_SELACT w == 3 || decide (W.CHAIN_DST w ≥ 6) || W.CHAIN_VSRC w == 3

/-- Illegal combinations of a CHAIN word (R116, R126, R128, R136, R137, R139, R140, R141, R144). -/
def chainCombBad (exact : Bool) (w x : Nat) : Bool :=
  let kind := W.CHAIN_KIND w
  let en := stageOn w
  let fp := kind == 0
  let n := chCount w
  let sel := W.CHAIN_SELPRED w
  let of_ := Fmt.ofCode (W.CHAIN_OFMT w)
  let red := W.CHAIN_RED w
  let acc := W.CHAIN_XSRC w == 1
  (fp && !en 1 && ((srcMem (W.CHAIN_XSRC w) && W.CHAIN_XFMT w != 11) ||
      (chYUsed w && srcMem (W.CHAIN_YSRC w) && W.CHAIN_YFMT w != 11) ||
      ((chAVec w || chBVec w) && W.CHAIN_VFMT w == 1)))
    || (en 3 && ((W.CHAIN_COMB w == 5) != (kind == 2)))
    || (en 5 &&
        ((W.CHAIN_RDST w == 3 && (decide (chSegs w > 1) || W.CHAIN_RFMT w != 0)) ||
          (red == 3 && W.CHAIN_RDST w == 3 && (endRuns w).any (fun j => decide (chRaddr x j > 13))) ||
          (W.CHAIN_SEED w == 1 && (W.CHAIN_RDST w != 3 || red != 3)) ||
          (W.CHAIN_RFMT w == 2 && red != 4) || (red == 4 && kind == 1) || (red != 4 && kind == 2)))
    || (kind == 1 && en 6 && sel != 0 && sel != 3 && !(sel == 1 && decide (W.CHAIN_SELCMP w ≤ 1)))
    || (!en 7 && fp && W.CHAIN_OFMT w != 11)
    || (en 7 && W.CHAIN_OSCALED w == 1 &&
        (W.CHAIN_OZP w != 0 ||
          (match of_ with | some f => f == .uint8 || f == .uint4 || decide (f.bits > 8) | none => true)))
    || (en 8 != (W.CHAIN_DST w != 0))
    || (W.CHAIN_DST w == 5 && (n != 1 || W.CHAIN_OFMT w != 11))
    || ((W.CHAINX_XPITCH x != 0 || W.CHAINX_DPITCH x != 0) && decide (W.CHAIN_SEGLOG w < 6))
    || (kind == 1 && (en 2 || en 3 || en 4 || en 5 || en 7))
    || (kind == 2 && (en 2 || en 4 || (en 6 && sel != 3)))
    || (chYUsed w && W.CHAIN_YSRC w == 0)
    || (kind == 2 && en 7 && W.CHAIN_OFMT w != 11 && W.CHAIN_OFMT w != 9)
    || (W.CHAIN_XSRC w == 6 && (n != 1 || !fp))
    || (acc && exact && (kind == 1 || (fp && W.CHAIN_XFMT w != 11 && W.CHAIN_XFMT w != 9)))
    || (acc && !exact && kind == 2)

/-- Values out of range in a CHAIN word (R51, R110, R268, R269). -/
def chainRangeBad (w x : Nat) : Bool :=
  let zp (code z : Nat) : Bool := match Fmt.ofCode code with | some f => f.is4 && f.isInt && zpBad f z | none => false
  let en := stageOn w
  (W.CHAIN_XSRC w == 1 && (W.CHAIN_ARRAYS w == 0 || decide (W.CHAIN_ACCROW w > 383)))
    || (en 1 && srcMem (W.CHAIN_XSRC w) && zp (W.CHAIN_XFMT w) (W.CHAIN_XZP w))
    || (en 1 && chYUsed w && zp (W.CHAIN_YFMT w) (W.CHAIN_YZP w))
    || (en 7 && zp (W.CHAIN_OFMT w) (W.CHAIN_OZP w))
    || (W.CHAIN_XSRC w == 6 && (endRuns w).any fun j => decide (chXaddr x j < 0) || decide (chXaddr x j > 15))
    || (en 8 && W.CHAIN_DST w == 5 && (endRuns w).any fun j => decide (chDaddr x j < 0) || decide (chDaddr x j > 15))
    || (en 5 && W.CHAIN_RDST w == 3 && (endRuns w).any fun j => decide (chRaddr x j < 0) || decide (chRaddr x j > 15))

/-- Streams, scales, vectors and destinations that reach beyond their target (R115, R116). -/
def chainReachBad (exact : Bool) (w x : Nat) : Bool :=
  let n := chCount w
  let seg := chSeg w
  let lim : Int := if exact then 63 else 383
  let na := max 1 (popcount4 (W.CHAIN_ARRAYS w))
  let scl (a cnt size : Nat) : Bool := decide (16 * a + scaleByte seg (cnt - 1) ≥ 16 * size)
  let en := stageOn w
  let runs (f : Nat → Bool) : Bool := (endRuns w).any f
  (W.CHAIN_XSRC w == 1 && runs fun j =>
      decide (chAccrow w x j < 0) || decide (chAccrow w x j + Int.ofNat ((chVecs w - 1) / na) > lim))
    || (srcMem (W.CHAIN_XSRC w) &&
        ((runs fun j => outOf (chXaddr x j) (reachWords (W.CHAINX_XPITCH x) seg (chBits w (W.CHAIN_XFMT w)) n)
            (srcWords (W.CHAIN_XSRC w))) ||
          (en 1 && W.CHAIN_KIND w == 0 && W.CHAIN_XSCL w == 1 && scl (W.CHAINX_XSCLA x) n (srcWords (W.CHAIN_XSRC w)))))
    || (chYUsed w && srcMem (W.CHAIN_YSRC w) &&
        ((runs fun j => outOf (chYaddr x j) (reachWords (W.CHAINX_XPITCH x) seg (chBits w (W.CHAIN_YFMT w)) n)
            (srcWords (W.CHAIN_YSRC w))) ||
          (en 1 && W.CHAIN_KIND w == 0 && W.CHAIN_YSCL w == 1 && scl (W.CHAINX_YSCLA x) n (srcWords (W.CHAIN_YSRC w)))))
    || (let cnt := min n (2 ^ (W.CHAIN_VPERIOD w + 6))
        let b := if W.CHAIN_VFMT w = 1 then 16 else 32
        let vr (a : Nat) : Bool := outOf (Int.ofNat a) ((cnt * b + 127) / 128) (vsrcWords (W.CHAIN_VSRC w))
        (chAVec w && vr (W.CHAINX_AVEC x)) || (chBVec w && vr (W.CHAINX_BVEC x)))
    || (en 8 && decide (1 ≤ W.CHAIN_DST w ∧ W.CHAIN_DST w ≤ 4) &&
        ((runs fun j => outOf (chDaddr x j) (reachWords (W.CHAINX_DPITCH x) seg (chOBits w) (chTail w))
            (dstWords (W.CHAIN_DST w))) ||
          (en 7 && W.CHAIN_OSCALED w == 1 && scl (W.CHAINX_DSCLA x) (chTail w) (dstWords (W.CHAIN_DST w)))))
    || (en 5 && (W.CHAIN_RDST w == 1 || W.CHAIN_RDST w == 2) && runs fun j =>
        outOf (chRaddr x j) ((chSegs w * redBytes w + 15) / 16) (if W.CHAIN_RDST w = 1 then 2048 else 262144))

/-- Checks of a CHAIN word. -/
def State.chainChecks (s : State) (exact : Bool) (c w x : Nat) : List (Bool × Nat) :=
  let peer (k : Nat) : Bool := !s.coreExists (c / 8 * 8 + k)
  [(W.CHAIN_RES w != 0 || W.CHAINX_RES x != 0, 3), (chainEncBad w, 4), (chainRangeBad w x, 5), (chainCombBad exact w x, 6),
    (W.REPEAT w != 0 && (W.CHAIN_XSCL w == 1 || W.CHAIN_YSCL w == 1 || W.CHAIN_OSCALED w == 1), 8),
    ((W.CHAIN_XSRC w == 5 && peer (W.CHAIN_XPEER w)) || (chYUsed w && W.CHAIN_YSRC w == 5 && peer (W.CHAIN_YPEER w)) ||
      (W.CHAIN_DST w == 4 && stageOn w 8 && peer (W.CHAIN_DPEER w)), 0x0A),
    (chainReachBad exact w x, 0x0B)]

/-- Checks of a SETK (R112, R266). -/
def setkChecks (w : Nat) : List (Bool × Nat) :=
  [(W.SETK_RES w != 0, 3), (decide (W.SETK_FIRST w + W.SETK_COUNT w > 15), 5)]

/-! ## MOV words (R270 to R285) -/

/-- Words of a mover's or link word's local target: CS, ABUF, CBUF, weight staging. -/
def ltgtWords (t : Nat) : Nat := match t with | 0 => 262144 | 1 => 4096 | _ => 2048

/-- R273: the local side of a box, outside its target. -/
def localBad (w : Nat) (rng : Nat → Nat × Nat) (size : Nat) : Bool :=
  let e := boxExt (genLStr w) rng
  let b := Int.ofNat (W.COPY_LBASE w)
  decide (b + e.1 < 0) || decide (b + e.2 + Int.ofNat (genEsz w) > Int.ofNat size)

/-- R271: the unit of the far strides in bytes. -/
def farUnit (x : Nat) : Nat := if W.COPYX_FUNIT x = 1 then 256 else 16
/-- The offset field of a far address. -/
def farField (a : Nat) : Nat := if daSpace a = 0 then 28 else 22
/-- R273: the far side of a box, outside its offset field. -/
def farBad (w x : Nat) (rng : Nat → Nat × Nat) : Bool :=
  let a := W.COPYX_FBASE x
  let e := boxExt (fun d => genFStr x d * Int.ofNat (farUnit x)) rng
  let b := Int.ofNat (daOff a)
  decide (b + e.1 < 0) || decide (b + e.2 + Int.ofNat (16 * genEsz w) > 2 ^ farField a)

/-- Checks of a COPY (R201, R273, R274). -/
def State.copyChecks (s : State) (q c w x : Nat) : List (Bool × Nat) :=
  let fb := W.COPYX_FBASE x
  let sp := daSpace fb
  let dir := W.COPY_DIR w
  let any := anyIn w x
  let farUsed := dir == 1 || any
  let lrng := if dir = 1 then inRng w x else allRng w
  let frng := if dir = 1 then allRng w else inRng w x
  let es : Int := Int.ofNat (16 * genEsz w)
  [(W.COPY_RES w != 0 || W.COPYX_RES x != 0, 3), (decide (W.COPY_LTGT w ≥ 4) || decide (W.COPY_ESZ w ≥ 5), 4),
    (W.COPY_LTGT w == 3 && dir == 1, 6),
    ((dir == 0 || any) && localBad w lrng (ltgtWords (W.COPY_LTGT w)), 0x0B),
    (farUsed && decide (sp > 1), 0x0A),
    (farUsed && decide (sp ≤ 1) && farBad w x frng, 0x0B),
    (farUsed && decide (sp ≤ 1) && !s.within q fb, 0x0A),
    (farUsed && sp == 0 &&
      (decide (Int.ofNat (daOff fb) % es ≠ 0) ||
        (List.range 4).any (fun d => decide (genFStr x d * Int.ofNat (farUnit x) % es ≠ 0))), 6),
    (farUsed && sp == 1 && W.COPYX_FUNIT x == 1, 6),
    (farUsed && sp == 0 && s.within q fb && !s.ownsSlot (daTc fb) (ownCore c), 0x0A)]

/-- The words a box of points covers, from a base. -/
def boxWords (w base : Nat) : List Int :=
  (List.range (genPoints w)).map fun k => Int.ofNat base + genOff (genLStr w) w k

/-- R282: the edge and the halo overlap. -/
def pleachOverlap (w x : Nat) : Bool :=
  let e := Int.ofNat (genEsz w)
  (boxWords w (W.COPY_LBASE w)).any fun a =>
    (boxWords w (W.PLEACHX_HALO x)).any fun b => decide (a < b + e ∧ b < a + e)

/-- Checks of a PLEACH (R280, R282). -/
def State.pleachChecks (s : State) (q w x : Nat) : List (Bool × Nat) :=
  let e := boxExt (genLStr w) (allRng w)
  let out (b : Nat) : Bool :=
    decide (Int.ofNat b + e.1 < 0) || decide (Int.ofNat b + e.2 + Int.ofNat (genEsz w) > 262144)
  [(W.COPY_RES w != 0 || W.PLEACHX_RES x != 0 || W.COPY_DIR w != 0, 3),
    (W.COPY_LTGT w != 0 || decide (W.COPY_ESZ w ≥ 5) || W.PLEACHX_PKIND x == 3, 4),
    (W.PLEACHX_DUE x == 0, 5),
    (W.PLEACHX_PKIND x == 1 &&
      !(s.coreExists (W.PLEACHX_PCORE x) && s.inPart q (W.PLEACHX_PCORE x / 8)), 0x0A),
    (W.PLEACHX_PKIND x == 2 && decide (W.PLEACHX_PORT x ≥ s.id.ports), 0x0A),
    (out (W.COPY_LBASE w) || out (W.PLEACHX_HALO x), 0x0B), (pleachOverlap w x, 0x0A)]

/-- Checks of a PUSH or POP (R283). -/
def State.ringChecks (s : State) (c w : Nat) : List (Bool × Nat) :=
  [(W.RING_RES w != 0, 3), (W.RING_LTGT w == 3, 4), (!s.coreExists (c / 8 * 8 + W.RING_RDSLOT w), 0x0A),
    (decide (W.RING_RDADDR w + 3 > 262144), 0x0B)]

/-- Checks of a TSUB (R285). -/
def State.tsubChecks (s : State) (q c w : Nat) : List (Bool × Nat) :=
  [(W.TSUB_RES w != 0, 3), (decide (W.TSUB_DADDR w % 4 ≠ 0), 5),
    (!s.inPart q (c / 64 * 8 + W.TSUB_TCLUSTER w), 0x0A),
    (decide (W.TSUB_DADDR w + 4 * W.REPEAT w + 4 > 262144), 0x0B)]

/-! ## LNK words (R286 to R291) -/

/-- A row of some run lies outside a target: base, row stride, rows, words per row, step per run. -/
def rowsBad (w base rows rwords : Nat) (rstride step : Int) (size : Nat) : Bool :=
  (endRuns w).any fun j =>
    [0, rows - 1].any fun r => outOf (Int.ofNat base + Int.ofNat j * step + Int.ofNat r * rstride) rwords size

/-- Checks of a SEND (R286, R288). -/
def State.sendChecks (s : State) (q w x : Nat) : List (Bool × Nat) :=
  let h := W.SENDX_HOPS x
  let h0 := W.SENDX_HOP x 0
  [(W.SEND_RES w != 0 || W.SENDX_RES x != 0, 3), (W.SEND_STGT w == 3, 4), (decide (h > 20), 5),
    (decide (h > 0) && decide (h0 ≥ s.id.ports), 5),
    ((List.range 20).any (fun n => decide (h ≤ n) && W.SENDX_HOP x n != 0), 5),
    (h == 0 && !(s.coreExists (W.SEND_DCORE w) && s.inPart q (W.SEND_DCORE w / 8)), 0x0A),
    (rowsBad w (W.SEND_SADDR w) (W.SEND_ROWS w + 1) (W.SEND_RWORDS w + 1) (W.SEND_RSTRIDE w) (W.SEND_RUNSTEP w)
      (ltgtWords (W.SEND_STGT w)), 0x0B)]

/-- Checks of a RECV (R290). -/
def recvChecks (w : Nat) : List (Bool × Nat) :=
  [(W.RECV_RES w != 0, 3), (W.RECV_DTGT w == 3, 4),
    (rowsBad w (W.RECV_DADDR w) (W.RECV_ROWS w + 1) (W.RECV_RWORDS w + 1) (W.RECV_RSTRIDE w) (W.RECV_RUNSTEP w)
      (ltgtWords (W.RECV_DTGT w)), 0x0B)]

/-! ## The whole check -/

/-- R231, R292: the lowest REASON of the checks that a word of core `c` of partition `q` fails; 0 where it passes. `x` is
the extension of a long word. -/
def State.wordReason (s : State) (q c pre w x : Nat) : Nat :=
  let qu := W.QUEUE w
  let o := W.OPCODE w
  if qu ≥ 5 then 1
  else if isExt w then 7
  else if !isOpcode qu o then 2
  else
    lowest ((s.badSignal c w, 9) :: (repeatZero w && W.REPEAT w != 0, 8) ::
      (if qu = 0 then seqChecks pre w
       else if o = 0 then [(bits w 191 0 != 0, 3)]
       else match o with
        | 0x10 => loadwChecks w
        | 0x11 => mmulChecks (s.exact q) w
        | 0x20 => s.chainChecks (s.exact q) c w x
        | 0x21 => setkChecks w
        | 0x30 => s.copyChecks q c w x
        | 0x31 => s.pleachChecks q w x
        | 0x34 => s.tsubChecks q c w
        | 0x40 => s.sendChecks q w x
        | 0x41 => recvChecks w
        | _ => s.ringChecks c w))

end Sys2Proof.Machine
end

