-- ==== Sys2Proof/Machine/Stream.lean ====
section
/-! DEFINITION. Streams and timing of chain words (04_chain_engine.md R113 to R117, R122 to R124, Tables 4.1 and 4.3): the
words a vector reads, latencies, stage latencies, the chain scalars a word reads and writes. -/

namespace Sys2Proof.Machine

/-- The words (offsets from the stream's start) that elements `64 j` to `64 j + 63`, below `n`, touch. -/
def vecWords (pitch seg b n j : Nat) : List Nat :=
  if 64 * j ≥ n then []
  else
    let last := min n (64 * j + 64) - 1
    let lo := elBit pitch seg b (64 * j) / 128
    let hi := (elBit pitch seg b last + b - 1) / 128
    (List.range (hi + 1 - lo)).map (lo + ·)

/-- The words that the block scales of vector `j` touch, from the start of the scales. -/
def vecScaleWords (seg n j : Nat) : List Nat :=
  if 64 * j ≥ n then []
  else
    let lo := scaleByte seg (64 * j) / 16
    let hi := scaleByte seg (min n (64 * j + 64) - 1) / 16
    (List.range (hi + 1 - lo)).map (lo + ·)

/-- The words of a vector operand that vector `j` touches (index i mod 2^VPERIOD). -/
def vopWords (per b n j : Nat) : List Nat :=
  vecWords 0 1 b (min n (64 * (j % (per / 64)) + 64)) (j % (per / 64))

/-- Where a stream lies: the core whose memory it is and the unit (0 core store, 1 ABUF, 2 CBUF), for a source code of
Table 4.3. -/
def srcPlace (c peer src : Nat) : Nat × Nat :=
  match src with | 2 => (c, 2) | 3 => (c, 1) | 5 => (c / 8 * 8 + peer, 0) | _ => (c, 0)
/-- The same for a destination code, and for VSRC. -/
def dstPlace (c peer dst : Nat) : Nat × Nat :=
  match dst with | 1 => (c, 2) | 2 => (c, 1) | 4 => (c / 8 * 8 + peer, 0) | _ => (c, 0)
def vsrcPlace (c v : Nat) : Nat × Nat := match v with | 1 => (c, 2) | 2 => (c, 1) | _ => (c, 0)

/-- The physical slot of a core (0 where it is absent). -/
def State.phys (s : State) (c : Nat) : Nat := (s.physSlot (c / 8) (c % 8)).getD 0

/-- Table 4.3, Table 6.2: the read latency of a word of core `t`'s unit for core `c`; `peer` under PEER addressing. -/
def State.chRdLat (s : State) (c t unit word : Nat) (peer : Bool) : Nat :=
  if unit ≠ 0 then 3
  else if peer then peerLat (s.phys c) (s.phys t) (csClass word) else ownLat word

/-- Table 4.3: write latencies. -/
def State.chWrLat (s : State) (c t unit word : Nat) (peer : Bool) : Nat :=
  if unit = 2 then 4 else if unit = 1 then 6
  else if peer then peerLat (s.phys c) (s.phys t) (csClass word) else ownLat word

/-- One stream of a run: the core and unit it lies in, whether by PEER, its first word, and the words of vector `j`. -/
structure Strm where
  core : Nat
  unit : Nat
  peer : Bool
  base : Nat
  words : List (List Nat)
  deriving DecidableEq, Repr

/-- The memory streams, scales and vector operands that run `j` of a CHAIN word reads: 0 X, 1 its scales, 2 Y, 3 its
scales, 4 a, 5 b. -/
def chainStreams (c w x j : Nat) : List (Nat × Strm) :=
  let n := chCount w
  let seg := chSeg w
  let vs := List.range (chVecs w)
  let scaled (f : Nat) : Bool := f == 1 && stageOn w 1 && W.CHAIN_KIND w == 0
  let strm (src peer base fmt : Nat) : Strm :=
    let p := srcPlace c peer src
    ⟨p.1, p.2, src == 5, base, vs.map (vecWords (W.CHAINX_XPITCH x) seg (chBits w fmt) n)⟩
  let scl (src peer base : Nat) : Strm :=
    let p := srcPlace c peer src
    ⟨p.1, p.2, src == 5, base, vs.map (vecScaleWords seg n)⟩
  let vop (base : Nat) : Strm :=
    let p := vsrcPlace c (W.CHAIN_VSRC w)
    ⟨p.1, p.2, false, base, vs.map (vopWords (2 ^ (W.CHAIN_VPERIOD w + 6)) (if W.CHAIN_VFMT w = 1 then 16 else 32) n)⟩
  let xOn := srcMem (W.CHAIN_XSRC w)
  let yOn := chYUsed w && srcMem (W.CHAIN_YSRC w)
  (if xOn then [(0, strm (W.CHAIN_XSRC w) (W.CHAIN_XPEER w) (addrN (chXaddr x j)) (W.CHAIN_XFMT w))] else []) ++
  (if xOn && scaled (W.CHAIN_XSCL w) then [(1, scl (W.CHAIN_XSRC w) (W.CHAIN_XPEER w) (W.CHAINX_XSCLA x))] else []) ++
  (if yOn then [(2, strm (W.CHAIN_YSRC w) (W.CHAIN_YPEER w) (addrN (chYaddr x j)) (W.CHAIN_YFMT w))] else []) ++
  (if yOn && scaled (W.CHAIN_YSCL w) then [(3, scl (W.CHAIN_YSRC w) (W.CHAIN_YPEER w) (W.CHAINX_YSCLA x))] else []) ++
  (if chAVec w then [(4, vop (W.CHAINX_AVEC x))] else []) ++ (if chBVec w then [(5, vop (W.CHAINX_BVEC x))] else [])

/-- R115: the source latency of a run: the largest read latency of what it reads. -/
def State.chainSrcLat (s : State) (c w x j : Nat) : Nat :=
  let base := match W.CHAIN_XSRC w with | 1 => 2 | 6 => 1 | _ => 0
  (chainStreams c w x j).foldl (fun m t =>
    t.2.words.foldl (fun m ws => ws.foldl (fun m o => max m (s.chRdLat c t.2.core t.2.unit (t.2.base + o) t.2.peer)) m) m) base

/-- R117: the interval of a word. -/
def chainInterval (exact : Bool) (w : Nat) : Nat :=
  if W.CHAIN_KIND w = 2 then 5 else if W.CHAIN_XSRC w = 1 && exact then 2 else 1

/-- Table 4.1: the latency of stage `j` for lanes. DESIGN CHOICE (log 71): the 1 cc of a flagged word (R80) lies in stage 8, where the table puts
it; a word that bypasses stage 8 takes none. -/
def stageLat (w j : Nat) : Nat :=
  match j with
  | 1 => 3 | 2 => 4 | 3 => 3 | 4 => 14 | 5 => 7 | 6 => 2
  | 7 => if W.CHAIN_OSCALED w = 1 then 20 else 4
  | _ => if W.CHAIN_FLAG w = 1 then 9 else 8

/-- R122: the sum of the latencies of the enabled stages below stage `j`. -/
def chainLatBelow (w j : Nat) : Nat :=
  ((List.range 8).map (· + 1)).foldl (fun m i => if i < j && stageOn w i then m + stageLat w i else m) 0

/-- D of R122. -/
def chainLat (w : Nat) : Nat := chainLatBelow w 9

/-- d_red of R122. -/
def redLat (w : Nat) : Nat := if W.CHAIN_RED w = 3 then 12 else 9

/-! ## Chain scalars (R112 to R114) -/

/-- The scalars run `j` of a CHN word writes. -/
def chnWrites (w x j : Nat) : List Nat :=
  if W.OPCODE w = 0x21 then (List.range (W.SETK_COUNT w + 1)).map (W.SETK_FIRST w + ·)
  else if W.OPCODE w ≠ 0x20 then []
  else
    (if stageOn w 8 && W.CHAIN_DST w == 5 then [addrN (chDaddr x j)] else []) ++
    (if stageOn w 5 && W.CHAIN_RDST w == 3 then
      (List.range (if W.CHAIN_RED w = 3 then 3 else 1)).map (addrN (chRaddr x j) + ·) else [])

/-- The scalars run `j` of a CHN word reads at issue (R113). -/
def chnReads (w x j : Nat) : List Nat :=
  if W.OPCODE w ≠ 0x20 then []
  else
    (if W.CHAIN_XSRC w = 6 then [addrN (chXaddr x j)] else []) ++
    (if stageOn w 2 && (W.CHAIN_AMODE w == 1 || W.CHAIN_AMODE w == 3) then [W.CHAIN_ASCALAR w] else []) ++
    (if stageOn w 2 && W.CHAIN_BMODE w == 1 then [W.CHAIN_BSCALAR w] else []) ++
    (if stageOn w 6 && W.CHAIN_SELPRED w == 1 then [W.CHAIN_SELK w] else []) ++
    (if stageOn w 6 && W.CHAIN_SELPRED w != 0 && W.CHAIN_SELACT w == 0 then [W.CHAIN_SELV w] else []) ++
    (if W.CHAIN_PADMODE w = 0 then [W.CHAIN_PADK w] else []) ++
    (if stageOn w 5 && W.CHAIN_SEED w == 1 then [addrN (chRaddr x j), addrN (chRaddr x j) + 1] else [])

/-! ## Writes of bits (R121, R142) -/

/-- R191: the place of an access of core `c` to the memory of core `t`, PEER access or not, of a requester with its own place. -/
def reqRank (own c t : Nat) (peer : Bool) : Nat := if t / 8 ≠ c / 8 then rkPort else if peer then rkPeer c else own

/-- Put the bits of a write of one run into the access of that run to the word in that cycle, or make one: bits of a reduction result stay
(R142). -/
def putBits (p : Plan) (val mask : Nat) (red : Bool) : List Plan → List Plan
  | [] => [{ p with act := .write val mask, prot := if red then mask else 0 }]
  | a :: r =>
    match a.act with
    | .write v m =>
      if a.tag = p.tag ∧ a.cc = p.cc ∧ a.core = p.core ∧ a.unit = p.unit ∧ a.word = p.word then
        let new := if red then mask else mask &&& (2 ^ 128 - 1 - a.prot)
        { a with act := .write (mergeWord v val new) (m ||| new), prot := if red then a.prot ||| mask else a.prot } :: r
      else a :: putBits p val mask red r
    | _ => a :: putBits p val mask red r

/-- The words that `width` bits at a bit address touch: (word, value, mask). -/
def bitWords (addr width val : Nat) : List (Nat × Nat × Nat) :=
  let off := addr % 128
  let v := val % 2 ^ width * 2 ^ off
  let m := (2 ^ width - 1) * 2 ^ off
  (List.range ((off + width + 127) / 128)).map fun t => (addr / 128 + t, v / 2 ^ (128 * t) % 2 ^ 128, m / 2 ^ (128 * t) % 2 ^ 128)

/-- R115, R117: the reads of vector `j` of a run of core `c` that enters at `e`, over its interval, each under its key. -/
def State.vecReads (s : State) (c key : Nat) (sts : List (Nat × Strm)) (j e r : Nat) : List Plan :=
  sts.flatMap fun t =>
    let st := t.2
    let ws := st.words.getD j []
    (List.range ws.length).map fun n =>
      let o := ws.getD n 0
      let word := st.base + o
      let lat := s.chRdLat c st.core st.unit word st.peer
      let at_ := e + n * r / max 1 ws.length
      { cc := if st.unit = 0 then at_ - lat / 2 else at_ - 2, rank := reqRank rkChain c st.core st.peer, core := st.core, unit := st.unit,
        word := word, act := .read (groupKey key ((j * 8 + t.1) * 2 ^ 20 + o)) }

end Sys2Proof.Machine
end

