-- ==== Sys2Proof/Machine/Seq.lean ====
section
/-! DEFINITION. Queues, issue, completion, fetch and dispatch (07_core_queues.md R224 to R249, 08 R257 to R259, R613) and the
words of the SEQ queue. -/

namespace Sys2Proof.Machine

/-! ## Queues -/

/-- A queue by its code (Table 7.1). -/
def Core.queue (k : Core) (qc : Nat) : List QEntry :=
  match qc with | 0 => k.seq | 1 => k.mat | 2 => k.chn | 3 => k.mov | _ => k.lnk
def Core.setQueue (k : Core) (qc : Nat) (es : List QEntry) : Core :=
  match qc with
  | 0 => { k with seq := es } | 1 => { k with mat := es } | 2 => { k with chn := es }
  | 3 => { k with mov := es } | _ => { k with lnk := es }

/-- The entries a control word holds: 2 for a long word (R258). -/
def QEntry.places (e : QEntry) : Nat := if isLong e.lead then 2 else 1

/-- R229, R258: a dispatched word stands in its queue from the cc after its dispatch, a long word with both entries from the cc after its
lead's. -/
def QEntry.entered (e : QEntry) (lc : Nat) : Bool := decide (e.avail ≤ lc + (e.places - 1))

/-- R224, R226: words that have arrived from fetch and wait for an earlier word to be inspected. -/
def Core.arrived (k : Core) (lc : Nat) : Nat := (k.inflight.filter fun r => decide (r.arr ≤ lc)).length

/-- R224: the fill of a queue in cycle `lc`: entries held, those of words that complete in this cycle included. -/
def Core.fill (k : Core) (qc lc : Nat) : Nat :=
  (if qc = 0 then k.seq.length + k.arrived lc else (((k.queue qc).filter fun e => e.entered lc).map QEntry.places).sum) +
    (k.held.filter fun h => h.1 == qc && decide (lc < h.2)).length

/-- The head of a queue for issue: its first word with runs still to issue. -/
def Core.head (k : Core) (qc : Nat) : Option QEntry := (k.queue qc).find? fun e => decide (e.issued ≤ W.REPEAT e.lead)

/-- Change the entry with a number. -/
def modEntry (es : List QEntry) (id : Nat) (f : QEntry → QEntry) : List QEntry :=
  es.map fun e => if e.id = id then f e else e
def Core.modEntry (k : Core) (qc id : Nat) (f : QEntry → QEntry) : Core :=
  k.setQueue qc (Machine.modEntry (k.queue qc) id f)

/-! ## Issue conditions -/

/-- The arrays a 4-bit mask names. -/
def arraysOf (m : Nat) : List Nat := (List.range 4).filter m.testBit

/-- An array of a core. -/
def Core.arr (k : Core) (a : Nat) : Arr := SMap.get Arr.init k.arrs a
def Core.setArr (k : Core) (a : Nat) (v : Arr) : Core := { k with arrs := SMap.put Arr.init k.arrs a v }

/-- R87: the shadow of an array is being loaded in a cycle. -/
def Arr.isLoading (a : Arr) (lc : Nat) : Bool := a.sstate == .loading && decide (lc < a.readyAt)

/-- R88: the weight-part phases of an MMUL: how many, and the swap before each. -/
def mmulPhases (w : Nat) : Nat :=
  if W.MMUL_CPLX w = 1 then 3
  else match Fmt.ofCode (W.MMUL_WFMT w) with
    | some f => weightParts f false false
    | none => 1

/-- R88: a phase of an MMUL begins with a swap. DEDUCED (log 71): R88 makes the swaps of later phases a matter of the format, so they take place
whatever SWAP holds, though Table 8.6 names them in its row of SWAP. -/
def mmulSwaps (w phase : Nat) : Bool := decide (phase > 0) || W.MMUL_SWAP w == 1

/-- The accumulator rows of the first row-pass of a run: the real row, and for a complex word the imaginary row. -/
def mmulRows0 (w j : Nat) : List Nat :=
  let r := addrN (Int.ofNat (W.MMUL_ACCROW w) + Int.ofNat j * W.MMUL_ACCSTEP w)
  if W.MMUL_CPLX w = 1 then [r, r + W.MMUL_MROWS w + 1] else [r]

/-- R99: what the cycle of the last accumulator write of a row is: a row-pass that writes it issues no earlier (R100). -/
def Core.rowFree (k : Core) (arrs : List Nat) (row : Nat) : Nat :=
  arrs.foldl (fun m a => max m (SMap.get 0 (k.arr a).accAt row)) 0

/-- R88: the head MMUL's swap finds a LOADING shadow. -/
def Core.swapHeld (k : Core) (e : QEntry) (lc : Nat) : Bool :=
  mmulSwaps e.lead e.phase && (arraysOf (W.MMUL_ARRAYS e.lead)).any fun a => (k.arr a).isLoading lc

/-- R100: the rows whose last writes hold back the first row-pass of a phase: the rows it writes, and after the first pass
of a complex word both rows of the activation row. -/
def phaseRows (w phase j : Nat) : List Nat :=
  let rs := mmulRows0 w j
  if phase = 0 ∧ W.MMUL_GAUSS w = 0 then rs.take 1 else rs

/-- The run whose phase of an MMUL comes next: one begun is counted as issued. -/
def QEntry.runNo (e : QEntry) : Nat := if e.phase = 0 then e.issued else e.issued - 1

/-- An issued MMUL that has weight-part phases still to come. -/
def Core.pendMat (k : Core) : Option QEntry := k.mat.find? fun e => e.phase != 0

/-- A completion cycle not yet known. -/
def notYet : Nat := 2 ^ 64

/-- The completion cycle of the run of an entry that was not yet known. -/
def QEntry.setDue (e : QEntry) (due : Nat) : QEntry := { e with runs := e.runs.set (e.runs.findIdx (· == notYet)) due }

/-- R100: an MMUL's next row-pass waits for an accumulator write. -/
def Core.spaceHeld (k : Core) (e : QEntry) (lc : Nat) : Bool :=
  (phaseRows e.lead e.phase e.runNo).any fun r => decide (lc < k.rowFree (arraysOf (W.MMUL_ARRAYS e.lead)) r)

/-- R89: a LOADW waits for a swap still to come, and starts in the cc after it. -/
def Core.loadHeld (k : Core) (e : QEntry) (lc : Nat) : Bool :=
  (arraysOf (W.LOADW_ARRAYS e.lead)).any fun a =>
    ((k.arr a).fresh && decide ((k.arr a).swaps > 0)) || ((k.arr a).sstate == .ready && decide (lc < (k.arr a).readyAt))

/-- R114: a scalar that a run reads or writes is written by an earlier run not yet completed. -/
def Core.scalarHeld (k : Core) (e : QEntry) (lc : Nat) : Bool :=
  let mine := chnReads e.lead e.ext e.issued ++ chnWrites e.lead e.ext e.issued
  k.chn.any fun p =>
    decide (p.id ≤ e.id) &&
      (List.range p.runs.length).any fun i =>
        decide (lc < p.runs.getD i 0) &&
          (chnWrites p.lead p.ext (p.issued - p.runs.length + i)).any mine.contains

/-- R124: the engine is not yet free for the run. -/
def State.engineHeld (s : State) (c : Nat) (e : QEntry) (lc : Nat) : Bool :=
  let k := s.core c
  if W.OPCODE e.lead ≠ 0x20 then false
  else
    let e0 := lc + s.chainSrcLat c e.lead e.ext e.issued
    decide (e0 < k.chnFree) || (stageOn e.lead 8 && decide (e0 + chainLat e.lead < k.chnLeave))

/-- The issue conditions of a queue besides order and wait (R88, R89, R100, R101, R114, R124, R276). -/
def State.unitReady (s : State) (c qc : Nat) (e : QEntry) (lc : Nat) : Bool :=
  let k := s.core c
  match qc, W.OPCODE e.lead with
  | 1, 0x10 => decide (k.wport ≤ lc) && !k.loadHeld e lc
  | 1, 0x11 => k.pendMat.isNone && decide (k.matFree ≤ lc) && !k.swapHeld e lc && !k.spaceHeld e lc
  | 2, 0 => true
  | 2, _ => !k.scalarHeld e lc && !s.engineHeld c e lc
  | 3, 0x30 | 3, 0x31 | 3, 0x32 | 3, 0x33 => e.phase != 0 || decide (k.movFree ≤ lc)
  | _, _ => true

/-- Whether a SEQ entry is a word of another queue: it is dispatched, not issued. -/
def QEntry.forQueue (e : QEntry) (qc : Nat) : Bool := W.QUEUE e.lead == qc

/-- R224, R241: the head of a queue stands ready but for its wait: it may issue in this cycle, no other word of the queue
issued in it, and its unit is free. -/
def State.headReady (s : State) (c qc lc : Nat) : Option QEntry :=
  let k := s.core c
  match k.head qc with
  | none => none
  | some e =>
    if e.avail ≤ lc ∧ SMap.get 0 k.lastIssue qc ≤ lc ∧ e.forQueue qc ∧ s.unitReady c qc e lc ∧ e.pre = 0 then some e
    else none

/-- R242: the value of a counter that the heads of lower queue codes leave in this cycle. -/
def State.leftFor (s : State) (c qc ctr lc : Nat) : Nat :=
  (List.range qc).foldl (fun v i =>
    match s.headReady c i lc with
    | some e =>
      if e.phase = 0 ∧ W.WAITCTR e.lead = ctr ∧ W.WAITVAL e.lead ≤ v then v - W.WAITVAL e.lead else v
    | none => v) (SMap.get 0 (s.core c).sync ctr)

/-- R241: the wait of a head is satisfied. -/
def State.waitOk (s : State) (c qc lc : Nat) (e : QEntry) : Bool :=
  e.phase != 0 || W.WAITVAL e.lead == 0 || decide (W.WAITVAL e.lead ≤ s.leftFor c qc (W.WAITCTR e.lead) lc)

/-- What an issue answers: the partition, the head before the issue, its cycle, the state with the wait consumed. -/
structure Issue where
  q : Nat
  e : QEntry
  lc : Nat
  s : State

/-- R241: issue the head of a queue when it is a word of an opcode and may issue now. -/
def State.issueOp (s : State) (c qc op : Nat) : Option Issue :=
  match s.liveQ c with
  | none => none
  | some q =>
    let lc := (s.part q).lc
    match s.headReady c qc lc with
    | none => none
    | some e =>
      if W.OPCODE e.lead = op ∧ s.waitOk c qc lc e then
        let v := if e.phase = 0 then W.WAITVAL e.lead else 0
        some ⟨q, e, lc, s.modCore c fun k =>
          { k with
            sync := SMap.modify 0 k.sync (W.WAITCTR e.lead) (fun x => x - v)
            lastIssue := SMap.put 0 k.lastIssue qc (lc + 1) }⟩
      else none

/-- The present run of a head has issued; it completes in cycle `due` (known so far). -/
def State.endRun (s : State) (c qc : Nat) (e : QEntry) (due : Nat) : State :=
  s.modCore c fun k =>
    k.modEntry qc e.id fun x => { x with issued := x.issued + 1, phase := 0, runs := x.runs ++ [due] }

/-! ## Completion -/

/-- R224, R244: the front word of a queue completes its oldest run: it signals, and when every run is done it leaves, its
place held until the cycle after. -/
def State.completeRun (s : State) (c qc lc : Nat) : State :=
  match (s.core c).queue qc with
  | [] => s
  | e :: rest =>
    let e' := { e with runs := e.runs.tail }
    let last := e'.runs.isEmpty && decide (e.issued > W.REPEAT e.lead)
    let s := s.modCore c fun k =>
      if last then
        { (k.setQueue qc rest) with held := k.held.filter (fun h => decide (lc < h.2)) ++ List.replicate (if qc = 0 then 1 else e.places) (qc, lc + 1) }
      else k.setQueue qc (e' :: rest)
    -- R289: REMOTE signals that came with the bytes this run removed
    let key := e.id * 65536 + (e.issued - e.runs.length)
    let s := ((s.core c).remote.filter fun r => r.1 == key).foldl (fun t r => t.syncAdd c r.2.1 r.2.2) s
    let s := s.modCore c fun k => { k with remote := k.remote.filter fun r => r.1 != key }
    s.signal c e.lead lc

/-- The front word of a queue with its oldest issued run, when that run is due. -/
def State.frontDue (s : State) (c qc lc : Nat) : Option QEntry :=
  match (s.core c).queue qc with
  | e :: _ => match e.runs with | d :: _ => if d ≤ lc then some e else none | [] => none
  | [] => none

/-- Words that complete with no row of their own in the table: NOP, LOOP, JUMP and SETK (R112, R232, R233), and an accepted TSUB
(R149). -/
def autoWord (w : Nat) : Bool :=
  W.OPCODE w == 0 || (W.QUEUE w == 0 && (W.OPCODE w == 1 || W.OPCODE w == 2)) || (W.QUEUE w == 2 && W.OPCODE w == 0x21)
    || (W.QUEUE w == 3 && W.OPCODE w == 0x34)

/-- Complete the due runs of front words that complete by themselves, `fuel` runs at most. -/
def State.retireQ (s : State) (c qc lc : Nat) : Nat → State
  | 0 => s
  | n + 1 =>
    match s.frontDue c qc lc with
    | some e => if autoWord e.lead then (s.completeRun c qc lc).retireQ c qc lc n else s
    | none => s

/-- The same in every queue of a core. -/
def State.retire (s : State) (c lc : Nat) : State :=
  (List.range 5).foldl (fun t qc => t.retireQ c qc lc (((t.core c).queue qc).map (fun e => e.runs.length)).sum) s

/-- A completion row: the front word of a queue, of one of some opcodes, completes its oldest run, when the partition
runs a cycle and the run is due. -/
def State.completeOp (s : State) (c qc : Nat) (ops : List Nat) : Option (Nat × QEntry × Nat) :=
  match s.liveQ c with
  | none => none
  | some q =>
    let lc := (s.part q).lc
    match s.frontDue c qc lc with
    | some e => if ops.contains (W.OPCODE e.lead) then some (q, e, lc) else none
    | none => none

/-- Complete a word by its row. -/
def State.completeBy (s : State) (c qc : Nat) (ops : List Nat) : State :=
  match s.completeOp c qc ops with
  | some (_, _, lc) => (s.completeRun c qc lc).retire c lc
  | none => s

/-! ## The SEQ head and the queue it goes to -/

/-- The word behind the SEQ head. -/
def Core.behind (k : Core) (e : QEntry) : Option QEntry := k.seq.find? fun x => decide (x.id > e.id)

/-- R259: a lead whose follower is no EXT of its queue. -/
def Core.extBad (k : Core) (e : QEntry) : Bool :=
  isLong e.lead && (match k.behind e with | some x => !(isExt x.lead && W.QUEUE x.lead == W.QUEUE e.lead) | none => false)

/-- R258: the lead of a long word whose extension has not arrived. -/
def Core.extWait (k : Core) (e : QEntry) : Bool := isLong e.lead && (k.behind e).isNone

/-- R229, R258: the head's queue has no free entry for it. A word that belongs to no queue waits for none. -/
def Core.queueFull (k : Core) (e : QEntry) (lc : Nat) : Bool :=
  decide (1 ≤ W.QUEUE e.lead ∧ W.QUEUE e.lead ≤ 4) && !isExt e.lead && !k.extBad e &&
    decide (k.fill (W.QUEUE e.lead) lc + e.places > depth (W.QUEUE e.lead))

/-! ## Waits counted per cycle (R107, R145, R230) -/

/-- R230: the SEQ head waits on a full queue. -/
def State.dispatchFull (s : State) (c lc : Nat) : Bool :=
  let k := s.core c
  match k.head 0 with
  | none => false
  | some e =>
    decide (e.avail ≤ lc) && decide (SMap.get 0 k.lastIssue 0 ≤ lc) && !k.extWait e && k.queueFull e lc

/-- Count the waits of one logical cycle of a core. -/
def State.countWaits (s : State) (c lc : Nat) : State :=
  let k := s.core c
  let s := if s.dispatchFull c lc then s.addFld F.CORECTL_QSTAT_FULLCNT c 1 else s
  let up (qc : Nat) : Option QEntry :=
    match k.head qc with
    | some e =>
      if e.avail ≤ lc ∧ SMap.get 0 k.lastIssue qc ≤ lc ∧ s.waitOk c qc lc e then some e else none
    | none => none
  let mm := (match k.pendMat with | some e => some e | none => (up 1).filter fun e => W.OPCODE e.lead == 0x11).filter
    fun _ => decide (k.matFree ≤ lc)
  let ld := (up 1).filter fun e => W.OPCODE e.lead == 0x10 && decide (k.wport ≤ lc) && k.loadHeld e lc
  let s := if ld.isSome || mm.any fun e => k.swapHeld e lc then s.addFld F.CORECTL_MATSTAT_SWAPCNT c 1 else s
  let s := if (mm.any fun e => !k.swapHeld e lc && k.spaceHeld e lc) || k.spaces.any fun p => decide (p.1 ≤ lc ∧ lc < p.2) then
      s.addFld F.CORECTL_MATSTAT_SPACECNT c 1 else s
  match up 2 with
  | some e =>
    if W.OPCODE e.lead ≠ 0 ∧ (k.scalarHeld e lc ∨ s.engineHeld c e lc) then s.addFld F.CORECTL_CHNSTAT_WAITCNT c 1 else s
  | none => s

/-! ## Fetch (R226 to R228) -/

/-- R228: the step of the loop stack and of the fetch address by a request of address `a`: the new stack, the next
address, and the check of R613 that the next request carries. -/
def loopStep (loops : List LoopFrame) (a : Nat) : List LoopFrame × Nat × List FetchCheck :=
  match loops with
  | f :: r =>
    if a = f.last then
      if f.left > 0 then ({ f with left := f.left - 1 } :: r, f.first, [⟨1, f.loopAddr⟩])
      else (r, (a + 2) % 262144, [])
    else (loops, (a + 2) % 262144, [])
  | [] => ([], (a + 2) % 262144, [])

/-- The conditions of R226 in cycle `lc`. -/
def Core.mayFetch (k : Core) (lc : Nat) : Bool :=
  k.fetchOn && !k.halted && !k.stopped && decide (k.lastReq ≤ lc) && decide (k.fill 0 lc + (k.inflight.length - k.arrived lc) < 16)

/-- The two reads of a fetch of address `a` requested in cycle `lc`, under a key. -/
def fetchReads (c key a lc : Nat) : List Plan :=
  [0, 1].map fun i => { cc := rdCycle 0 (a + i) lc, rank := rkFetch, core := c, unit := 0, word := a + i, act := .read (groupKey key i) }

/-- FETCH_REQUEST (R226, R228): request the control word at the fetch address. -/
def State.fetch (s : State) (c lc : Nat) : State :=
  let k := s.core c
  let a := k.fetchAddr
  let ends : List FetchCheck := match k.loops with | f :: _ => if a = f.last then [⟨2, f.loopAddr⟩] else [] | [] => []
  let st := loopStep k.loops a
  (s.planFor c (fetchReads c k.nextKey a lc)).modCore c fun k =>
    { k.nextGroup with
      inflight := k.inflight ++ [⟨a, k.nextKey, lc + max (ownLat a) (ownLat (a + 1)), k.loops, k.checks ++ ends⟩]
      loops := st.1, fetchAddr := st.2.1, checks := st.2.2, lastReq := lc + 1 }

/-- The control word of a request, as its reads captured it. -/
def Core.fetched (k : Core) (r : FetchReq) : Nat := k.cap (groupKey r.key 0) + 2 ^ 128 * k.cap (groupKey r.key 1)

/-- R613: a check of a fetched word fails. -/
def checkFails (w : Nat) (k : FetchCheck) : Bool :=
  if k.kind = 2 then isLong w else isExt w

/-- R234: what inspection finds wrong with a LOOP at address `a` under a loop stack: 0 nothing. -/
def loopPre (loops : List LoopFrame) (a w : Nat) : Nat :=
  let e := W.LOOP_END w
  let out := match loops with | f :: _ => decide (e > f.last) | [] => false
  if e % 2 = 1 ∨ e ≤ a ∨ loops.length ≥ 4 ∨ out = true ∨ (e - a) / 2 > 32767 then 0x0C else 0

/-- R235: a JUMP inside a loop body whose target lies outside the body. -/
def jumpPre (loops : List LoopFrame) (w : Nat) : Nat :=
  match loops with
  | f :: _ => if f.first ≤ W.JUMP_TARGET w ∧ W.JUMP_TARGET w ≤ f.last then 0 else 0x0C
  | [] => 0

/-- R227: discard the requests behind an inspected word; the loop stack returns to what it was before them. -/
def Core.discard (k : Core) : Core :=
  match k.inflight with
  | [] => { k with checks := [] }
  | r :: _ => { k with inflight := [], loops := r.snap, checks := [] }

/-- R227: a LOOP that passes its checks is pushed when it is inspected; requests past its END are discarded. -/
def Core.pushLoop (k : Core) (a w : Nat) : Core :=
  let f : LoopFrame := ⟨a, a + 2, W.LOOP_END w, W.LOOP_COUNT w⟩
  let tag (r : FetchReq) : FetchReq :=
    { r with
      snap := f :: r.snap
      checks := r.checks ++ (if r.addr = f.first then [⟨1, a⟩] else []) ++ (if r.addr = f.last then [⟨2, a⟩] else []) }
  let keep := k.inflight.takeWhile fun r => r.addr != f.last
  match k.inflight.drop keep.length with
  | [] =>
    { k with
      inflight := k.inflight.map tag
      loops := f :: k.loops
      checks := k.checks ++ (if k.fetchAddr = f.first then [⟨1, a⟩] else []) }
  | e :: _ =>
    let st := loopStep (f :: e.snap) f.last
    { k with inflight := (keep ++ [e]).map tag, loops := st.1, fetchAddr := st.2.1, checks := st.2.2 }

/-- FETCH_INSPECT (R227, R234, R613): the oldest request, arrived, is inspected and enters the SEQ queue. -/
def State.inspect (s : State) (q c lc : Nat) (r : FetchReq) : State :=
  let w := (s.core c).fetched r
  match r.checks.find? (checkFails w) with
  | some ck =>
    let op := if ck.kind = 3 then 2 else 1
    s.reject q c 7 0 op ck.owner
  | none =>
    let o := if W.QUEUE w = 0 then W.OPCODE w else 0
    let pre :=
      if o = 1 then loopPre r.snap r.addr w
      else if o = 2 then jumpPre r.snap w
      else if o = 3 ∨ o = 4 then (if r.snap.isEmpty then 0 else 0x0C)
      else 0
    s.modCore c fun k =>
      let k := { k.dropGroup r.key with
        inflight := k.inflight.tail
        seq := k.seq ++ [⟨k.nextId, w, 0, r.addr, lc + 1, 0, 0, [], pre, 0, 0⟩]
        nextId := k.nextId + 1 }
      if o = 1 then (if pre = 0 ∧ W.REPEAT w = 0 then k.pushLoop r.addr w else k)
      else if o = 2 then { k.discard with fetchAddr := W.JUMP_TARGET w, checks := [⟨3, r.addr⟩] }
      else if o = 3 ∨ o = 4 then { k.discard with fetchOn := false, fetchAddr := (r.addr + 2) % 262144 }
      else k

/-! ## Dispatch (R229 to R231, R258, R259) -/

/-- An extension whose fields fail no check, for a lead of an opcode that has none behind it. -/
def noExt (w : Nat) : Nat := if W.OPCODE w = 0x31 then 2 ^ 185 else 0

/-- R231, R292: the reason for which the SEQ head is rejected: 0 none. A lead is checked together with its extension; of a lead that is
followed by none, the lead alone, and its place. -/
def State.headReason (s : State) (q c : Nat) (e : QEntry) : Nat :=
  let k := s.core c
  if k.extBad e then
    let r := s.wordReason q c e.pre e.lead (noExt e.lead)
    lowest [(true, 7), (r != 0, r)]
  else s.wordReason q c e.pre e.lead ((k.behind e).map (·.lead) |>.getD 0)

/-- Reject the SEQ head. -/
def State.rejectHead (s : State) (q c : Nat) (e : QEntry) (reason : Nat) : State :=
  s.reject q c reason (W.QUEUE e.lead) (W.OPCODE e.lead) e.addr

/-- Move the SEQ head, with its extension, to its queue: it may issue from the next cycle, a long word from the one after. The extension
leaves the SEQ head in the next cycle and counts in the SEQ fill until then (R258). -/
def State.moveHead (s : State) (c lc : Nat) (e : QEntry) : State :=
  s.modCore c fun k =>
    let long := isLong e.lead
    let x := (k.behind e).map (·.lead) |>.getD 0
    let gone := if long then [e.id] ++ ((k.behind e).map (·.id)).toList else [e.id]
    let qc := W.QUEUE e.lead
    let k := { k with
      seq := k.seq.filter fun y => !gone.contains y.id
      held := if long then k.held ++ [(0, lc + 1)] else k.held
      lastIssue := SMap.put 0 k.lastIssue 0 (lc + 1 + (if long then 1 else 0)) }
    k.setQueue qc (k.queue qc ++
      [{ e with ext := if long then x else 0, avail := lc + 1 + (if long then 1 else 0), issued := 0, phase := 0, runs := [] }])

/-- The SEQ head that dispatch or execution acts on in this cycle. -/
def State.seqHead (s : State) (c lc : Nat) : Option QEntry :=
  let k := s.core c
  match k.head 0 with
  | none => none
  | some e => if e.avail ≤ lc ∧ SMap.get 0 k.lastIssue 0 ≤ lc then some e else none

/-- DISPATCH of the SEQ head of core `c`: it waits for its extension and for its queue, and is checked as it leaves (R231, R258). -/
def State.dispatch (s : State) (q c lc : Nat) (e : QEntry) : State :=
  if (s.core c).extWait e || (s.core c).queueFull e lc then s
  else
    let r := s.headReason q c e
    if r ≠ 0 then s.rejectHead q c e r
    else if W.QUEUE e.lead = 0 then s
    else s.moveHead c lc e

/-! ## The rows -/

/-- The core is in a partition that runs a cycle: the partition and the cycle. -/
def State.seqLive (s : State) (c : Nat) : Option (Nat × Nat) :=
  match s.liveQ c with
  | some q => some (q, (s.part q).lc)
  | none => none

/-- FETCH_REQUEST (R226). -/
def execFetchRequest (core : Nat) (s : State) : Res :=
  match s.seqLive core with
  | some (_, lc) => if (s.core core).mayFetch lc then done s (s.fetch core lc) else done s s
  | none => done s s

/-- FETCH_INSPECT (R227). -/
def execFetchInspect (core : Nat) (s : State) : Res :=
  match s.seqLive core, (s.core core).inflight with
  | some (q, lc), r :: _ => if r.arr ≤ lc then done s (s.inspect q core lc r) else done s s
  | _, _ => done s s

/-- DISPATCH (R229 to R231). -/
def execDispatch (core : Nat) (s : State) : Res :=
  match s.seqLive core with
  | some (q, lc) =>
    match s.seqHead core lc with
    | some e => done s (s.dispatch q core lc e)
    | none => done s s
  | none => done s s

/-- A word of the SEQ queue executes: a word that fails a check is rejected; one that issues completes from the next
cycle on. -/
def State.execSeqWord (s : State) (c op : Nat) : State :=
  match s.seqLive c with
  | none => s
  | some (q, lc) =>
    match s.seqHead c lc with
    | none => s
    | some e =>
      if W.QUEUE e.lead = 0 ∧ W.OPCODE e.lead = op then
        let r := s.headReason q c e
        if r ≠ 0 then s.rejectHead q c e r
        else match s.issueOp c 0 op with
          | some i => i.s.endRun c 0 i.e (i.lc + 1)
          | none => s
      else s

/-- NOP (R233), in any queue. -/
def execNop (core queue : Nat) (s : State) : Res :=
  if queue = 0 then done s (s.execSeqWord core 0)
  else
    match s.issueOp core (min queue 4) 0 with
    | some i => done s (i.s.endRun core (min queue 4) i.e (i.lc + 1))
    | none => done s s

/-- LOOP (R234): its loop was pushed at inspection. -/
def execLoop (core : Nat) (s : State) : Res := done s (s.execSeqWord core 1)

/-- JUMP (R235): fetch was redirected at inspection. -/
def execJump (core : Nat) (s : State) : Res := done s (s.execSeqWord core 2)

/-- BEATEND (R236). -/
def execBeatend (core : Nat) (s : State) : Res := done s (s.execSeqWord core 3)

/-- HALT (R237). -/
def execHalt (core : Nat) (s : State) : Res := done s (s.execSeqWord core 4)

/-- PEER_SIGNAL (R243): the oldest PEER signal of a core that is due reaches the shared counter it names. -/
def execPeerSignal (core : Nat) (s : State) : Res :=
  match s.liveQ core with
  | none => done s s
  | some q =>
    let lc := (s.part q).lc
    match (s.core core).sigs.find? fun g => !g.toCluster && decide (g.due ≤ lc) with
    | none => done s s
    | some g =>
      let t := s.modCore core fun k => { k with sigs := k.sigs.erase g }
      done s (t.syncAdd g.core g.ctr g.inc)

/-- CLUSTER_SIGNAL (R243): the oldest CLUSTER signal of a core that is due reaches every enabled core of its cluster. -/
def execClusterSignal (core : Nat) (s : State) : Res :=
  match s.liveQ core with
  | none => done s s
  | some q =>
    let lc := (s.part q).lc
    match (s.core core).sigs.find? fun g => g.toCluster && decide (g.due ≤ lc) with
    | none => done s s
    | some g =>
      let t := s.modCore core fun k => { k with sigs := k.sigs.erase g }
      done s ((s.clusterCores (core / 8)).foldl (fun u c => u.syncAdd c g.ctr g.inc) t)

end Sys2Proof.Machine
end

