-- ==== Sys2Proof/Machine/Mat.lean ====
section
/-! DEFINITION. The matrix arrays (02_numerics.md R53 to R73, 03_matrix_arrays.md): LOADW, MMUL and their completions. -/

namespace Sys2Proof.Machine

/-! ## Operands -/

/-- Table 2.3: the pieces of a significand, high first. -/
def sigPiece (f : Fmt) (part m : Nat) : Nat :=
  match f, part with
  | .bf16, 0 => m / 4
  | .bf16, _ => m % 4
  | .fp16, 0 => m / 32
  | .fp16, _ => m % 32
  | .fp32, 0 => m / 65536
  | .fp32, 1 => m / 256 % 256
  | .fp32, _ => m % 256
  | _, _ => m

/-- Table 2.3: the weight of a part, as a power of two. -/
def partExp (f : Fmt) (part : Nat) : Int :=
  match f, part with
  | .bf16, 0 => 2
  | .fp16, 0 => 5
  | .int16, 0 => 8
  | .fp32, 0 => 16
  | .fp32, 1 => 8
  | _, _ => 0

/-- An operand of one pass: the whole element (R73) and the part of it that the pass multiplies. -/
structure Opnd where
  whole : Num
  part : Num
  deriving DecidableEq, Repr

/-- Table 2.3: part `part` of an element, weighted as part `wpart` (R91). -/
def splitElem (f : Fmt) (z : Int) (raw part wpart : Nat) : Opnd :=
  if f.isInt then
    let v := decodeInt f raw - z
    if f = .int16 then
      let v := decodeInt f raw
      let p : Int := if part = 0 then v.fdiv 256 else v.fmod 256
      ⟨.ofInt v, (Num.ofInt p).scale2 (partExp f wpart)⟩
    else ⟨.ofInt v, .ofInt v⟩
  else
    match decodeFp f raw with
    | .fin s m e => ⟨.fin s m e, .fin s (sigPiece f part m) (e + partExp f wpart)⟩
    | x => ⟨x, x⟩

/-- R47: an operand under a block scale. -/
def Opnd.scaled (o : Opnd) (sb : Nat) : Opnd :=
  if sb = 255 then ⟨.nan, .nan⟩
  else let k : Int := Int.ofNat sb - 127; ⟨o.whole.scale2 k, o.part.scale2 k⟩

/-- R73: a zero product with the sign of its two elements. -/
def zeroSign (neg : Bool) (p : Num) : Num := if p.isZero then .fin neg 0 0 else p

/-- R73, Table 2.7: the exact product of a pass, its row chosen from the whole elements; a part product that is zero takes its sign from
them too. -/
def Opnd.mul (a b : Opnd) : Num :=
  if a.whole.isFin && b.whole.isFin then zeroSign (a.whole.sign != b.whole.sign) (a.part.mul b.part) else a.whole.mul b.whole

/-- R57: a sum rounded to nearest even at 8 significand bits. -/
def round8 : Num → Num
  | .fin s m e => let r := roundMag false 8 (-100000) m e; .fin s r.1 r.2
  | x => x

/-! ## Tiles -/

/-- The depth of a tile (Table 3.1). -/
def tileDepth (f : Fmt) : Nat := if f.is4 then 128 else 64

/-- R91: an MMUL that names format `f` finds bits whose place the spec states: those of the LOADW's own format, of another of its width up
to 8 bits, and of an 8-bit or 4-bit format in a tile of the other, since a column takes 64 bytes in both (R46, R85). -/
def Tile.sameLayout (t : Tile) (f : Fmt) (gauss : Bool) : Bool :=
  match Fmt.ofCode t.fmt with
  | some g =>
    t.gauss == gauss &&
      (g == f || (!gauss && decide (g.bits ≤ 8 ∧ f.bits ≤ 8) && (decide (g.bits = f.bits) || (g.bits != 6 && f.bits != 6))))
  | none => false

/-- `n` bytes of a tile from byte `o` on. -/
def Tile.bytes (t : Tile) (o n : Nat) : Nat := ofBytes ((List.range n).map fun i => SMap.get 0 t.data (o + i))

/-- The bits of element `i` of a tile of `w`-bit elements (R46). -/
def Tile.elem (t : Tile) (w i : Nat) : Nat := t.bytes (i * w / 8) ((i * w % 8 + w + 7) / 8) / 2 ^ (i * w % 8) % 2 ^ w

/-- R91: the raw bits of cell (k, n) of a tile, read in format `f`; of a Gauss tile both elements, the real one below. A tile of all-zero bits
reads zeros in every format; where the spec states no place for the bits they are free (log 8). -/
def Tile.raw (t : Tile) (f : Fmt) (gauss : Bool) (k n : Nat) : Nat :=
  let w := if gauss then 16 else f.bits
  if t.data.isEmpty then 0
  else if t.sameLayout f gauss then
    if gauss then t.elem 8 (n * 64 + k) + 256 * t.elem 8 (4096 + n * 64 + k) else t.elem w (n * tileDepth f + k)
  else
    Config.tileBits (t.fmt * 2 + (if t.gauss then 1 else 0)) (w * 16 + t.part) (n * 128 + k) (t.bytes 0 16384) % 2 ^ w

/-- The weight operand of cell (k, n) in a phase. -/
def Tile.operand (t : Tile) (w phase k n : Nat) (f : Fmt) : Opnd :=
  let gauss := W.MMUL_GAUSS w == 1
  let raw := t.raw f gauss k n
  let o : Opnd :=
    if gauss then
      let c := decodeFp f (raw % 256)
      let d := decodeFp f (raw / 256)
      let v := match t.part with | 0 => c | 1 => round8 (d.sub c) | _ => round8 (c.add d)
      ⟨v, v⟩
    else if W.MMUL_CPLX w = 1 then splitElem f 0 raw 0 0
    else splitElem f (zpVal f (W.MMUL_ZW w)) raw t.part phase
  if W.MMUL_WSCL w = 1 then
    o.scaled (SMap.get 0 t.scales (n * (tileDepth f / 32) + k / 32)).toNat
  else o

/-! ## LOADW -/

/-- Table 3.1: bytes of a tile part and the cycles of its load. -/
def loadSize (f : Fmt) (cplx gauss : Bool) : Nat × Nat :=
  if cplx && gauss then (8192, 128)
  else match f with
    | .e2m3 | .e3m2 => (3072, 48)
    | .bf16 | .fp16 | .int16 => (8192, 128)
    | .fp32 => (16384, 256)
    | _ => (4096, 64)

/-- Bytes put into a tile by their offsets. -/
def putTile (m : SMap Byte) (o : Nat) (bs : List Byte) : SMap Byte :=
  ((List.range bs.length).zip bs).foldl (fun m p => SMap.put 0 m (o + p.1) p.2) m

/-- The scale bytes of a tile of format `f` that travel in cycle `j` of a load of `n` cycles (R86): each beside its column. -/
def scaleSpan (f : Fmt) (n j : Nat) : Nat × Nat :=
  let all := 64 * (tileDepth f / 32)
  let lo := (j * all + n - 1) / n
  (lo, ((j + 1) * all + n - 1) / n - lo)

/-- R85, R86, R90: what the port reads for array `a` in cycle `j` of a load, as weight staging then stands. -/
def State.loadStep (s : State) (q c w a j : Nat) (f : Fmt) : State :=
  let z := loadSize f (W.LOADW_CPLX w == 1) (W.LOADW_GAUSS w == 1)
  let r := s.readBuf c 2 (16 * W.LOADW_SBASE w + a * z.1 + 64 * j) 64
  let sp := scaleSpan f z.2 j
  let rs := if W.LOADW_WSCL w = 1 then r.1.readBuf c 2 (W.LOADW_SSBASE w + a * 64 * (tileDepth f / 32) + sp.1) sp.2
    else (r.1, List.replicate sp.2 (0x7F : Byte), false)
  let t := rs.1.modCore c fun k =>
    let r' := k.arr a
    k.setArr a { r' with shadow := { r'.shadow with
      data := putTile r'.shadow.data (64 * j) r.2.1, scales := putTile r'.shadow.scales sp.1 rs.2.1 } }
  if r.2.2 || rs.2.2 then t.jobFault q caMEMORY stFAULTED c 0 else t

/-- R90: the cycle `lc` of the loads of a core. -/
def State.loadCycle (s : State) (q c lc : Nat) : State :=
  let s := (s.core c).loads.foldl (fun t r =>
    match Fmt.ofCode (W.LOADW_WFMT r.w) with
    | some f =>
      if r.start ≤ lc ∧ lc < r.start + r.n then
        (arraysOf (W.LOADW_ARRAYS r.w)).foldl (fun u a => u.loadStep q c r.w a (lc - r.start) f) t
      else t
    | none => t) s
  if (s.core c).loads.isEmpty then s
  else s.modCore c fun k => { k with loads := k.loads.filter fun r => decide (lc + 1 < r.start + r.n) }

/-- R86, R87: LOADW of a core at cycle `lc`: the shadow tiles it names are filled from here on. -/
def State.loadw (s : State) (c lc : Nat) (e : QEntry) : State :=
  let w := e.lead
  match Fmt.ofCode (W.LOADW_WFMT w) with
  | none => s
  | some f =>
    let n := (loadSize f (W.LOADW_CPLX w == 1) (W.LOADW_GAUSS w == 1)).2
    let tile : Tile := ⟨W.LOADW_WFMT w, W.LOADW_PART w, W.LOADW_CPLX w == 1, W.LOADW_GAUSS w == 1, [], []⟩
    (s.modCore c fun k =>
      { (arraysOf (W.LOADW_ARRAYS w)).foldl (fun (k : Core) a =>
          k.setArr a { k.arr a with shadow := tile, sstate := .loading, readyAt := lc + n, fresh := true }) k with
        wport := lc + n, loads := k.loads ++ [⟨w, lc, n⟩] }).endRun c 1 e (lc + n + 1)

/-! ## MMUL -/

/-- One pass of a phase: which activation part (0 high or a, 1, 2 low; for complex 0 a, 1 b, 2 t), and its targets: imaginary
rows or real rows, negated, and whether this pass is the first of the word to write them. -/
structure Pass where
  apart : Nat
  tgts : List (Bool × Bool × Bool)
  deriving DecidableEq, Repr

/-- R54 to R57, R98: the passes of a phase. -/
def passesOf (w phase : Nat) (a : Fmt) : List Pass :=
  if W.MMUL_CPLX w = 1 then
    if W.MMUL_GAUSS w = 1 then
      match phase with
      | 0 => [⟨2, [(false, false, true), (true, false, true)]⟩]
      | 1 => [⟨0, [(true, false, false)]⟩]
      | _ => [⟨1, [(false, true, false)]⟩]
    else
      match phase with
      | 0 => [⟨0, [(false, false, true)]⟩]
      | 1 => [⟨0, [(true, false, true)]⟩, ⟨1, [(false, true, false)]⟩]
      | _ => [⟨1, [(true, false, false)]⟩]
  else
    let n := if W.MMUL_FAST w = 1 ∧ phase = 1 then 1 else actParts a
    (List.range n).map fun p => ⟨p, [(false, false, decide (phase = 0 ∧ p = 0))]⟩

/-- The passes of a whole word. -/
def passCount (w : Nat) (a : Fmt) : Nat := ((List.range (mmulPhases w)).map fun p => (passesOf w p a).length).sum

/-- The activation operand `k` of a row in a pass. -/
def actOperand (w : Nat) (f : Fmt) (row scales : List Byte) (apart k : Nat) : Opnd :=
  let o : Opnd :=
    if W.MMUL_CPLX w = 1 then
      let a := decodeFp f (elemAt 8 row (2 * k))
      let b := decodeFp f (elemAt 8 row (2 * k + 1))
      let v := match apart with | 0 => a | 1 => b | _ => round8 (a.add b)
      ⟨v, v⟩
    else splitElem f (zpVal f (W.MMUL_ZA w)) (elemAt f.bits row k) apart apart
  if W.MMUL_ASCL w = 1 then o.scaled (scales.getD (k / 32) 0).toNat else o

/-- R61: a tree of adjacent pairs over `2^levels` values. -/
def treeSum {α : Type} (add : α → α → α) (d : α) : Nat → List α → α
  | 0, xs => xs.headD d
  | n + 1, xs => add (treeSum add d n (xs.take (2 ^ n))) (treeSum add d n (xs.drop (2 ^ n)))

/-- R94: the three classes of accumulation. -/
inductive AccClass where | fp | int | exact
  deriving DecidableEq, Repr

/-- Table 3.2: the class of an MMUL. -/
def accClass (exact : Bool) (w : Nat) (a : Fmt) : AccClass :=
  if exact then .exact else if a.isInt ∧ W.MMUL_ASCL w = 0 ∧ W.MMUL_WSCL w = 0 then .int else .fp

/-- The sum of two integer accumulator values, saturated at 32 bits, and whether it saturated (R63). -/
def satAdd32 (x y : Int) : Int × Bool :=
  let z := x + y
  let v := max (-2147483648) (min 2147483647 z)
  (v, decide (v ≠ z))

/-- An exact value of the tree with its count of saturations. -/
def exTree (x y : Ex × Nat) : Ex × Nat :=
  let r := exAdd x.1 y.1
  (r.1, x.2 + y.2 + (if r.2 then 1 else 0))

/-- R60 to R68, R105: the tree sum of one column of one row-pass. An integer sum is exact (R63). -/
def passSum (cls : AccClass) (anchor : Int) (levels : Nat) (ps : List Num) : PassSum :=
  match cls with
  | .fp => .fp (treeSum addFp32 0 levels (ps.map toFp32))
  | .int => .int (ps.foldl (fun (v : Int) p => v + roundInt true p) 0)
  | .exact =>
    let cv (p : Num) : Ex × Nat := let r := exOfNum anchor p; (r.1, if r.2 then 1 else 0)
    let t := treeSum exTree (.fin 0, 0) levels (ps.map cv)
    .ex t.1 t.2

/-- R62, R63, R66, R105: an accumulator entry after a tree sum is written over it or added to it, and how many saturations that made. DESIGN
CHOICE (log 60): an overwriting integer sum beyond 32 bits saturates and counts as an addition to 0 does. -/
def PassSum.into (t : PassSum) (first : Bool) (old : BitVec 192) : BitVec 192 × Nat :=
  match t with
  | .fp v => (BitVec.ofNat 192 (if first then v else addFp32 (old.toNat % 2 ^ 32) v), 0)
  | .int v =>
    let r := satAdd32 (if first then 0 else decodeInt .int32 (old.toNat % 2 ^ 32)) v
    (BitVec.ofNat 192 (encodeInt 32 r.1), if r.2 then 1 else 0)
  | .ex v n =>
    if first then (BitVec.ofNat 192 (exToBits v + (if n > 0 then 2 ^ 160 else 0)), n)
    else
      let r := exAdd (exOfBits (old.toNat % 2 ^ 160)) v
      let n := n + (if r.2 then 1 else 0)
      let sat := decide (n > 0) || old.getLsbD 160
      (BitVec.ofNat 192 (exToBits r.1 + (if sat then 2 ^ 160 else 0)), n)

/-- One column of one row-pass: the entry after the pass, and how many saturations it made. -/
def passEntry (cls : AccClass) (anchor : Int) (levels : Nat) (first : Bool) (old : BitVec 192) (ps : List Num) :
    BitVec 192 × Nat := (passSum cls anchor levels ps).into first old

/-- The words of the activation buffer that a row-pass reads: the row's, and those of its scale bytes (R93). -/
def rowWords (w : Nat) (a wf : Fmt) (rowByte sclByte : Nat) : List Nat :=
  let span (b n : Nat) : List Nat := (List.range ((b + n - 1) / 16 + 1 - b / 16)).map (b / 16 + ·)
  let r := span rowByte (rowBytes a wf (W.MMUL_CPLX w == 1))
  if W.MMUL_ASCL w = 1 then r ++ (span sclByte (rowScales a wf)).filter (fun x => !r.contains x) else r

/-- R92, Table 8.3: the byte where row `r` of run `j` begins, and the byte of its scales. -/
def rowStart (w j r : Nat) : Nat :=
  ((Int.ofNat (W.MMUL_ABASE w) + Int.ofNat j * W.MMUL_ASTEP w) % 4096).toNat * 16 + r * W.MMUL_ASTRIDE w * 16
def sclStart (w j r : Nat) (a wf : Fmt) : Nat :=
  ((Int.ofNat (W.MMUL_ASBASE w) + Int.ofNat j * W.MMUL_ASSTEP w) % 65536).toNat + r * rowScales a wf

/-- Bytes of the activation buffer out of the words captured for a row-pass. -/
def Core.grabBytes (k : Core) (key b n : Nat) : List Byte :=
  (List.range n).map fun i => BitVec.ofNat 8 (k.cap (groupKey key ((b + i) / 16)) / 2 ^ (8 * ((b + i) % 16)))

/-- The activation operands of a row-pass. DESIGN CHOICE (log 61): no field of a word gives the reduction length K of R50; every element that
a row and a tile hold lies within it. -/
def Core.rowOperands (k : Core) (key w j r : Nat) (a wf : Fmt) (apart levels : Nat) : List Opnd :=
  let row := k.grabBytes key (rowStart w j r) (rowBytes a wf (W.MMUL_CPLX w == 1))
  let scl := if W.MMUL_ASCL w = 1 then k.grabBytes key (sclStart w j r a wf) (rowScales a wf) else []
  (List.range (2 ^ levels)).map (actOperand w a row scl apart)

/-- The products of column `n` of a tile. -/
def colProducts (tile : Tile) (w phase : Nat) (wf : Fmt) (acts : List Opnd) (n : Nat) : List Num :=
  (List.range acts.length).map fun k => (acts.getD k ⟨.zero, .zero⟩).mul (tile.operand w phase k n wf)

/-- An accumulator row of an array takes the sums of a row-pass; answers the array and the saturations. -/
def Arr.addRow (arr : Arr) (first : Bool) (line : Nat) (sums : List PassSum) : Arr × Nat :=
  let cols := (List.range 64).map fun n => (sums.getD n (.fp 0)).into first (SMap.get 0 arr.acc (line * 64 + n))
  ({ arr with
      acc := (List.range 64).foldl (fun mp n => SMap.put 0 mp (line * 64 + n) (cols.getD n (0, 0)).1) arr.acc
      accInt := SMap.put false arr.accInt line (match sums with | .int _ :: _ => true | _ => false) }, (cols.map (·.2)).sum)

/-- Record saturations of a core (R63, R66, R105). -/
def State.noteSat (s : State) (c : Nat) (exact : Bool) (n : Nat) : State :=
  if n = 0 then s
  else (s.hwSet (if exact then F.CORECTL_NUMSTAT_XSAT else F.CORECTL_NUMSTAT_ISAT) c 1).addFld F.CORECTL_NUMSTAT_SATCNT c n

/-- An accumulator write due (R99) takes place. -/
def State.accWrite (s : State) (c : Nat) (a : AccW) : State :=
  let r := ((s.core c).arr a.arr).addRow a.first a.line a.sums
  (s.modCore c fun k => k.setArr a.arr r.1).noteSat c (match a.sums with | .ex _ _ :: _ => true | _ => false) r.2

/-- The accumulator writes of a core in cycle `lc`. -/
def State.accCycle (s : State) (c lc : Nat) : State :=
  if (s.core c).accw.isEmpty then s
  else
    let due := (s.core c).accw.filter fun a => decide (a.cc ≤ lc)
    due.foldl (fun t a => t.accWrite c a) (s.modCore c fun k => { k with accw := k.accw.filter fun a => decide (lc < a.cc) })

/-- What array `ai` does in a row-pass: the tree sums for each target row, written `lat` cycles after the pass. -/
def Core.arrayPass (k : Core) (ai w phase row0 landAt : Nat) (cls : AccClass) (wf : Fmt) (levels : Nat) (acts : List Opnd) (p : Pass) :
    List AccW :=
  let prods := (List.range 64).map (colProducts (k.arr ai).live w phase wf acts)
  p.tgts.map fun tg =>
    ⟨landAt, ai, if tg.1 then row0 + W.MMUL_MROWS w + 1 else row0, tg.2.2 && W.MMUL_OVW w == 1,
      prods.map fun ps => passSum cls (W.MMUL_ANCHOR w) levels (if tg.2.1 then ps.map Num.neg else ps)⟩

/-- The real accumulator row of activation row `r` of run `j`. -/
def accRow0 (w j r : Nat) : Nat := addrN (Int.ofNat (W.MMUL_ACCROW w) + Int.ofNat j * W.MMUL_ACCSTEP w) + r

/-- A row-pass takes place (R93, R98): the row as captured, the live tiles as they stand. -/
def Core.runRow (k : Core) (exact : Bool) (r : RowRun) : Core :=
  match Fmt.ofCode (W.MMUL_AFMT r.w), Fmt.ofCode (W.MMUL_WFMT r.w) with
  | some a, some wf =>
    let p := (passesOf r.w r.phase a).getD r.pass ⟨0, []⟩
    let levels := if twoPer a wf then 7 else 6
    let acts := k.rowOperands r.key r.w r.run r.r a wf p.apart levels
    let ws := (arraysOf (W.MMUL_ARRAYS r.w)).flatMap fun ai =>
      k.arrayPass ai r.w r.phase (accRow0 r.w r.run r.r) (r.t + r.lat) (accClass exact r.w a) wf levels acts p
    { k.dropGroup r.key with accw := k.accw ++ ws }
  | _, _ => k

/-- The row-passes of a core in cycle `lc`. -/
def State.rowCycle (s : State) (q c lc : Nat) : State :=
  if (s.core c).rows.isEmpty then s
  else s.modCore c fun k =>
    (k.rows.filter fun r => decide (r.t ≤ lc)).foldl (fun k r => k.runRow (s.exact q) r)
      { k with rows := k.rows.filter fun r => decide (lc < r.t) }

/-- R100: the rows whose last writes hold back a row-pass of activation row with real row `row0`. -/
def guardRows (w phase row0 : Nat) (p : Pass) : List Nat :=
  let im := row0 + W.MMUL_MROWS w + 1
  if W.MMUL_CPLX w = 1 ∧ phase > 0 then [row0, im] else p.tgts.map fun t => if t.1 then im else row0

/-- What runs through the row-passes of a phase as they are planned: the core, the next free cycle, the last accumulator write. -/
structure PassAcc where
  k : Core
  next : Nat
  wrote : Nat

/-- One row-pass is planned: row `r` of pass `pi` of run `j` in a phase (R93, R98 to R100): the cycles lost to R100 are counted as they pass. -/
def planRow (exact : Bool) (w j phase lat pi : Nat) (p : Pass) (r : Nat) (acc : PassAcc) : PassAcc :=
  let arrs := arraysOf (W.MMUL_ARRAYS w)
  let row0 := accRow0 w j r
  let held := (guardRows w phase row0 p).foldl (fun x y => max x (acc.k.rowFree arrs y)) 0
  let t := max acc.next held
  let lines := p.tgts.map fun tg => if tg.1 then row0 + W.MMUL_MROWS w + 1 else row0
  let k := arrs.foldl (fun (k : Core) ai =>
    k.setArr ai { k.arr ai with accAt := lines.foldl (fun m l => SMap.put 0 m l (t + lat)) (k.arr ai).accAt }) acc.k
  ⟨{ k.nextGroup with
      rows := k.rows ++ [⟨t, lat, w, j, phase, pi, r, k.nextKey⟩]
      spaces := if acc.next < t then k.spaces ++ [(acc.next, t)] else k.spaces },
    t + (if exact then 2 else 1), max acc.wrote (t + lat)⟩

/-- The rows of one pass, in order. -/
def planPass (exact : Bool) (w j phase lat pi : Nat) (p : Pass) (acc : PassAcc) : PassAcc :=
  (List.range (W.MMUL_MROWS w + 1)).foldl (fun acc r => planRow exact w j phase lat pi p r acc) acc

/-- The reads of a row-pass (R93), bank cycle 2 cc before it. -/
def RowRun.reads (r : RowRun) (c : Nat) : List Plan :=
  match Fmt.ofCode (W.MMUL_AFMT r.w), Fmt.ofCode (W.MMUL_WFMT r.w) with
  | some a, some wf =>
    (rowWords r.w a wf (rowStart r.w r.run r.r) (sclStart r.w r.run r.r a wf)).map fun o =>
      { cc := r.t - 2, rank := rkMat, core := c, unit := 1, word := o, act := .read (groupKey r.key o) }
  | _, _ => []

/-- A read whose bank cycle lies before cycle `lc` finds the word as it stood then (R183); the others are planned. -/
def State.askRow (s : State) (q c lc : Nat) (p : Plan) : State :=
  if lc ≤ p.cc then s.planFor c [p]
  else
    let r := s.portRead (p.access q c)
    match p.act with
    | .read key => r.1.modCore c fun k => k.capture key (k.past p.cc p.word (ofBytes r.2))
    | _ => r.1

/-- R99: the latency of a pass: its number within the word counted from 0, of `n` passes. -/
def passLat (exact : Bool) (two : Bool) (i n : Nat) : Nat :=
  (if two || (decide (n > 1) && decide (i + 1 = n)) then 76 else 72) + (if exact then 8 else 0)

/-- R87, R88: swap the arrays of a mask; `left` swaps of the word are still to come. A LOADW that waited for the swap may start in the next
cycle (R89). -/
def Core.swap (k : Core) (mask left lc : Nat) : Core :=
  (arraysOf mask).foldl (fun k a =>
    let r := k.arr a
    k.setArr a { r with live := r.shadow, shadow := r.live, sstate := .ready, readyAt := if r.fresh then lc + 1 else 0, fresh := false, swaps := left }) k

/-- The record of an MMUL whose phase `e.phase` of `n` ends with its last write at `wrote`. -/
def State.endPhase (s : State) (c n wrote : Nat) (e : QEntry) : State :=
  if n = 1 then s.endRun c 1 e (wrote + 1)
  else if e.phase = 0 then (s.endRun c 1 e notYet).modCore c fun k => k.modEntry 1 e.id fun x => { x with phase := 1 }
  else s.modCore c fun k => k.modEntry 1 e.id fun x =>
    if e.phase + 1 < n then { x with phase := e.phase + 1 } else { x.setDue (wrote + 1) with phase := 0 }

/-- MMUL: the next weight-part phase of an MMUL (R88, R98 to R102): its row-passes are planned, and run in their cycles. -/
def State.mmulPhase (s : State) (q c lc : Nat) (e : QEntry) : State :=
  let w := e.lead
  match Fmt.ofCode (W.MMUL_AFMT w), Fmt.ofCode (W.MMUL_WFMT w) with
  | some a, some wf =>
    let n := mmulPhases w
    let left := n - 1 - e.phase
    let mask := W.MMUL_ARRAYS w
    let s := s.modCore c fun k =>
      if mmulSwaps w e.phase then k.swap mask left lc
      else (arraysOf mask).foldl (fun k i => k.setArr i { k.arr i with swaps := left }) k
    let before := ((List.range e.phase).map fun p => (passesOf w p a).length).sum
    let total := passCount w a
    let exact := s.exact q
    let ps := passesOf w e.phase a
    let k := s.core c
    let r := (List.range ps.length).foldl (fun acc i =>
      planPass exact w e.runNo e.phase (passLat exact (twoPer a wf) (before + i) total) i (ps.getD i ⟨0, []⟩) acc)
      (⟨k, lc, 0⟩ : PassAcc)
    let new := r.k.rows.drop k.rows.length
    let s := s.setCore c { r.k with matFree := r.next }
    let s := (new.flatMap fun x => x.reads c).foldl (fun t p => t.askRow q c lc p) s
    s.endPhase c n r.wrote e
  | _, _ => s

/-- LOADW (R86). -/
def execLoadw (core : Nat) (s : State) : Res :=
  match s.issueOp core 1 0x10 with
  | some i => done s (i.s.loadw core i.lc i.e)
  | none => done s s

/-- LOADW_COMPLETE (R102). -/
def execLoadwComplete (core : Nat) (s : State) : Res := done s (s.completeBy core 1 [0x10])

/-- A later phase of an issued MMUL may begin: the partition and the cycle. -/
def State.phaseDue (s : State) (c : Nat) : Option (Nat × Nat × QEntry) :=
  match s.liveQ c, (s.core c).pendMat with
  | some q, some e =>
    let lc := (s.part q).lc
    let k := s.core c
    if k.matFree ≤ lc ∧ !k.swapHeld e lc ∧ !k.spaceHeld e lc then some (q, lc, e) else none
  | _, _ => none

/-- MMUL (R98): a phase due of the MMUL in progress, or the issue of the head. -/
def State.mmulRow (s : State) (c : Nat) : State :=
  match s.phaseDue c with
  | some (q, lc, e) => s.mmulPhase q c lc e
  | none =>
    match s.issueOp c 1 0x11 with
    | some i => i.s.mmulPhase i.q c i.lc i.e
    | none => s

/-- MMUL. -/
def execMmul (core : Nat) (s : State) : Res := done s (s.mmulRow core)

/-- MMUL_COMPLETE (R102). -/
def execMmulComplete (core : Nat) (s : State) : Res := done s (s.completeBy core 1 [0x11])

end Sys2Proof.Machine
end

