-- ==== Sys2Proof/Machine/Chain.lean ====
section
/-! DEFINITION. The chain engine (04_chain_engine.md): SETK, CHAIN and CHAIN_COMPLETE. -/

namespace Sys2Proof.Machine

/-! ## FP32 operations with their compatibility flags (R80, R127, R128) -/

/-- A value and the flags of forming it. -/
abbrev Fv := Nat × CvFlags

/-- R44: an FP32 word as the engine carries it: every NaN canonical. -/
def canon32 (w : Nat) : Nat := if (fp32 w).isNan then 0x7FC00000 else w % 2 ^ 32

/-- Round an exact result to FP32; a NaN from operands none of which is NaN sets INV (Table 2.10). -/
def rnd32 (anyNan : Bool) (x : Num) : Fv :=
  let r := toFp .fp32 false true x
  (r.1, if x.isNan && !anyNan then { r.2 with inv := true } else r.2)

def fAdd (a b : Nat) : Fv := let x := fp32 a; let y := fp32 b; rnd32 (x.isNan || y.isNan) (x.add y)
def fSub (a b : Nat) : Fv := let x := fp32 a; let y := fp32 b; rnd32 (x.isNan || y.isNan) (x.sub y)
def fMul (a b : Nat) : Fv := let x := fp32 a; let y := fp32 b; rnd32 (x.isNan || y.isNan) (x.mul y)
/-- Table 4.4: a × x + b with one rounding. -/
def fFma (a x b : Nat) : Fv :=
  let a := fp32 a
  let x := fp32 x
  let b := fp32 b
  rnd32 (a.isNan || x.isNan || b.isNan) ((a.mul x).add b)

/-- R128: MAX and MIN; -0 is less than +0. -/
def fMax (a b : Nat) : Nat :=
  let x := fp32 a
  let y := fp32 b
  if x.isNan || y.isNan then 0x7FC00000
  else if x.isZero && y.isZero then (if x.sign then b else a)
  else if x.lt y then b else a
def fMin (a b : Nat) : Nat :=
  let x := fp32 a
  let y := fp32 b
  if x.isNan || y.isNan then 0x7FC00000
  else if x.isZero && y.isZero then (if x.sign then a else b)
  else if y.lt x then b else a

/-- A function of stage 4 with its flags. -/
def fFun (f a : Nat) : Fv := (chainFn f a, chainFnFlags f a)

/-- R113: a modifier of a scalar reference. -/
def scalarMod (m v : Nat) : Fv :=
  match m with
  | 1 => (canon32 (if (fp32 v).isNan then v else if v ≥ 2 ^ 31 then v - 2 ^ 31 else v + 2 ^ 31), {})
  | 2 => fFun 2 v
  | _ => (canon32 v, {})

/-! ## Lanes -/

/-- A chain scalar. -/
def Core.k (k : Core) (i : Nat) : Nat := (SMap.get (0 : BitVec 32) k.ks (i % 16)).toNat
def Core.setK (k : Core) (i v : Nat) : Core := { k with ks := SMap.put (0 : BitVec 32) k.ks (i % 16) (BitVec.ofNat 32 v) }

/-- R113: the latched scalars of run `j`. -/
def Core.latch (k : Core) (w x j : Nat) : Latched :=
  let useA := stageOn w 2 && (W.CHAIN_AMODE w == 1 || W.CHAIN_AMODE w == 3)
  let useB := stageOn w 2 && W.CHAIN_BMODE w == 1
  let a : Fv := if useA then scalarMod (W.CHAIN_AMOD w) (k.k (W.CHAIN_ASCALAR w)) else (0x3F800000, {})
  let b : Fv := if useB then scalarMod (W.CHAIN_BMOD w) (k.k (W.CHAIN_BSCALAR w)) else (0x80000000, {})
  let r := addrN (chRaddr x j)
  ⟨a.1, b.1, k.k (W.CHAIN_SELK w), k.k (W.CHAIN_SELV w), k.k (W.CHAIN_PADK w), k.k (addrN (chXaddr x j)),
    k.k r, k.k (r + 1), a.2.or b.2⟩

/-- The bits at a bit address in words read. -/
def wordBits (m : SMap Nat) (addr width : Nat) : Nat :=
  let o := addr / 128
  (SMap.get 0 m o + 2 ^ 128 * SMap.get 0 m (o + 1) + 2 ^ 256 * SMap.get 0 m (o + 2)) / 2 ^ (addr % 128) % 2 ^ width

/-- The words read for a vector, by stream (0 X, 1 scales, 2 Y, 3 scales, 4 a, 5 b). -/
abbrev VecData := SMap (SMap Nat)

/-- The words captured for vector `j` of a run. -/
def Core.vecData (k : Core) (key : Nat) (sts : List (Nat × Strm)) (j : Nat) : VecData :=
  sts.foldl (fun (m : VecData) t =>
    SMap.put [] m t.1 ((t.2.words.getD j []).foldl (fun (d : SMap Nat) o =>
      SMap.put 0 d o (k.cap (groupKey key ((j * 8 + t.1) * 2 ^ 20 + o)))) [])) []

/-- R126: stage 1 turns an element into FP32; only the formats of R47 and R49 take the block scales of a scaled stream. DESIGN CHOICE (log
75): a format that R51 gives no zero point takes z = 0, whatever the word's field holds. -/
def unpackElem (fmt zp : Nat) (scaled : Bool) (sb raw : Nat) : Fv :=
  match Fmt.ofCode fmt with
  | none => (0, {})
  | some f =>
    let v := elemVal f (zpVal f zp) raw
    let v := if scaled && f.scalable then (if sb = 255 then Num.nan else v.scale2 (Int.ofNat sb - 127)) else v
    toFp .fp32 false true v

/-- A lane of a memory stream, element `i`: under FP32 through stage 1 or as it lies, RAW as it lies, WIDE by Table 2.4. -/
def streamLane (w x : Nat) (d : VecData) (sid fmt zp scl i : Nat) : Fv × Ex :=
  let seg := chSeg w
  let b := chBits w fmt
  let raw := wordBits (SMap.get [] d sid) (elBit (W.CHAINX_XPITCH x) seg b i) b
  match W.CHAIN_KIND w with
  | 1 => ((raw, {}), .fin 0)
  | 2 => ((0, {}), exOfBits raw)
  | _ =>
    if stageOn w 1 then
      let sb := wordBits (SMap.get [] d (sid + 1)) (8 * scaleByte seg i) 8
      (unpackElem fmt zp (scl == 1) sb raw, .fin 0)
    else ((canon32 raw, {}), .fin 0)

/-- R116: a lane of the accumulators: entry `n` of a row, in the class that last wrote it. -/
def accLane (exact : Bool) (w : Nat) (isInt : Bool) (ent : BitVec 192) : Fv × Ex × Bool :=
  let e := ent.toNat
  if exact then
    let tag := ent.getLsbD 160
    let v := exOfBits e
    if W.CHAIN_KIND w = 2 then ((0, {}), v, tag)
    else
      let r := toFp (if W.CHAIN_XFMT w = 9 then .bf16 else .fp32) false true (exVal (W.CHAIN_ANCHOR w) v)
      ((if W.CHAIN_XFMT w = 9 then r.1 * 2 ^ 16 else r.1, r.2), .fin 0, tag)
  else if W.CHAIN_KIND w = 1 then ((e % 2 ^ 32, {}), .fin 0, false)
  else if isInt then (toFp .fp32 false true (.ofInt (decodeInt .int32 (e % 2 ^ 32))), .fin 0, false)
  else ((canon32 (e % 2 ^ 32), {}), .fin 0, false)

/-- Key offsets of the accumulator entries and classes captured for a vector. -/
def accSub (j l : Nat) : Nat := 2 ^ 39 + j * 64 + l
def accIntSub (j : Nat) : Nat := 2 ^ 39 + 2 ^ 38 + j

/-- R116: the array and row of vector `j` of run `run`. -/
def accOf (w x run j : Nat) : Nat × Nat :=
  let arrs := arraysOf (W.CHAIN_ARRAYS w)
  let n := max 1 arrs.length
  (arrs.getD (j % n) 0, addrN (chAccrow w x run) + j / n)

/-- R97: the accumulator row of vector `j` is read, before the writes of the cycle. -/
def Core.readAcc (k : Core) (r : ChRun) (j : Nat) : Core :=
  let p := accOf r.w r.x r.run j
  let a := k.arr p.1
  let k := (List.range 64).foldl (fun (k : Core) l => k.capture (groupKey r.key (accSub j l)) (SMap.get 0 a.acc (p.2 * 64 + l)).toNat) k
  k.capture (groupKey r.key (accIntSub j)) (if SMap.get false a.accInt p.2 then 1 else 0)

/-- R119: element `i` is masked at entry. -/
def entryMask (w i : Nat) : Bool :=
  decide (i ≥ chCount w) ||
    (W.CHAIN_EMASK w == 1 && decide (Int.ofNat (i % chSeg w) > Int.ofNat (i / chSeg w) + W.CHAIN_DIAG w))

/-- Lane `l` of the X stream of vector `j`; an accumulator row as it was captured under `key`. -/
def xLane (exact : Bool) (k : Core) (w x j : Nat) (lt : Latched) (key : Nat) (d : VecData) (l : Nat) :
    Lane × CvFlags :=
  let i := 64 * j + l
  let m0 := entryMask w i
  match W.CHAIN_XSRC w with
  | 1 =>
    let r := accLane exact w (k.cap (groupKey key (accIntSub j)) == 1) (BitVec.ofNat 192 (k.cap (groupKey key (accSub j l))))
    (⟨r.1.1, r.2.1, r.2.2, m0, false⟩, r.1.2)
  | 6 => (⟨canon32 lt.xk, .fin 0, false, m0, false⟩, {})
  | _ =>
    let r := streamLane w x d 0 (W.CHAIN_XFMT w) (W.CHAIN_XZP w) (W.CHAIN_XSCL w) i
    (⟨r.1.1, r.2, false, m0, false⟩, r.1.2)

/-- Element `i` of a vector operand (R126, R127). -/
def vopElem (w : Nat) (d : VecData) (sid i : Nat) : Nat :=
  let b := if W.CHAIN_VFMT w = 1 then 16 else 32
  let raw := wordBits (SMap.get [] d sid) (i % 2 ^ (W.CHAIN_VPERIOD w + 6) * b) b
  canon32 (if W.CHAIN_VFMT w = 1 then raw * 2 ^ 16 else raw)

/-- Stage 2 (R127). -/
def stage2 (w : Nat) (lt : Latched) (d : VecData) (i v : Nat) : Fv :=
  let a : Fv :=
    match W.CHAIN_AMODE w with
    | 2 => (vopElem w d 4 i, {})
    | 3 => fMul (vopElem w d 4 i) lt.a
    | _ => (lt.a, {})
  let b := if W.CHAIN_BMODE w = 2 then vopElem w d 5 i else lt.b
  let r := fFma a.1 v b
  (r.1, a.2.or r.2)

/-- The compatibility flags of an exact-mode addition (Table 2.10): a NaN made from no NaN, and a clamped sum. -/
def exFlags (a b : Ex) (r : Ex × Bool) : CvFlags := { inv := a != .nan && b != .nan && r.1 == .nan, inx := r.2, ofl := r.2 }

/-- Stage 3 (R128); the Bool says that an EXADD clamped. -/
def stage3 (w : Nat) (xl : Lane) (y : Nat) (yx : Ex) : Lane × CvFlags × Bool :=
  match W.CHAIN_COMB w with
  | 0 => let r := fAdd xl.v y; ({ xl with v := r.1 }, r.2, false)
  | 1 => let r := fSub xl.v y; ({ xl with v := r.1 }, r.2, false)
  | 2 => let r := fMul xl.v y; ({ xl with v := r.1 }, r.2, false)
  | 3 => ({ xl with v := fMax xl.v y }, {}, false)
  | 4 => ({ xl with v := fMin xl.v y }, {}, false)
  | _ => let r := exAdd xl.x yx; ({ xl with x := r.1, tag := xl.tag || r.2 }, exFlags xl.x yx r, r.2)

/-- Stages 1 to 4 of one lane: the lane with its Y value, the flags of an active lane, and a clamp. -/
def frontLane (exact : Bool) (k : Core) (w x j : Nat) (lt : Latched) (key : Nat) (d : VecData) (l : Nat) :
    (Lane × Nat × Ex) × CvFlags × Bool :=
  let i := 64 * j + l
  let r := xLane exact k w x j lt key d l
  if r.1.m0 then ((r.1, 0, .fin 0), {}, false)
  else
    let y : Fv × Ex :=
      if chYUsed w then streamLane w x d 2 (W.CHAIN_YFMT w) (W.CHAIN_YZP w) (W.CHAIN_YSCL w) i else ((0, {}), .fin 0)
    let s2 : Fv := if stageOn w 2 then stage2 w lt d i r.1.v else (r.1.v, {})
    let l2 : Lane := { r.1 with v := s2.1 }
    let s3 := if stageOn w 3 then stage3 w l2 y.1.1 y.2 else (l2, {}, false)
    let s4 : Fv := if stageOn w 4 then fFun (W.CHAIN_FUNC w) s3.1.v else (s3.1.v, {})
    (({ s3.1 with v := s4.1 }, y.1.1, y.2), ((r.2.or y.1.2).or (s2.2.or s3.2.1)).or s4.2, s3.2.2)

/-! ## Stage 5 (R132 to R136) -/

/-- A tree of adjacent pairs with flags. -/
def treeF (op : Nat → Nat → Fv) : Nat → List Nat → Fv
  | 0, xs => (xs.headD 0, {})
  | n + 1, xs =>
    let a := treeF op n (xs.take (2 ^ n))
    let b := treeF op n (xs.drop (2 ^ n))
    let r := op a.1 b.1
    (r.1, (a.2.or b.2).or r.2)

/-- The state of a reduction: the FP32 values (for SMAX m and s), the exact value, tag, saturations, flags. -/
structure Red where
  v : Nat
  t : Nat
  x : Ex
  tag : Bool
  sat : Nat
  flags : CvFlags
  deriving DecidableEq, Repr

/-- R133: values of a segment's part of a vector, a masked lane as the identity. -/
def redVals (ident : Nat) (ls : List Lane) : List Nat := ls.map fun l => if l.m0 then ident else l.v

/-- R134: one vector of SMAX. -/
def smaxStep (lv : Nat) (ls : List Lane) (r : Red) : Red :=
  let neg : Nat := 0xFF800000
  let mv := (treeF (fun a b => (fMax a b, {})) lv (redVals neg ls)).1
  let mn := fMax r.v mv
  let n := fp32 mn
  if n.isNan then { r with v := 0x7FC00000, t := 0x7FC00000 }
  else if mn = neg then { r with v := r.v, t := 0 }
  else if n.isInf then { r with v := mn, t := mn }
  else
    let es : List Fv := ls.map fun l =>
      if l.m0 then ((0, {}) : Fv)
      else let d := fSub l.v mn; let e := fFun 0 d.1; (e.1, d.2.or e.2)
    let tt := treeF fAdd lv (es.map (·.1))
    let d := fSub r.v mn
    let e := fFun 0 d.1
    let p := fMul r.t e.1
    let sm := fAdd p.1 tt.1
    let fl := es.foldl (fun (f : CvFlags) a => f.or a.2) {}
    { r with v := mn, t := sm.1, flags := ((r.flags.or fl).or (tt.2.or d.2)).or ((e.2.or p.2).or sm.2) }

/-- One lane of EXSUM (R135). -/
def exsumLane (w : Nat) (r : Red) (l : Lane) : Red :=
  if l.m0 then r
  else
    let cv : Ex × Bool := if W.CHAIN_KIND w = 2 then (l.x, false) else exOfNum (W.CHAIN_ANCHOR w) (fp32 l.v)
    let inx := W.CHAIN_KIND w != 2 && !Num.eqv (fp32 l.v) (exVal (W.CHAIN_ANCHOR w) cv.1) && (fp32 l.v).isFin
    let a := exAdd r.x cv.1
    { r with
      x := a.1, tag := r.tag || l.tag || cv.2 || a.2
      sat := r.sat + (if cv.2 then 1 else 0) + (if a.2 then 1 else 0)
      flags := (r.flags.or { inx := inx || cv.2, ofl := cv.2 }).or (exFlags r.x cv.1 a) }

/-- One vector's part of a segment: `first` says it is the segment's first. -/
def redStep (w lv : Nat) (first : Bool) (ls : List Lane) (r : Red) : Red :=
  match W.CHAIN_RED w with
  | 0 =>
    let t := treeF fAdd lv (redVals 0x80000000 ls)
    if first then { r with v := t.1, flags := r.flags.or t.2 }
    else let a := fAdd r.v t.1; { r with v := a.1, flags := (r.flags.or t.2).or a.2 }
  | 1 =>
    let t := (treeF (fun a b => (fMax a b, {})) lv (redVals 0xFF800000 ls)).1
    { r with v := if first then t else fMax r.v t }
  | 2 =>
    let t := (treeF (fun a b => (fMin a b, {})) lv (redVals 0x7F800000 ls)).1
    { r with v := if first then t else fMin r.v t }
  | 3 => smaxStep lv ls r
  | _ => ls.foldl (exsumLane w) r

/-- The initial state of a reduction (R134, R135). -/
def redInit (w : Nat) (lt : Latched) : Red :=
  if W.CHAIN_RED w = 3 then
    (if W.CHAIN_SEED w = 1 then ⟨canon32 lt.seedM, canon32 lt.seedS, .fin 0, false, 0, {}⟩
     else ⟨0xFF800000, 0, .fin 0, false, 0, {}⟩)
  else ⟨0, 0, .fin 0, false, 0, {}⟩

/-- R132: the result of segment `sg`, from all lanes of the word so far. -/
def segResult (w : Nat) (lt : Latched) (lanes : List Lane) (sg : Nat) : Red :=
  let L := chSeg w
  let ls := (lanes.drop (sg * L)).take L
  let lv := min (W.CHAIN_SEGLOG w) 6
  let per := min L 64
  (List.range ((ls.length + per - 1) / per)).foldl (fun r v =>
    let part := (ls.drop (v * per)).take per
    let part := part ++ List.replicate (per - part.length) (⟨0, .fin 0, false, true, false⟩ : Lane)
    redStep w lv (v == 0) part r) (redInit w lt)

/-- R134, R136: the values a result writes: (bits, width), with the flags of their rounding. Each value of an SMAX result takes 4 of its 12
bytes, under BF16 the FP32 word of the value rounded (DEDUCED, log 9). -/
def redOut (w : Nat) (lt : Latched) (r : Red) : List (Nat × Nat) × CvFlags :=
  let rnd (v : Nat) : Nat × Nat × CvFlags :=
    if W.CHAIN_RFMT w = 1 then
      let y := toFp .bf16 false true (fp32 v)
      if W.CHAIN_RED w = 3 then (y.1 * 2 ^ 16, 32, y.2) else (y.1, 16, y.2)
    else (v, 32, {})
  if W.CHAIN_RED w = 4 then
    if W.CHAIN_RFMT w = 2 then ([(exToBits r.x, 160)], {})
    else
      let f : Fmt := if W.CHAIN_RFMT w = 1 then .bf16 else .fp32
      let y := toFp f false true (exVal (W.CHAIN_ANCHOR w) r.x)
      ([(y.1, f.bits)], y.2)
  else if W.CHAIN_RED w = 3 then
    let m0 := (redInit w lt).v
    let a := fp32 m0
    let b := fp32 r.v
    let c : Fv :=
      if a.isNan || b.isNan then (0x7FC00000, {})
      else if m0 = r.v || a.eqv b then (0x3F800000, {})
      else let d := fSub m0 r.v; let e := fFun 0 d.1; (e.1, d.2.or e.2)
    let x := rnd r.v
    let y := rnd r.t
    let z := rnd c.1
    ([(x.1, x.2.1), (y.1, y.2.1), (z.1, z.2.1)], (x.2.2.or y.2.2).or (z.2.2.or c.2))
  else
    let x := rnd r.v
    ([(x.1, x.2.1)], x.2.2)

/-! ## Stage 6 (R137, R138) -/

/-- R137: x SELCMP y. -/
def selCmp (cmp : Nat) (raw : Bool) (x y : Nat) : Bool :=
  if raw then (if cmp = 0 then x == y else x != y)
  else
    let a := fp32 x
    let b := fp32 y
    match cmp with
    | 0 => a.eqv b
    | 1 => !a.eqv b
    | 2 => a.lt b
    | 3 => a.le b
    | 4 => b.lt a
    | _ => b.le a

/-- Stage 6 of one lane; `y` and `yx` are its Y value. -/
def stage6 (w : Nat) (lt : Latched) (l : Lane) (y : Nat) (yx : Ex) : Lane :=
  if l.m0 || !stageOn w 6 || W.CHAIN_SELPRED w == 0 then l
  else
    let raw := W.CHAIN_KIND w == 1
    let p :=
      match W.CHAIN_SELPRED w with
      | 1 => selCmp (W.CHAIN_SELCMP w) raw l.v (if raw then lt.selk else canon32 lt.selk)
      | 2 => selCmp (W.CHAIN_SELCMP w) raw l.v y
      | _ => l.tag
    let p := p != (W.CHAIN_SELINV w == 1)
    if !p then l
    else match W.CHAIN_SELACT w with
      | 0 => { l with v := if raw then lt.selv else canon32 lt.selv, x := (exOfNum (W.CHAIN_ANCHOR w) (fp32 lt.selv)).1 }
      | 1 => { l with v := y, x := yx }
      | _ => { l with m6 := true }

/-! ## Stages 7 and 8 (R139 to R142) -/

/-- Table 4.9: E and M (as a value). -/
def scalePar : Fmt → Int × Num
  | .e4m3 => (8, .ofInt 448) | .e5m2 => (15, .ofInt 57344) | .e2m3 => (2, .fin false 15 (-1)) | .e3m2 => (4, .ofInt 28)
  | .e2m1 => (2, .ofInt 6) | .int8 => (6, .ofInt 127) | _ => (2, .ofInt 7)

/-- R140: the largest X with 2^X ≤ a positive value. -/
def floorLog2 : Num → Int
  | .fin _ m e => e + Int.ofNat m.log2
  | _ => 0

/-- R140: the scale byte of a block from its amax. -/
def scaleByteOf (f : Fmt) (ceil : Bool) (amax : Num) : Nat :=
  match amax with
  | .nan => 0xFF
  | .inf _ => 0xFE
  | .fin _ m _ =>
    if m = 0 then 0x7F
    else
      let p := scalePar f
      let x :=
        if ceil then
          -- the smallest X with amax ≤ M * 2^X lies by the exponents of the two
          let x0 := floorLog2 amax - floorLog2 p.2 - 1
          let ok (x : Int) : Bool := amax.le (p.2.scale2 x)
          if ok x0 then x0 else if ok (x0 + 1) then x0 + 1 else x0 + 2
        else floorLog2 amax - p.1
      (min (max (x + 127) 0) 254).toNat

/-- The largest magnitude of some values; NaN where one is NaN. -/
def amaxOf (vs : List Num) : Num :=
  vs.foldl (fun m v => if m.isNan || v.isNan then .nan else if m.lt v.abs then v.abs else m) .zero

/-- The block of element `i`: segment and block within it. -/
def blockOf (w i : Nat) : Nat × Nat := (i / chSeg w, i % chSeg w / 32)

/-- The block scale of a lane's block within its vector: its byte, and whether the block has an active lane. -/
def blockScale (w : Nat) (f : Fmt) (j : Nat) (ls : List Lane) (i : Nat) : Nat × Bool :=
  let act := (List.range 64).filter fun l =>
    blockOf w (64 * j + l) == blockOf w i && (match ls[l]? with | some y => !y.m0 && !y.m6 | none => false)
  (scaleByteOf f (W.CHAIN_SCLMODE w == 1) (amaxOf (act.map fun l => fp32 (match ls[l]? with | some y => y.v | none => 0))),
    !act.isEmpty)

/-- Stage 7 of one value: an FP32 lane (or a pad) to the output format under a block scale byte (R139, R140, R76). DESIGN CHOICE (log 71): in
a block whose scale byte is 0xFF every lane converts as a NaN, its flags included. -/
def convOut (w : Nat) (f : Fmt) (sb : Nat) (v : Nat) : Fv :=
  let rtz := W.CHAIN_RND w == 1
  let ieee := W.CHAIN_SAT w == 1
  if f = .fp32 then (canon32 v, {})
  else if W.CHAIN_OSCALED w = 1 then
    let x := if sb = 255 then Num.nan else (fp32 v).scale2 (127 - Int.ofNat sb)
    toFmt f rtz ieee 0 x
  else toFmt f rtz ieee (zpVal f (W.CHAIN_OZP w)) (fp32 v)

/-- What stage 8 writes for lane `l` of vector `j`: its bits, its flags; none where the lane writes nothing (R120). -/
def outLane (w : Nat) (lt : Latched) (j : Nat) (ls : List Lane) (sbs : List Nat) (l : Nat) : Option (Nat × CvFlags × Bool) :=
  match ls[l]? with
  | none => none
  | some y =>
    let masked := y.m0 || y.m6
    if masked && W.CHAIN_PADMODE w == 1 then none
    else if 64 * j + l ≥ chTail w then none
    else if stageOn w 7 then
      match Fmt.ofCode (W.CHAIN_OFMT w) with
      | none => none
      | some f =>
        let sb := sbs.getD l 0x7F
        let r :=
          if masked then convOut w f sb lt.pad
          else if W.CHAIN_KIND w = 2 then toFp f false true (exVal (W.CHAIN_ANCHOR w) y.x)
          else convOut w f sb y.v
        some (r.1, if masked then {} else r.2, y.tag && !masked)
    else
      match W.CHAIN_KIND w with
      | 2 => some (exToBits (if masked then (exOfNum (W.CHAIN_ANCHOR w) (fp32 lt.pad)).1 else y.x), {}, y.tag && !masked)
      | 1 => some (if masked then lt.pad else y.v, {}, y.tag && !masked)
      | _ => some (if masked then canon32 lt.pad else y.v, {}, y.tag && !masked)

/-! ## A run -/

/-- What the computation of a vector leaves: the plan of the core's accesses with its writes, its scalar writes (cycle, scalar, value), flags,
saturations and the saturation tags of written lanes. -/
structure ChOut where
  plan : List Plan
  kw : List (Nat × Nat × Nat)
  flags : CvFlags
  sat : Nat
  tags : Nat

/-- R122: bits written to memory, requested in cycle `req`, one access of the run per word and cycle. `spread` puts 16 words of a WIDE vector
in each cycle of its ports (R117). -/
def State.addBits (s : State) (c tag : Nat) (plc : Nat × Nat) (peer red : Bool) (req first : Nat) (spread : Bool) (addr width val : Nat)
    (ps : List Plan) : List Plan :=
  (bitWords addr width val).foldl (fun l b =>
    let land := req + s.chWrLat c plc.1 plc.2 b.1 peer
    putBits { cc := if spread then land + (b.1 - first) / 16 else land, rank := reqRank rkChain c plc.1 peer, core := plc.1,
              unit := plc.2, word := b.1, act := .write 0 0, tag := tag } b.2.1 b.2.2 red l) ps

/-- R132: the segments whose last element lies in vector `j`. -/
def segsEnding (w j : Nat) : List Nat :=
  let n := chCount w
  let lastEl := min n (64 * j + 64) - 1
  (List.range (chSegs w)).filter fun sg =>
    let endEl := min n ((sg + 1) * chSeg w) - 1
    decide (64 * j ≤ endEl ∧ endEl ≤ lastEl)

/-- The bit address of segment `sg`'s result in memory, and where it lies (R136). -/
def redAddr (w x run sg : Nat) : Nat := addrN (chRaddr x run) * 128 + sg * (8 * redBytes w)
def redPlace (c w : Nat) : Nat × Nat := if W.CHAIN_RDST w = 1 then (c, 2) else (c, 0)

/-- R122, R136: the reduction results of the segments that end in vector `j`, which entered at `e`. -/
def State.redWrites (s : State) (c : Nat) (r : ChRun) (j e : Nat) (lanes : List Lane) (o : ChOut) : ChOut :=
  let w := r.w
  let req := e + chainLatBelow w 5 + redLat w
  (segsEnding w j).foldl (fun a sg =>
    let v := segResult w r.lt lanes sg
    let out := redOut w r.lt v
    let a := { a with flags := (a.flags.or v.flags).or out.2, sat := a.sat + v.sat }
    match W.CHAIN_RDST w with
    | 0 => a
    | 3 =>
      let k0 := addrN (chRaddr r.x r.run)
      { a with kw := a.kw ++ (List.range out.1.length).map fun i => (req + 1, k0 + i, (out.1.getD i (0, 0)).1) }
    | _ =>
      let val := out.1.foldr (fun v t => v.1 % 2 ^ v.2 + 2 ^ v.2 * t) 0
      { a with plan := s.addBits c (r.key + 1) (redPlace c w) false true req 0 false (redAddr w r.x r.run sg) (8 * redBytes w) val a.plan }) o

/-- The bit address of element `i` of the destination, and of its block's scale byte. -/
def dstAddr (w x run i : Nat) : Nat := addrN (chDaddr x run) * 128 + elBit (W.CHAINX_DPITCH x) (chSeg w) (chOBits w) i
def dstScale (w x i : Nat) : Nat := W.CHAINX_DSCLA x * 128 + 8 * scaleByte (chSeg w) i

/-- Block scales are written (R140). -/
def dstScaled (w : Nat) : Bool := stageOn w 7 && W.CHAIN_OSCALED w == 1

/-- Stages 7 and 8 of a vector: its lanes and block scales as bit writes. With stage 8 bypassed nothing is written, and the flags of stage 7
count. -/
def State.laneWrites (s : State) (c : Nat) (r : ChRun) (j e : Nat) (ls : List Lane) (o : ChOut) : ChOut :=
  let w := r.w
  let x := r.x
  let req := e + chainLat w
  let dst := W.CHAIN_DST w
  let plc := dstPlace c (W.CHAIN_DPEER w) dst
  let peer := dst == 4
  let b := chOBits w
  let on8 := stageOn w 8
  let scaled := dstScaled w
  let f := (Fmt.ofCode (W.CHAIN_OFMT w)).getD .fp32
  let bs : List (Nat × Bool) := (List.range 64).map fun l => if scaled then blockScale w f j ls (64 * j + l) else (0x7F, true)
  let outs := (List.range 64).map (outLane w r.lt j ls (bs.map (·.1)))
  let first := dstAddr w x r.run (64 * j) / 128
  let a := (List.range 64).foldl (fun (a : ChOut) l =>
    match outs.getD l none with
    | none => a
    | some v =>
      let a := { a with flags := a.flags.or v.2.1 }
      if !on8 then a
      else
        let a := { a with tags := a.tags + (if v.2.2 then 1 else 0) }
        if dst = 5 then { a with kw := a.kw ++ [(req + 1, addrN (chDaddr x r.run), v.1)] }
        else { a with plan := s.addBits c (r.key + 1) plc peer false req first (b == 160) (dstAddr w x r.run (64 * j + l)) b v.1 a.plan }) o
  -- block scales: one byte per block of the written range; none for a masked block under KEEP (R121)
  if !scaled || !on8 then a
  else (List.range 64).foldl (fun (a : ChOut) l =>
    let i := 64 * j + l
    let lead := l == 0 || blockOf w i != blockOf w (i - 1)
    let bl := bs.getD l (0x7F, true)
    if lead && decide (i < chTail w) && (bl.2 || W.CHAIN_PADMODE w == 0) then
      { a with plan := s.addBits c (r.key + 1) plc peer false req 0 false (dstScale w x i) 8 (if bl.2 then bl.1 else 0x7F) a.plan }
    else a) a

/-- Record flags in CORECTL_CVFLAGS (R80). -/
def State.noteFlags (s : State) (c : Nat) (f : CvFlags) : State :=
  let set (s : State) (b : Bool) (fd : Fld) : State := if b then s.hwSet fd c 1 else s
  set (set (set (set (set s f.inv F.CORECTL_CVFLAGS_INV) f.dz F.CORECTL_CVFLAGS_DZ) f.ofl F.CORECTL_CVFLAGS_OFL)
    f.ufl F.CORECTL_CVFLAGS_UFL) f.inx F.CORECTL_CVFLAGS_INX

/-- The cycle in which vector `j` of a run enters its first enabled stage (R122), and the one in which its data are all there (R117). -/
def ChRun.enters (r : ChRun) (j : Nat) : Nat := r.e0 + j * r.r
def ChRun.whole (r : ChRun) (j : Nat) : Nat := r.enters j + r.r - 1

/-- The next vector of a run passes the stages: its writes are planned for the cycles in which they land. -/
def State.chainVec (s : State) (q c : Nat) (r : ChRun) : State :=
  let w := r.w
  let j := r.next
  let e := r.enters j
  let k := s.core c
  let d := k.vecData r.key (chainStreams c w r.x r.run) j
  let fr := (List.range 64).map (frontLane (s.exact q) k w r.x j r.lt r.key d)
  let lanes := r.lanes ++ fr.map fun t => t.1.1
  let ls6 := fr.map fun t => stage6 w r.lt t.1.1 t.1.2.1 t.1.2.2
  let o : ChOut := ⟨k.plan, k.kplan, fr.foldl (fun (f : CvFlags) t => f.or t.2.1) {}, (fr.filter fun t => t.2.2).length, 0⟩
  let o := if stageOn w 7 || stageOn w 8 then s.laneWrites c r j e ls6 o else o
  let o := if stageOn w 5 then s.redWrites c r j e lanes o else o
  let last := decide (j + 1 = chVecs w)
  let s := s.modCore c fun k =>
    let k := { k with
      plan := o.plan, kplan := o.kw
      chruns := if last then k.chruns.filter fun x => x.key != r.key
        else k.chruns.map fun x => if x.key = r.key then { r with next := j + 1, lanes := lanes } else x }
    if last then k.dropGroup r.key else k
  let s := s.noteSat c true o.sat
  let s := if o.tags = 0 then s else s.addFld F.CORECTL_CHNSTAT_SATTAGCNT c o.tags
  if W.CHAIN_FLAG w = 1 then s.noteFlags c o.flags else s

/-- The chain engine of a core in cycle `lc`: accumulator rows are read in the cycle before their vector enters (DEDUCED, log 63), and every
vector whose data are there passes. -/
def State.chainCycle (s : State) (q c lc : Nat) : State :=
  if (s.core c).chruns.isEmpty then s
  else
    let s := s.modCore c fun k => k.chruns.foldl (fun k r =>
      if W.CHAIN_XSRC r.w = 1 then
        (List.range (chVecs r.w)).foldl (fun k j => if r.enters j = lc + 1 then k.readAcc r j else k) k
      else k) k
    (s.core c).chruns.foldl (fun t r => if r.next < chVecs r.w ∧ r.whole r.next ≤ lc then t.chainVec q c r else t) s

/-- The scalar writes of a core that land in cycle `lc`. -/
def Core.scalarCycle (k : Core) (lc : Nat) : Core :=
  if k.kplan.isEmpty then k
  else (k.kplan.filter fun p => decide (p.1 ≤ lc)).foldl (fun k p => k.setK p.2.1 p.2.2)
    { k with kplan := k.kplan.filter fun p => decide (lc < p.1) }

/-- The largest write latency of `width` bits at a bit address. -/
def State.bitsLat (s : State) (c : Nat) (plc : Nat × Nat) (peer : Bool) (addr width : Nat) : Nat :=
  (bitWords addr width 0).foldl (fun m b => max m (s.chWrLat c plc.1 plc.2 b.1 peer)) 0

/-- R123: the largest write latency of vector `j`, every lane counted as if it wrote. -/
def State.laneLat (s : State) (c w x run j : Nat) : Nat :=
  let plc := dstPlace c (W.CHAIN_DPEER w) (W.CHAIN_DST w)
  let peer := W.CHAIN_DST w == 4
  if W.CHAIN_DST w = 5 then 1
  else (List.range 64).foldl (fun m l =>
    let i := 64 * j + l
    max (max m (s.bitsLat c plc peer (dstAddr w x run i) (chOBits w)))
      (if dstScaled w then s.bitsLat c plc peer (dstScale w x i) 8 else 0)) 0

/-- R123: the cycle of the last write of a run that enters at `e0`, from the word's fields alone; with nothing to write the cycle in which its
last vector leaves its last enabled stage. -/
def State.chainDue (s : State) (c w x run e0 r : Nat) : Nat :=
  let red := stageOn w 5 && W.CHAIN_RDST w != 0
  let V := chVecs w
  if !stageOn w 8 && !red then e0 + (V - 1) * r + chainLat w
  else (List.range V).foldl (fun m j =>
    let e := e0 + j * r
    let m := if stageOn w 8 then max m (e + chainLat w + s.laneLat c w x run j) else m
    if red then (segsEnding w j).foldl (fun m sg =>
      max m (e + chainLatBelow w 5 + redLat w +
        (if W.CHAIN_RDST w = 3 then 1 else s.bitsLat c (redPlace c w) false (redAddr w x run sg) (8 * redBytes w)))) m
    else m) 0

/-- CHAIN: the next run of the head CHAIN word, at cycle `lc`: its scalars are latched, its reads planned (R113, R115). -/
def State.chainRun (s : State) (q c lc : Nat) (e : QEntry) : State :=
  let w := e.lead
  let x := e.ext
  let run := e.issued
  let k := s.core c
  let lt := k.latch w x run
  let sts := chainStreams c w x run
  let r := chainInterval (s.exact q) w
  let e0 := lc + s.chainSrcLat c w x run
  let V := chVecs w
  let eLast := e0 + (V - 1) * r
  let s := s.planFor c ((List.range V).flatMap fun j => s.vecReads c k.nextKey sts j (e0 + j * r) r)
  let s := s.modCore c fun k =>
    { k.nextGroup with
      chruns := k.chruns ++ [⟨w, x, run, lt, e0, r, k.nextKey, 0, []⟩]
      chnFree := eLast + 1, chnLeave := if stageOn w 8 then eLast + chainLat w + 1 else 0 }
  let s := if W.CHAIN_FLAG w = 1 then s.noteFlags c lt.flags else s
  s.endRun c 2 e (s.chainDue c w x run e0 r + 1)

/-- SETK (R112): its scalars take their values in the cc after it issues. -/
def State.setk (s : State) (c lc : Nat) (e : QEntry) : State :=
  let w := e.lead
  (s.modCore c fun k =>
    { k with kplan := k.kplan ++ (List.range (W.SETK_COUNT w + 1)).map fun i =>
        (lc + 1, W.SETK_FIRST w + i, bits w (32 * i + 31) (32 * i)) }).endRun c 2 e (lc + 2)

/-- CHAIN (R122). -/
def execChain (core : Nat) (s : State) : Res :=
  match s.issueOp core 2 0x20 with
  | some i => done s (i.s.chainRun i.q core i.lc i.e)
  | none => done s s

/-- CHAIN_COMPLETE (R123). -/
def execChainComplete (core : Nat) (s : State) : Res := done s (s.completeBy core 2 [0x20])

/-- SETK (R112). -/
def execSetk (core : Nat) (s : State) : Res :=
  match s.issueOp core 2 0x21 with
  | some i => done s (i.s.setk core i.lc i.e)
  | none => done s s

end Sys2Proof.Machine
end

