-- ==== Sys2Proof/Machine/Mover.lean ====
section
/-! DEFINITION. The mover: COPY, PUSH and POP (08_control_words.md R270 to R276, R283, R284; 06 R193, R198 to R201, R218 to R222).
A word's accesses are planned at its issue, a ring word's when its descriptor is there; transfers of bulk lines wait for their slots. -/

namespace Sys2Proof.Machine

/-! ## Slots -/

/-- The cycle of a beat in which slot `n` occurs (R198). -/
def slotCc (n : Nat) : Nat := 16 * n / 25

/-- The first slot that occurs in cycle `cc` of the beat or after it. -/
def firstSlot (cc : Nat) : Nat := (25 * cc + 15) / 16

/-- Slots of a tier-column already given to transfers. -/
def TierCol.taken (c : TierCol) : List Nat := c.used ++ c.pend.flatMap fun x => x.slot :: x.slot2.toList

/-- The first slot from `n` on that an owner holds and no transfer has taken, among `fuel` slots. -/
def State.findSlot (s : State) (tc owner : Nat) (taken : List Nat) : Nat → Nat → Option Nat
  | 0, _ => none
  | fuel + 1, n =>
    if s.slotOwner tc n = owner ∧ !taken.contains n then some n else s.findSlot tc owner taken fuel (n + 1)

/-- R200: the slot of a transfer that may occur from cycle `cc` of the beat on. -/
def State.slotFrom (s : State) (tc owner n : Nat) (extra : List Nat) : Option Nat :=
  let t := (s.col tc).taken ++ extra
  s.findSlot tc owner t (s.calLen tc (s.calPage tc) * (t.length + 1)) n

/-- R200, R202, R380, R439: an owner outside the schedule takes one of its slots of the present beat that has occurred, that no transfer has
taken and that has not gone to scrub; none where there is no such slot, and none in a freeze and at a gate (R204). -/
def State.passedSlot (s : State) (tc owner : Nat) : Option State :=
  match s.partOf (tcCluster tc) with
  | none => none
  | some q =>
    if (s.part q).live then
      match s.slotFrom tc owner (s.col tc).slot [] with
      | some n => if slotCc n ≤ (s.part q).bc then some (s.setCol tc { s.col tc with used := (s.col tc).used ++ [n] }) else none
      | none => none
    else none

/-- `k` such slots. -/
def State.passedSlots (s : State) (tc owner : Nat) : Nat → Option State
  | 0 => some s
  | k + 1 => (s.passedSlot tc owner).bind fun t => t.passedSlots tc owner k

/-- The slots of one access of `n` bytes within a line of bulk memory (R193). -/
def lineSlots (n : Nat) (write : Bool) : Nat := if write && n != 256 then 2 else 1

/-- Put a transfer among those pending in a tier-column. -/
def State.addXfer (s : State) (tc : Nat) (x : Xfer) : State :=
  let c := s.col tc
  s.setCol tc { c with pend := c.pend ++ [x] }

/-! ## Where an element lies -/

/-- Where an element lies: words of a core's unit, or bytes of bulk memory. -/
inductive Loc where
  | words (core unit word : Nat)
  | bulk (addr : Nat)
  deriving DecidableEq, Repr

/-- The place of a far device address. -/
def farLoc (a : Nat) : Loc := if daSpace a = 0 then .bulk a else .words (daCore a) 0 (daOff a / 16)

/-- Read latency of a word for the mover of core `c` (Table 6.1, Table 6.2, R195). -/
def State.mvRdLat (s : State) (c t unit word : Nat) : Nat :=
  if unit ≠ 0 then 3
  else if t = c then ownLat word
  else if t / 8 = c / 8 then peerLat (s.phys c) (s.phys t) (csClass word)
  else portDist (c / 8) (t / 64) (t / 8 % 8) + 16 + 2 * csClass word

/-- Write latency of a word for the mover of core `c`. -/
def State.mvWrLat (s : State) (c t unit word : Nat) : Nat :=
  if unit = 1 then 6 else if unit ≥ 2 then 4 else s.mvRdLat c t 0 word

/-- The bank cycle of a read requested at `cc` (R182, Table 6.1). -/
def State.mvBank (s : State) (c t unit word cc : Nat) : Nat := if unit ≠ 0 then cc + 1 else cc + s.mvRdLat c t 0 word / 2

/-- R191: whose place an access of core `c` to the memory of core `t` takes. -/
def accRank (own c t : Nat) : Nat := if t = c then own else if t / 8 = c / 8 then rkPeer c else rkPort

/-- The reads of `n` words requested in cycle `cc` by core `c`, under the keys of a group. -/
def State.mvReads (s : State) (rank c g t unit word n cc : Nat) : List Plan :=
  (List.range n).map fun i =>
    { cc := s.mvBank c t unit (word + i) cc, rank := accRank rank c t, core := t, unit := unit, word := word + i,
      act := .read (groupKey g i) }

/-- The cycle in which the last of `n` words requested in cycle `cc` is there. -/
def State.mvThere (s : State) (c t unit word n cc : Nat) : Nat :=
  (List.range n).foldl (fun m i => max m (cc + s.mvRdLat c t unit (word + i))) cc

/-- The writes of the `n` words captured under the keys of a group, requested in cycle `cc`. -/
def State.mvPuts (s : State) (rank c g t unit word n cc : Nat) : List Plan :=
  (List.range n).map fun i =>
    { cc := cc + s.mvWrLat c t unit (word + i), rank := accRank rank c t, core := t, unit := unit, word := word + i,
      act := .put (groupKey g i) }

/-- The cycle in which the last of planned accesses takes place. -/
def lastCc (ps : List Plan) (d : Nat) : Nat := ps.foldl (fun m p => max m p.cc) d

/-! ## The generator (R275) -/

/-- A point: its source (none out of bounds), the bytes it takes instead, its destination, its bytes. -/
structure MPoint where
  src : Option Loc
  pad : List Byte
  dst : Loc
  len : Nat

/-- What runs through the points of a word as they are planned: the state, the last source and destination requests, the landing cycles of
points in flight, the last landing, the bank cycle of the first read (or its slot's cycle), and whether a bulk transfer found no slot. -/
structure MAcc where
  s : State
  sPrev : Nat
  wPrev : Nat
  lands : List Nat
  last : Nat
  read : Option Nat
  bad : Bool

/-- A word of a run: partition, core, queue entry, run, and the first cycle a source may be requested in. -/
structure MRun where
  q : Nat
  c : Nat
  qid : Nat
  run : Nat
  first : Nat

/-- The cycle of the beat of a logical cycle. -/
def State.beatCc (s : State) (q lc : Nat) : Nat := (s.part q).bc + (lc - (s.part q).lc)

/-- R200: the slots that read an element of bulk memory, cut at lines: (tier-column, address, length, offset in the element, slot). -/
def State.readSlots (s : State) (r : MRun) (a len cc : Nat) : Option (List (Nat × Nat × Nat × Nat × Nat)) :=
  (chunks 256 (len + 1) a len).foldl (fun acc u =>
    match acc with
    | none => none
    | some l =>
      let tc := daTc u.1
      let lat := bulkLat (r.c / 8) (tc / 32) (tc / 8 % 4) (tc % 8)
      match s.slotFrom tc (ownCore r.c) (firstSlot (s.beatCc r.q cc + lat / 2)) (l.map (·.2.2.2.2)) with
      | none => none
      | some n => some (l ++ [(tc, u.1, u.2, u.1 - a, n)])) (some [])

/-- R275: the first cycle from `t` on with fewer than 64 points in flight. A point is in flight through the cycle in which its write lands
(Example 8.1 counts 19 points whose requests and landings lie 18 cc apart). -/
def freeFrom (lands : List Nat) (t : Nat) : Nat :=
  let up := lands.filter (fun x => decide (t ≤ x))
  if up.length < 64 then t
  else
    -- enough points must have landed: the cycle after the one in which 64 are left
    (up.mergeSort (· ≤ ·)).getD (up.length - 64) t + 1

/-- One line written by an element of bulk memory, of `len` bytes captured from `key` on: a whole line in one slot, a part of a line in two
(R193). -/
def State.writeLine (s : State) (r : MRun) (a w key len : Nat) : Option (State × Nat) :=
  let tc := daTc a
  let own := ownCore r.c
  let lat := bulkLat (r.c / 8) (tc / 32) (tc / 8 % 4) (tc % 8)
  let line := daOff a / 256
  let back (n : Nat) : Nat := slotCc n + (s.part r.q).lc - (s.part r.q).bc
  let act : XferAct := .store (a % 256) key (len / 16)
  if len = 256 then
    match s.slotFrom tc own (firstSlot (s.beatCc r.q w + lat)) [] with
    | none => none
    | some n => some (s.addXfer tc ⟨own, r.c, r.qid, r.run, line, n, none, act⟩, back n)
  else
    match s.slotFrom tc own (firstSlot (s.beatCc r.q w + lat / 2)) [] with
    | none => none
    | some n =>
      match s.slotFrom tc own (n + 1) [n] with
      | none => none
      | some m => some (s.addXfer tc ⟨own, r.c, r.qid, r.run, line, n, some m, act⟩, back m)

/-- The lines of an element written to bulk memory, its request at `w`: the state and the cycle the last lands. -/
def State.writeLines (s : State) (r : MRun) (a w g len : Nat) : Option (State × Nat) :=
  (chunks 256 (len + 1) a len).foldl (fun acc u =>
    match acc with
    | none => none
    | some v =>
      match v.1.writeLine r u.1 w (groupKey g ((u.1 - a) / 16)) u.2 with
      | none => none
      | some t => some (t.1, max v.2 t.2)) (some (s, w))

/-- The destination half of a point whose words are captured under group `g` by cycle `a`: request, landing. -/
def MAcc.write (m : MAcc) (r : MRun) (dst : Loc) (a s0 g len : Nat) : MAcc :=
  let w := max a (m.wPrev + 1)
  match dst with
  | .words t unit word =>
    let ps := m.s.mvPuts rkMover r.c g t unit word (len / 16) w
    let land := lastCc ps w
    { m with s := m.s.planFor r.c ps, sPrev := s0, wPrev := w, lands := m.lands ++ [land], last := max m.last land }
  | .bulk ad =>
    match m.s.writeLines r ad w g len with
    | none => { m with bad := true }
    | some v => { m with s := v.1, sPrev := s0, wPrev := w, lands := m.lands ++ [v.2], last := max m.last v.2 }

/-- The source half of a point that reads bulk memory: its slots, and the writes of its parts once they are read. The far side is
bulk memory, so the destination is local. -/
def MAcc.fromBulk (m : MAcc) (r : MRun) (ad len s0 : Nat) (dst : Loc) : MAcc :=
  match m.s.readSlots r ad len s0, dst with
  | some l, .words t unit word =>
    let p := m.s.part r.q
    let at_ (u : Nat × Nat × Nat × Nat × Nat) : Nat := slotCc u.2.2.2.2 + p.lc - p.bc
    let arr := l.foldl (fun a u =>
      let tc := u.1
      max a (at_ u + bulkLat (r.c / 8) (tc / 32) (tc / 8 % 4) (tc % 8) / 2)) s0
    let w := max arr (m.wPrev + 1)
    let land := (List.range (len / 16)).foldl (fun a i => max a (w + m.s.mvWrLat r.c t unit (word + i))) w
    let s := l.foldl (fun s u =>
      s.addXfer u.1 ⟨ownCore r.c, r.c, r.qid, r.run, daOff u.2.1 / 256, u.2.2.2.2, none,
        .toLocal t unit (word + u.2.2.2.1 / 16) (u.2.1 % 256) u.2.2.1 w⟩) m.s
    { m with s := s, sPrev := s0, wPrev := w, lands := m.lands ++ [land], last := max m.last land,
             read := some (m.read.getD (l.foldl (fun a u => min a (at_ u)) notYet)) }
  | _, _ => { m with bad := true }

/-- R275: point `k` of a word. -/
def MAcc.point (m : MAcc) (r : MRun) (k : Nat) (p : MPoint) : MAcc :=
  if m.bad then m
  else
    let s0 := freeFrom m.lands (max (r.first + k) m.sPrev)
    let g := (m.s.core r.c).nextKey
    let n := p.len / 16
    match p.src with
    | none =>
      let s := m.s.modCore r.c fun k =>
        (List.range n).foldl (fun k i => k.capture (groupKey g i) (ofBytes ((p.pad.drop (16 * i)).take 16))) k.nextGroup
      { m with s := s }.write r p.dst s0 s0 g p.len
    | some (.words t unit word) =>
      let ps := m.s.mvReads rkMover r.c g t unit word n s0
      let s := (m.s.modCore r.c Core.nextGroup).planFor r.c ps
      { m with s := s, read := some (m.read.getD (m.s.mvBank r.c t unit word s0)) }.write r p.dst
        (m.s.mvThere r.c t unit word n s0) s0 g p.len
    | some (.bulk ad) => m.fromBulk r ad p.len s0 p.dst

/-- The points of a run planned; `none` where a bulk transfer finds no slot. -/
def State.moveAll (s : State) (r : MRun) (ps : List MPoint) : Option MAcc :=
  let lc := (s.part r.q).lc
  let k := s.core r.c
  let m0 : MAcc := ⟨s, 0, r.first - 1, k.movLands.filter (fun x => decide (lc < x)), r.first, none, false⟩
  let m := ((List.range ps.length).zip ps).foldl (fun m p => m.point r p.1 p.2) m0
  if m.bad then none
  else
    some { m with s := m.s.modCore r.c fun k =>
      { k with movLands := m.lands, movFree := if ps.isEmpty then r.first else m.sPrev + 1 } }

/-! ## COPY -/

/-- The local unit of LTGT (Table 8.9): core store, ABUF, CBUF, weight staging. -/
def ltgtUnit (t : Nat) : Nat := t

/-- R271: the far address of a point: the sum is taken in the offset field. -/
def farAt (w x k : Nat) : Nat :=
  let b := W.COPYX_FBASE x
  let f := 2 ^ farField b
  let o := (Int.ofNat (b % f) + genOff (fun d => genFStr x d * Int.ofNat (farUnit x)) w k) % Int.ofNat f
  b / f * f + o.toNat

/-- The bytes of a pad element (R272). -/
def padBytes (w n : Nat) : List Byte := (List.range n).map fun i => patByte (W.COPY_PAD w) i

/-- The points of a COPY of core `c`. -/
def copyPoints (c w x : Nat) : List MPoint :=
  let n := 16 * genEsz w
  (List.range (genPoints w)).map fun k =>
    let loc : Loc := .words c (ltgtUnit (W.COPY_LTGT w)) (addrN (Int.ofNat (W.COPY_LBASE w) + genOff (genLStr w) w k))
    let far := farLoc (farAt w x k)
    let src := if W.COPY_DIR w = 1 then loc else far
    ⟨if genIn w x k then some src else none, padBytes w n, if W.COPY_DIR w = 1 then far else loc, n⟩

/-- COPY: the head of the MOV queue issues at `lc`. -/
def State.copyRun (s : State) (q c lc : Nat) (e : QEntry) : State :=
  match s.moveAll ⟨q, c, e.id, 0, lc + 1⟩ (copyPoints c e.lead e.ext) with
  | some m => m.s.endRun c 3 e (m.last + 1)
  | none => s.rejectWord q c 0x0A 3 (W.OPCODE e.lead) e.addr

/-! ## Rings -/

/-- A ring descriptor (Table 6.6). -/
structure Ring where
  base : Nat
  slotw : Nat
  nslot : Nat
  guard : Nat
  gbase : Nat
  res : Nat
  wpos : Nat
  rpos : Nat

/-- The fields of three words. -/
def ringOf (b : List Byte) : Ring :=
  let f (i n : Nat) : Nat := ofBytes ((b.drop i).take n)
  ⟨f 0 6, f 6 2, f 8 4, f 12 1, f 13 2, f 15 1, f 16 4, f 32 4⟩

/-- The bytes of a slot. -/
def Ring.slotBytes (r : Ring) : Nat := 16 * (r.slotw + 1)

/-- R218: a descriptor that makes its word illegal. -/
def State.ringBad (s : State) (q : Nat) (r : Ring) : Bool :=
  let size := if daSpace r.base = 0 then 2 ^ 28 else 2 ^ 22
  decide (r.base % 16 ≠ 0) || decide (r.slotw > 4095) || decide (r.nslot = 0 ∨ r.nslot > 65536) || decide (r.guard > 1)
    || r.res != 0 || !s.within q r.base || decide (daOff r.base + r.nslot * r.slotBytes > size)
    || (r.guard == 1 && decide (r.gbase + r.nslot > 32768))

/-- R283: the core whose store holds the descriptor. -/
def ringCore (c w : Nat) : Nat := c / 8 * 8 + W.RING_RDSLOT w

/-- R284: the slot's first local word in run `j`. -/
def ringLocal (w j : Nat) : Int := Int.ofNat (W.RING_LBASE w) + Int.ofNat j * W.RING_LRUN w

/-- R284: the points of a slot: elements of 256 bytes, the last the remainder. -/
def ringPoints (push : Bool) (c w j : Nat) (r : Ring) (pos : Nat) : List MPoint :=
  let n := r.slotBytes
  let far := r.base + pos % r.nslot * n
  let loc := addrN (ringLocal w j)
  (List.range ((n + 255) / 256)).map fun k =>
    let l : Loc := .words c (ltgtUnit (W.RING_LTGT w)) (loc + 16 * k)
    let f := farLoc (far + 256 * k)
    ⟨some (if push then l else f), [], if push then f else l, min 256 (n - 256 * k)⟩

/-- R284, R292: the reason for which a ring word is rejected at i + L_d: 0 none. -/
def State.ringReason (s : State) (q c w j : Nat) (r : Ring) : Nat :=
  let l := ringLocal w j
  lowest [(outOf l (r.slotw + 1) (ltgtWords (W.RING_LTGT w)), 0x0B), (s.ringBad q r, 0x0D),
    (s.within q r.base && daSpace r.base == 0 && !s.ownsSlot (daTc r.base) (ownCore c), 0x0A)]

/-- A run of PUSH or POP (R284) issues in cycle `i`: its descriptor is read; the next word of the mover waits for what it says. -/
def State.ringRun (s : State) (push : Bool) (c i : Nat) (e : QEntry) : State :=
  let rc := ringCore c e.lead
  let rd := W.RING_RDADDR e.lead
  let g := (s.core c).nextKey
  let at_ := s.mvThere c rc 0 rd 3 i
  ((s.planFor c (s.mvReads rkMover c g rc 0 rd 3 i)).modCore c fun k =>
    { k.nextGroup with ringrd := k.ringrd ++ [⟨push, e.id, e.issued, at_, g⟩], movFree := notYet }).endRun c 3 e notYet

/-- The descriptor of a ring word as captured. -/
def Core.ringWords (k : Core) (g : Nat) : Ring := ringOf ((List.range 3).flatMap fun i => toBytes 16 (k.cap (groupKey g i)))

/-- The position word of a ring word's descriptor: WPOS of a push, RPOS of a pop (Table 6.6). -/
def ringPosWord (push : Bool) (w : Nat) : Nat := W.RING_RDADDR w + (if push then 1 else 2)

/-- R284: the descriptor of a ring word is there, in cycle `r.at_`: it is checked, the position written, the slot's points planned. R220: a
push sets its guard bit when its last write lands, a pop clears it in the bank cycle of its first read, for bulk memory the cycle of its
first slot. -/
def State.ringDecide (s : State) (q c : Nat) (e : QEntry) (r : RingRead) : State :=
  let w := e.lead
  let j := r.run
  let rc := ringCore c w
  let d := (s.core c).ringWords r.key
  let s := s.modCore c fun k => { k.dropGroup r.key with ringrd := k.ringrd.filter fun x => x != r }
  let reason := s.ringReason q c w j d
  if reason ≠ 0 then s.rejectWord q c reason 3 (W.OPCODE w) e.addr
  else
    let p := if j = 0 then (if r.push then d.wpos else d.rpos) else e.aux
    let pos := (p + j) % 2 ^ 32
    let pw := ringPosWord r.push w
    let land := r.at_ + s.mvWrLat c rc 0 pw
    let s := (s.modCore c fun k => k.modEntry 3 e.id fun x => { x with aux := p }).planFor c
      [{ cc := land, rank := accRank rkMover c rc, core := rc, unit := 0, word := pw, act := .write ((pos + 1) % 2 ^ 32) (2 ^ 32 - 1) }]
    match s.moveAll ⟨q, c, e.id, j, r.at_ + 1⟩ (ringPoints r.push c w j d pos) with
    | none => s.rejectWord q c 0x0A 3 (W.OPCODE w) e.addr
    | some m =>
      let s := if d.guard = 1 then
          m.s.modCluster (c / 8) fun k =>
            { k with gpend := k.gpend ++
                [⟨if r.push then m.last else m.read.getD m.last, !r.push, d.gbase + pos % d.nslot, c, csAddr rc (W.RING_RDADDR w * 16)⟩] }
        else m.s
      s.modCore c fun k => k.modEntry 3 e.id fun x => x.setDue (max m.last land + 1)

/-- The ring words of a core whose descriptors are there in cycle `lc`. -/
def State.ringCycle (s : State) (q c lc : Nat) : State :=
  ((s.core c).ringrd.filter fun r => decide (r.at_ ≤ lc)).foldl (fun t r =>
    match (t.core c).mov.find? fun e => e.id == r.qid with
    | some e => t.ringDecide q c e r
    | none => t) s

/-- R221: a guarded ring is violated by core `c`. -/
def State.ringViolation (s : State) (q c kind addr : Nat) : State :=
  let s := (s.memLog c kind 0 addr).raise (384 + c)
  s.modPart q fun p => { p with ringBad := some (p.ringBad.getD c) }

/-- R220, R221: one guard event takes place. -/
def State.guardStep (s : State) (q cl : Nat) (g : GuardEv) : State :=
  let full := SMap.get false (s.cluster cl).guards g.bit
  let s := s.modCluster cl fun k => { k with guards := SMap.put false k.guards g.bit (!g.pop) }
  if g.pop && !full then s.ringViolation q g.core 4 g.addr
  else if !g.pop && full then s.ringViolation q g.core 3 g.addr
  else s

/-- The guard events of a cluster due in cycle `lc`: pops first (R220). -/
def State.guardTick (s : State) (q cl lc : Nat) : State :=
  let ev := (s.cluster cl).gpend.filter fun g => decide (g.due ≤ lc)
  if ev.isEmpty then s
  else
    let s := s.modCluster cl fun k => { k with gpend := k.gpend.filter fun g => decide (lc < g.due) }
    ((ev.filter (·.pop)) ++ (ev.filter fun g => !g.pop)).foldl (fun t g => t.guardStep q cl g) s

/-! ## Completion -/

/-- A run of a MOV word has line transfers that have not taken place. -/
def State.xfersLeft (s : State) (c qid run : Nat) : Bool :=
  s.cols.any fun e => e.2.pend.any fun x => x.core == c && x.qid == qid && x.run == run

/-- The front MOV word of some opcodes may complete: it is due and every transfer of its oldest run has taken place. -/
def State.movDone (s : State) (c : Nat) (ops : List Nat) : Bool :=
  match s.completeOp c 3 ops with
  | some (_, e, _) => !s.xfersLeft c e.id (e.issued - e.runs.length)
  | none => false

/-! ## The rows -/

/-- COPY (R275). -/
def execCopy (core : Nat) (s : State) : Res :=
  match s.issueOp core 3 0x30 with
  | some i => done s (i.s.copyRun i.q core i.lc i.e)
  | none => done s s

/-- COPY_COMPLETE (R275): a COPY completes; a PUSH or POP completes as a COPY does (R284). -/
def execCopyComplete (core : Nat) (s : State) : Res :=
  if s.movDone core [0x30, 0x32, 0x33] then done s (s.completeBy core 3 [0x30, 0x32, 0x33]) else done s s

/-- PUSH (R284). -/
def execPush (core : Nat) (s : State) : Res :=
  match s.issueOp core 3 0x32 with
  | some i => done s (i.s.ringRun true core i.lc i.e)
  | none => done s s

/-- POP (R284). -/
def execPop (core : Nat) (s : State) : Res :=
  match s.issueOp core 3 0x33 with
  | some i => done s (i.s.ringRun false core i.lc i.e)
  | none => done s s

end Sys2Proof.Machine
end

