-- ==== Sys2Proof/Machine/Link.lean ====
section
/-! DEFINITION. Landing channels, the send buffer, PLEACH, SEND and RECV (08_control_words.md R277 to R282, R286 to R291,
R609), and the drain of the send buffer into outbound queues (10_denian_links.md R326, R339, R612). -/

namespace Sys2Proof.Machine

/-! ## Landing channels (R277) -/

/-- A channel of a core. -/
def State.chan (s : State) (c ch : Nat) : Channel := SMap.get Channel.init (s.core c).chans ch
def State.setChan (s : State) (c ch : Nat) (v : Channel) : State :=
  s.modCore c fun k => { k with chans := SMap.put Channel.init k.chans ch v }

/-- Bytes a channel holds at most. -/
def chanSize : Nat := 4096

/-- Bytes reach a channel by a medium; a REMOTE signal stands behind the last. -/
def State.landBytes (s : State) (c ch : Nat) (bs : List Byte) (m : Medium) (sig : Option (Nat × Nat)) : State :=
  let v := s.chan c ch
  let marks := match sig with | some g => v.marks ++ [(v.bytes.length + bs.length, g.1, g.2)] | none => v.marks
  s.setChan c ch ⟨v.bytes ++ bs, m, marks⟩

/-- Remove `n` bytes from the front of a channel; the REMOTE signals that stood behind them wait for the completion of run `key`. -/
def State.takeBytes (s : State) (c ch n key : Nat) : State × List Byte :=
  let v := s.chan c ch
  let got := v.marks.filter fun g => decide (g.1 ≤ n)
  let rest := (v.marks.filter fun g => decide (n < g.1)).map fun g => (g.1 - n, g.2)
  let s := s.setChan c ch ⟨v.bytes.drop n, v.medium, rest⟩
  (s.modCore c fun k => { k with remote := k.remote ++ got.map fun g => (key, g.2) }, v.bytes.take n)

/-- The run number by which REMOTE signals wait for a completion. -/
def runKey (e : QEntry) : Nat := e.id * 65536 + e.issued

/-- R278: a channel that holds too few bytes freezes the partition. -/
def State.awaitBytes (s : State) (q c ch : Nat) : State := s.freeze q (s.chan c ch).medium.cause c ch

/-! ## The send buffer (R279) -/

/-- The size of a send buffer. -/
def sendSize : Nat := 65536

/-- Bytes that stand in a send buffer in cycle `lc`: those for a link; those for the package mesh in the cc in which they enter, and while
their channel holds them back. -/
def Cluster.sendFill (k : Cluster) (lc : Nat) : Nat :=
  (k.send.map fun m => m.bytes.length).sum +
    ((k.mesh.filter fun g => g.left == 0 || g.entry == lc).map fun g => g.bytes.length).sum

/-- How many bytes the send buffer of a cluster takes in cycle `lc`. -/
def State.sendRoom (s : State) (cl lc : Nat) : Nat := sendSize - (s.cluster cl).sendFill lc

/-- Words that enter in cycle `lc`, as groups of the package mesh; `fin` says that the last byte of the run is among them. -/
def meshGroups (c lc : Nat) (t : SendRun) (fin : Bool) (bs : List Byte) : List MeshGrp :=
  let n := (bs.length + 255) / 256
  (List.range n).map fun i =>
    ⟨c, t.dcore, t.ch, (bs.drop (256 * i)).take 256, if fin && i + 1 == n then t.sig else none, lc,
      portDist (c / 8) (t.dcore / 64) (t.dcore / 8 % 8), 0⟩

/-- A message of a send buffer has a flit ready: 64 bytes, or its end. -/
def SendMsg.ready (m : SendMsg) : Bool :=
  decide (64 ≤ m.bytes.length) || (!m.bytes.isEmpty && m.drained + m.bytes.length == m.len)

/-- The ns in which a message's first flit was whole is kept. -/
def SendMsg.stamped (ns : Nat) (m : SendMsg) : SendMsg := if m.reach.isNone && m.ready then { m with reach := some ns } else m

/-- R326: bytes of a run put behind those before them, cut into messages of 4,096 bytes. `off` is the place of the first. -/
def linkPut (q c port : Nat) (hops : List Nat) (t : SendRun) : Nat → Nat → List Byte → List SendMsg → List SendMsg
  | 0, _, _, l => l
  | fuel + 1, off, bs, l =>
    if bs.isEmpty then l
    else
      let part := bs.take (4096 - off % 4096)
      let start := off / 4096 * 4096
      let len := min 4096 (t.total - start)
      let l :=
        if off % 4096 = 0 then
          l ++ [⟨q, c, t.run, port, hops, t.dcore, t.ch, len, part, 0, false, if start + len = t.total then t.sig else none, none⟩]
        else
          -- the message of this run begun before: its last
          let n := l.reverse.findIdx fun m => m.src == c && m.run == t.run
          l.modify (l.length - 1 - n) fun m => { m with bytes := m.bytes ++ part }
      linkPut q c port hops t fuel (off + part.length) (bs.drop part.length) l

/-- The words of a run that enter in cycle `lc`. -/
def SendRun.now (t : SendRun) (lc : Nat) : List (Nat × Nat) := t.words.takeWhile fun w => decide (w.1 ≤ lc)

/-- The words of one run of core `c` whose cycle has come enter the send buffer of its cluster. -/
def State.enterRun (s : State) (q c lc : Nat) (t : SendRun) : State :=
  let ws := t.now lc
  if ws.isEmpty then s
  else
    let bs := ws.flatMap fun w => toBytes 16 ((s.core c).cap w.2)
    let t' : SendRun := { t with off := t.off + bs.length, words := t.words.drop ws.length }
    let s := s.modCluster (c / 8) fun k =>
      match t.link with
      | none => { k with mesh := k.mesh ++ meshGroups c lc t t'.words.isEmpty bs }
      | some l => { k with send := (linkPut q c l.1 l.2 t (bs.length / 4096 + 2) t.off bs k.send).map (SendMsg.stamped s.refNs) }
    s.modCore c fun k =>
      { ws.foldl (fun k w => k.capture w.2 0) k with
        sends := k.sends.flatMap fun x => if x.run = t.run then (if t'.words.isEmpty then [] else [t']) else [x] }

/-- The words of a core that enter its cluster's send buffer in cycle `lc`. -/
def State.enterSends (s : State) (q c lc : Nat) : State := (s.core c).sends.foldl (fun t r => t.enterRun q c lc r) s

/-- Bytes of a core that are to enter in cycle `lc`. -/
def Core.sendDue (k : Core) (lc : Nat) : Nat := (k.sends.map fun t => 16 * (t.now lc).length).sum

/-- R279: the cores of a cluster whose words of cycle `lc` find no room, lower cores first. -/
def State.sendLate (s : State) (cl lc : Nat) : List Nat :=
  ((s.clusterCores cl).foldl (fun (acc : Nat × List Nat) c =>
    let n := (s.core c).sendDue lc
    if n = 0 then acc
    else if acc.1 + n ≤ s.sendRoom cl lc then (acc.1 + n, acc.2) else (acc.1, acc.2 ++ [c])) (0, [])).2

/-- R289: the cycles in which words enter the send buffer, each in the later of the cycle its data arrive and the cycle of the word before it,
from the cycles the data arrive in. -/
def entryCycles (lo : Nat) : List Nat → List Nat
  | [] => []
  | a :: r => max a lo :: entryCycles (max a lo) r

/-- A run of core `c` issued in cycle `lc` whose words (unit, word, request cycle) are read and sent. -/
def State.startSend (s : State) (c lc rank : Nat) (t : SendRun) (rs : List (Nat × Nat × Nat)) : State :=
  let g := (s.core c).nextKey
  let es := entryCycles lc (rs.map fun r => r.2.2 + ownRdLat r.1 r.2.1)
  let idx := (List.range rs.length).zip rs
  (s.planFor c (idx.map fun p =>
    { cc := rdCycle p.2.1 p.2.2.1 p.2.2.2, rank := rank, core := c, unit := p.2.1, word := p.2.2.1, act := .read (groupKey g p.1) })).modCore c
    fun k => { k.nextGroup with sends := k.sends ++ [{ t with run := g, words := (List.range es.length).zip es |>.map fun p => (p.2, groupKey g p.1) }] }

/-- The cycle after the last word of a run has entered. -/
def sendEnd (lc : Nat) (rs : List (Nat × Nat × Nat)) : Nat :=
  (entryCycles lc (rs.map fun r => r.2.2 + ownRdLat r.1 r.2.1)).getLast?.getD lc + 1

/-! ## SEND (R286, R289) -/

/-- Word `m` of a word with rows: its address in run `j`. -/
def rowWord (base rwords : Nat) (rstride step : Int) (j m : Nat) : Nat :=
  addrN (Int.ofNat base + Int.ofNat j * step + Int.ofNat (m / rwords) * rstride + Int.ofNat (m % rwords))

/-- The words of a SEND. -/
def sendWords (w : Nat) : Nat := (W.SEND_ROWS w + 1) * (W.SEND_RWORDS w + 1)

/-- Where a SEND goes. -/
def sendTo (w x : Nat) : SendRun :=
  let h := W.SENDX_HOPS x
  ⟨if h = 0 then none else some (W.SENDX_HOP x 0, (List.range (h - 1)).map fun n => W.SENDX_HOP x (n + 1)), W.SEND_DCORE w, W.SEND_CH w,
    if W.SIGTGT w = 2 ∧ W.SIGINC w ≠ 0 then some (W.SIGCTR w, W.SIGINC w) else none, 16 * sendWords w, 0, 0, []⟩

/-- The words of run `j` of a SEND issued in cycle `i`, up to 16 requested in each cycle from `i + 1` on. -/
def sendReads (w j i : Nat) : List (Nat × Nat × Nat) :=
  (List.range (sendWords w)).map fun m =>
    (W.SEND_STGT w, rowWord (W.SEND_SADDR w) (W.SEND_RWORDS w + 1) (W.SEND_RSTRIDE w) (W.SEND_RUNSTEP w) j m, i + 1 + m / 16)

/-- SEND: its reads are planned, and each word enters the send buffer in its cycle. -/
def State.sendRun (s : State) (c lc : Nat) (e : QEntry) : State :=
  let rs := sendReads e.lead e.issued lc
  (s.startSend c lc rkLink (sendTo e.lead e.ext) rs).endRun c 4 e (sendEnd lc rs)

/-! ## RECV (R290, R291) -/

/-- The words of a RECV, and the bytes it removes. -/
def recvWords (w : Nat) : Nat := (W.RECV_ROWS w + 1) * (W.RECV_RWORDS w + 1)

/-- The write latency of the cluster port into a core's own unit (Table 6.1, 16 + 2c for the core store). -/
def portWrLat (unit word : Nat) : Nat := if unit = 0 then 16 + 2 * csClass word else if unit = 1 then 6 else 4

/-- The word in which word `m` of run `j` of a RECV issued in cycle `i` lands, and the cycle. -/
def recvWord (w j m : Nat) : Nat := rowWord (W.RECV_DADDR w) (W.RECV_RWORDS w + 1) (W.RECV_RSTRIDE w) (W.RECV_RUNSTEP w) j m
def recvLand (w j i m : Nat) : Nat := i + m / 16 + portWrLat (W.RECV_DTGT w) (recvWord w j m)

/-- Words `m0` to `m0 + n - 1` of a RECV of core `c`: their bytes leave the channel, their writes are planned. -/
def State.recvWrites (s : State) (c w j i key m0 n : Nat) : State :=
  let v := s.takeBytes c (W.RECV_CH w) (16 * n) key
  v.1.planFor c ((List.range n).map fun d =>
    { cc := recvLand w j i (m0 + d), rank := rkPort, core := c, unit := W.RECV_DTGT w, word := recvWord w j (m0 + d),
      act := .write (ofBytes ((v.2.drop (16 * d)).take 16)) (2 ^ 128 - 1) })

/-- The words that a RECV takes in its issue cycle: all up to 4,096 bytes, of a longer one its first group (R291). -/
def recvFirst (w : Nat) : Nat := if recvWords w ≤ 256 then recvWords w else 16

/-- The bytes a RECV waits for at its issue. -/
def recvNeed (e : QEntry) : Nat := 16 * recvFirst e.lead

/-- RECV issues in cycle `lc`, when its bytes are there. `s0` is the state before the issue: a late arrival freezes the partition and the word
takes its bytes in the same logical cycle afterwards (R278). A longer one takes each further group in its own cycle. -/
def State.recvRun (s0 s : State) (q c lc : Nat) (e : QEntry) : State :=
  let w := e.lead
  let j := e.issued
  if (s0.chan c (W.RECV_CH w)).bytes.length < recvNeed e then s0.awaitBytes q c (W.RECV_CH w)
  else
    let last := (List.range (recvWords w)).foldl (fun m i => max m (recvLand w j lc i)) lc
    let s := (s.recvWrites c w j lc (runKey e) 0 (recvFirst w)).endRun c 4 e (last + 1)
    if recvWords w ≤ 256 then s else s.modCore c fun k => { k with recvs := k.recvs ++ [⟨w, j, runKey e, lc, 1⟩] }

/-- The words of the next group of a long RECV, and whether it is due in cycle `lc`. -/
def RecvRun.words (r : RecvRun) : Nat := min 16 (recvWords r.w - 16 * r.next)
def RecvRun.dueBy (r : RecvRun) (lc : Nat) : Bool := decide (r.at_ + r.next ≤ lc)

/-- R278, R291: a long RECV whose next group is due finds too few bytes. -/
def State.recvLate (s : State) (c lc : Nat) : Option RecvRun :=
  (s.core c).recvs.find? fun r => r.dueBy lc && decide ((s.chan c (W.RECV_CH r.w)).bytes.length < 16 * r.words)

/-- The groups of a core's long RECVs due in cycle `lc` are taken. -/
def State.recvCycle (s : State) (c lc : Nat) : State :=
  (s.core c).recvs.foldl (fun t r =>
    if r.dueBy lc then
      let r' := { r with next := r.next + 1 }
      (t.recvWrites c r.w r.run r.at_ r.key (16 * r.next) r.words).modCore c fun k =>
        { k with recvs := k.recvs.flatMap fun x => if x = r then (if recvWords r.w ≤ 16 * r'.next then [] else [r']) else [x] }
    else t) s

/-! ## PLEACH (R280, R281) -/

/-- Local words of the points of a PLEACH from a base, with the point's number. -/
def pleachWords (w base : Nat) : List (Nat × Nat) :=
  (List.range (genPoints w)).flatMap fun k =>
    (List.range (genEsz w)).map fun d => (k, addrN (Int.ofNat base + genOff (genLStr w) w k) + d)

/-- The bytes of a PLEACH. -/
def pleachBytes (w : Nat) : Nat := 16 * genEsz w * genPoints w

/-- Where the send half goes; none under NONE. -/
def pleachTo (w x : Nat) : Option SendRun :=
  let t (l : Option (Nat × List Nat)) : SendRun := ⟨l, W.PLEACHX_PCORE x, W.PLEACHX_CH x, none, pleachBytes w, 0, 0, []⟩
  match W.PLEACHX_PKIND x with
  | 1 => some (t none)
  | 2 => some (t (some (W.PLEACHX_PORT x, [])))
  | _ => none

/-- The source requests of the points of a PLEACH issued in cycle `i`, within the mover's 64 points (R276, R281): for each point its cycle;
answers also the landing cycles of the points in flight. A point is in flight until its element has entered the send buffer. -/
def pleachPoints (w i : Nat) (lands : List Nat) : List (Nat × Nat) × List Nat :=
  let r := (List.range (genPoints w)).foldl (fun (acc : List (Nat × Nat) × List Nat × Nat × Nat) k =>
    let s0 := freeFrom acc.2.1 (max (i + 1 + k) acc.2.2.1)
    let base := addrN (Int.ofNat (W.COPY_LBASE w) + genOff (genLStr w) w k)
    let there := (List.range (genEsz w)).foldl (fun m d => max m (s0 + ownRdLat 0 (base + d))) acc.2.2.2
    (acc.1 ++ (List.range (genEsz w)).map (fun d => (base + d, s0)), acc.2.1 ++ [there], s0, there)) ([], lands, 0, 0)
  (r.1, r.2.1)

/-- The end of a half: when both are done the word has a completion cycle. `phase` keeps the end of the send half, `aux2` of the other. -/
def State.pleachEnd (s : State) (c : Nat) (id : Nat) : State :=
  s.modCore c fun z => z.modEntry 3 id fun y => y.setDue (max y.aux2 y.phase)

/-- PLEACH: the send half issues in cycle `lc`; `aux` keeps the issue cycle plus 1. -/
def State.pleachRun (s : State) (c lc : Nat) (e : QEntry) : State :=
  let w := e.lead
  let s := s.endRun c 3 e notYet
  let set (s : State) (end_ free : Nat) : State :=
    s.modCore c fun z => { z.modEntry 3 e.id (fun y => { y with phase := end_, aux := lc + 1 }) with movFree := free }
  match pleachTo w e.ext with
  | none => set s (lc + 1) (lc + 1)
  | some t =>
    let ps := pleachPoints w lc ((s.core c).movLands.filter fun x => decide (lc < x))
    let rs := ps.1.map fun p => (0, p.1, p.2)
    let s := (s.startSend c lc rkMover t rs).modCore c fun k => { k with movLands := ps.2 }
    set s (sendEnd lc rs) ((ps.1.getLast?.map (·.2)).getD lc + 1)

/-- The PLEACH of core `c` whose receive half is due in cycle `lc`. -/
def State.pleachDue (s : State) (c lc : Nat) : Option QEntry :=
  (s.core c).mov.find? fun e =>
    W.OPCODE e.lead == 0x31 && decide (e.aux ≠ 0) && decide (e.aux2 = 0) && decide (e.aux - 1 + W.PLEACHX_DUE e.ext ≤ lc)

/-- PLEACH_RECEIVE: the receive half. -/
def State.pleachRecv (s : State) (q c : Nat) (e : QEntry) : State :=
  let w := e.lead
  let x := e.ext
  let n := pleachBytes w
  let none_ := W.PLEACHX_PKIND x == 0
  let ch := W.PLEACHX_CH x
  if !none_ && decide ((s.chan c ch).bytes.length < n) then s.awaitBytes q c ch
  else
    let v := if none_ then (s, padBytes w n) else s.takeBytes c ch n (e.id * 65536)
    let at_ := e.aux - 1 + W.PLEACHX_DUE x
    let ws := pleachWords w (W.PLEACHX_HALO x)
    let ps : List Plan := ((List.range ws.length).zip ws).map fun p =>
      { cc := at_ + p.2.1 + 16 + 2 * csClass p.2.2, rank := rkPort, core := c, unit := 0, word := p.2.2,
        act := .write (ofBytes ((v.2.drop (16 * p.1)).take 16)) (2 ^ 128 - 1) }
    ((v.1.planFor c ps).modCore c fun z => z.modEntry 3 e.id fun y => { y with aux2 := lastCc ps at_ + 1 }).pleachEnd c e.id

/-! ## The package mesh and the drain of the send buffer -/

/-- R277: group `h` reaches the channel of `g` before it: it has waited longer there, or arrived in the same cc from a lower core. -/
def MeshGrp.before (h g : MeshGrp) : Bool :=
  h.dcore == g.dcore && h.ch == g.ch && h.left == 0 && (decide (g.held < h.held) || (g.held == h.held && decide (h.src < g.src)))

/-- The first group of a cluster's mesh that has travelled, whose channel has room, and that no other group of its channel precedes. -/
def State.meshReady (s : State) (cl : Nat) : Option Nat :=
  let l := (s.cluster cl).mesh
  (List.range l.length).find? fun i =>
    match l[i]? with
    | none => false
    | some g =>
      g.left == 0 && !((l.take i).any fun h => h.dcore == g.dcore && h.ch == g.ch && h.src == g.src)
        && !(s.clusters.any fun e => e.2.mesh.any fun h => h.before g)
        && decide ((s.chan g.dcore g.ch).bytes.length + g.bytes.length ≤ chanSize)

/-- LANDING_ARRIVAL of a group. -/
def State.meshArrive (s : State) (cl i : Nat) : State :=
  match (s.cluster cl).mesh[i]? with
  | none => s
  | some g =>
    let s := s.modCluster cl fun k => { k with mesh := k.mesh.eraseIdx i }
    s.landBytes g.dcore g.ch g.bytes .mesh g.sig

/-- R609: bytes that have entered travel one cc, also while the partition is frozen, but for those of the cycle that is not to begin (R306). -/
def State.meshTick (s : State) (p : Part) (cl : Nat) : State :=
  if (s.cluster cl).mesh.isEmpty then s
  else s.modCluster cl fun k =>
    { k with mesh := k.mesh.map fun g =>
        if p.frozen ∧ g.entry = p.lc then g
        else if g.left = 0 then { g with held := g.held + 1 } else { g with left := g.left - 1 } }

/-- R609: what has travelled and finds room in its channel lands as the cc begins, `n` groups at most. -/
def State.landAll (s : State) (q : Nat) : Nat → State
  | 0 => s
  | n + 1 =>
    match (s.partClusters q).findSome? fun cl => (s.meshReady cl).map fun i => (cl, i) with
    | some x => (s.meshArrive x.1 x.2).landAll q n
    | none => s

/-- The flits of an outbound SCHED queue. -/
def Port.schedFill (p : Port) : Nat := (p.sched.map fun m => m.flits.length).sum

/-- R339: the queue is not in the middle of a message. -/
def Port.whole (p : Port) : Bool := match p.sched.getLast? with | some m => m.entered == m.total | none => true

/-- The open message of a port is the one a send buffer is draining. -/
def Port.isOpen (p : Port) (m : SendMsg) : Bool :=
  match p.sched.getLast? with
  | some o => o.q == some m.q && o.src == m.src && o.entered != o.total && o.entered * 64 == m.drained
  | none => false

/-- R306: a freeze stops the draining of the partition's send buffers. DEDUCED (log 64): not one that awaits room in a send buffer, which
ends only as that drains (R279, R307). -/
def State.drains (s : State) (q : Nat) : Bool :=
  !(s.part q).frozen || (s.partClusters q).any fun cl => !(s.sendLate cl (s.part q).lc).isEmpty

/-- R340: a message of a receive buffer has a flit whose way through the part is over. -/
def RxMsg.ripe (m : RxMsg) (ns : Nat) : Bool := match m.flits with | f :: _ => decide (f.1 ≤ ns) | [] => false

/-- The next flit of a message with HOPSLEFT 0 leaves: its channel has room, or no live partition takes it. -/
def State.lands (s : State) (m : RxMsg) : Bool :=
  match s.partOf (m.dcore / 8) with
  | some q => !(s.part q).jobLive || decide ((s.chan m.dcore m.ch).bytes.length + min 64 (m.len - 64 * m.passed) ≤ chanSize)
  | none => true

/-- The messages of a port whose flit is ripe, up to one that a full landing channel holds: it holds those behind it (R331). -/
def State.rxRipe (s : State) (n : Nat) : List RxMsg := ((s.port n).rx.filter fun m => m.ripe s.refNs).takeWhile fun m => !m.hops.isEmpty || s.lands m

/-- R333, R339: the first flits that wait to enter the outbound SCHED queue of port `h`: the ns in which each reached the I/O die, and where
it comes from: an arrival port, or 1024 plus a sending core. DESIGN CHOICE (log 70): the first flit of a send buffer's message reaches
the I/O die in the ns in which it is whole. -/
def State.schedClaims (s : State) (h : Nat) : List (Nat × Nat) :=
  s.ports.flatMap (fun e => (s.rxRipe e.1).filterMap fun m =>
    if m.passed = 0 ∧ m.hops.head? = some h then some ((m.flits.headD (0, [])).1, e.1) else none)
  ++ s.clusters.filterMap fun e => match e.2.send.find? fun m => m.port == h with
    | some m => if m.drained = 0 ∧ m.ready ∧ s.drains m.q then some (m.reach.getD 0, 1024 + m.src) else none
    | none => none

/-- A first flit enters before those that reached the I/O die after it; of one ns, the lower arrival port first, then the lower sending core. -/
def State.schedLeads (s : State) (h at_ key : Nat) : Bool :=
  (s.schedClaims h).all fun c => decide (at_ < c.1) || (at_ == c.1 && decide (key ≤ c.2))

/-- A message can drain one flit now: into its open message, into a queue at a message's end, or away (R612, R357). -/
def State.canDrain (s : State) (m : SendMsg) : Bool :=
  let p := s.port m.port
  m.ready && s.drains m.q && (m.drop || (decide (m.drained > 0) && !p.isOpen m) || (m.drained == 0 && s.fld F.PORT_STAT_STATE m.port != 3)
    || (decide (p.schedFill < 256)
      && (p.isOpen m || (m.drained == 0 && p.whole && s.schedLeads m.port (m.reach.getD 0) (1024 + m.src)))))

/-- The message of a cluster that drains next: the first of its port that can. -/
def State.drainNext (s : State) (cl : Nat) : Option Nat :=
  let l := (s.cluster cl).send
  (List.range l.length).find? fun i =>
    match l[i]? with
    | none => false
    | some m => !((l.take i).any fun h => h.port == m.port) && s.canDrain m

/-- A flit padded with zeros (R326). -/
def padFlit (b : List Byte) : List Byte := b ++ List.replicate (64 - b.length) 0

/-- Put a flit of a message into its port's outbound queue. -/
def Port.takeFlit (p : Port) (m : SendMsg) (f : List Byte) : Port :=
  if m.drained = 0 then
    { p with sched := p.sched ++ [⟨some m.q, m.hops, m.dcore, m.ch, m.src, m.len, m.sig, [padFlit f], 1, false⟩] }
  else
    { p with sched := p.sched.modify (p.sched.length - 1) fun o => { o with flits := o.flits ++ [padFlit f], entered := o.entered + 1 } }

/-- SEND_BUFFER_DRAIN of message `i`: one flit leaves. -/
def State.drainFlit (s : State) (cl i : Nat) : State :=
  match (s.cluster cl).send[i]? with
  | none => s
  | some m =>
    let f := m.bytes.take 64
    let bad := m.drained == 0 && s.fld F.PORT_STAT_STATE m.port != 3
    let gone := m.drop || bad || (decide (m.drained > 0) && !(s.port m.port).isOpen m)
    let m' := { m with bytes := m.bytes.drop 64, drained := m.drained + f.length, drop := gone }
    let s := s.modCluster cl fun k =>
      { k with send := if m'.drained = m.len then k.send.eraseIdx i else k.send.set i m' }
    if bad then (s.addFld F.PORT_DISC_BADHOP m.port 1).raise (64 + 4 * m.port + 3)
    else if gone then s
    else s.modPort m.port fun p => p.takeFlit m f

/-- Every ns, what finds room leaves the send buffers, `n` flits at most. -/
def State.drainAll (s : State) : Nat → State
  | 0 => s
  | n + 1 =>
    match s.clusters.findSome? fun e => (s.drainNext e.1).map fun i => (e.1, i) with
    | some x => (s.drainFlit x.1 x.2).drainAll n
    | none => s

/-- The flits that the send buffers hold, no fewer. -/
def State.sendFlits (s : State) : Nat := (s.clusters.map fun e => (e.2.send.map fun m => m.bytes.length / 64 + 1).sum).sum

/-! ## The rows -/

/-- SEND (R289). -/
def execSend (core : Nat) (s : State) : Res :=
  match s.issueOp core 4 0x40 with
  | some i => done s (i.s.sendRun core i.lc i.e)
  | none => done s s

/-- SEND_COMPLETE (R289). -/
def execSendComplete (core : Nat) (s : State) : Res := done s (s.completeBy core 4 [0x40])

/-- RECV (R291). -/
def State.recvRow (s : State) (core : Nat) : State :=
  match s.issueOp core 4 0x41 with
  | some i => s.recvRun i.s i.q core i.lc i.e
  | none => s

/-- RECV. -/
def execRecv (core : Nat) (s : State) : Res := done s (s.lateRow core fun t => t.recvRow core)

/-- RECV_COMPLETE (R291). -/
def execRecvComplete (core : Nat) (s : State) : Res := done s (s.completeBy core 4 [0x41])

/-- PLEACH (R281): its send half. -/
def execPleach (core : Nat) (s : State) : Res :=
  match s.issueOp core 3 0x31 with
  | some i => done s (i.s.pleachRun core i.lc i.e)
  | none => done s s

/-- PLEACH_RECEIVE (R281). -/
def State.pleachRecvRow (s : State) (core : Nat) : State :=
  match s.seqLive core with
  | some (q, lc) => match s.pleachDue core lc with | some e => s.pleachRecv q core e | none => s
  | none => s

/-- PLEACH_RECEIVE. -/
def execPleachReceive (core : Nat) (s : State) : Res := done s (s.lateRow core fun t => t.pleachRecvRow core)

/-- PLEACH_COMPLETE (R281). -/
def execPleachComplete (core : Nat) (s : State) : Res := done s (s.completeBy core 3 [0x31])

/-- LANDING_ARRIVAL (R609). -/
def execLandingArrival (cl : Nat) (s : State) : Res :=
  match s.meshReady cl with
  | some i => done s (s.meshArrive cl i)
  | none => done s s

/-- SEND_BUFFER_DRAIN (R339). -/
def execSendBufferDrain (cl : Nat) (s : State) : Res :=
  match s.drainNext cl with
  | some i => done s (s.drainFlit cl i)
  | none => done s s

end Sys2Proof.Machine
end

