-- ==== Sys2Proof/Machine/Sha.lean ====
section
/-! DEFINITION. The Secure Hash Algorithms that the spec names (05 R172, 13 R441, 16 R517): SHA-256 and SHA-384 of FIPS 180-4, over
lists of bytes. The constants are those of FIPS 180-4. -/

namespace Sys2Proof.Machine

/-- Parameters of one algorithm of the family: word bits, rounds' constants, the rotations of the four functions. -/
structure ShaAlg where
  bits : Nat
  k : List Nat
  h0 : List Nat
  big0 : List Nat
  big1 : List Nat
  /-- Two rotations and a shift. -/
  sm0 : List Nat
  sm1 : List Nat

/-- FIPS 180-4, 4.2.2: constants of SHA-256. -/
def shaK256_0 : List Nat :=
  [0x428A2F98, 0x71374491, 0xB5C0FBCF, 0xE9B5DBA5, 0x3956C25B, 0x59F111F1, 0x923F82A4, 0xAB1C5ED5,
   0xD807AA98, 0x12835B01, 0x243185BE, 0x550C7DC3, 0x72BE5D74, 0x80DEB1FE, 0x9BDC06A7, 0xC19BF174]
/-- FIPS 180-4, 4.2.2: constants of SHA-256. -/
def shaK256_1 : List Nat :=
  [0xE49B69C1, 0xEFBE4786, 0x0FC19DC6, 0x240CA1CC, 0x2DE92C6F, 0x4A7484AA, 0x5CB0A9DC, 0x76F988DA,
   0x983E5152, 0xA831C66D, 0xB00327C8, 0xBF597FC7, 0xC6E00BF3, 0xD5A79147, 0x06CA6351, 0x14292967]
/-- FIPS 180-4, 4.2.2: constants of SHA-256. -/
def shaK256_2 : List Nat :=
  [0x27B70A85, 0x2E1B2138, 0x4D2C6DFC, 0x53380D13, 0x650A7354, 0x766A0ABB, 0x81C2C92E, 0x92722C85,
   0xA2BFE8A1, 0xA81A664B, 0xC24B8B70, 0xC76C51A3, 0xD192E819, 0xD6990624, 0xF40E3585, 0x106AA070]
/-- FIPS 180-4, 4.2.2: constants of SHA-256. -/
def shaK256_3 : List Nat :=
  [0x19A4C116, 0x1E376C08, 0x2748774C, 0x34B0BCB5, 0x391C0CB3, 0x4ED8AA4A, 0x5B9CCA4F, 0x682E6FF3,
   0x748F82EE, 0x78A5636F, 0x84C87814, 0x8CC70208, 0x90BEFFFA, 0xA4506CEB, 0xBEF9A3F7, 0xC67178F2]
/-- FIPS 180-4, 4.2.2: constants of SHA-256. -/
def shaK256_ : List Nat := shaK256_0 ++ shaK256_1 ++ shaK256_2 ++ shaK256_3
/-- FIPS 180-4, 5.3.3: the initial value of SHA-256. -/
def shaH256 : List Nat :=
  [0x6A09E667, 0xBB67AE85, 0x3C6EF372, 0xA54FF53A, 0x510E527F, 0x9B05688C, 0x1F83D9AB, 0x5BE0CD19]
/-- FIPS 180-4, 4.2.3: constants of SHA-384 and SHA-512. -/
def shaK512_0 : List Nat :=
  [0x428A2F98D728AE22, 0x7137449123EF65CD, 0xB5C0FBCFEC4D3B2F, 0xE9B5DBA58189DBBC,
   0x3956C25BF348B538, 0x59F111F1B605D019, 0x923F82A4AF194F9B, 0xAB1C5ED5DA6D8118,
   0xD807AA98A3030242, 0x12835B0145706FBE, 0x243185BE4EE4B28C, 0x550C7DC3D5FFB4E2,
   0x72BE5D74F27B896F, 0x80DEB1FE3B1696B1, 0x9BDC06A725C71235, 0xC19BF174CF692694]
/-- FIPS 180-4, 4.2.3: constants of SHA-384 and SHA-512. -/
def shaK512_1 : List Nat :=
  [0xE49B69C19EF14AD2, 0xEFBE4786384F25E3, 0x0FC19DC68B8CD5B5, 0x240CA1CC77AC9C65,
   0x2DE92C6F592B0275, 0x4A7484AA6EA6E483, 0x5CB0A9DCBD41FBD4, 0x76F988DA831153B5,
   0x983E5152EE66DFAB, 0xA831C66D2DB43210, 0xB00327C898FB213F, 0xBF597FC7BEEF0EE4,
   0xC6E00BF33DA88FC2, 0xD5A79147930AA725, 0x06CA6351E003826F, 0x142929670A0E6E70]
/-- FIPS 180-4, 4.2.3: constants of SHA-384 and SHA-512. -/
def shaK512_2 : List Nat :=
  [0x27B70A8546D22FFC, 0x2E1B21385C26C926, 0x4D2C6DFC5AC42AED, 0x53380D139D95B3DF,
   0x650A73548BAF63DE, 0x766A0ABB3C77B2A8, 0x81C2C92E47EDAEE6, 0x92722C851482353B,
   0xA2BFE8A14CF10364, 0xA81A664BBC423001, 0xC24B8B70D0F89791, 0xC76C51A30654BE30,
   0xD192E819D6EF5218, 0xD69906245565A910, 0xF40E35855771202A, 0x106AA07032BBD1B8]
/-- FIPS 180-4, 4.2.3: constants of SHA-384 and SHA-512. -/
def shaK512_3 : List Nat :=
  [0x19A4C116B8D2D0C8, 0x1E376C085141AB53, 0x2748774CDF8EEB99, 0x34B0BCB5E19B48A8,
   0x391C0CB3C5C95A63, 0x4ED8AA4AE3418ACB, 0x5B9CCA4F7763E373, 0x682E6FF3D6B2B8A3,
   0x748F82EE5DEFB2FC, 0x78A5636F43172F60, 0x84C87814A1F0AB72, 0x8CC702081A6439EC,
   0x90BEFFFA23631E28, 0xA4506CEBDE82BDE9, 0xBEF9A3F7B2C67915, 0xC67178F2E372532B]
/-- FIPS 180-4, 4.2.3: constants of SHA-384 and SHA-512. -/
def shaK512_4 : List Nat :=
  [0xCA273ECEEA26619C, 0xD186B8C721C0C207, 0xEADA7DD6CDE0EB1E, 0xF57D4F7FEE6ED178,
   0x06F067AA72176FBA, 0x0A637DC5A2C898A6, 0x113F9804BEF90DAE, 0x1B710B35131C471B,
   0x28DB77F523047D84, 0x32CAAB7B40C72493, 0x3C9EBE0A15C9BEBC, 0x431D67C49C100D4C,
   0x4CC5D4BECB3E42B6, 0x597F299CFC657E2A, 0x5FCB6FAB3AD6FAEC, 0x6C44198C4A475817]
/-- FIPS 180-4, 4.2.3: constants of SHA-384 and SHA-512. -/
def shaK512_ : List Nat := shaK512_0 ++ shaK512_1 ++ shaK512_2 ++ shaK512_3 ++ shaK512_4
/-- FIPS 180-4, 5.3.4: the initial value of SHA-384. -/
def shaH384 : List Nat :=
  [0xCBBB9D5DC1059ED8, 0x629A292A367CD507, 0x9159015A3070DD17, 0x152FECD8F70E5939,
   0x67332667FFC00B31, 0x8EB44A8768581511, 0xDB0C2E0D64F98FA7, 0x47B5481DBEFA4FA4]

def sha256Alg : ShaAlg := ⟨32, shaK256_, shaH256, [2, 13, 22], [6, 11, 25], [7, 18, 3], [17, 19, 10]⟩
def sha384Alg : ShaAlg := ⟨64, shaK512_, shaH384, [28, 34, 39], [14, 18, 41], [1, 8, 7], [19, 61, 6]⟩

namespace Sha

/-- Rotate right within the word. -/
def rotr (a : ShaAlg) (n x : Nat) : Nat := x / 2 ^ n + x % 2 ^ n * 2 ^ (a.bits - n)

/-- The sum of three rotations, and of two rotations and a shift, modulo 2. -/
def sum3 (a : ShaAlg) (r : List Nat) (x : Nat) : Nat := r.foldl (fun v n => v ^^^ rotr a n x) 0
def sumSh (a : ShaAlg) (r : List Nat) (x : Nat) : Nat :=
  rotr a (r.getD 0 0) x ^^^ rotr a (r.getD 1 0) x ^^^ (x / 2 ^ r.getD 2 0)

/-- The message schedule: words so far, newest first. -/
def extend (a : ShaAlg) : Nat → List Nat → List Nat
  | 0, w => w
  | n + 1, w =>
    let x := (sumSh a a.sm1 (w.getD 1 0) + w.getD 6 0 + sumSh a a.sm0 (w.getD 14 0) + w.getD 15 0) % 2 ^ a.bits
    extend a n (x :: w)

/-- One round on the eight working words. -/
def round (a : ShaAlg) (v : List Nat) (kw : Nat × Nat) : List Nat :=
  match v with
  | [va, vb, vc, vd, ve, vf, vg, vh] =>
    let m := 2 ^ a.bits
    let ch := (ve &&& vf) ^^^ ((m - 1 - ve) &&& vg)
    let t1 := (vh + sum3 a a.big1 ve + ch + kw.1 + kw.2) % m
    let maj := (va &&& vb) ^^^ (va &&& vc) ^^^ (vb &&& vc)
    let t2 := (sum3 a a.big0 va + maj) % m
    [(t1 + t2) % m, va, vb, vc, (vd + t1) % m, ve, vf, vg]
  | _ => v

/-- A number of bytes, most significant first. -/
def beNat (bs : List Byte) : Nat := bs.foldl (fun v b => v * 256 + b.toNat) 0
def beBytes (n v : Nat) : List Byte := (toBytes n v).reverse

/-- The bytes of a block. -/
def blockLen (a : ShaAlg) : Nat := a.bits * 2

/-- Words of a block. -/
def blockWords (a : ShaAlg) (b : List Byte) : List Nat :=
  let n := a.bits / 8
  (List.range 16).map fun i => beNat ((b.drop (n * i)).take n)

/-- The compression of one block. -/
def compress (a : ShaAlg) (h : List Nat) (b : List Byte) : List Nat :=
  let w := (extend a (a.k.length - 16) (blockWords a b).reverse).reverse
  let v := (a.k.zip w).foldl (round a) h
  (h.zip v).map fun p => (p.1 + p.2) % 2 ^ a.bits

/-- Hash whole blocks; answers the state and the bytes that fill no block. -/
def blocks (a : ShaAlg) : Nat → List Nat → List Byte → List Nat × List Byte
  | 0, h, m => (h, m)
  | fuel + 1, h, m =>
    if m.length < blockLen a then (h, m) else blocks a fuel (compress a h (m.take (blockLen a))) (m.drop (blockLen a))

/-- The padding of a message of `n` bytes. -/
def pad (a : ShaAlg) (n : Nat) : List Byte :=
  let b := blockLen a
  let l := b / 8
  let z := (b + b - (n + 1 + l) % b) % b
  0x80 :: (List.replicate z 0 ++ beBytes l (8 * n))

/-- The bytes of a state. -/
def stateBytes (a : ShaAlg) (h : List Nat) : List Byte := h.flatMap (beBytes (a.bits / 8))

/-- Read a state from bytes. -/
def stateOf (a : ShaAlg) (b : List Byte) : List Nat :=
  let n := a.bits / 8
  (List.range 8).map fun i => beNat ((b.drop (n * i)).take n)

/-- The state after a message. -/
def hash (a : ShaAlg) (m : List Byte) : List Nat :=
  let p := m ++ pad a m.length
  (blocks a (p.length / blockLen a + 1) a.h0 p).1

end Sha

/-- SHA-256 of a message. -/
def sha256 (m : List Byte) : List Byte := Sha.stateBytes sha256Alg (Sha.hash sha256Alg m)
/-- SHA-384 of a message. -/
def sha384 (m : List Byte) : List Byte := (Sha.stateBytes sha384Alg (Sha.hash sha384Alg m)).take 48

end Sys2Proof.Machine
end

