-- ==== Sys2Proof/Machine/ThktDesc.lean ====
section
/-! DEFINITION. Thicket descriptors (05_thicket.md Tables 5.2 to 5.9): fields, legality at acceptance (R150, R151), the
fixed ranges a descriptor reaches, and its latency (R156). -/

namespace Sys2Proof.Machine

namespace TD

/-! Table 5.2, the header. -/
def KIND (r : Nat) : Nat := bits r 127 125
def ENGINE (r : Nat) : Nat := bits r 124 121
def TIMED (r : Nat) : Nat := bits r 120 120
def MODE (r : Nat) : Nat := bits r 119 117
def DUE (r : Nat) : Nat := bits r 116 97
def TCLUSTER (r : Nat) : Nat := bits r 96 94
def TSLOT (r : Nat) : Nat := bits r 93 91
def SIGCTR (r : Nat) : Nat := bits r 90 86
def SIGINC (r : Nat) : Nat := bits r 85 78
def STATADDR (r : Nat) : Nat := bits r 77 60
def STATEN (r : Nat) : Nat := bits r 59 59
def EVENT (r : Nat) : Nat := bits r 58 58
def EXTRA (r : Nat) : Nat := bits r 57 42
def RES (r : Nat) : Nat := bits r 41 0

/-- Bytes `lo` to `hi` of a descriptor, little-endian. -/
def fb (r lo hi : Nat) : Nat := bits r (8 * hi + 7) (8 * lo)

/-! Table 5.3. -/
def IDXADDR (r : Nat) : Nat := fb r 16 21
def TABLE (r : Nat) : Nat := fb r 22 27
def OTHER (r : Nat) : Nat := fb r 28 33
def TPITCH (r : Nat) : Nat := fb r 34 37
def OPITCH (r : Nat) : Nat := fb r 38 41
def LIMIT (r : Nat) : Nat := fb r 42 45
def COUNT (r : Nat) : Nat := fb r 46 47
def RBYTES (r : Nat) : Nat := fb r 48 51
def PAD (r : Nat) : Nat := fb r 52 55
/-! Table 5.4. -/
def SRCK (r : Nat) : Nat := fb r 16 21
def SRCV (r : Nat) : Nat := fb r 22 27
def PLIST (r : Nat) : Nat := fb r 28 33
def SUMBASE (r : Nat) : Nat := fb r 34 39
def POS0 (r : Nat) : Nat := fb r 40 43
def P (r : Nat) : Nat := fb r 44 45
def H (r : Nat) : Nat := fb r 46 46
def KFMT (r : Nat) : Nat := fb r 47 47 % 128
def KSCL (r : Nat) : Nat := fb r 47 47 / 128
def KD (r : Nat) : Nat := fb r 48 49
def PCOUNT (r : Nat) : Nat := fb r 50 53
/-- R163: the bytes of one head row of D elements, its block scales included. -/
def Db (r : Nat) : Nat := KD r * (if KFMT r = 9 then 2 else 1) + (if KSCL r = 1 then (KD r + 31) / 32 else 0)
/-! Table 5.5. -/
def SRC (r : Nat) : Nat := fb r 16 21
def DST (r : Nat) : Nat := fb r 22 27
def DST3 (r : Nat) : Nat := fb r 28 33
def N (r : Nat) : Nat := fb r 34 37
def K (r : Nat) : Nat := fb r 38 39
def G (r : Nat) : Nat := fb r 40 40
def D (r : Nat) : Nat := fb r 41 42
def SINK (r : Nat) : Nat := fb r 43 44
def LOCAL (r : Nat) : Nat := fb r 45 46
def TOPP (r : Nat) : Nat := fb r 28 31
def KEY (r : Nat) : Nat := fb r 48 55
def CTR (r : Nat) : Nat := fb r 56 63
/-! Table 5.6. -/
def SCL (r : Nat) : Nat := fb r 28 33
def ROWS (r : Nat) : Nat := fb r 34 37
def COLS (r : Nat) : Nat := fb r 38 41
def SPITCH (r : Nat) : Nat := fb r 42 45
def DPITCH (r : Nat) : Nat := fb r 46 49
def IFMT (r : Nat) : Nat := fb r 50 50 % 16
def OFMT (r : Nat) : Nat := fb r 50 50 / 16
def OPT (r i : Nat) : Nat := fb r 51 51 / 2 ^ i % 2
def ESZ (r : Nat) : Nat := fb r 51 51 / 16 % 4
def OZP (r : Nat) : Nat := fb r 52 52
/-! Table 5.7. -/
def FN (r : Nat) : Nat := fb r 46 49
def DEFIN (r : Nat) : Nat := fb r 22 27
def DEFOUT (r : Nat) : Nat := fb r 28 33
def SLOTBASE (r : Nat) : Nat := fb r 34 39
def LOGBASE (r : Nat) : Nat := fb r 40 45
def T (r : Nat) : Nat := fb r 46 47
def KC (r : Nat) : Nat := fb r 48 48
def E (r : Nat) : Nat := fb r 49 50
def C (r : Nat) : Nat := fb r 51 52
def POLICY (r : Nat) : Nat := fb r 53 53
def DEFCAP (r : Nat) : Nat := fb r 54 55
def LOGLEN (r : Nat) : Nat := fb r 56 56
/-! Table 5.8. -/
def RADDR (r i : Nat) : Nat := fb r (16 + 10 * i) (21 + 10 * i)
def RLEN (r i : Nat) : Nat := fb r (22 + 10 * i) (25 + 10 * i)
def STATE (r : Nat) : Nat := fb r 56 61

/-- R172: MODE of a DIGEST: bit 0 CONTINUE, bit 2 FINAL. -/
def cont (r : Nat) : Bool := (MODE r).testBit 0
def final (r : Nat) : Bool := (MODE r).testBit 2
/-- The ranges of a DIGEST of length above 0. -/
def ranges (r : Nat) : List (Nat × Nat) := ((List.range 4).map fun i => (RADDR r i, RLEN r i)).filter fun p => p.2 != 0
def total (r : Nat) : Nat := ((ranges r).map (·.2)).sum

end TD

/-- Table 5.1: the kind of an engine. -/
def engineKind (e : Nat) : Nat :=
  if e ≤ 3 then 0 else if e ≤ 6 then 1 else if e ≤ 9 then 2 else if e ≤ 13 then 3 else if e = 14 then 4 else 5

/-- Bytes 16 to 63 that a body leaves unused are zero. -/
def bodyZero (r : Nat) (used : List (Nat × Nat)) : Bool :=
  (List.range 48).all fun i => used.any (fun u => decide (u.1 ≤ i + 16 ∧ i + 16 ≤ u.2)) || TD.fb r (i + 16) (i + 16) == 0

/-- The modes of each kind (R162, R163, R165 to R172). -/
def modeOk (r : Nat) : Bool :=
  let m := TD.MODE r
  match TD.KIND r with
  | 0 => decide (m ≤ 1) | 1 => decide (m ≤ 1) | 2 => decide (m ≤ 3) | 3 => decide (m ≤ 2) | 4 => decide (m ≤ 1)
  | 5 => m == 0 || m == 1 || m == 4 || m == 5
  | _ => false

/-- Legality of a GATHER or SCATTER ROW body; LIMIT is ignored in PAGE mode. -/
def rowOk (page : Bool) (r : Nat) : Bool :=
  bodyZero r [(16, 55)] && decide (TD.OPITCH r % 16 = 0 ∧ TD.TPITCH r % 16 = 0) && decide (1 ≤ TD.COUNT r ∧ TD.COUNT r ≤ 8192)
    && decide (16 ≤ TD.RBYTES r ∧ TD.RBYTES r ≤ 65536 ∧ TD.RBYTES r % 16 = 0)
    && (page || decide (1 ≤ TD.LIMIT r ∧ TD.LIMIT r < 2 ^ 31))

/-- Legality of a KVAPPEND body. -/
def kvOk (r : Nat) : Bool :=
  bodyZero r [(16, 53)] && decide (TD.POS0 r < 2 ^ 24) && decide (1 ≤ TD.P r ∧ TD.P r ≤ 256)
    && decide (1 ≤ TD.H r ∧ TD.H r ≤ 16) && (TD.KFMT r == 0 || TD.KFMT r == 1 || TD.KFMT r == 9)
    && !(TD.KFMT r == 9 && TD.KSCL r == 1)
    && decide (16 ≤ TD.KD r ∧ TD.KD r ≤ 256 ∧ TD.KD r % 16 = 0) && decide (1 ≤ TD.PCOUNT r ∧ TD.PCOUNT r ≤ 65536)

/-- N and K of TOPK and SAMPLE. -/
def nkOk (r : Nat) : Bool :=
  decide (1 ≤ TD.N r ∧ TD.N r ≤ 1048576) && decide (1 ≤ TD.K r ∧ TD.K r ≤ 256) && decide (TD.K r ≤ TD.N r)

/-- Legality of a PAGESCORE body. -/
def pageOk (r : Nat) : Bool :=
  bodyZero r [(16, 46)] && decide (1 ≤ TD.N r ∧ TD.N r ≤ 65536) && decide (1 ≤ TD.K r ∧ TD.K r ≤ 256)
    && decide (1 ≤ TD.G r ∧ TD.G r ≤ 16) && decide (16 ≤ TD.D r ∧ TD.D r ≤ 256 ∧ TD.D r % 16 = 0)
    && decide (TD.SINK r ≤ 255 ∧ TD.LOCAL r ≤ 255) && decide (TD.SINK r + TD.LOCAL r ≤ TD.N r)
    && decide (TD.K r + TD.SINK r + TD.LOCAL r ≤ TD.N r)

/-- Legality of an XFORM body. -/
def xformOk (r : Nat) : Bool :=
  bodyZero r [(16, 52)] && decide (1 ≤ TD.ROWS r ∧ TD.ROWS r ≤ 65536) && decide (1 ≤ TD.COLS r ∧ TD.COLS r ≤ 65536)
    && TD.fb r 51 51 / 64 == 0 && decide (TD.IFMT r < 14 ∧ TD.OFMT r < 14)
    && (match TD.MODE r with
      | 0 => decide (TD.ESZ r ≤ 2)
      | 1 => true
      | _ =>
        match Fmt.ofCode (TD.OFMT r) with
        | none => false
        | some f =>
          (TD.OPT r 0 == 0 || (decide (f.bits ≤ 8) && f != .uint8 && f != .uint4 && TD.OZP r == 0))
            && (!f.is4 || !f.isInt || !zpBad f (TD.OZP r)))

/-- Legality of a MOE body. -/
def moeOk (r : Nat) : Bool :=
  bodyZero r [(16, 56)] && decide (1 ≤ TD.T r ∧ TD.T r ≤ 8192) && decide (1 ≤ TD.KC r ∧ TD.KC r ≤ 8)
    && decide (1 ≤ TD.E r ∧ TD.E r ≤ 1024) && decide (1 ≤ TD.C r ∧ TD.C r ≤ 4096) && decide (TD.POLICY r ≤ 1)
    && decide (TD.DEFCAP r ≤ 8192) && decide (1 ≤ TD.LOGLEN r)

/-- R172: every range but the last of a descriptor without FINAL is a multiple of 64 bytes. -/
def digestOk (r : Nat) : Bool :=
  bodyZero r [(16, 61)] && (TD.final r || (TD.ranges r).dropLast.all fun p => p.2 % 64 == 0)

/-- R150: the body's fields are legal. -/
def bodyOk (r : Nat) : Bool :=
  match TD.KIND r, TD.MODE r with
  | 0, m => rowOk (m == 1) r
  | 1, 0 => rowOk false r
  | 1, _ => kvOk r
  | 2, 0 => bodyZero r [(16, 39)] && nkOk r
  | 2, 1 => pageOk r
  | 2, 2 => bodyZero r [(16, 31), (34, 39), (48, 63)] && nkOk r && decide (TD.TOPP r ≤ 0x3F800000)
  | 2, _ => bodyZero r [(16, 31), (34, 39), (48, 63)] && nkOk r && TD.TOPP r == 0
  | 3, _ => xformOk r
  | 4, 0 => bodyZero r [(16, 27), (46, 49)] && decide (1 ≤ TD.FN r ∧ TD.FN r ≤ 1048576)
  | 4, _ => moeOk r
  | _, _ => digestOk r

/-- Bytes of a row of XFORM elements. -/
def xformRow (r : Nat) (code : Nat) : Nat :=
  match Fmt.ofCode code with | some f => (TD.COLS r * f.bits + 7) / 8 | none => TD.COLS r

/-- The bytes of an element of TRANSPOSE. -/
def xformEl (r : Nat) : Nat := 2 ^ TD.ESZ r

/-- A fixed range of a descriptor: rows of `len` bytes at a pitch. -/
structure Rng where
  addr : Nat
  rows : Nat
  pitch : Nat
  len : Nat

/-- A range of bytes. -/
def Rng.flat (a n : Nat) : Rng := ⟨a, 1, 0, n⟩

/-- The extent of a range. -/
def Rng.span (g : Rng) : Nat := (g.rows - 1) * g.pitch + g.len

/-- The fixed ranges a descriptor reads, and those it writes (R150, R156). -/
def tdRanges (r : Nat) : List Rng × List Rng :=
  let other : Rng := ⟨TD.OTHER r, TD.COUNT r, TD.OPITCH r, TD.RBYTES r⟩
  let table : Rng := ⟨TD.TABLE r, TD.LIMIT r, TD.TPITCH r, TD.RBYTES r⟩
  let src (len : Nat) : Rng := ⟨TD.SRC r, TD.ROWS r, TD.SPITCH r, len⟩
  match TD.KIND r, TD.MODE r with
  | 0, 0 => ([.flat (TD.IDXADDR r) (4 * TD.COUNT r), table], [other])
  | 0, _ => ([.flat (TD.IDXADDR r) (8 * TD.COUNT r)], [other])
  | 1, 0 => ([.flat (TD.IDXADDR r) (4 * TD.COUNT r), other], [table])
  | 1, _ =>
    let n := TD.P r * TD.H r * TD.Db r
    ([.flat (TD.SRCK r) n, .flat (TD.SRCV r) n, .flat (TD.PLIST r) (16 * TD.PCOUNT r)],
      [.flat (TD.SUMBASE r) (TD.H r * TD.PCOUNT r * 4 * TD.KD r)])
  | 2, 0 => ([.flat (TD.SRC r) (4 * TD.N r)], [.flat (TD.DST r) (4 * TD.K r), .flat (TD.DST3 r) (4 * TD.K r)])
  | 2, 1 =>
    ([.flat (TD.SRC r) (2 * TD.G r * TD.D r), .flat (TD.DST r) (TD.N r * 4 * TD.D r)], [.flat (TD.DST3 r) (TD.G r * TD.K r * 8)])
  | 2, _ => ([.flat (TD.SRC r) (4 * TD.N r)], [.flat (TD.DST r) 8])
  | 3, 0 => ([src (TD.COLS r * xformEl r)], [⟨TD.DST r, TD.COLS r, TD.DPITCH r, TD.ROWS r * xformEl r⟩])
  | 3, 1 => ([src (TD.COLS r)], [⟨TD.DST r, TD.ROWS r, TD.DPITCH r, TD.COLS r⟩])
  | 3, _ =>
    ([src (xformRow r (TD.IFMT r))],
      ⟨TD.DST r, TD.ROWS r, TD.DPITCH r, xformRow r (TD.OFMT r)⟩ ::
        (if TD.OPT r 0 = 1 then [.flat (TD.SCL r) (TD.ROWS r * ((TD.COLS r + 31) / 32))] else []))
  | 4, 0 => ([.flat (TD.SRC r) (TD.FN r)], [.flat (TD.DST r) (4 + 4 * TD.FN r)])
  | 4, _ =>
    (.flat (TD.SRC r) (8 * TD.T r * TD.KC r) :: (if TD.DEFIN r = 0 then [] else [.flat (TD.DEFIN r) (4 + 8 * 8192)]),
      .flat (TD.SLOTBASE r) (8 * TD.E r * TD.C r + 4 * TD.E r) :: .flat (TD.LOGBASE r) (8 * TD.LOGLEN r) ::
        (if TD.POLICY r = 1 then [.flat (TD.DEFOUT r) (4 + 8 * TD.DEFCAP r)] else []))
  | _, _ =>
    ((TD.ranges r).map (fun p => .flat p.1 p.2) ++ (if TD.cont r then [.flat (TD.STATE r) 104] else []),
      [.flat (TD.STATE r) (if TD.final r then 32 else 104)])

/-- The memories that `n` bytes at an address lie in, each by its first address or that of the range in it: tier-columns follow each other in
the address space (R14), core stores do not. At most 257. -/
def memsOf (a n : Nat) : List Nat :=
  if daSpace a = 0 then
    let m0 := a / 2 ^ 28
    (List.range (min 257 ((a + max n 1 - 1) / 2 ^ 28 + 1 - m0))).map fun i => max a ((m0 + i) * 2 ^ 28)
  else [a]

/-- Every memory that a range reaches lies in the partition (R27). -/
def State.reaches (s : State) (q a n : Nat) : Bool :=
  (memsOf a n).all (s.within q) && (daSpace a == 0 || decide (daOff a + n ≤ 2 ^ 22))

/-- R150, R151: the descriptor of a TSUB of core `c` makes it an illegal word. -/
def State.tdescBad (s : State) (q c r : Nat) : Bool :=
  let k := TD.KIND r
  let e := TD.ENGINE r
  let timed := TD.TIMED r == 1
  let tgt := c / 64 * 64 + TD.TCLUSTER r * 8 + TD.TSLOT r
  let rg := tdRanges r
  TD.RES r != 0 || decide (k > 5) || !modeOk r
    || (timed && (TD.DUE r == 0 || e == 15 || engineKind e != k))
    || (!timed && (TD.DUE r != 0 || TD.SIGINC r != 0 || (e != 15 && engineKind e != k) || (s.exact q && e == 15)))
    || !(s.coreExists tgt && s.inPart q (tgt / 8))
    || !bodyOk r || !((rg.1 ++ rg.2).all fun g => s.reaches q g.addr g.span)

/-! ## Latency (R156, Table 5.9) -/

/-- The largest distance class of the core-store words that `n` bytes touch. -/
def rangeClass (a n : Nat) : Nat :=
  let w0 := daOff a / 16
  let w1 := (daOff a + max n 1 - 1) / 16
  if w1 - w0 ≥ 4095 then 3 else (List.range (w1 + 1 - w0)).foldl (fun m i => max m (csClass (w0 + i))) 0

/-- The largest distance class of the rows of a range, from row `j` on. -/
def rowsClass (g : Rng) : Nat → Nat → Nat → Nat
  | 0, _, m => m
  | n + 1, j, m => if m = 3 then 3 else rowsClass g n (j + 1) (max m (rangeClass (g.addr + j * g.pitch) g.len))

/-- The largest latency from a cluster's thicket to a range; rows of a core store repeat its words after 262,144. -/
def thktLat (cl : Nat) (g : Rng) : Nat :=
  let a := g.addr
  if daSpace a = 0 then
    (memsOf a g.span).foldl (fun m b => let tc := daTc b; max m (bulkLat cl (tc / 32) (tc / 8 % 4) (tc % 8))) 0
  else
    let k := rowsClass g (min g.rows 262144) 0 0
    if daCluster a = cl then 18 + 2 * k else portDist cl (daCluster a / 8) (daCluster a % 8) + 16 + 2 * k

/-- The largest latency over some ranges. -/
def maxLat (cl : Nat) (ps : List Rng) : Nat := ps.foldl (fun m p => max m (thktLat cl p)) 0

/-- ceil(a / b). -/
def cdiv (a b : Nat) : Nat := (a + b - 1) / b

/-- Table 5.9: l without the distances; M at its largest. -/
def modeLat (r : Nat) : Nat :=
  match TD.KIND r, TD.MODE r with
  | 0, _ => 20 + TD.COUNT r * cdiv (TD.RBYTES r) 64
  | 1, 0 => 20 + TD.COUNT r * cdiv (TD.RBYTES r) 64
  | 1, _ => 24 + cdiv (2 * TD.P r * TD.H r * TD.Db r) 64 + TD.H r * cdiv (4 * TD.KD r) 64
  | 2, 0 => 32 + cdiv (TD.N r) 64 + TD.K r
  | 2, 1 => 32 + TD.N r * cdiv (4 * TD.D r) 64 + TD.K r
  | 2, _ => 56 + cdiv (TD.N r) 64 + 2 * TD.K r
  | 3, m =>
    let b := match m with
      | 0 => TD.ROWS r * TD.COLS r * xformEl r
      | 1 => TD.ROWS r * TD.COLS r
      | _ => TD.ROWS r * xformRow r (TD.IFMT r)
    24 + cdiv b 64 + 16 * TD.OPT r 0
  | 4, 0 => 24 + cdiv (TD.FN r) 64 + cdiv (4 * TD.FN r) 64
  | 4, _ => 24 + cdiv ((if TD.DEFIN r = 0 then 0 else 8192) + TD.T r * TD.KC r) 8 + cdiv (TD.E r) 16
  | _, _ => 16 + 68 * (if TD.final r then cdiv (TD.total r + 9) 64 else TD.total r / 64)

/-- Table 5.9: the latency of a descriptor on the thicket of a cluster. -/
def tdLat (cl r : Nat) : Nat := let g := tdRanges r; modeLat r + maxLat cl g.1 + maxLat cl g.2

/-- Table 5.9: the yield allowance. -/
def tdYield (r : Nat) : Nat := if TD.KIND r = 5 then 72 else 16

end Sys2Proof.Machine
end

