-- ==== Sys2Proof/Machine/ThktWork.lean ====
section
/-! DEFINITION. The work of the thicket's modes (05_thicket.md R162 to R173, R201). An engine's accesses take only the port cycles
and slots given to the thicket (R175), so they take no bank port of the scheduled path. A mode whose units are independent of each other does
one unit at a time, so that it can yield between them (R157). -/

namespace Sys2Proof.Machine

/-- A line of bulk memory that a descriptor transfers: write or read, tier-column, line, the slots it takes (R193). -/
structure LineUse where
  wr : Bool
  tc : Nat
  line : Nat
  n : Nat
  deriving DecidableEq, Repr

/-- A descriptor at work: the partition, the cluster and the place of the engine that runs it, the submitting core, timed or not, what it has
done, and the lines it transfers, the last first. -/
structure ThX where
  s : State
  q : Nat
  cl : Nat
  e : Nat
  core : Nat
  timed : Bool
  stop : Bool
  status : Nat
  units : Nat
  aux0 : Nat
  aux1 : Nat
  lines : List LineUse

/-- R201: a transfer of a tier-column of which the thicket owns no entry: a timed descriptor faults the job, an untimed one moves
nothing more and completes with NO_RESOURCE. -/
def ThX.noSlot (x : ThX) : ThX :=
  if x.timed then { x with s := x.s.jobFault x.q caILLEGAL stFAULTED x.core 0, stop := true, status := stNO_RESOURCE }
  else { x with stop := true, status := stNO_RESOURCE }

/-- The thicket may access the memories of a range. -/
def ThX.owns (x : ThX) (a n : Nat) : Bool :=
  daSpace a != 0 || (memsOf a n).all fun b => x.s.ownsSlot (daTc b) (ownThkt x.cl)

/-- The lines of a transfer are counted: one slot each, two for a write of part of a line (R193). An access of the line of the last
access of its kind takes no further slot (DESIGN CHOICE, log 16). -/
def ThX.use (x : ThX) (wr : Bool) (a n : Nat) : ThX :=
  if daSpace a ≠ 0 then x
  else
    { x with lines := (chunks 256 (n + 1) a n).foldl (fun l u =>
        let v : LineUse := ⟨wr, daTc u.1, daOff u.1 / 256, if wr && u.2 != 256 then 2 else 1⟩
        match l.find? fun y => y.wr == wr with
        | some y => if y.tc = v.tc ∧ y.line = v.line then l else v :: l
        | none => v :: l) x.lines }

/-! ### Accesses of one cc (R175) -/

/-- The place of an engine in the order of R175. -/
def ThX.rank (x : ThX) : Nat := 16 * x.cl + x.e

/-- Bytes put over others where two ranges meet: `b` at address `a` over `old` at address `at_`. -/
def overBytes (at_ : Nat) (old : List Byte) (a : Nat) (b : List Byte) : List Byte :=
  ((List.range old.length).zip old).map fun p => if a ≤ at_ + p.1 ∧ at_ + p.1 < a + b.length then b.getD (at_ + p.1 - a) p.2 else p.2

/-- Bytes as they stood before the writes that other engines made in the same cc. -/
def ThX.before (x : ThX) (a : Nat) (bs : List Byte) : List Byte :=
  (x.s.part x.q).thkw.foldr (fun w v => if w.1 = x.rank then v else overBytes a v w.2.1 w.2.2) bs

/-- What is left of a write: the bytes that an engine before this one wrote in the same cc stay. -/
def ThX.under (x : ThX) (a : Nat) (bs : List Byte) : List Byte :=
  (x.s.part x.q).thkw.foldl (fun v w =>
    if w.1 < x.rank then overBytes a v w.2.1 (x.s.rdBytes w.2.1 w.2.2.length) else v) bs

/-- A write is kept for the cc, with the bytes before it; at a gate no logical cycle passes. -/
def ThX.keep (x : ThX) (a n : Nat) : ThX :=
  if (x.s.part x.q).gate then x
  else { x with s := x.s.modPart x.q fun p => { p with thkw := p.thkw ++ [(x.rank, a, x.s.rdBytes a n)] } }

/-- Read `n` bytes; an uncorrectable error faults the job (R174, R209). -/
def ThX.rd (x : ThX) (a n : Nat) : ThX × List Byte :=
  if x.stop then (x, List.replicate n 0)
  else if !x.owns a n then (x.noSlot, List.replicate n 0)
  else
    let r := x.s.readMem (.thkt x.cl) a n
    ({ x with s := if r.2.2 then r.1.jobFault x.q caMEMORY stFAULTED x.core 0 else r.1 }.use false a n, x.before a r.2.1)

/-- Write bytes (R608). -/
def ThX.wr (x : ThX) (a : Nat) (bs : List Byte) : ThX :=
  if x.stop || bs.isEmpty then x
  else if !x.owns a bs.length then x.noSlot
  else
    let x := x.keep a bs.length
    let r := x.s.writeMem (.thkt x.cl) a (x.under a bs)
    { x with s := if r.2 then r.1.jobFault x.q caMEMORY stFAULTED x.core 0 else r.1 }.use true a bs.length

/-- A range that an address derived from data names lies in the partition (R173). -/
def ThX.ok (x : ThX) (a n : Nat) : Bool := decide (a < 2 ^ 48) && x.s.reaches x.q a n

/-- Count an index or address that is not used (R173). -/
def ThX.miss (x : ThX) : ThX := { x with aux0 := x.aux0 + 1 }
def ThX.unit (x : ThX) : ThX := if x.stop then x else { x with units := x.units + 1 }

/-- `n` bytes of a 32-bit pattern. -/
def patBytes (pat n : Nat) : List Byte := (List.range n).map fun i => patByte pat i

/-! ## GATHER and SCATTER rows (R162, R173) -/

/-- An INT32 index from its bytes: none below 0 or at or above a limit. -/
def rowIndex (bs : List Byte) (limit : Nat) : Option Nat :=
  let v := ofBytes bs
  if v < 2 ^ 31 ∧ v < limit then some v else none

/-- Row `j` of GATHER ROW. -/
def ThX.gatherRow (r j : Nat) (x : ThX) : ThX :=
  let i := x.rd (TD.IDXADDR r + 4 * j) 4
  let dst := TD.OTHER r + j * TD.OPITCH r
  match rowIndex i.2 (TD.LIMIT r) with
  | some k =>
    let v := i.1.rd (TD.TABLE r + k * TD.TPITCH r) (TD.RBYTES r)
    (v.1.wr dst v.2).unit
  | none => ((i.1.miss).wr dst (patBytes (TD.PAD r) (TD.RBYTES r))).unit

/-- Row `j` of GATHER PAGE. -/
def ThX.gatherPage (r j : Nat) (x : ThX) : ThX :=
  let i := x.rd (TD.IDXADDR r + 8 * j) 8
  let a := ofBytes i.2
  let dst := TD.OTHER r + j * TD.OPITCH r
  if i.1.ok a (TD.RBYTES r) then
    let v := i.1.rd a (TD.RBYTES r)
    (v.1.wr dst v.2).unit
  else ((i.1.miss).wr dst (patBytes (TD.PAD r) (TD.RBYTES r))).unit

/-- Row `j` of SCATTER ROW. -/
def ThX.scatterRow (r j : Nat) (x : ThX) : ThX :=
  let i := x.rd (TD.IDXADDR r + 4 * j) 4
  match rowIndex i.2 (TD.LIMIT r) with
  | some k =>
    let v := i.1.rd (TD.OTHER r + j * TD.OPITCH r) (TD.RBYTES r)
    (v.1.wr (TD.TABLE r + k * TD.TPITCH r) v.2).unit
  | none => i.1.miss.unit

/-! ## KV append (R163, R164) -/

/-- R164: a value rounded to BF16 toward +infinity or toward -infinity. -/
def bf16Dir (up : Bool) (v : Num) : Nat :=
  match v with
  | .nan => (toFp .bf16 false true .nan).1
  | .inf s => if s then 0xFF80 else 0x7F80
  | .fin s _ _ =>
    let t := (toFp .bf16 true false v).1
    if (decodeFp .bf16 t).eqv v || v.isZero then t else if s != up then t + 1 else t

/-- R128: the greater (or lesser) of two values, a NaN where one is; -0 is less than +0. -/
def numMax (a b : Num) : Num :=
  if a.isNan || b.isNan then .nan else if a.isZero && b.isZero then (if a.sign then b else a) else if a.lt b then b else a
def numMin (a b : Num) : Num :=
  if a.isNan || b.isNan then .nan else if a.isZero && b.isZero then (if a.sign then a else b) else if b.lt a then b else a

/-- The dequantized elements of a key row (R47). -/
def kvKeys (r : Nat) (row : List Byte) : List Num :=
  match Fmt.ofCode (TD.KFMT r) with
  | none => []
  | some f =>
    (List.range (TD.KD r)).map fun e =>
      let v := elemVal f 0 (elemAt f.bits row e)
      if TD.KSCL r = 1 then
        let sb := (row.getD (TD.KD r * f.bits / 8 + e / 32) 0).toNat
        if sb = 255 then .nan else v.scale2 (Int.ofNat sb - 127)
      else v

/-- R164: the summary of a page after a position's keys: D maxima, then D minima, BF16. -/
def kvSummary (d : Nat) (fresh : Bool) (old : List Byte) (ks : List Num) : List Byte :=
  let get (i : Nat) : Num := decodeFp .bf16 (elemAt 16 old i)
  let kv := (List.range d).zip ks
  packElems 16
    ((kv.map fun p => bf16Dir true (if fresh then p.2 else numMax (get p.1) p.2)) ++
      (kv.map fun p => bf16Dir false (if fresh then p.2 else numMin (get (d + p.1)) p.2)))

/-- One head of one position. -/
def kvHead (r i p kp vp : Nat) (x : ThX) (h : Nat) : ThX :=
  let db := TD.Db r
  let d := TD.KD r
  let src := (i * TD.H r + h) * db
  let k := x.rd (TD.SRCK r + src) db
  let v := k.1.rd (TD.SRCV r + src) db
  let off := (h * 256 + p % 256) * db
  let put (x : ThX) (pg : Nat) (row : List Byte) : ThX := if x.ok (pg + off) db then x.wr (pg + off) row else x.miss
  let x := put (put v.1 kp k.2) vp v.2
  let sa := TD.SUMBASE r + (h * TD.PCOUNT r + p / 256) * 4 * d
  let o := if p % 256 = 0 then (x, []) else x.rd sa (4 * d)
  o.1.wr sa (kvSummary d (p % 256 == 0) o.2 (kvKeys r k.2))

/-- Position `i` of KVAPPEND: one beyond PCOUNT * 256 is not written (R173). -/
def ThX.kvappend (r i : Nat) (x : ThX) : ThX :=
  let p := TD.POS0 r + i
  if p ≥ TD.PCOUNT r * 256 then { x with status := stNO_RESOURCE }
  else
    let e := x.rd (TD.PLIST r + 16 * (p / 256)) 16
    ((List.range (TD.H r)).foldl (kvHead r i p (ofBytes (e.2.take 8)) (ofBytes (e.2.drop 8))) e.1).unit

/-! ## SELECT (R165 to R168) -/

/-- R165: descending order, NaN below -infinity, -0 equal to +0. -/
def descGe (a b : Num) : Bool := b.isNan || (!a.isNan && !a.lt b)

/-- The indices of the K largest values, in descending order, equal values by lower index. -/
def topIdx (vs : List Num) (k : Nat) : List Nat :=
  ((((List.range vs.length).zip vs).mergeSort fun a b => descGe a.2 b.2).take k).map (·.1)

/-- INT32 or FP32 words as bytes. -/
def words32 (l : List Nat) : List Byte := l.flatMap (toBytes 4)

/-- TOPK. -/
def ThX.topk (r : Nat) (x : ThX) : ThX :=
  let v := x.rd (TD.SRC r) (4 * TD.N r)
  let bitsAt (i : Nat) : Nat := elemAt 32 v.2 i
  let top := topIdx ((List.range (TD.N r)).map fun i => fp32 (bitsAt i)) (TD.K r)
  let x := (v.1.wr (TD.DST r) (words32 top)).wr (TD.DST3 r) (words32 (top.map fun i => canon32 (bitsAt i)))
  if x.stop then x else { x with units := TD.K r }

/-- R166: the bound of a page for a head: NaN counts as +infinity. -/
def pageBound (q mx mn : List Num) : Num :=
  let t := ((q.zip (mx.zip mn)).foldl (fun (s : Num) p => s.add (numMax (p.1.mul p.2.1) (p.1.mul p.2.2))) .zero)
  if t.isNan then .inf false else t

/-- The elements `i` to `i + n - 1` of BF16 bytes. -/
def bf16s (b : List Byte) (i n : Nat) : List Num := (List.range n).map fun e => decodeFp .bf16 (elemAt 16 b (i + e))

/-- PAGESCORE. -/
def ThX.pagescore (r : Nat) (x : ThX) : ThX :=
  let d := TD.D r
  let qs := x.rd (TD.SRC r) (2 * TD.G r * d)
  let n := TD.N r - TD.SINK r - TD.LOCAL r
  let sm := (List.range n).foldl (fun (acc : ThX × List (List Num × List Num)) j =>
    let v := acc.1.rd (TD.DST r + (TD.SINK r + j) * 4 * d) (4 * d)
    (v.1, acc.2 ++ [(bf16s v.2 0 d, bf16s v.2 d d)])) (qs.1, [])
  let x := (List.range (TD.G r)).foldl (fun x g =>
    let q := bf16s qs.2 (g * d) d
    let bs := sm.2.map fun p => pageBound q p.1 p.2
    let top := topIdx bs (TD.K r)
    x.wr (TD.DST3 r + g * TD.K r * 8)
      (words32 (top.map (TD.SINK r + ·)) ++ words32 (top.map fun i => toFp32 (bs.getD i .zero)))) sm.1
  if x.stop then x else { x with units := n, aux1 := n }

/-- R168: the counter-based generator, as an FP32 word. -/
def genU (key ctr : Nat) : Nat :=
  let m := 2 ^ 64
  let z := (key + ctr * 0x9E3779B97F4A7C15) % m
  let z := (z ^^^ (z / 2 ^ 30)) * 0xBF58476D1CE4E5B9 % m
  let z := (z ^^^ (z / 2 ^ 27)) * 0x94D049BB133111EB % m
  let z := z ^^^ (z / 2 ^ 31)
  toFp32 (.fin false (z / 2 ^ 40) (-24))

/-- The quotient of two positive FP32 values, rounded to nearest even. -/
def divFp32 (a b : Nat) : Nat :=
  match fp32 a, fp32 b with
  | .fin _ ma ea, .fin _ mb eb =>
    if ma = 0 ∨ mb = 0 then 0
    else
      let n := ma * 2 ^ 80
      toFp32 (.fin false (2 * (n / mb) + (if n % mb = 0 then 0 else 1)) (ea - eb - 81))
  | _, _ => 0

/-- R167: scores as the procedure takes them. -/
def sampleScore (w : Nat) : Nat := if (fp32 w).isNan then 0xFF800000 else if w = 0x7F800000 then 0x7F7FFFFF else w

/-- The running sums c[j] and the weights w[j] of R167. -/
def sampleSums (s0 : Nat) : List Nat → Nat → List (Nat × Nat)
  | [], _ => []
  | s :: r, c =>
    let w := (fFun 0 (fSub s s0).1).1
    let c := addFp32 c w
    (w, c) :: sampleSums s0 r c

/-- R167: candidate and probability from the sorted scores. -/
def samplePick (topp u : Nat) (ss : List Nat) : Nat × Nat :=
  match ss with
  | [] => (0, 0)
  | s0 :: _ =>
    if s0 = 0xFF800000 then (0, 0)
    else
      let l := sampleSums s0 ss 0
      let c (j : Nat) : Nat := (l.getD j (0, 0)).2
      let thr := mulFp32 topp (c (l.length - 1))
      let ge (a b : Nat) : Bool := (fp32 b).le (fp32 a)
      let m := match (List.range l.length).find? fun j => ge (c j) thr with | some j => j + 1 | none => l.length
      let t := mulFp32 u (c (m - 1))
      let j := ((List.range m).find? fun j => (fp32 t).lt (fp32 (c j))).getD (m - 1)
      (j, divFp32 (l.getD j (0, 0)).1 (c (m - 1)))

/-- SAMPLE and SAMPLEALL. -/
def ThX.sampleBy (topp : Nat) (r : Nat) (x : ThX) : ThX :=
  let v := x.rd (TD.SRC r) (4 * TD.N r)
  let sc := (List.range (TD.N r)).map fun i => sampleScore (elemAt 32 v.2 i)
  let cand := topIdx (sc.map fp32) (TD.K r)
  let p := samplePick topp (genU (TD.KEY r) (TD.CTR r)) (cand.map fun i => sc.getD i 0)
  let i := cand.getD p.1 0
  let x := v.1.wr (TD.DST r) (words32 [i, p.2])
  if x.stop then x else { x with units := 1, aux0 := i }

/-! ## XFORM (R169) -/

/-- TRANSPOSE. -/
def ThX.transpose (r : Nat) (x : ThX) : ThX :=
  let es := xformEl r
  let rows := (List.range (TD.ROWS r)).foldl (fun (acc : ThX × List (List Byte)) i =>
    let v := acc.1.rd (TD.SRC r + i * TD.SPITCH r) (TD.COLS r * es)
    (v.1, acc.2 ++ [v.2])) (x, [])
  let x := (List.range (TD.COLS r)).foldl (fun x j =>
    x.wr (TD.DST r + j * TD.DPITCH r) (rows.2.flatMap fun b => (b.drop (j * es)).take es)) rows.1
  if x.stop then x else { x with units := TD.ROWS r * TD.COLS r }

/-- The elements or bytes of a row are done. -/
def ThX.rowDone (x : ThX) (n : Nat) : ThX := if x.stop then x else { x with units := x.units + n }

/-- Run `i` of RELAYOUT. -/
def ThX.relayout (r i : Nat) (x : ThX) : ThX :=
  let v := x.rd (TD.SRC r + i * TD.SPITCH r) (TD.COLS r)
  (v.1.wr (TD.DST r + i * TD.DPITCH r) v.2).rowDone (TD.COLS r)

/-- An element of REQUANT. FP32 holds every value of a narrower format, so that conversion is exact; INT32 to FP32 rounds to nearest even
(R74, R78). -/
def requantElem (r : Nat) (fo : Fmt) (z : Int) (v : Num) : Nat :=
  if fo == .fp32 then (toFmt fo false true z v).1 else (toFmt fo (TD.OPT r 1 == 1) (TD.OPT r 2 == 1) z v).1

/-- REQUANT of one row: its elements and, under OSCALED, its block scales. DESIGN CHOICE (log 65): no field says that a source is
block-scaled, so its elements are read without scales, and SCL is the address of the destination's. -/
def requantRow (r : Nat) (fi fo : Fmt) (row : List Byte) : List Byte × List Byte :=
  let vs := (List.range (TD.COLS r)).map fun i => elemVal fi 0 (elemAt fi.bits row i)
  if TD.OPT r 0 = 1 then
    let blocks := (List.range ((TD.COLS r + 31) / 32)).map fun b => (vs.drop (32 * b)).take 32
    let sbs := blocks.map fun b => scaleByteOf fo (TD.OPT r 3 == 1) (amaxOf b)
    let es := (blocks.zip sbs).flatMap fun p =>
      p.1.map fun v => requantElem r fo 0 (if p.2 = 255 then .nan else v.scale2 (127 - Int.ofNat p.2))
    (packElems fo.bits es, sbs.map (BitVec.ofNat 8))
  else (packElems fo.bits (vs.map (requantElem r fo (zpVal fo (TD.OZP r)))), [])

/-- Row `i` of REQUANT. -/
def ThX.requant (r i : Nat) (x : ThX) : ThX :=
  match Fmt.ofCode (TD.IFMT r), Fmt.ofCode (TD.OFMT r) with
  | some fi, some fo =>
    let v := x.rd (TD.SRC r + i * TD.SPITCH r) (xformRow r (TD.IFMT r))
    let o := requantRow r fi fo v.2
    ((v.1.wr (TD.DST r + i * TD.DPITCH r) o.1).wr (TD.SCL r + i * ((TD.COLS r + 31) / 32)) o.2).rowDone (TD.COLS r)
  | _, _ => x

/-! ## COMPACT (R170, R171) -/

/-- FLAGS. -/
def ThX.compactFlags (r : Nat) (x : ThX) : ThX :=
  let v := x.rd (TD.SRC r) (TD.FN r)
  let idx := ((List.range v.2.length).zip v.2).filterMap fun p => if p.2 = 0 then none else some p.1
  let x := v.1.wr (TD.DST r) (words32 (idx.length :: idx))
  if x.stop then x else { x with units := idx.length }

/-- The state of a MOE run: per-expert counts, entries placed (expert, place, entry), deferred entries, dropped. -/
structure MoeAcc where
  counts : SMap Nat
  placed : List (Nat × Nat × List Byte)
  defer : List (List Byte)
  dropped : Nat

/-- One entry of a MOE run. -/
def moeStep (r : Nat) (m : MoeAcc) (e : List Byte) : MoeAcc :=
  let x := ofBytes ((e.drop 4).take 2)
  if x ≥ TD.E r then { m with dropped := m.dropped + 1 }
  else
    let n := SMap.get 0 m.counts x
    if n < TD.C r then { m with counts := SMap.put 0 m.counts x (n + 1), placed := m.placed ++ [(x, n, e)] }
    else if TD.POLICY r = 1 ∧ m.defer.length < TD.DEFCAP r then { m with defer := m.defer ++ [e] }
    else { m with dropped := m.dropped + 1 }

/-- The 8-byte entries of some bytes. -/
def entries8 (b : List Byte) : List (List Byte) := (List.range (b.length / 8)).map fun i => (b.drop (8 * i)).take 8

/-- R171: the log entry of a MOE descriptor: its address in beat `b` and its bytes. -/
def moeLog (r b dropped deferred : Nat) : Nat × List Byte :=
  (TD.LOGBASE r + b % TD.LOGLEN r * 8, words32 [dropped, deferred])

/-- MOE, its log apart. A count of deferred entries above 8,192 counts as 8,192. -/
def ThX.moe (r : Nat) (x : ThX) : ThX :=
  let d0 := if TD.DEFIN r = 0 then (x, []) else
    let c := x.rd (TD.DEFIN r) 4
    let v := c.1.rd (TD.DEFIN r + 4) (8 * min 8192 (ofBytes c.2))
    (v.1, entries8 v.2)
  let ch := d0.1.rd (TD.SRC r) (8 * TD.T r * TD.KC r)
  let cs := entries8 ch.2
  let ranked := (List.range (TD.KC r)).flatMap fun k => (List.range (TD.T r)).map fun t => cs.getD (t * TD.KC r + k) []
  let m := (d0.2 ++ ranked).foldl (moeStep r) ⟨[], [], [], 0⟩
  let x := m.placed.foldl (fun x p => x.wr (TD.SLOTBASE r + (p.1 * TD.C r + p.2.1) * 8) p.2.2) ch.1
  let x := x.wr (TD.SLOTBASE r + TD.E r * TD.C r * 8) (words32 ((List.range (TD.E r)).map fun e => SMap.get 0 m.counts e))
  let x := if TD.POLICY r = 1 then x.wr (TD.DEFOUT r) (toBytes 4 m.defer.length ++ m.defer.flatten) else x
  if x.stop then x
  else
    { x with
      units := m.placed.length, aux0 := m.dropped, aux1 := m.defer.length
      s := (x.s.addFld F.THKT_MOECNT_DROPPED x.cl m.dropped).addFld F.THKT_MOECNT_DEFERRED x.cl m.defer.length }

/-! ## DIGEST (R172) -/

/-- DIGEST: NEW or CONTINUE, FINAL or not. -/
def ThX.digest (r : Nat) (x : ThX) : ThX :=
  let a := sha256Alg
  let st := if TD.cont r then x.rd (TD.STATE r) 104 else (x, [])
  let len0 := if TD.cont r then ofBytes ((st.2.drop 32).take 8) else 0
  let h0 := if TD.cont r then Sha.stateOf a (st.2.take 32) else a.h0
  let held := (st.2.drop 40).take (len0 % 64)
  let m := (TD.ranges r).foldl (fun (acc : ThX × List Byte) p =>
    let v := acc.1.rd p.1 p.2
    (v.1, acc.2 ++ v.2)) (st.1, held)
  let len := (len0 + TD.total r) % 2 ^ 64
  let x :=
    if TD.final r then
      let p := m.2 ++ Sha.pad a len
      m.1.wr (TD.STATE r) (Sha.stateBytes a (Sha.blocks a (p.length / 64 + 1) h0 p).1)
    else
      let b := Sha.blocks a (m.2.length / 64 + 1) h0 m.2
      m.1.wr (TD.STATE r) (Sha.stateBytes a b.1 ++ toBytes 8 len ++ b.2 ++ List.replicate (64 - b.2.length) 0)
  if x.stop then x else { x with units := TD.total r }

end Sys2Proof.Machine
end

