-- ==== Sys2Proof/Machine/Thicket.lean ====
section
/-! DEFINITION. The thicket's queues and engines (05_thicket.md R146 to R161, R173 to R178, R614): submission, acceptance, the
work of a descriptor as one step of its engine, completion, untimed work and steals. -/

namespace Sys2Proof.Machine

/-! ## Queues -/

def Cluster.timedQ (k : Cluster) (e : Nat) : List TDesc := SMap.get [] k.timed e
def Cluster.setTimed (k : Cluster) (e : Nat) (l : List TDesc) : Cluster := { k with timed := SMap.put [] k.timed e l }
def Cluster.untimedQ (k : Cluster) (kind : Nat) : List TDesc := SMap.get [] k.untimed kind
def Cluster.setUntimed (k : Cluster) (kind : Nat) (l : List TDesc) : Cluster := { k with untimed := SMap.put [] k.untimed kind l }
def Cluster.run (k : Cluster) (e : Nat) : Option TDesc := SMap.get none k.running e
def Cluster.setRun (k : Cluster) (e : Nat) (d : Option TDesc) : Cluster := { k with running := SMap.put none k.running e d }

/-- R148: the fill of a timed queue in cycle `lc`: descriptors that have not started. -/
def Cluster.timedFill (k : Cluster) (e lc : Nat) : Nat := ((k.timedQ e).filter fun d => decide (lc < d.start)).length

/-- The fill of the queue a descriptor goes to. -/
def Cluster.queueFill (k : Cluster) (raw lc : Nat) : Nat :=
  if TD.TIMED raw = 1 then k.timedFill (TD.ENGINE raw) lc else (k.untimedQ (TD.KIND raw)).length

/-- Two TSUBs go to one queue. -/
def TSub.sameQueue (b x : TSub) : Bool :=
  b.tcl == x.tcl && TD.TIMED b.raw == TD.TIMED x.raw &&
    (if TD.TIMED b.raw = 1 then TD.ENGINE b.raw == TD.ENGINE x.raw else TD.KIND b.raw == TD.KIND x.raw)

/-- The TSUBs of a partition that have issued and are not accepted. -/
def State.subsOf (s : State) (q : Nat) : List TSub := (s.partClusters q).flatMap fun cl => (s.cluster cl).subs

/-- The queue of a TSUB has no place for it: full with the places given to TSUBs that waited, or others wait for it. -/
def State.noPlace (s : State) (q lc : Nat) (b : TSub) : Bool :=
  decide (16 ≤ (s.cluster b.tcl).queueFill b.raw lc + ((s.subsOf q).filter fun x => x.given && b.sameQueue x).length)

/-- A TSUB that waits, in its issue cycle order (the lower core first). -/
def insertSub (b : TSub) : List TSub → List TSub
  | [] => [b]
  | x :: r => if b.issue < x.issue ∨ (b.issue = x.issue ∧ b.core < x.core) then b :: x :: r else x :: insertSub b r

/-! ## TSUB (R149, R285) -/

/-- TSUB: its descriptor is read, a word in each of the 4 cc after the issue. -/
def State.tsubRun (s : State) (c lc : Nat) (e : QEntry) : State :=
  let a := W.TSUB_DADDR e.lead + 4 * e.issued
  let g := (s.core c).nextKey
  let reads : List Plan := (List.range 4).map fun j =>
    { cc := lc + 1 + j, rank := rkMover, core := c, unit := 0, word := a + j, act := .read (groupKey g j) }
  let sub : TSub := ⟨c, e.id, c / 64 * 8 + W.TSUB_TCLUSTER e.lead, 0, e.addr, lc, lc + 8, false, false, g⟩
  (((s.planFor c reads).modCore c Core.nextGroup).modCluster (c / 8) fun k => { k with subs := k.subs ++ [sub] }).endRun c 3 e notYet

/-- A TSUB of a core completes its oldest run in cycle `lc`. -/
def State.tsubEnd (s : State) (c qid lc : Nat) : State :=
  (s.modCore c fun k => k.modEntry 3 qid fun e => e.setDue lc).retire c lc

/-- The descriptor of a TSUB as it enters its queue. -/
def TDesc.new (b : TSub) (start finish due : Nat) : TDesc := ⟨b.raw, b.core, b.issue, start, finish, due, false, false, false, 0, 0, 0, 0, 0⟩

/-- R150, R152: accept the descriptor of a TSUB in cycle `lc`. -/
def State.tsubAccept (s : State) (q lc : Nat) (b : TSub) : State :=
  let s := s.modCluster (b.core / 8) fun k => { k with subs := k.subs.erase b }
  if s.tdescBad q b.core b.raw then s.rejectWord q b.core 0x0F 3 0x34 b.addr
  else
    let s := s.tsubEnd b.core b.qid lc
    let e := TD.ENGINE b.raw
    if TD.TIMED b.raw = 1 then
      let k := s.cluster b.tcl
      let start := max lc (SMap.get 0 k.tend e) + tdYield b.raw
      let finish := start + tdLat b.tcl b.raw + TD.EXTRA b.raw
      let due := b.issue + TD.DUE b.raw
      let s := s.setCluster b.tcl { (k.setTimed e (k.timedQ e ++ [TDesc.new b start finish due])) with tend := SMap.put 0 k.tend e finish }
      if finish > due then s.jobFault q caTHKT_DUE stFAULTED b.core 0 else s
    else
      s.modCluster b.tcl fun k =>
        k.setUntimed (TD.KIND b.raw) (k.untimedQ (TD.KIND b.raw) ++ [TDesc.new b 0 0 0])

/-- Put a changed TSUB in the place of one. -/
def State.putSub (s : State) (b b' : TSub) : State :=
  s.modCluster (b.core / 8) fun k => { k with subs := k.subs.map fun x => if x = b then b' else x }

/-- A TSUB meets a full queue. -/
def State.subMeet (s : State) (q lc : Nat) (b : TSub) : State :=
  if !b.waits && !b.given && decide (b.due ≤ lc) && !s.tdescBad q b.core b.raw
      && (s.noPlace q lc b || (s.subsOf q).any fun x => x.waits && b.sameQueue x) then s.putSub b { b with waits := true }
  else s

/-- A place freed in cycle `lc` goes to the first that waits for it. -/
def State.subGive (s : State) (q lc : Nat) (b : TSub) : State :=
  if s.noPlace q lc b then s else s.putSub b { b with waits := false, given := true, due := lc + 8 }

/-- The descriptor of a TSUB is there, in the cc of its last read. -/
def State.subRead (s : State) (lc : Nat) (b : TSub) : State :=
  if b.issue + 4 = lc then
    let raw := (List.range 4).foldl (fun v j => v + (s.core b.core).cap (groupKey b.key j) * 2 ^ (128 * j)) 0
    (s.putSub b { b with raw := raw }).modCore b.core fun k => k.dropGroup b.key
  else s

/-- R149, R152: SUBWAIT of a cluster counts each cc, from the issue of a TSUB that waits to the cc in which a place frees for it. -/
def State.countSubWait (s : State) (q cl lc : Nat) : State :=
  match ((s.subsOf q).filter fun x => x.waits && x.tcl == cl).map TSub.issue with
  | [] => s
  | i :: r =>
    let from_ := max (s.cluster cl).subNote (r.foldl min i)
    (s.addFld F.THKT_CNT_SUBWAIT cl (lc + 1 - from_)).modCluster cl fun k => { k with subNote := lc + 1 }

/-- R149: one cc of the TSUBs of a partition: descriptors are read; of those that meet a full queue each waits, and when a place frees
acceptance follows 8 cc later. -/
def State.subTick (s : State) (q lc : Nat) : State :=
  if (s.subsOf q).isEmpty then s
  else
    let s := (s.subsOf q).foldl (fun t b => t.subRead lc b) s
    let s := (s.subsOf q).foldl (fun t b => t.subMeet q lc b) s
    let s := (((s.subsOf q).filter TSub.waits).foldr insertSub []).foldl (fun t b => t.subGive q lc b) s
    (s.partClusters q).foldl (fun t cl => t.countSubWait q cl lc) s

/-- The TSUB of core `c` that may be accepted in cycle `lc`: the oldest, when its acceptance cycle has come and a place is there; an illegal
descriptor needs none. -/
def State.subReady (s : State) (q c lc : Nat) : Option TSub :=
  match (s.cluster (c / 8)).subs.find? fun b => b.core == c with
  | some b =>
    if b.due ≤ lc ∧ !b.waits ∧ (s.tdescBad q c b.raw || b.given ||
        !(s.noPlace q lc b || (s.subsOf q).any fun x => x.waits && b.sameQueue x)) then some b else none
  | none => none

/-- A TSUB that is to be accepted in this cc and has not been is accepted as the cc ends (R149). -/
def State.subAccept (s : State) (q lc : Nat) : State :=
  (s.partCores q).foldl (fun t c => match t.subReady q c lc with | some b => t.tsubAccept q lc b | none => t) s

/-! ## Work -/

/-- The partition of a cluster, while its engines may work: in RUN and not frozen (R176). -/
def State.thktLive (s : State) (cl : Nat) : Option Nat :=
  match s.partOf cl with
  | some q =>
    let p := s.part q
    if p.job == .run && !p.frozen && p.stopUntil.isNone then some q else none
  | none => none

/-- The descriptor of engine `e` whose work is next (R148, R155): the first timed one not done, from its start to its finish; an untimed
one only while no timed one waits or runs. Answers whether it is timed. -/
def State.thktNext (s : State) (cl e lc : Nat) : Option (Bool × TDesc) :=
  let k := s.cluster cl
  match (k.timedQ e).find? fun d => !d.ran with
  | some d => if d.start ≤ lc ∧ lc ≤ d.finish then some (true, d) else none
  | none =>
    if (k.timedQ e).any fun d => decide (lc < d.finish) then none
    else match k.run e with
      | some d => if d.ran ∨ lc < d.start then none else some (false, d)
      | none => none

/-- Put a changed descriptor back. -/
def State.thktPut (s : State) (cl e : Nat) (timed : Bool) (d d' : TDesc) : State :=
  s.modCluster cl fun k =>
    if timed then k.setTimed e ((k.timedQ e).map fun x => if x = d then d' else x) else k.setRun e (some d')

/-- R200, R202: line transfers of a thicket take the slots of its own that no transfer has taken, from cycle `cc` of the beat on: answers the
cycle of the beat in which the last is taken, none where one finds no slot. -/
def State.takeSlots (s : State) (cl cc : Nat) (ls : List LineUse) : Option (State × Nat) :=
  (ls.flatMap fun l => List.replicate l.n l.tc).reverse.foldl (fun acc tc =>
    match acc with
    | none => none
    | some v =>
      match v.1.slotFrom tc (ownThkt cl) (firstSlot cc) [] with
      | none => none
      | some n => some (v.1.setCol tc { v.1.col tc with used := (v.1.col tc).used ++ [n] }, max v.2 (slotCc n))) (some (s, cc))

/-- R171: the beat whose log an untimed MOE writes as its last write lands: the one in progress, at a gate the one that has just ended. -/
def Part.logBeat (p : Part) : Nat := if p.gate then p.beat - 1 else p.beat

/-- The state in which a descriptor works, with what it has done so far. -/
def TDesc.begin_ (d : TDesc) (s : State) (q cl e : Nat) (timed : Bool) : ThX :=
  ⟨s, q, cl, e, d.core, timed, false, d.status, d.units, d.aux0, d.aux1, []⟩

/-- The log of an untimed MOE. -/
def ThX.logMoe (r : Nat) (x : ThX) : ThX :=
  if TD.KIND r = 4 ∧ TD.MODE r = 1 ∧ !x.timed then
    let g := moeLog r (x.s.part x.q).logBeat x.aux0 x.aux1
    x.wr g.1 g.2
  else x

/-- A timed descriptor does its work: all its units. Where the slots of its thicket up to its finish are too few for its lines, an operand
is missing at the finish (R156) and nothing is done. -/
def State.workTimed (s : State) (q cl e : Nat) (d : TDesc) (n : Nat) (f : Nat → ThX → ThX) : State :=
  let p := s.part q
  let x := (List.range n).foldl (fun x j => f j x) (d.begin_ s q cl e true)
  let done_ (t : State) (late : Bool) : State :=
    t.thktPut cl e true d { d with
      ran := true, late := late, status := x.status, units := x.units, aux0 := x.aux0, aux1 := x.aux1 }
  match x.s.takeSlots cl (p.bc - (p.lc - d.start)) x.lines with
  | some v => if v.2 ≤ p.bc + (d.finish - p.lc) then done_ v.1 false else done_ s true
  | none => if x.stop then done_ x.s false else done_ s true

/-- An untimed descriptor does its next unit, once the slots of the unit before have come. At a gate no slot goes to a thicket (R204). -/
def State.workUntimed (s : State) (q cl e : Nat) (d : TDesc) (n : Nat) (f : Nat → ThX → ThX) : State :=
  let p := s.part q
  let x := f d.prog (d.begin_ s q cl e false)
  let last := x.stop || decide (n ≤ d.prog + 1)
  let x := if last then x.logMoe d.raw else x
  if p.gate ∧ !x.lines.isEmpty then s
  else
    match x.s.takeSlots cl p.bc x.lines with
    | none => s
    | some v =>
      let at_ := p.lc + (v.2 - p.bc)
      v.1.thktPut cl e false d { d with
        ran := last, prog := d.prog + 1, start := at_, finish := at_, status := x.status, units := x.units, aux0 := x.aux0, aux1 := x.aux1 }

/-- The units into which a mode's work divides, and what each does. -/
structure ThOp where
  n : Nat
  unit : Nat → ThX → ThX

/-- Work that is one unit. -/
def ThOp.one (f : ThX → ThX) : ThOp := ⟨1, fun _ => f⟩

/-- The work of a descriptor, by its kind and mode (R162 to R172). -/
def thOp (r : Nat) : ThOp :=
  match TD.KIND r, TD.MODE r with
  | 0, 0 => ⟨TD.COUNT r, ThX.gatherRow r⟩
  | 0, _ => ⟨TD.COUNT r, ThX.gatherPage r⟩
  | 1, 0 => ⟨TD.COUNT r, ThX.scatterRow r⟩
  | 1, _ => ⟨TD.P r, ThX.kvappend r⟩
  | 2, 0 => .one (ThX.topk r)
  | 2, 1 => .one (ThX.pagescore r)
  | 2, 2 => .one (ThX.sampleBy (TD.TOPP r) r)
  | 2, _ => .one (ThX.sampleBy 0x3F800000 r)
  | 3, 0 => .one (ThX.transpose r)
  | 3, 1 => ⟨TD.ROWS r, ThX.relayout r⟩
  | 3, _ => ⟨TD.ROWS r, ThX.requant r⟩
  | 4, 0 => .one (ThX.compactFlags r)
  | 4, _ => .one (ThX.moe r)
  | _, _ => .one (ThX.digest r)

/-- Engine `e` of cluster `cl` does the work of a descriptor that is next. -/
def State.workNext (s : State) (q cl e : Nat) (timed : Bool) (d : TDesc) : State :=
  let o := thOp d.raw
  if timed then s.workTimed q cl e d o.n o.unit else s.workUntimed q cl e d o.n o.unit

/-- The step in which engine `e` of cluster `cl` does the work of a descriptor of one kind and mode; timed work needs the
partition's logical cycles. -/
def State.thktWork (s : State) (cl e kind : Nat) (mode : Nat → Bool) : State :=
  match s.thktLive cl with
  | none => s
  | some q =>
    match s.thktNext cl e (s.part q).lc with
    | none => s
    | some (timed, d) =>
      if TD.KIND d.raw = kind ∧ mode (TD.MODE d.raw) ∧ (!timed || !(s.part q).gate) then s.workNext q cl e timed d else s

/-! ## Completion (R154, R160, R161, R178) -/

/-- Table 5.10: the completion record. -/
def TDesc.record (d : TDesc) : List Byte :=
  toBytes 1 d.status ++ toBytes 1 ((if d.stolen then 1 else 0) + (if TD.TIMED d.raw = 1 then 0 else 2)) ++ toBytes 2 0
    ++ toBytes 4 d.units ++ toBytes 4 d.aux0 ++ toBytes 4 d.aux1

/-- The effects of a completion. -/
def State.thktDone (s : State) (q cl : Nat) (d : TDesc) : State :=
  let timed := TD.TIMED d.raw = 1
  let s := if timed ∧ TD.KIND d.raw = 4 ∧ TD.MODE d.raw = 1 then
      -- R171: the log of a timed MOE counts the beat of its completion
      let g := moeLog d.raw (s.part q).beat d.aux0 d.aux1
      ((d.begin_ s q cl (TD.ENGINE d.raw) true).wr g.1 g.2).s
    else s
  let s := if timed ∧ TD.SIGINC d.raw ≠ 0 then
      s.syncAdd (d.core / 64 * 64 + TD.TCLUSTER d.raw * 8 + TD.TSLOT d.raw) (TD.SIGCTR d.raw) (TD.SIGINC d.raw)
    else s
  let s := if TD.STATEN d.raw = 1 then (s.writeMem (.thkt cl) (csAddr d.core (16 * TD.STATADDR d.raw)) d.record).1 else s
  if TD.EVENT d.raw = 1 ∨ (!timed ∧ d.status ≠ stOK) then s.raise (896 + cl) else s

/-- The timed descriptor of an engine that completes in cycle `lc`. -/
def State.thktDue (s : State) (cl e lc : Nat) : Option TDesc :=
  ((s.cluster cl).timedQ e).find? fun d => d.ran && decide (d.due ≤ lc)

/-- A timed descriptor completes. -/
def State.thktEnd (s : State) (q cl e : Nat) (d : TDesc) : State :=
  (s.modCluster cl fun k => k.setTimed e ((k.timedQ e).erase d)).thktDone q cl d

/-! ## The end of a cc -/

/-- What timed descriptors do as cycle `lc` ends, when no row has done it: work that is to be done by its finish is done, an operand missing
at the finish faults the job (R156), and a completion takes effect in its cycle (R152). -/
def State.engineEnd (s : State) (q cl e lc : Nat) : State :=
  let s := match s.thktNext cl e lc with
    | some (true, d) => if d.finish = lc then s.workNext q cl e true d else s
    | _ => s
  let s := match ((s.cluster cl).timedQ e).find? fun d => d.late && decide (d.finish ≤ lc) with
    | some d => s.jobFault q caTHKT_DUE stFAULTED d.core 0
    | none => s
  match s.thktDue cl e lc with
  | some d => s.thktEnd q cl e d
  | none => s

/-- The engines of a partition as cycle `lc` ends, the lower cluster and engine first. -/
def State.thktTick (s : State) (q lc : Nat) : State :=
  let s := (s.partClusters q).foldl (fun t cl =>
    ((t.cluster cl).timed.map (·.1)).foldl (fun u e => u.engineEnd q cl e lc) t) s
  s.modPart q fun p => { p with thkw := [] }

/-! ## Untimed work (R158, R159) -/

/-- R148: an engine is idle: nothing timed waits or runs, no untimed descriptor is on it. -/
def State.engineIdle (s : State) (cl e lc : Nat) : Bool :=
  let k := s.cluster cl
  decide (e < 16) && (k.run e).isNone && (k.timedQ e).all fun d => d.ran && decide (d.finish ≤ lc)

/-- R158: where engine `e` of a cluster finds its next untimed descriptor: the cluster it is queued in, and the descriptor. -/
def State.pickFrom (s : State) (q cl e : Nat) : Option (Nat × TDesc) :=
  let kind := engineKind e
  let own := ((s.cluster cl).untimedQ kind).find? fun d => TD.ENGINE d.raw == e || TD.ENGINE d.raw == 15
  match own with
  | some d => some (cl, d)
  | none =>
    if s.exact q then none
    else
      let nb := (if cl % 8 = 0 then [] else [cl - 1]) ++ (if cl % 8 = 7 then [] else [cl + 1])
      nb.findSome? fun n =>
        if s.inPart q n then
          (((s.cluster n).untimedQ kind).find? fun d => TD.ENGINE d.raw == 15).map fun d => (n, d)
        else none

/-- R158: another idle engine that picks before engine `e` of cluster `cl` would take the same descriptor: a lower engine index, or the same
of a lower cluster. -/
def State.pickBefore (s : State) (q cl e lc : Nat) (p : Nat × TDesc) : Bool :=
  (s.partClusters q).any fun c => (List.range 16).any fun i =>
    (decide (i < e) || (i == e && decide (c < cl))) && s.engineIdle c i lc && s.pickFrom q c i == some p

/-- UNTIMED_PICK: the engine takes a descriptor; from a neighbour it is a steal. -/
def State.pick (s : State) (q cl e n : Nat) (d : TDesc) : State :=
  let kind := engineKind e
  let s := s.modCluster n fun k => k.setUntimed kind ((k.untimedQ kind).erase d)
  let st := n != cl
  let s := s.modCluster cl fun k => k.setRun e (some { d with stolen := st })
  if st then (s.choice q F.TIME_CHOICEBY_STEAL).addFld F.THKT_CNT_STEAL cl 1 else s

/-! ## The rows -/

/-- TSUB (R149). -/
def execTsub (core : Nat) (s : State) : Res :=
  match s.issueOp core 3 0x34 with
  | some i => done s (i.s.tsubRun core i.lc i.e)
  | none => done s s

/-- TSUB_ACCEPT (R150): the core's oldest TSUB whose acceptance cycle has come; a legal descriptor whose queue is full waits. -/
def execTsubAccept (core : Nat) (s : State) : Res :=
  match s.seqLive core with
  | some (q, lc) =>
    match s.subReady q core lc with
    | some b => done s (s.tsubAccept q lc b)
    | none => done s s
  | none => done s s

/-- GATHER_ROW (R162). -/
def execGatherRow (cl e : Nat) (s : State) : Res := done s (s.thktWork cl e 0 (· == 0))
/-- GATHER_PAGE (R162). -/
def execGatherPage (cl e : Nat) (s : State) : Res := done s (s.thktWork cl e 0 (· == 1))
/-- SCATTER_ROW (R162). -/
def execScatterRow (cl e : Nat) (s : State) : Res := done s (s.thktWork cl e 1 (· == 0))
/-- KVAPPEND (R163). -/
def execKvappend (cl e : Nat) (s : State) : Res := done s (s.thktWork cl e 1 (· == 1))
/-- TOPK (R165). -/
def execTopk (cl e : Nat) (s : State) : Res := done s (s.thktWork cl e 2 (· == 0))
/-- PAGESCORE (R166). -/
def execPagescore (cl e : Nat) (s : State) : Res := done s (s.thktWork cl e 2 (· == 1))
/-- SAMPLE (R167). -/
def execSample (cl e : Nat) (s : State) : Res := done s (s.thktWork cl e 2 (· == 2))
/-- SAMPLEALL (R167). -/
def execSampleall (cl e : Nat) (s : State) : Res := done s (s.thktWork cl e 2 (· == 3))
/-- TRANSPOSE (R169). -/
def execTranspose (cl e : Nat) (s : State) : Res := done s (s.thktWork cl e 3 (· == 0))
/-- RELAYOUT (R169). -/
def execRelayout (cl e : Nat) (s : State) : Res := done s (s.thktWork cl e 3 (· == 1))
/-- REQUANT (R169). -/
def execRequant (cl e : Nat) (s : State) : Res := done s (s.thktWork cl e 3 (· == 2))
/-- COMPACT FLAGS (R170). -/
def execCompactFlags (cl e : Nat) (s : State) : Res := done s (s.thktWork cl e 4 (· == 0))
/-- MOE (R171). -/
def execMoe (cl e : Nat) (s : State) : Res := done s (s.thktWork cl e 4 (· == 1))
/-- DIGEST (R172). -/
def execDigest (cl e : Nat) (s : State) : Res := done s (s.thktWork cl e 5 (fun _ => true))

/-- THKT_COMPLETE (R154). -/
def execThktComplete (cl e : Nat) (s : State) : Res :=
  match s.thktLive cl with
  | none => done s s
  | some q =>
    match s.thktDue cl e (s.part q).lc with
    | some d => if (s.part q).gate then done s s else done s (s.thktEnd q cl e d)
    | none => done s s

/-- UNTIMED_PICK (R158). -/
def execUntimedPick (cl e : Nat) (s : State) : Res :=
  match s.thktLive cl with
  | none => done s s
  | some q =>
    let lc := (s.part q).lc
    if s.engineIdle cl e lc then
      match s.pickFrom q cl e with
      | some p => if s.pickBefore q cl e lc p then done s s else done s (s.pick q cl e p.1 p.2)
      | none => done s s
    else done s s

/-- UNTIMED_COMPLETE (R160): in the cc after the last write lands; at a beat gate no logical cycle passes. -/
def execUntimedComplete (cl e : Nat) (s : State) : Res :=
  match s.thktLive cl with
  | none => done s s
  | some q =>
    match (s.cluster cl).run e with
    | some d =>
      if d.ran ∧ (d.finish < (s.part q).lc ∨ (s.part q).gate = true) then
        done s ((s.modCluster cl fun k => k.setRun e none).thktDone q cl d)
      else done s s
    | none => done s s

end Sys2Proof.Machine
end

