-- ==== Sys2Proof/Machine/Cycle.lean ====
section
/-! DEFINITION. One logical cycle of a partition (07_core_queues.md R236, R246, R248; 09_beat_determinism.md R301 to R305; 18 R563). The rows
of a cycle stand between two ticks. What the spec places in the cycle by itself happens as it ends: reads before writes, each access in
its own cycle (R182, R183). What belongs to the next one happens as that begins, unless a late arrival freezes the partition before it. -/

namespace Sys2Proof.Machine

/-! ## The end of a cycle -/

/-- What is over after cycle `lc`: waits under R100, and overwritten words no read can still ask for. -/
def Core.prune (k : Core) (lc : Nat) : Core :=
  { k with
    spaces := k.spaces.filter fun p => decide (lc + 1 < p.2)
    recent := k.recent.filter fun r => decide (lc < r.1 + 2) }

/-- The units of one core in cycle `lc`, between its reads and its writes. -/
def State.unitCycle (s : State) (q lc c : Nat) : State :=
  (((s.loadCycle q c lc).chainCycle q c lc).rowCycle q c lc).accCycle c lc

/-- The memory accesses, arrays and engines of a partition in cycle `lc`. -/
def State.workCycle (s : State) (q lc : Nat) : State :=
  let s := s.readPhase q lc
  let s := (s.partCores q).foldl (fun t c => t.unitCycle q lc c) s
  let s := s.writePhase q lc
  { s.modPartCores q (fun k => (k.scalarCycle lc).prune lc) with bankUse := [] }

/-! ## The variant table (R236) -/

/-- R236: at the start of a beat the entry of the variant table is requested in the beat's first cycle. -/
def State.askTable (s : State) (c lc v tab addr : Nat) : State :=
  let w := (tab + v / 4) % 262144
  let g := (s.core c).nextKey
  (s.planFor c [{ cc := rdCycle 0 w lc, rank := rkFetch, core := c, unit := 0, word := w, act := .read (groupKey g 0) }]).modCore c
    fun k => { k.nextGroup with beatDone := false, vtab := none, vread := some ⟨lc + ownLat w, g, v % 4, addr⟩ }

/-- R236: the entry is there: fetch resumes at its address, or the job faults. -/
def State.tableCycle (s : State) (q c lc : Nat) : State :=
  match (s.core c).vread with
  | none => s
  | some r =>
    if lc < r.at_ then s
    else
      let a := (s.core c).cap (groupKey r.key 0) / 2 ^ (32 * r.idx) % 2 ^ 32
      let s := s.modCore c fun k => { k.dropGroup r.key with vread := none }
      if a % 2 = 1 ∨ 2 ^ 18 ≤ a then s.reject q c 0x0E 0 3 r.addr
      else s.modCore c fun k => { k with fetchOn := true, fetchAddr := a, lastReq := lc }

/-! ## Late arrivals (R278, R279, R303) -/

/-- A late arrival: the core that meets it, the cause of TIME_FRZLAST, the channel. -/
structure LateItem where
  core : Nat
  cause : Nat
  ch : Nat
  deriving DecidableEq, Repr

/-- A channel that core `c` is to take bytes from holds fewer than `n`. -/
def State.shortOf (s : State) (c ch n : Nat) : List LateItem :=
  if (s.chan c ch).bytes.length < n then [⟨c, (s.chan c ch).medium.cause, ch⟩] else []

/-- What core `c` awaits in cycle `lc`: the bytes of a RECV that issues, of the next group of a long one, and of a PLEACH due. -/
def State.coreLate (s : State) (c lc : Nat) : List LateItem :=
  (match s.recvLate c lc with | some r => s.shortOf c (W.RECV_CH r.w) (16 * r.words) | none => []) ++
  (match s.issueOp c 4 0x41 with | some i => s.shortOf c (W.RECV_CH i.e.lead) (recvNeed i.e) | none => []) ++
  (match s.pleachDue c lc with
   | some e => if W.PLEACHX_PKIND e.ext = 0 then [] else s.shortOf c (W.PLEACHX_CH e.ext) (pleachBytes e.lead)
   | none => [])

/-- The late arrivals of a partition in cycle `lc`. -/
def State.lateItems (s : State) (q lc : Nat) : List LateItem :=
  (s.partCores q).flatMap (fun c => s.coreLate c lc) ++
    (s.partClusters q).flatMap fun cl => (s.sendLate cl lc).map fun c => ⟨c, 4, 0⟩

/-- Freeze for one of the late arrivals of a cycle (R305). -/
def State.freezeFor (s : State) (q : Nat) (x : LateItem) : State :=
  (s.modPart q fun p => { p with frozen := false }).freeze q x.cause x.core x.ch

/-! ## The start of a cycle -/

/-- The words due in cycle `lc` that need no row complete. -/
def State.retireAll (s : State) (q lc : Nat) : State := (s.partCores q).foldl (fun t c => t.retire c lc) s

/-- What a core's units take up as cycle `lc` begins: words enter the send buffer, groups of long RECVs are taken, descriptors of rings and
the variant table are there. -/
def State.takeUp (s : State) (q lc c : Nat) : State :=
  (((s.enterSends q c lc).recvCycle c lc).ringCycle q c lc).tableCycle q c lc

/-- Cycle `lc` begins, or does not begin because of a late arrival in it (R248, R305). -/
def State.beginCycle (s : State) (q lc : Nat) : State :=
  let t := s.retireAll q lc
  match t.lateItems q lc with
  | [] => (s.partCores q).foldl (fun u c => u.takeUp q lc c) t
  | l => l.foldl (fun u x => u.freezeFor q x) s

/-- What every logical cycle of a partition does by itself as it ends: waits are counted, the units work, guard bits change, TSUBs in hand
and timed descriptors move on. -/
def State.closeCycle (s : State) (q lc : Nat) : State :=
  let s := (s.partCores q).foldl (fun t c => t.countWaits c lc) s
  let s := s.workCycle q lc
  let s := (s.partClusters q).foldl (fun t k => t.guardTick q k lc) s
  ((s.subTick q lc).subAccept q lc).thktTick q lc

/-- The job stops for a fault of the cycle that ends (R563), or its next cycle is due. -/
def State.endCycle (s : State) (q : Nat) : State :=
  let s := s.closeCycle q (s.part q).lc
  match (s.part q).fault with
  | some f => s.stopJob q f
  | none => s.modPart q fun p => if p.job == .run then { p with lc := p.lc + 1, bc := p.bc + 1 } else p

/-- One logical cycle of a partition ends, and the next begins. -/
def State.cycleEnd (s : State) (q : Nat) : State :=
  let s := (s.endCycle q).dropNotes q
  if (s.part q).job == .run then s.beginCycle q (s.part q).lc else s

/-! ## After a stop (R563) -/

/-- A core has nothing in flight. -/
def Core.quiet (k : Core) : Bool :=
  k.plan.isEmpty && k.chruns.isEmpty && k.rows.isEmpty && k.accw.isEmpty && k.loads.isEmpty && k.kplan.isEmpty && k.ringrd.isEmpty
    && k.recvs.isEmpty

/-- R563: the writes of words that issued in or before the stop land, each in the cycle after the one before; nothing issues. A long RECV
whose bytes have not come takes no more. -/
def State.runOut (s : State) (q : Nat) : Nat → Nat → State
  | 0, _ => s
  | n + 1, lc =>
    if (s.partCores q).all fun c => (s.core c).quiet then s
    else
      let s := (s.partCores q).foldl (fun t c =>
        let t := if (t.recvLate c lc).isSome then t.modCore c fun k => { k with recvs := [] } else t.recvCycle c lc
        t.ringCycle q c lc) s
      (s.workCycle q lc).runOut q n (lc + 1)

/-- The words in flight of a partition whose job has stopped run out. -/
def State.settle (s : State) (q : Nat) : State :=
  if (s.part q).job == .faulted then s.runOut q (2 ^ 32) (s.part q).lc else s

end Sys2Proof.Machine
end

