-- ==== Sys2Proof/Machine/Access.lean ====
section
/-! DEFINITION. The access-error log (00_scope.md R20; 13_host_interfaces.md, HQ_ACCERR) and the offsets of registers. -/

namespace Sys2Proof.Machine

/-- The offset of an index of a register within its block, from the outermost dimension in. -/
def joinDims : List (Nat × Nat) → Nat → Nat
  | [], _ => 0
  | (st, _) :: r, i => let n := r.foldl (fun k d => k * d.2) 1; i / n * st + joinDims r (i % n)

/-- The offset in BAR0 of a register. -/
def regOffset (r : RegName) (i : Nat) : Nat := (regInfo r).base + joinDims (regInfo r).dims i

/-- An access error is recorded: the first while VALID is 0, later ones counted. `bar` 0 BAR0, 1 BAR2. -/
def State.accErr (s : State) (kind bar : Nat) (write : Bool) (off : Nat) : State :=
  if s.fld F.HQ_ACCERR_VALID 0 = 0 then
    let s := (((s.hwSet F.HQ_ACCERR_VALID 0 1).setFld F.HQ_ACCERR_KIND 0 kind).setFld F.HQ_ACCERR_BAR 0 bar).setFld
      F.HQ_ACCERR_WRITE 0 (if write then 1 else 0)
    (((s.setFld F.HQ_ACCERR_MORE 0 0).setFld F.HQ_ACCERR_OFFSET 0 off)).raise 320
  else s.addFld F.HQ_ACCERR_MORE 0 1

/-- A write refused by state, handled as a write to an offset that holds no register (R20). -/
def State.refuseWrite (s : State) (r : RegName) (i : Nat) : State := s.accErr 2 0 true (regOffset r i)

end Sys2Proof.Machine
end

