-- ==== Sys2Proof/Machine/Token.lean ====
section
/-! DEFINITION. Maintenance tokens (18_resets_faults_maintenance.md R581 to R583, Table 18.6) and the access-error log (13 R433,
00 R20). -/

namespace Sys2Proof.Machine

/-! Table 18.6: the codes of activities. -/
def actCoreTest : Nat := 1
def actCoreFence : Nat := 2
def actRemap : Nat := 3
def actBankFail : Nat := 4
def actPortTest : Nat := 5
def actSweep : Nat := 6
def actStep : Nat := 7
def actRetrain : Nat := 8
def actState : Nat := 9

/-- Table 18.6: pairs of activities that may share a token. -/
def codesShare (a b : Nat) : Bool :=
  [(1, 1), (1, 4), (1, 6), (2, 4), (4, 4), (5, 5), (5, 8), (8, 8)].any fun p => (p.1 == a && p.2 == b) || (p.1 == b && p.2 == a)

/-- R581: two activities are compatible. -/
def Act.share (a b : Act) : Bool :=
  let meet (x y : List Nat) : Bool := x.any y.contains
  let under (x y : Act) : Bool := x.slots.any fun s => y.clusters.testBit (s / 16)
  codesShare a.code b.code && !meet a.slots b.slots && !meet a.cols b.cols && !meet a.ports b.ports && !under a b && !under b a

/-- R582: an activity can take its tokens. -/
def State.canAct (s : State) (a : Act) : Bool := s.acts.all fun b => a.tokens &&& b.tokens == 0 || a.share b

/-- The nine tokens of a mask. -/
def tokensOf (m : Nat) : List Nat := (List.range 9).filter m.testBit

/-- Token 8 and every token. -/
def tokRoot : Nat := 256
def tokAll : Nat := 511

/-- The tokens of the dies that hold some clusters. -/
def tokDies (mask : Nat) : Nat := ((List.range 8).filter fun d => mask / 2 ^ (8 * d) % 256 != 0).foldl (fun t d => t + 2 ^ d) 0

/-- An activity with nothing named. -/
def Act.mk0 (code tokens : Nat) : Act := ⟨0, code, tokens, [], [], [], 0, 0, 0, false, 0⟩

/-- Start an activity: it takes its tokens, ROOT_MAINT shows it. -/
def State.startAct (s : State) (a : Act) : State :=
  let a := { a with id := s.nextAct }
  let s := { s with acts := s.acts ++ [a], nextAct := s.nextAct + 1 }
  (tokensOf a.tokens).foldl (fun t k =>
    ((t.setFld F.ROOT_MAINT_HELD k 1).setFld F.ROOT_MAINT_ACT k a.code).setFld F.ROOT_MAINT_PROGRESS k 0) s

/-- R582: an activity ends with a status: its tokens are released, ROOT_MAINT records the status, source 13 is raised. -/
def State.endAct (s : State) (a : Act) (status : Nat) : State :=
  let s := { s with acts := s.acts.filter fun b => b.id != a.id }
  let s := (tokensOf a.tokens).foldl (fun t k =>
    (((t.setFld F.ROOT_MAINT_HELD k (if t.acts.any fun b => b.tokens.testBit k then 1 else 0)).setFld F.ROOT_MAINT_STATUS k status).setFld
      F.ROOT_MAINT_ACT k a.code).setFld F.ROOT_MAINT_PROGRESS k 100) s
  s.raise 13

/-- The activities of a code. -/
def State.actsOf (s : State) (code : Nat) : List Act := s.acts.filter fun a => a.code == code

/-- R213, R214: the sweep of a COLD reset runs, or that of waking from DEEP or DORMANT, which lies within the wake. -/
def State.sweeping (s : State) : Bool :=
  decide (s.refNs < s.pow.sweepEnd) || (s.pow.trans == some 0 && decide (2 ≤ s.fld F.PWR_STATE_CUR 0))

/-- Clusters that a sweep covers now. -/
def State.swept (s : State) (cl : Nat) : Bool := s.sweeping || (s.actsOf actSweep).any fun a => a.clusters.testBit cl

/-- R214, R484: a memory of a cluster is out of reach of BAR2, DMA, RD and WR: a sweep covers it, the part is in DEEP or DORMANT, or a
change of power state runs. -/
def State.shut (s : State) (cl : Nat) : Bool := s.swept cl || decide (2 ≤ s.fld F.PWR_STATE_CUR 0) || s.pow.trans.isSome

/-- A partition is LAUNCHED or in RUN. -/
def State.busyPart (s : State) (q : Nat) : Bool := (s.part q).jobLive

/-- Any partition is LAUNCHED or in RUN. -/
def State.anyBusy (s : State) : Bool := (List.range 8).any s.busyPart

/-- A partition of a port's SCHEDMASK is LAUNCHED or in RUN. -/
def State.schedBusy (s : State) (n : Nat) : Bool :=
  let m := s.fld F.PORT_CFG_SCHEDMASK n
  (List.range 8).any fun q => m.testBit q && s.busyPart q

end Sys2Proof.Machine
end

