-- ==== Sys2Proof/Machine/MemSys.lean ====
section
/-! DEFINITION. Bulk slots, scrub and sweeps (06_memories.md R193, R198 to R217, R608). -/

namespace Sys2Proof.Machine

/-! ## Slots -/

/-- What stands in a tier-column's slots: the partition of its cluster. -/
def State.colPart (s : State) (tc : Nat) : Option Nat := s.partOf (tcCluster tc)

/-- The tier-column exists. -/
def State.colExists (s : State) (tc : Nat) : Bool := decide (tc < 256) && decide (tc / 8 % 4 < s.id.tiers)

/-- A transfer that has a slot of its own. -/
def Xfer.slotted (x : Xfer) : Bool := match x.act with | .root _ _ _ _ _ => false | _ => true

/-- The first pending transfer of a column that has a slot. -/
def TierCol.next (c : TierCol) : Option Xfer :=
  (c.pend.filter Xfer.slotted).foldl (fun m x =>
    match m with | none => some x | some y => if x.slot < y.slot then some x else m) none

/-- Drop a transfer, or put another in its place. -/
def TierCol.swap (c : TierCol) (x : Xfer) (y : Option Xfer) : TierCol :=
  { c with pend := c.pend.flatMap fun z => if z == x then y.toList else [z] }

/-- An uncorrectable error met by a transfer of a word faults the job (R209, R608). -/
def State.xferFault (s : State) (x : Xfer) (ue : Bool) : State :=
  if ue then match s.partOf (x.core / 8) with
    | some q => s.jobFault q caMEMORY stFAULTED x.core 0
    | none => s
  else s

/-- The words of a line read for a local memory are written there, each in the cycle its write lands; where no logical cycle follows, at
once (R563). -/
def State.landLocal (s : State) (q who core unit word req : Nat) (bs : List Byte) : State :=
  let ps : List Plan := (List.range (bs.length / 16)).map fun i =>
    { cc := req + s.mvWrLat who core unit (word + i), rank := accRank rkMover who core, core := core, unit := unit, word := word + i,
      act := .write (ofBytes ((bs.drop (16 * i)).take 16)) (2 ^ 128 - 1) }
  if (s.part q).jobLive then s.planFor who ps else ps.foldl (fun t p => t.planWrite q who p) s

/-- Words captured under consecutive keys, as bytes. -/
def Core.capBytes (k : Core) (key n : Nat) : List Byte := (List.range n).flatMap fun i => toBytes 16 (k.cap (key + i))

/-- Those words are no longer needed. -/
def Core.dropCaps (k : Core) (key n : Nat) : Core := (List.range n).foldl (fun k i => k.capture (key + i) 0) k

/-- The bytes that a transfer writes, at their offset in the line; none for one that reads. -/
def State.xferBytes (s : State) (x : Xfer) : Option (Nat × List Byte) :=
  match x.act with
  | .store off key n => some (off, (s.core x.core).capBytes key n)
  | .write off bs => some (off, bs)
  | _ => none

/-- The captured words of a transfer are dropped. -/
def State.xferDrop (s : State) (x : Xfer) : State :=
  match x.act with | .store _ key n => s.modCore x.core fun k => k.dropCaps key n | _ => s

/-- A write of a transfer takes its slot: the line is written, or read for the merge that lands in the second slot (R193). -/
def State.xferWrite (s : State) (tc : Nat) (x : Xfer) (off : Nat) (bs : List Byte) : State :=
  let a := bulkAddr tc (x.line * 256)
  match x.slot2 with
  | some m =>
    let r := s.readMem (.core x.core) a 256
    let line := r.2.1.take off ++ bs ++ r.2.1.drop (off + bs.length)
    (r.1.setCol tc ((r.1.col tc).swap x (some { x with slot := m, slot2 := none, act := .write 0 line }))).xferFault x r.2.2
  | none =>
    let s := s.setCol tc ((s.col tc).swap x none)
    (s.writeMem (.core x.core) (a + off) bs).1

/-- A transfer takes its slot (R200): a line is read into words of a local memory; a whole line lands; a part of a line is merged with
the line as read, which then lands in the second slot (R193). -/
def State.runXfer (s : State) (tc : Nat) (x : Xfer) : State :=
  let a := bulkAddr tc (x.line * 256)
  match x.act, s.xferBytes x with
  | _, some b => (s.xferDrop x).xferWrite tc x b.1 b.2
  | .toLocal core unit word off len req, none =>
    let r := s.readMem (.core x.core) (a + off) len
    let s := r.1.setCol tc ((r.1.col tc).swap x none)
    (s.landLocal ((s.partOf (x.core / 8)).getD 0) x.core core unit word req r.2.1).xferFault x r.2.2
  | .root q pri led off bytes, none =>
    if bytes.length = 256 then (s.setCol tc ((s.col tc).swap x none)).writeMem .other a bytes |>.1
    else
      let r := s.readMem .other a 256
      r.1.setCol tc ((r.1.col tc).swap x
        (some { x with act := .root q pri led 0 (r.2.1.take off ++ bytes ++ r.2.1.drop (off + bytes.length)) }))
  | _, none => s

/-- R439: the precedence of a queued write of RT0. -/
def Xfer.pri (x : Xfer) : Nat := match x.act with | .root _ p _ _ _ => p | _ => 4

/-- R439, R571: the write of RT0 that takes its next slot: of the queued ones the highest in precedence, of those the oldest. -/
def TierCol.rootNext (c : TierCol) : Option Xfer :=
  (c.pend.filter fun x => !x.slotted).foldl (fun m x =>
    match m with | none => some x | some y => if x.pri < y.pri then some x else m) none

/-- Slot `n` of a tier-column, not yet past, is RT0's and no transfer has taken it. -/
def State.rootSlot (s : State) (tc n : Nat) : Bool :=
  decide ((s.col tc).slot ≤ n) && s.slotOwner tc n == ownRoot 0 && !(s.col tc).taken.contains n

/-- What slot `n` of a tier-column does now for a transfer: the first transfer whose slot it is, or a queued write of RT0 in a
slot of RT0. -/
def State.slotXfer (s : State) (tc n : Nat) : Option Xfer :=
  let c := s.col tc
  match s.colPart tc with
  | none => none
  | some q =>
    let p := s.part q
    let due := p.live && decide (slotCc n ≤ p.bc)
    let ended := !p.jobLive
    match c.next with
    | some x => if x.slot = n ∧ (due ∨ p.job = .faulted) then some x else
        if due && s.rootSlot tc n then c.rootNext else none
    | none => if ended || (due && s.rootSlot tc n) then c.rootNext else none

/-- BULK_SLOT_TRANSFER (R200). Words issued before a fault land their writes (R563). -/
def execBulkSlotTransfer (tc slot : Nat) (s : State) : Res :=
  match s.slotXfer tc slot with
  | some x =>
    let t := s.runXfer tc x
    done s (if x.slotted then t else t.setCol tc { t.col tc with slot := slot + 1 })
  | none => done s s

/-! ## Patrol scrub -/

/-- R202, R204: slot `n` of a tier-column goes to patrol scrub now. -/
def State.scrubTurn (s : State) (tc n : Nat) : Bool :=
  let c := s.col tc
  s.colExists tc && !s.swept (tcCluster tc) && (match s.colPart tc with
    | none => decide (c.slot ≤ n) && decide (slotCc n * 1000 ≤ s.refNs * freqOf 7)
    | some q =>
      let p := s.part q
      if p.frozen || p.stopUntil.isSome then false
      else if p.live then decide (slotCc n ≤ p.bc) && decide (c.slot ≤ n) && !c.taken.contains n
      else true)

/-- One scrub slot: a write-back that is owed, else a read of the line at the pointer. -/
def State.scrub (s : State) (tc : Nat) : State :=
  let line := bulkAddr tc (s.fld F.CAL_SCRUB_POINTER tc * 256)
  if (s.col tc).scrubBack then
    let s := s.clearBad (s.linePieces line)
    (s.setCol tc { s.col tc with scrubBack := false }).scrubNext tc
  else
    let failed := s.fld F.CAL_COLSTAT_FAILED tc = 1
    let fb := s.fld F.CAL_COLSTAT_FBANK tc
    let fix := (List.range 17).any fun p => !(decide failed && pieceBank line p == fb) && SMap.get 0 s.bad (pieceUnit line p) != 0
    let r := s.readLine line
    if r.2 || !fix then r.1.scrubNext tc else r.1.setCol tc { r.1.col tc with scrubBack := true }

/-- SCRUB_SLOT (R210). -/
def execScrubSlot (tc slot : Nat) (s : State) : Res :=
  if s.scrubTurn tc slot then
    let t := s.scrub tc
    done s (if (s.colPart tc).isNone ∨ s.slotXfer tc slot = none then t.setCol tc { t.col tc with slot := max (t.col tc).slot (slot + 1) } else t)
  else done s s

/-- The 8-byte units of a word of a core store (unit 0) or of operand buffer `unit - 1`. -/
def wordUnits (core unit word : Nat) : List Nat :=
  if unit = 0 then [csUnit (csAddr core (word * 16)), csUnit (csAddr core (word * 16 + 8))]
  else [bufUnit core (unit - 1) (word * 16), bufUnit core (unit - 1) (word * 16 + 8)]

/-- R211: the read port of the word's bank is idle in the present cycle. -/
def State.portIdle (s : State) (core unit word : Nat) : Bool :=
  match s.liveQ core with
  | some q =>
    let lc := (s.part q).lc
    !((s.partCores q).any fun c => (s.core c).plan.any fun p =>
      p.portBy lc && p.core == core && p.unit == unit && accBank unit p.word == accBank unit word)
  | none => true

/-- A scrub of one word: corrected units are counted, and a write-back is owed. -/
def State.scrubWord (s : State) (core unit word : Nat) : State :=
  let us := (wordUnits core unit word).filter fun u => SMap.get 0 s.bad u == 1
  if us.isEmpty then s
  else
    let t := s.addFld F.CORECTL_MEMSTAT_CECNT core us.length
    { t with scrubs := t.scrubs ++ [⟨core, unit, word, wordUnits core unit word, us, false⟩] }

/-- R211: the write port of the word's bank is free in the cycle that ends. -/
def State.backFree (s : State) (x : ScrubBack) : Bool :=
  match s.liveQ x.core with
  | some q =>
    let lc := (s.part q).lc
    !((s.partCores q).any fun c => (s.core c).plan.any fun p =>
      p.writesBy lc && p.core == x.core && p.unit == x.unit && accBank x.unit p.word == accBank x.unit x.word)
  | none => true

/-- A write-back is made. -/
def State.scrubDone (s : State) (x : ScrubBack) : State :=
  { s with bad := x.fix.foldl (fun m k => m.erase k) s.bad, scrubs := s.scrubs.erase x }

/-- R211: a cycle ends for the cores that a test picks: corrections owed since an earlier one are written back where the port is free. -/
def State.scrubBacks (s : State) (mine : Nat → Bool) : State :=
  let due := s.scrubs.filter fun x => x.ripe && mine x.core && s.backFree x
  let s := due.foldl State.scrubDone s
  { s with scrubs := s.scrubs.map fun x => if mine x.core then { x with ripe := true } else x }

/-- CORE_STORE_SCRUB (R211). -/
def execCoreStoreScrub (core unit word : Nat) (s : State) : Res :=
  if s.coreExists core ∧ unit < 4 ∧ word < unitWords unit ∧ s.portIdle core unit word then done s (s.scrubWord core unit word)
  else done s s

/-! ## The distance tables (R196, R197) -/

/-- DIST_CS: the latency of requester `req` of a cluster (8 the thicket, 9 the cluster port) to the store of a slot. -/
def State.distCs (s : State) (cl req tgt k : Nat) : Nat :=
  match s.physSlot cl tgt with
  | none => 0
  | some pt =>
    if req = 9 then 16 + 2 * k
    else if req = 8 then 18 + 2 * k
    else match s.physSlot cl req with
      | none => 0
      | some pr => if req = tgt then 6 + 2 * k else peerLat pr pt k

/-- The part of a die's distance table that depends on the map of a cluster (R190, R197). -/
def State.distTable (s : State) (cl : Nat) : List Nat :=
  (List.range 10).flatMap fun req => (List.range 8).map fun tgt => s.distCs cl req tgt 0

/-- R197: the rebuild of a die's table: DIST_GEN counts it where the table changed. -/
def State.rebuilt (s old : State) (d : Nat) : State :=
  let cls := (List.range 8).map (8 * d + ·)
  if cls.map s.distTable = cls.map old.distTable then s else s.setFld F.DIST_GEN_GEN d ((s.fld F.DIST_GEN_GEN d + 1) % 2 ^ 32)

/-- R197: every die's table is rebuilt from the topiary map, by a WARM reset and on waking from DEEP. -/
def State.rebuildAll (s : State) : State :=
  let t := (List.range 64).foldl State.loadTopo s
  (List.range 8).foldl (fun u d => u.rebuilt s d) t

/-! ## Sweeps (R213 to R217) -/

/-- The frequency step of a region in a sweep, by a cluster of it (R214). -/
def State.sweepStep (s : State) (cl : Nat) : Nat :=
  match (s.partOf (cl / 2 * 2)).orElse fun _ => s.partOf (cl / 2 * 2 + 1) with
  | some q => (s.part q).step
  | none =>
    let ps := (List.range 8).filterMap fun k => (s.partOf (cl / 8 * 8 + k)).map fun q => (s.part q).step
    if ps.isEmpty then 7 else ps.foldl max 0

/-- The ns a sweep of some clusters takes: that of its slowest region. -/
def State.sweepNs (s : State) (mask : Nat) : Nat :=
  ((List.range 64).filter mask.testBit).foldl (fun m cl => let f := freqOf (s.sweepStep cl); max m ((671089 * 1000 + f - 1) / f)) 0

/-- The fill pattern in a whole tier-column or core store, by its number of `fillKey`: every listed byte, error mark and poison mark of it
goes. -/
def State.sweepMem (s : State) (key pat : Nat) (psn : Bool) : State :=
  { s with
    mem := s.mem.filter fun e => fillKey e.1 != key
    fill := SMap.put 0 s.fill key pat
    bad := s.bad.filter fun e => decide (2 ^ 60 ≤ e.1) || fillKey (e.1 / 32 * 8) != key
    poison := s.poison.filter fun e => poisonMemOf e.1 != key
    poisonMem := SMap.put false s.poisonMem key psn }

/-- The fill pattern in the operand buffers of a core (R213, R215), tiles and accumulators with them. -/
def State.sweepBufs (s : State) (c pat : Nat) (psn : Bool) : State :=
  let mine (k : Nat) : Bool := decide (2 ^ 60 ≤ k) && (k - 2 ^ 60) / 32768 == c
  let s := s.modCore c fun k => { k with bufs := [], bufZero := false, bufFill := pat, arrs := [] }
  { s with
    bad := s.bad.filter fun e => !mine e.1
    poison := s.poison.filter fun e => !(decide (2 ^ 60 ≤ e.1) && (poisonMemOf e.1 - 1024) / 4 == c)
    poisonMem := [0, 1, 2].foldl (fun m b => SMap.put false m (1024 + 4 * c + b) psn) s.poisonMem }

/-- The tier-columns of a cluster. -/
def State.colsOf (s : State) (cl : Nat) : List Nat := (List.range s.id.tiers).map fun t => cl / 8 * 32 + t * 8 + cl % 8

/-- The core stores and bulk columns of a cluster are swept. -/
def State.sweepCluster (s : State) (cl pat : Nat) (psn bulk : Bool) : State :=
  let s := (s.clusterCores cl).foldl (fun t c => t.sweepMem (256 + c) pat psn) s
  if bulk then (s.colsOf cl).foldl (fun t c => t.sweepMem c pat psn) s else s

/-- The clusters of a mask. -/
def clustersOf (mask : Nat) : List Nat := (List.range 64).filter mask.testBit

/-- The activity of a sweep. -/
def State.sweepAct (s : State) (mask : Nat) : Act :=
  { Act.mk0 actSweep (tokDies mask) with
    clusters := mask, cols := (clustersOf mask).flatMap s.colsOf, ends := s.refNs + s.sweepNs mask,
    pat := s.fld F.ROOT_FILLCFG_PATTERN 0, poison := s.fld F.ROOT_FILLCFG_POISON 0 == 1 }

/-- R217: a sweep asked for: its status, and the state. -/
def State.askSweep (s : State) (mask : Nat) : State × Nat :=
  let m := mask % 2 ^ 64
  if !s.canAct (s.sweepAct m) then (s, stBUSY)
  else if (clustersOf m).any fun cl => (s.partOf cl).isSome then (s, stNOT_PERMITTED)
  else ((s.startAct (s.sweepAct m)).setFld F.ROOT_SWEEPSTAT_ACTIVE 0 1, stNOT_READY)

/-- ROOT_SWEEPCTL_WRITE (R217): a mask of zero starts nothing. -/
def execRootSweepctlWrite (by_ : Requester) (mask : Nat) (s : State) : Res :=
  let _ := by_
  if mask % 2 ^ 64 = 0 then done s s
  else let r := s.askSweep mask; done s (r.1.setFld F.ROOT_SWEEPSTAT_STATUS 0 r.2)

/-- A sweep that has had its time. -/
def State.sweepDue (s : State) : Option Act := (s.actsOf actSweep).find? fun a => decide (a.ends ≤ s.refNs)

/-- STATUS is that of the last write: a sweep that ends completes it when it is the one that write started. -/
def State.sweepOk (s : State) (a : Act) : State :=
  if s.fld F.ROOT_SWEEPSTAT_STATUS 0 = stNOT_READY ∧ (s.actsOf actSweep).getLast? = some a then s.setFld F.ROOT_SWEEPSTAT_STATUS 0 stOK
  else s

/-- SWEEP_COMPLETE (R217). -/
def State.endSweep (s : State) (a : Act) : State :=
  let s := (clustersOf a.clusters).foldl (fun t cl => t.sweepCluster cl a.pat a.poison true) s
  let s := (s.sweepOk a).endAct a stOK
  (s.setFld F.ROOT_SWEEPSTAT_ACTIVE 0 (if (s.actsOf actSweep).isEmpty then 0 else 1)).raise 10

/-- SWEEP_COMPLETE (R217). -/
def execSweepComplete (s : State) : Res :=
  match s.sweepDue with | some a => done s (s.endSweep a) | none => done s s

end Sys2Proof.Machine
end

