-- ==== Sys2Proof/Machine/Wire.lean ====
section
/-! DEFINITION. Bytes on the wire (10_denian_links.md Tables 10.2, 10.3, 10.5, 10.6; 11_fabric.md Table 11.8): CRC-32, frames and
their flits, CTRL flits, route headers, groups. -/

namespace Sys2Proof.Machine

/-! ## CRC-32 (IEEE 802.3) -/

/-- One bit of the reflected CRC. -/
def crcBit (c : Nat) : Nat := if c % 2 = 1 then (c / 2) ^^^ 0xEDB88320 else c / 2
/-- One byte. -/
def crcByte (c : Nat) (b : Byte) : Nat := crcBit (crcBit (crcBit (crcBit (crcBit (crcBit (crcBit (crcBit (c ^^^ b.toNat))))))))
/-- CRC-32 with the IEEE 802.3 polynomial: initial value and final complement all ones. -/
def crc32 (bs : List Byte) : Nat := 0xFFFFFFFF - bs.foldl crcByte 0xFFFFFFFF

/-- Bytes cut or padded with zeros to a length. -/
def fitBytes (n : Nat) (b : List Byte) : List Byte := b.take n ++ List.replicate (n - b.length) 0

/-- A field of bytes, little-endian. -/
def byF (b : List Byte) (off n : Nat) : Nat := ofBytes ((b.drop off).take n)

/-! ## Dynamic frames (R327) -/

/-- The flits of a frame of so many payload bytes. -/
def frameFlitCount (bytes : Nat) : Nat := 1 + (bytes - 32 + 63) / 64

/-- Table 10.6. -/
def frameHeader (f : Frame) : List Byte :=
  toBytes 8 (f.dst % 2 ^ 20 + f.src % 2 ^ 20 * 2 ^ 20 + f.op % 2 ^ 8 * 2 ^ 40 + f.tag % 2 ^ 12 * 2 ^ 48 + f.gen % 16 * 2 ^ 60)
    ++ toBytes 8 (f.addr % 2 ^ 48 + f.status % 256 * 2 ^ 48) ++ toBytes 2 f.bytes ++ toBytes 1 (frameFlitCount f.bytes - 1)
    ++ toBytes 1 f.hops ++ toBytes 12 f.opspec

/-- Cut bytes into flits of 64, the last padded. -/
def flitsOf (b : List Byte) : List (List Byte) := (List.range ((b.length + 63) / 64)).map fun i => fitBytes 64 ((b.drop (64 * i)).take 64)

/-- The flits of a frame. -/
def frameFlits (f : Frame) : List (List Byte) :=
  let b := frameHeader f ++ fitBytes f.bytes f.payload
  (flitsOf b).take (frameFlitCount f.bytes)

/-- The virtual channel of a frame. -/
def frameVc (f : Frame) : Nat := 1 + 2 * f.net + f.cls

/-- R327: a frame from the flits of a virtual channel; none where its header breaks the rules. -/
def frameOf (vc : Nat) (fl : List (List Byte)) : Option Frame :=
  let b := fl.flatten
  let w0 := byF b 0 8
  let w1 := byF b 8 8
  let n := byF b 16 2
  if n > 4064 ∨ byF b 18 1 + 1 ≠ fl.length ∨ fl.length ≠ frameFlitCount n then none
  else some
    { net := (vc - 1) / 2, cls := (vc - 1) % 2, dst := bits w0 19 0, src := bits w0 39 20, op := bits w0 47 40, tag := bits w0 59 48,
      gen := bits w0 63 60, addr := bits w1 47 0, status := bits w1 55 48, bytes := n, hops := byF b 19 1, opspec := byF b 20 12,
      payload := (b.drop 32).take n }

/-! ## CTRL flits (Table 11.8) -/

def ctrlBytes (f : CtrlFlit) : List Byte :=
  toBytes 1 f.typ ++ toBytes 1 f.flags ++ toBytes 2 f.seq ++ toBytes 4 f.jobid ++ toBytes 4 (f.node % 2 ^ 20 + f.sys % 256 * 2 ^ 20)
    ++ toBytes 4 (if f.typ = 1 then f.dst else f.dst % 2 ^ 20) ++ fitBytes 48 f.body

def ctrlOf (b : List Byte) : CtrlFlit :=
  let o := byF b 8 4
  { typ := byF b 0 1, flags := byF b 1 1, seq := byF b 2 2, jobid := byF b 4 4, node := bits o 19 0, sys := bits o 27 20,
    dst := if byF b 0 1 = 1 then byF b 12 4 else byF b 12 4 % 2 ^ 20, body := (b.drop 16).take 48 }

/-! ## Route headers (Table 10.5) -/

def routeHeader (hops : List Nat) (dcore ch len : Nat) (sig : Option (Nat × Nat)) : List Byte :=
  toBytes 1 hops.length ++ toBytes 1 0 ++ toBytes 2 (dcore % 512 + ch % 16 * 512) ++ toBytes 2 len
    ++ (match sig with | some g => toBytes 1 1 ++ toBytes 1 g.1 ++ toBytes 1 g.2 | none => toBytes 3 0)
    ++ toBytes 3 0 ++ fitBytes 19 (hops.map (BitVec.ofNat 8)) ++ toBytes 1 0

/-! ## Groups (Tables 10.2, 10.3) -/

/-- A slot tag. -/
def slotTag (vc : Nat) (first last : Bool) (rh : Nat) : Nat :=
  128 + 16 * vc + (if first then 8 else 0) + (if last then 4 else 0) + rh

def tagVc (t : Nat) : Nat := t / 16 % 8
def tagFirst (t : Nat) : Bool := t / 8 % 2 == 1
def tagLast (t : Nat) : Bool := t / 4 % 2 == 1

/-- An idle slot. -/
def idleSlot : Nat × List Byte := (0, List.replicate 64 0)

/-- The bytes of a group: 64 slots, then the trailer. -/
def groupBytes (slots : List (Nat × List Byte)) (rh : List (List Byte)) (gseq ack credit : Nat) : List Byte :=
  let data := slots.flatMap fun s => fitBytes 64 s.2
  let tr := slots.map (fun s => BitVec.ofNat 8 s.1) ++ fitBytes 32 (rh.getD 0 []) ++ fitBytes 32 (rh.getD 1 []) ++ toBytes 2 gseq
    ++ toBytes 2 ack ++ toBytes 12 credit ++ toBytes 12 0
  data ++ tr ++ toBytes 4 (crc32 (data ++ tr))

/-- The bytes of a group in all. -/
def groupLen : Nat := 4256

/-- A group's CRC matches and no tag names VC 7 (R324, R325). -/
def groupGood (raw : List Byte) : Bool :=
  raw.length == groupLen && crc32 (raw.take 4252) == byF raw 4252 4
    && (List.range 64).all fun j => let t := byF raw (4096 + j) 1; t < 128 || tagVc t != 7

/-- The slots of a group (tag, bytes). -/
def groupSlots (raw : List Byte) : List (Nat × List Byte) :=
  (List.range 64).map fun j => (byF raw (4096 + j) 1, (raw.drop (64 * j)).take 64)

end Sys2Proof.Machine
end

