-- ==== Sys2Proof/Machine/Ctrl.lean ====
section
/-! DEFINITION. Position, roles, the tree of a job's box and CTRL flits (11_fabric.md R361 to R366, R385 to R389). -/

namespace Sys2Proof.Machine

/-! ## Position and roles -/

/-- The node id of the part. -/
def State.node (s : State) : Nat := s.fld F.ROUTE_NODE_NODE 0
def State.sysNo (s : State) : Nat := s.fld F.ROUTE_NODE_SYSTEM 0

/-- A coordinate of a node: 0 x, 1 y, 2 z (Table 11.1). -/
def coord (d n : Nat) : Nat := match d with | 0 => bits n 19 14 | 1 => bits n 13 7 | _ => bits n 6 0
/-- A node with a coordinate changed. -/
def setCoord (d n v : Nat) : Nat :=
  match d with
  | 0 => n % 2 ^ 14 + v % 64 * 2 ^ 14
  | 1 => n / 2 ^ 14 * 2 ^ 14 + v % 128 * 2 ^ 7 + n % 2 ^ 7
  | _ => n / 2 ^ 7 * 2 ^ 7 + v % 128

/-- The torus size of a dimension. -/
def State.dim (s : State) (d : Nat) : Nat :=
  match d with | 0 => s.fld F.ROUTE_DIMS_DX 0 | 1 => s.fld F.ROUTE_DIMS_DY 0 | _ => s.fld F.ROUTE_DIMS_DZ 0

/-- A role code of a torus direction: its dimension and whether it is +. -/
def groupDim (g : Nat) : Nat := (g - 1) / 2
def groupPlus (g : Nat) : Bool := g % 2 == 1
def isTorus (r : Nat) : Bool := decide (1 ≤ r ∧ r ≤ 6)
/-- The group code of a dimension and a sign. -/
def groupOf (d : Nat) (plus : Bool) : Nat := 2 * d + (if plus then 1 else 2)
/-- The opposite group. -/
def opposite (g : Nat) : Nat := if groupPlus g then g + 1 else g - 1

/-- R363: the neighbour of a node in a group. -/
def State.neighbour (s : State) (n g : Nat) : Nat :=
  let d := groupDim g
  let m := s.dim d
  setCoord d n (if groupPlus g then (coord d n + 1) % m else (coord d n + m - 1) % m)

/-- R364: the role of a port in ROUTE_ROLE. -/
def State.roleReg (s : State) (n : Nat) : Nat := s.fld F.ROUTE_ROLE_ROLES (n / 8) / 256 ^ (n % 8) % 256

/-- R366: the role of a port in force: that of ROUTE_ROLE at the port's last training. -/
def State.role (s : State) (n : Nat) : Nat := (s.port n).role.getD (s.roleReg n)

/-- Table 11.3 with the orientation applied (R364): the default role of a port. -/
def defaultRole (ports orient n : Nat) : Nat :=
  if n ≥ ports then 0
  else
    let k := if ports = 48 then 6 else 3
    let r := n / k
    let r := if r < 6 then r + 1 else if n < (if ports = 48 then 44 else 22) then 0x10 else 0x20
    let r := if orient % 2 = 1 ∧ (r = 1 ∨ r = 2) then 3 - r else r
    if orient / 2 % 2 = 1 ∧ (r = 3 ∨ r = 4) then 7 - r else r

/-- The state of a port (Table 10.10). -/
def State.pstate (s : State) (n : Nat) : Nat := s.fld F.PORT_STAT_STATE n
def State.portUp (s : State) (n : Nat) : Bool := decide (n < s.id.ports) && s.pstate n == 3

/-- UP ports of a role, in increasing number. -/
def State.upPorts (s : State) (r : Nat) : List Nat := (List.range s.id.ports).filter fun n => s.portUp n && s.role n == r

/-! ## Events of the fabric -/

/-- R374, R388: a discard of the fabric is counted and raises source 12. -/
def State.fabDisc (s : State) (f : Fld) : State := (s.addFld f 0 1).raise 12

/-- A change of TIME_STAT.SYNC (R468). -/
def State.setSync (s : State) (on : Bool) : State :=
  let v := if on then 1 else 0
  if s.fld F.TIME_STAT_SYNC 0 = v then s else (s.setFld F.TIME_STAT_SYNC 0 v).raise 34

/-- R469: the part is time master. -/
def State.isMaster (s : State) : Bool := s.fld F.TIME_MASTER_MASTER 0 == 1

/-- R468: the parent port leaves UP. -/
def State.parentLost (s : State) (n : Nat) : State :=
  if !s.isMaster && s.tm.parent && s.fld F.TIME_STAT_PARENT 0 == n then s.setSync false else s

/-! ## The box (R385, R386) -/

/-- The first coordinate and the size of a job's box in a dimension. -/
def State.boxLo (s : State) (q d : Nat) : Nat :=
  match d with | 0 => s.fld F.ROUTE_JOBBOX_XLO q | 1 => s.fld F.ROUTE_JOBBOX_YLO q | _ => s.fld F.ROUTE_JOBBOX_ZLO q
def State.boxN (s : State) (q d : Nat) : Nat :=
  match d with | 0 => s.fld F.ROUTE_JOBBOX_XN q | 1 => s.fld F.ROUTE_JOBBOX_YN q | _ => s.fld F.ROUTE_JOBBOX_ZN q

/-- R385: there is a box. -/
def State.hasBox (s : State) (q : Nat) : Bool := (List.range 3).all fun d => s.boxN q d != 0

/-- The place of a node within the box along a dimension. -/
def State.boxPos (s : State) (q d n : Nat) : Nat := let m := s.dim d; (coord d n + m - s.boxLo q d % m) % m

/-- A node lies in the box. -/
def State.inBox (s : State) (q n : Nat) : Bool :=
  (List.range 3).all fun d => decide (coord d n < s.dim d) && decide (s.boxPos q d n < s.boxN q d)

/-- R386: from part `p` the step toward origin `o`, along one dimension in which they differ: the group code. -/
def State.stepDir (s : State) (q d o p : Nat) : Nat :=
  let m := s.dim d
  if s.boxN q d = m then
    let f := (coord d p + m - coord d o) % m
    groupOf d (!decide (2 * f ≤ m))
  else groupOf d (!decide (s.boxPos q d p > s.boxPos q d o))

/-- R386: the group by which the parent of `p` in the tree of `o` is reached; none for `o` itself. -/
def State.parentDir (s : State) (q o p : Nat) : Option Nat :=
  if coord 2 p ≠ coord 2 o then some (s.stepDir q 2 o p)
  else if coord 1 p ≠ coord 1 o then some (s.stepDir q 1 o p)
  else if coord 0 p ≠ coord 0 o then some (s.stepDir q 0 o p)
  else none

/-- R387: the job's messages go by express. -/
def State.express (s : State) (q : Nat) : Bool := s.fld F.ROUTE_JOBBOX_EXPRESS q == 1

/-- The children of a part in the tree of `o`: group codes, each with the child's node. -/
def State.childDirs (s : State) (q o p : Nat) : List (Nat × Nat) :=
  ((List.range 6).map (· + 1)).filterMap fun g =>
    let c := s.neighbour p g
    if c ≠ p ∧ s.inBox q c ∧ s.parentDir q o c = some (opposite g) then some (g, c) else none

/-- R386: the eccentricity of a part in the box. -/
def State.ecc (s : State) (q o : Nat) : Nat :=
  if s.express q then 2
  else
    ((List.range 3).map fun d =>
      let n := s.boxN q d
      if n = s.dim d then n / 2 else max (s.boxPos q d o) (n - 1 - s.boxPos q d o)).sum

/-- The parts of the box. -/
def State.boxParts (s : State) (q : Nat) : Nat := s.boxN q 0 * s.boxN q 1 * s.boxN q 2

/-! ## Sending CTRL flits -/

/-- R333: a unit put into a queue behind those before it; of those that reach it in one ns, one of a lower arrival port stands first. `keys`
says where the units of this ns that still stand at the end of the queue came from; 1024 is local origin. -/
def tiePut {α : Type} (l : List α) (keys : List Nat) (from_ : Nat) (x : α) : List α × List Nat :=
  let k := keys.drop (keys.length - l.length)
  let j := (k.takeWhile fun y => decide (y ≤ from_)).length
  let i := l.length - k.length + j
  (l.take i ++ x :: l.drop i, k.take j ++ from_ :: k.drop j)

/-- Where the units of channel `vc` that reached a port's queue in this ns came from. -/
def Port.tieKeys (p : Port) (vc ns : Nat) : List Nat := let t := SMap.get (0, []) p.ties vc; if t.1 = ns then t.2 else []

/-- A CTRL flit is queued for a port. -/
def Port.putCtrl (p : Port) (f : CtrlFlit) (ns from_ : Nat) : Port :=
  let r := tiePut p.ctrl (p.tieKeys 5 ns) from_ f
  { p with ctrl := r.1, ties := SMap.put (0, []) p.ties 5 (ns, r.2) }

/-- Put a CTRL flit that came by a port, or is of local origin, into the outbound queue of a port. -/
def State.ctrlOut (s : State) (n : Nat) (f : CtrlFlit) (from_ : Nat := 1024) : State := s.modPort n fun p => p.putCtrl f s.refNs from_

/-- R389: the job of a partition faults where a flit finds no port; a RESET faults nothing. -/
def State.ctrlLost (s : State) (q : Nat) (f : CtrlFlit) : State :=
  if f.typ = 8 then s else s.jobFault q caCONTROL stLINK_LOST 0 0

/-- Send a flit by the lowest UP port of a role. -/
def State.ctrlBy (s : State) (q r : Nat) (f : CtrlFlit) (from_ : Nat := 1024) : State :=
  match s.upPorts r with | n :: _ => s.ctrlOut n f from_ | [] => s.ctrlLost q f

/-- R386 to R388: send or forward a flit to the children of this part in the tree of origin `o`, in order of their group codes. -/
def State.toChildren (s : State) (q o : Nat) (f : CtrlFlit) (from_ : Nat := 1024) : State :=
  if s.express q then
    (if o = s.node ∧ s.boxParts q > 1 then s.ctrlBy q 0x10 { f with dst := 0xFFFFF } from_ else s)
  else (s.childDirs q o s.node).foldl (fun t c => t.ctrlBy q c.1 f from_) s

/-- R391: send a flit to the parent of this part in the tree of `o`. -/
def State.toParent (s : State) (q o : Nat) (f : CtrlFlit) : State :=
  if s.express q then s.ctrlBy q 0x10 { f with dst := o }
  else match s.parentDir q o s.node with | some g => s.ctrlBy q g f | none => s

/-- R388: the partition of a job. -/
def State.jobPart (s : State) (jobid : Nat) : Option Nat :=
  (List.range 8).find? fun q => (s.part q).mask != 0 && s.fld F.TIME_JOB_CFG_JOBID q == jobid

/-- A flit of this part's own for a partition, with the next SEQ of its operations. -/
def State.ownFlit (s : State) (q typ : Nat) (body : List Byte) : State × CtrlFlit :=
  let g := SMap.get Gop.init s.fab.gops q
  let f : CtrlFlit := ⟨typ, 0, g.seq, s.fld F.TIME_JOB_CFG_JOBID q, s.node, s.sysNo, 0, body⟩
  ({ s with fab := { s.fab with gops := SMap.put Gop.init s.fab.gops q { g with seq := (g.seq + 1) % 2 ^ 16 } } }, f)

/-- A CTRL flit arrives by port `n`: it is taken from the port's receive buffer where it stands there, its place freed. -/
def State.ctrlTake (s : State) (n : Nat) (f : CtrlFlit) : State :=
  let p := s.port n
  if p.ctrlIn.contains f then
    s.setPort n { p with ctrlIn := p.ctrlIn.erase f, freed := SMap.modify 0 p.freed 5 fun v => (v + 1) % 4096 }
  else s

/-- R388: a job-scoped flit that names no partition of the part is discarded; else it is forwarded, and then acted on. -/
def State.ctrlJob (s : State) (n : Nat) (f : CtrlFlit) (act : State → Nat → State) : State :=
  let s := s.ctrlTake n f
  match s.jobPart f.jobid with
  | none => s.fabDisc F.ROUTE_ERR0_CTRLDISC
  | some q => act (s.toChildren q f.node f n) q

end Sys2Proof.Machine
end

