-- ==== Sys2Proof/Machine/Request.lean ====
section
/-! DEFINITION. Frames, routes, tags and requests (11_fabric.md R367 to R384), and what a port may carry (10 R336, R353). -/

namespace Sys2Proof.Machine

/-! ## What a port carries -/

/-- R353: whether a port carries a virtual channel now. -/
def State.carries (s : State) (n vc : Nat) : Bool :=
  match s.pstate n with
  | 3 => let r := s.role n; isTorus r || r == 0x10 || decide (5 ≤ vc)
  | 1 => vc == 6
  | 2 => vc == 6
  | 4 => vc == 6
  | 5 => vc == 6
  | 6 => vc == 6
  | _ => false

/-- Groups of a window period (R332). -/
def State.winGroups (s : State) (n : Nat) : Nat := 100 * 2 ^ (s.fld F.PORT_WIN_K n - 12)

/-- R336: the non-reserved slots of the dynamic window of a port. -/
def State.dynSlots (s : State) (n : Nat) : Nat := 63 * (s.winGroups n - s.fld F.PORT_WIN_SLEN n)

/-! ## Routes -/

/-- Table 11.4: the active entry `e` of a network (0 REQ, 1 RSP). -/
def State.routeEntry (s : State) (net e : Nat) : Nat := (s.reg .ROUTE_ENTRY (net * 256 + e)).toNat

/-- An entry matches a destination (R372). -/
def entryMatches (v dst : Nat) : Bool := v.testBit 63 && decide (bits v 19 0 ≤ dst) && decide (dst ≤ bits v 39 20)

/-- R372: the entry that routes a destination: lowest PRIO, then lowest index. -/
def State.routeSelect (s : State) (net dst : Nat) : Option Nat :=
  (List.range 4).findSome? fun p =>
    ((List.range 256).map (s.routeEntry net)).find? fun v => entryMatches v dst && bits v 62 61 == p

/-- Where a frame goes. -/
inductive RouteTo where
  | here
  | port (n : Nat)
  | discard
  deriving DecidableEq, Repr

/-- A port that is UP and carries frames. -/
def State.frameUp (s : State) (n : Nat) : Bool := s.portUp n && s.carries n 1

/-- R372, R373. -/
def State.route (s : State) (f : Frame) : RouteTo :=
  if f.dst = s.node then .here
  else match s.routeSelect f.net f.dst with
    | none => .discard
    | some v =>
      match bits v 60 58 with
      | 0 => .here
      | 1 =>
        let ps := (s.upPorts (bits v 57 52)).filter s.frameUp
        if ps.isEmpty then .discard
        else match ps[((f.src ^^^ f.dst) ^^^ f.tag) % ps.length]? with
          | some n => .port n
          | none => .discard
      | 2 => let n := bits v 57 52; if s.frameUp n then .port n else .discard
      | _ => .discard

/-- R368: the class of a hop by port `n` of a frame that came by port `from_` in class `cls`. -/
def State.hopClass (s : State) (from_ : Option Nat) (cls n : Nat) : Nat :=
  let r := s.role n
  if !isTorus r then 0
  else
    let d := groupDim r
    let m := s.dim d
    let c := coord d s.node
    let line := if groupPlus r then c + 1 == m else c == 0
    let kept := match from_ with
      | some k => cls == 1 && isTorus (s.role k) && groupDim (s.role k) == d
      | none => false
    if line || kept then 1 else 0

/-- Put a frame that came by a port, or is of local origin, into the outbound queue of its channel (R333). -/
def Port.putFrame (p : Port) (f : Frame) (ns from_ : Nat) : Port :=
  let v := frameVc f
  let r := tiePut (SMap.get [] p.dyn v) (p.tieKeys v ns) from_ f
  { p with dyn := SMap.put [] p.dyn v r.1, ties := SMap.put (0, []) p.ties v (ns, r.2) }

/-- A discard under R372 to R374 or R369. -/
def State.noRoute (s : State) : State := s.fabDisc F.ROUTE_ERR1_NOROUTE

/-! ## Tags and completions -/

def State.tag (s : State) (t : Nat) : Tag := SMap.get Tag.init s.fab.tags t
def State.setTag (s : State) (t : Nat) (v : Tag) : State := { s with fab := { s.fab with tags := SMap.put Tag.init s.fab.tags t v } }
def State.net (s : State) (k : Nat) : Net := SMap.get Net.init s.fab.nets k
def State.setNet (s : State) (k : Nat) (v : Net) : State := { s with fab := { s.fab with nets := SMap.put Net.init s.fab.nets k v } }

/-- The tags in OUT. -/
def State.tagsOut (s : State) : List (Nat × Tag) := s.fab.tags.filter fun e => e.2.state == .out

/-- R381: the lowest FREE tag. -/
def State.freeTag (s : State) : Option Nat :=
  (List.range 4096).find? fun t => (s.tag t).state == .free

/-- The first event tick at or after a GTC instant. -/
def tickAt (g : Nat) : Nat := (g + 63) / 64 * 64

/-- The timeout of a request in ns (R382). -/
def State.reqNs (s : State) (r : ReqSpec) : Nat := 1000 * (if r.timeout = 0 then s.fld F.ROUTE_TMO_US 0 else r.timeout)

/-- R382: the timer of a tag starts now. -/
def State.startTimer (s : State) (t : Nat) : State :=
  let v := s.tag t
  match v.req with
  | some r => s.setTag t { v with sent := some s.gtc, expires := tickAt (s.gtc + s.reqNs r) }
  | none => s

/-- R313: the choices that a completion delivered into a partition counts. -/
def State.countDelivery (s : State) (r : ReqSpec) (status : Nat) : State :=
  match r.q with
  | none => s
  | some q =>
    if (s.part q).jobLive then
      let s := if r.beat.isNone then s.choice q F.TIME_CHOICEBY_REQNET else s
      if status = stTIMEOUT ∨ status = stLINK_LOST then s.choice q F.TIME_CHOICEBY_OUTCOME else s
    else s

/-- The bytes of a completed read are written to the requester's destination, where that is a memory of the part. -/
def State.landRead (s : State) (d : ReqDone) : State :=
  if d.req.op = 1 ∧ d.status = stOK ∧ daSpace d.req.land ≤ 1 ∧ !s.absent d.req.land then (s.writeMem .other d.req.land d.data).1 else s

/-- The beat of a partition that begins next. -/
def Part.nextBeat (p : Part) : Nat := if p.job == .launched || p.gate then p.beat else p.beat + 1

/-- R314: the beat at which a completion is released; in exact mode one that no notice named for a beat comes with the beat that begins next
(DESIGN CHOICE, log 69). -/
def State.releaseAt (s : State) (r : ReqSpec) : ReqSpec :=
  match r.q, r.beat with
  | some q, none => if (s.part q).jobLive && s.exact q then { r with beat := some (s.part q).nextBeat } else r
  | _, _ => r

/-- R383, R314: a completion to the requester. One announced for a beat is held until that beat begins. -/
def State.complete (s : State) (r : ReqSpec) (status : Nat) (data : List Byte) : State :=
  let r := s.releaseAt r
  let s := if status = stTIMEOUT then s.addFld F.ROUTE_ERR1_TIMEOUT 0 1
    else if status = stLINK_LOST then s.addFld F.ROUTE_ERR1_LINKLOST 0 1 else s
  let d : ReqDone := ⟨r, status, data⟩
  let s := { s with fab := { s.fab with dones := s.fab.dones ++ [d] } }
  if r.beat.isSome ∧ r.q.isSome then s else (s.landRead d).countDelivery r status

/-- Table 11.7: a tag in OUT enters RETIRE with a completion. -/
def State.retireTag (s : State) (t status : Nat) : State :=
  let v := s.tag t
  match v.req with
  | some r => (s.setTag t { v with state := .retire, until_ := s.gtc + s.reqNs r }).complete r status []
  | none => s.setTag t { v with state := .retire, until_ := s.gtc }

/-! ## Injection -/

/-- The frame of a request. -/
def State.reqFrame (s : State) (r : ReqSpec) (t gen : Nat) : Frame :=
  { net := 0, dst := r.node, src := s.node, op := r.op, tag := t, gen := gen, cls := 0, hops := 0,
    opspec := ofBytes (toBytes 2 (if r.op = 1 then r.bytes else if r.op = 3 then r.addr else 0) ++ toBytes 2 0 ++ toBytes 4 r.jobid),
    addr := if r.op = 3 then 0 else r.addr, status := 0, bytes := if r.op = 1 then 0 else r.payload.length,
    payload := if r.op = 1 then [] else r.payload }

/-- Requests are injected: no network drains (R376). -/
def State.injecting (s : State) : Bool := (s.net 0).state == 0 && (s.net 1).state == 0

/-- R381, R336: a request takes a tag and leaves, or completes at once. -/
def State.inject (s : State) (r : ReqSpec) : State :=
  match s.freeTag with
  | none => s.complete r stNO_RESOURCE []
  | some t =>
    let gen := ((s.tag t).gen + 1) % 16
    let f := s.reqFrame r t gen
    let take (p : Option Nat) : State := s.setTag t ⟨.out, gen, some r, p, none, 0, 0⟩
    match s.route f with
    | .here =>
      let s := (take none).startTimer t
      { s with fab := { s.fab with inReq := s.fab.inReq ++ [(none, false, f)] } }
    | .discard => ((take none).startTimer t).noRoute
    | .port n =>
      if s.dynSlots n < frameFlitCount f.bytes then
        ((s.addFld F.PORT_DEFER_REFUSED n 1).raise (64 + 4 * n + 3)).complete r stNOT_PERMITTED []
      else (take (some n)).modPort n fun p => p.putFrame { f with cls := s.hopClass none 0 n } s.refNs 1024

/-- A requester hands over a request: it is held while a network drains. -/
def State.request (s : State) (r : ReqSpec) : State :=
  if s.injecting then s.inject r
  else let v := s.net 0; s.setNet 0 { v with held := v.held ++ [r] }

/-- Held requests are injected in order, once no network drains. -/
def State.injectHeld (s : State) : State :=
  if s.injecting then
    let h := (s.net 0).held
    let s := s.setNet 0 { s.net 0 with held := [] }
    h.foldl (fun t r => t.inject r) s
  else s

/-- A frame made by this part (a reply) is routed. -/
def State.sendFrame (s : State) (f : Frame) : State :=
  match s.route f with
  | .here => { s with fab := { s.fab with inRsp := s.fab.inRsp ++ [f] } }
  | .discard => s.noRoute
  | .port n =>
    if s.dynSlots n < frameFlitCount f.bytes then (s.addFld F.PORT_DEFER_REFUSED n 1).raise (64 + 4 * n + 3)
    else s.modPort n fun p => p.putFrame { f with cls := s.hopClass none 0 n } s.refNs 1024

end Sys2Proof.Machine
end

