-- ==== Sys2Proof/Machine/PortBase.lean ====
section
/-! DEFINITION. Port states, identity records and training (10_denian_links.md R349 to R359). -/

namespace Sys2Proof.Machine

/-! ## The management cores -/

/-- R521: the primary core. -/
def State.primary (s : State) : Nat := s.fld F.ROOT_MGMT_PRIMARY 0

/-- The state of a management core (ROOT_MGMT): 0 RESET, 1 ROM, 2 STARTING, 3 RUNNING, 4 HELD. -/
def State.mcState (s : State) (m : Nat) : Nat := s.fld (if m = 0 then F.ROOT_MGMT_MC0STATE else F.ROOT_MGMT_MC1STATE) 0
def State.mcSlot (s : State) (m : Nat) : Nat := s.fld (if m = 0 then F.ROOT_MGMT_MC0SLOT else F.ROOT_MGMT_MC1SLOT) 0

/-- The VERSION of the firmware that the primary core runs; 0 where ROM runs on it. -/
def State.fwVersion (s : State) : Nat :=
  if s.mcState s.primary = 2 ∨ s.mcState s.primary = 3 then s.fld F.ROOT_IMG_VERSION (s.mcSlot s.primary) else 0

/-! ## Identity (R351) -/

/-- Table 10.9: the record port `n` sends. FW is the version of the firmware that the primary core runs (R351: a role switch changes it). -/
def State.ownRec (s : State) (n : Nat) : List Byte :=
  let b := toBytes 1 1 ++ toBytes 3 0x494E44 ++ toBytes 1 1
    ++ toBytes 1 (s.fld F.ROOT_BOOT_MINIMAL 0 + 2 * s.fld F.TIME_MASTER_MASTER 0) ++ toBytes 1 2 ++ toBytes 1 1
    ++ toBytes 4 (s.node + s.sysNo * 2 ^ 20 + s.fld F.ROUTE_NODE_ORIENT 0 * 2 ^ 28) ++ toBytes 1 n ++ toBytes 1 (s.role n)
    ++ toBytes 1 s.id.codeNum ++ toBytes 1 0xB0 ++ toBytes 4 s.fwVersion ++ toBytes 16 s.id.serial
    ++ toBytes 24 0
  b ++ toBytes 4 (crc32 b)

/-- A record that is not discarded: TYPE, MAGIC and CRC are right. -/
def recGood (r : List Byte) : Bool :=
  r.length == 64 && byF r 0 1 == 1 && byF r 1 3 == 0x494E44 && byF r 60 4 == crc32 (r.take 60)

/-! ## States -/

/-- A change of PORT_STAT.STATE (R359). -/
def State.setPState (s : State) (n st : Nat) : State :=
  if s.pstate n = st then s else (s.setFld F.PORT_STAT_STATE n st).raise (64 + 4 * n)

/-- What training starts from: nothing queued, nothing sequenced; what has been received and the neighbour's last record stay. -/
def Port.cleared (p : Port) : Port :=
  { Port.init with
    nbr := p.nbr, lanes := p.lanes, role := p.role, dims := p.dims, rx := p.rx, frames := p.frames, ctrlIn := p.ctrlIn,
    maintIn := p.maintIn }

/-- R357: everything queued for a port is discarded, and its replay buffer emptied. Its credits, sequence numbers and slots go on, since a
port that has left UP may carry MAINT (R353); what it has received stays. -/
def Port.discardOut (p : Port) : Port :=
  { p with
    sched := [], dyn := [], frm := none, ctrl := [], maint := [], ties := [], replay := [], resend := [], rep := none, replayWant := none,
    retryRun := 0 }

/-- R357: a port leaves UP. -/
def State.leaveUp (s : State) (n : Nat) : State :=
  let s := (s.modPort n Port.discardOut).parentLost n
  let m := s.fld F.PORT_CFG_SCHEDMASK n
  let s := (List.range 8).foldl (fun t q => if m.testBit q then t.jobFault q caLINK stLINK_LOST 0 n else t) s
  s.tagsOut.foldl (fun t e => if e.2.port == some n then t.retireTag e.1 stLINK_LOST else t) s

/-- The end of a RETRAIN activity of a port. -/
def State.endRetrain (s : State) (n status : Nat) : State :=
  match s.acts.find? fun a => a.code == actRetrain && a.ports.contains n with
  | some a => s.endAct a status
  | none => s

/-- A port goes to a state that carries nothing (DOWN with a cause of Table 10.11, or DISABLED). It keeps when it went DOWN and the cause
that PORT_STAT showed before. -/
def State.portStop (s : State) (n st cause : Nat) : State :=
  let up := s.pstate n == 3
  let old := s.fld F.PORT_STAT_DOWNCAUSE n
  let s := s.setPState n st
  let s := if st = 7 then s.setFld F.PORT_STAT_DOWNCAUSE n cause else s
  let s := if up then s.leaveUp n else s.modPort n Port.discardOut
  let s := s.modPort n fun p => { p with step := 0, stopped := if st = 7 then some (s.refNs, old) else none }
  s.endRetrain n stFAULTED

/-- DOWN with a cause. -/
def State.portDown (s : State) (n cause : Nat) : State := s.portStop n 7 cause

/-- The torus sizes, one byte each. -/
def State.dimWord (s : State) : Nat := s.dim 0 + s.dim 1 * 256 + s.dim 2 * 65536

/-- R349: training starts at step 1; the role and the torus sizes in force are taken (R363, R366). -/
def State.startTraining (s : State) (n : Nat) : State :=
  let s := s.setPort n { (s.port n).cleared with step := 1, since := s.refNs, role := some (s.roleReg n), dims := s.dimWord }
  s.setPState n 1

/-- Table 10.4: the receive buffer of a channel in flits. -/
def vcSize (vc : Nat) : Nat := if vc = 0 then 2048 else if vc ≤ 4 then 512 else if vc = 5 then 64 else if vc = 6 then 16 else 0

/-- Table 10.8, step 5: credits, sequence numbers and replay buffer; then step 6: the port's record is sent. DESIGN CHOICE (log 21): the
receive buffers, whose sizes the credits of the far end now take, are empty but for MAINT flits. -/
def State.enterIdent (s : State) (n : Nat) : State :=
  let p := s.port n
  let r := s.ownRec n
  let s := s.setPort n { p with
    credits := (List.range 7).map (fun v => (v, vcSize v)), lastCredit := [], freed := [], gseq := 0, ackSeq := 0, replay := [],
    resend := [], rep := none, nakWant := none, nakHeld := false, nakOut := false, replayWant := none, retryRun := 0, step := 6,
    rx := [], rxDyn := [], frames := [], ctrlIn := [], ident := s.refNs, sentId := s.refNs, heard := false, pairs := [], lastRec := r,
    maint := p.maint ++ [r] }
  s.setPState n 2

/-- R363: the neighbour of this part in a group, by the torus sizes the port trained with. -/
def State.portNeighbour (s : State) (n g : Nat) : Nat :=
  let d := groupDim g
  let m := (s.port n).dims / 256 ^ d % 256
  let c := coord d s.node
  setCoord d s.node (if groupPlus g then (c + 1) % m else (c + m - 1) % m)

/-- The torus size of a dimension a port trained with. -/
def State.portDim (s : State) (n d : Nat) : Nat := (s.port n).dims / 256 ^ d % 256

/-- R363: a coordinate of the part is not below its size, by the sizes a port trained with. -/
def State.portOutside (s : State) (n : Nat) : Bool := (List.range 3).any fun d => decide (s.portDim n d ≤ coord d s.node)

/-- Ports per direction of an ordering code (R365). -/
def portsPerDir (code : Nat) : Nat := if code = 3 then 6 else 3

/-- R365: the index of a port within its direction group. -/
def groupIndex (code orient n role : Nat) : Nat :=
  let k := portsPerDir code
  if defaultRole (if code = 3 then 48 else 24) orient n = role then n % k else k

/-- R352: the state a neighbour record gives a port, and whether the neighbour is permuted. -/
def State.checkNbr (s : State) (n : Nat) (r : List Byte) : Nat × Bool :=
  let g := s.role n
  let nd := byF r 8 4
  let sys := bits nd 27 20
  if byF r 6 1 ≠ 2 then (5, false)
  else if byF r 5 1 % 2 = 1 then (6, false)
  else if isTorus g then
    let d := s.portDim n (groupDim g)
    let opp := byF r 13 1 == opposite g || (d == 2 && byF r 13 1 == g)
    if !s.portOutside n ∧ d ≠ 1 ∧ byF r 4 1 = 1 ∧ bits nd 19 0 = s.portNeighbour n g ∧ sys = s.sysNo ∧ opp then
      (3, groupIndex (byF r 14 1) (bits nd 29 28) (byF r 12 1) (byF r 13 1)
        != groupIndex s.id.codeNum (s.fld F.ROUTE_NODE_ORIENT 0) n g)
    else (4, false)
  else if g = 0x10 then (if byF r 4 1 = 2 ∧ sys = s.sysNo then (3, false) else (4, false))
  else (3, false)

/-- R352: the cause of a check's result, by the codes of Table 0.7: a RETRAIN activity ends with it. -/
def checkStatus (st : Nat) : Nat := if st = 5 then stVERSION else if st = 4 then stMISWIRED else stOK

/-- A good neighbour record arrives: PORT_NBR and PORT_STAT are rewritten, the check of R352 is made, the identity event raised
(R352 to R355, R359). In minimal mode there is no check, and the port stays in IDENT (R513). -/
def State.takeRecord (s : State) (n : Nat) (r : List Byte) : State :=
  let p := s.port n
  let old := s.pstate n
  let minimal := s.fld F.ROOT_BOOT_MINIMAL 0 == 1
  let v := if minimal then (2, false) else s.checkNbr n r
  let s := if p.nbr != some r || decide (4 ≤ v.1 ∧ v.1 ≤ 6) then s.raise (64 + 4 * n + 2) else s
  let s := s.setPort n { p with nbr := some r, heard := true, step := if minimal then 6 else 7 }
  let s := s.setFld F.PORT_STAT_NBRPORT n (byF r 12 1)
  let s := if v.1 = 5 then s else s.setFld F.PORT_STAT_MINOR n (min 1 (byF r 7 1))
  let s := s.setFld F.PORT_STAT_SWITCH n (if byF r 4 1 = 2 then 1 else 0)
  let s := s.setFld F.PORT_STAT_NBRMIN n (byF r 5 1 % 2)
  let s := s.setFld F.PORT_STAT_PERMUTED n (if v.2 then 1 else 0)
  let s := s.setPState n v.1
  let s := if old = 3 ∧ v.1 ≠ 3 then s.leaveUp n else s
  if old = 2 ∧ v.1 ≠ 2 then s.endRetrain n (checkStatus v.1) else s

/-- R513: once the part has left minimal mode, a port that waits in IDENT with its neighbour's record makes the check of step 7. -/
def State.checkHeard (s : State) : State :=
  (List.range s.id.ports).foldl (fun t n =>
    match (t.port n).nbr with
    | some r => if t.pstate n = 2 ∧ (t.port n).heard then t.takeRecord n r else t
    | none => t) s

/-- A RETRAIN activity of a port (Table 18.6). -/
def retrainAct (n : Nat) : Act := { Act.mk0 actRetrain tokRoot with ports := [n] }

end Sys2Proof.Machine
end

