-- ==== Sys2Proof/Machine/PortTx.lean ====
section
/-! DEFINITION. The transmitter of a port: flit slots, windows, groups, retry (10_denian_links.md R322 to R337, R343 to R348). -/

namespace Sys2Proof.Machine

/-- The slots of a port run: from step 3 of training on (Table 10.10). -/
def State.slotsRun (s : State) (n : Nat) : Bool :=
  match s.pstate n with
  | 0 => false
  | 1 => decide (3 ≤ (s.port n).step)
  | 7 => false
  | _ => decide (n < s.id.ports)

/-- R322: the next slot of a port begins now or has begun. -/
def State.slotDue (s : State) (n : Nat) : Bool :=
  let p := s.port n
  s.slotsRun n && decide (p.epoch ≤ s.refNs) && decide (16 * p.slots ≤ 25 * (s.refNs - p.epoch))

/-- The GTC at which the next slot of a port begins, in hundredths of a ns. -/
def State.slotGtc (s : State) (n : Nat) : Nat :=
  let p := s.port n
  64 * p.slots + 100 * (p.epoch + s.gtc - s.refNs)

/-- R332: the window period of a port's next slot, and the time into it, in hundredths of a ns. -/
def State.slotPhase (s : State) (n : Nat) : Nat × Nat :=
  let len := 100 * 2 ^ s.fld F.PORT_WIN_K n
  let g := s.slotGtc n + len - 100 * s.fld F.PORT_WIN_PHASE n
  (g / len, g % len)

/-- R332: the next slot lies in the dynamic window. -/
def State.inDynamic (s : State) (n : Nat) : Bool := decide (4096 * s.fld F.PORT_WIN_SLEN n ≤ (s.slotPhase n).2)

/-- R334: how many slots after slot `r` of its group (not the reserved one) the last of `k` flits goes. -/
def lastFlitSlot (r k : Nat) : Nat := 64 * ((r + k - 1) / 63) + (r + k - 1) % 63 - r

/-- R334: a frame of `k` flits that starts in the next slot ends within the dynamic window. -/
def State.frameFits (s : State) (n k : Nat) : Bool :=
  let r := (s.port n).cur.length
  decide ((s.slotPhase n).2 + 64 * lastFlitSlot r k < 100 * 2 ^ s.fld F.PORT_WIN_K n)

def Port.credit (p : Port) (vc : Nat) : Nat := SMap.get 0 p.credits vc
def Port.useCredit (p : Port) (vc k : Nat) : Port := { p with credits := SMap.put 0 p.credits vc (p.credit vc - k) }

/-- A slot: its tag and bytes. -/
abbrev Slot := Nat × List Byte

/-- R392: the origin of a broadcast completes when its last flit has left all its tree ports. -/
def State.bcastLeft (s : State) : State :=
  (List.range 8).foldl (fun t q =>
    let g := SMap.get Gop.init t.fab.gops q
    if g.op = 2 ∧ g.entered then
      let jid := t.fld F.TIME_JOB_CFG_JOBID q
      let waits := t.ports.any fun e => e.2.ctrl.any fun f => f.typ == 6 && f.node == t.node && f.jobid == jid
      if waits then t
      else
        let t := { t with fab := { t.fab with gops := SMap.put Gop.init t.fab.gops q { g with op := 0, entered := false } } }
        (((t.setFld F.ROUTE_GOPSTAT_STATUS q stOK).setFld F.ROUTE_GOPSTAT_OP q 2).setFld F.ROUTE_GOPSTAT_BUSY q 0).raise (16 + q)
    else t) s

/-- The GTC at the end of the present group. -/
def State.groupEnd (s : State) (n : Nat) : Nat := (s.slotGtc n + 64 * (64 - (s.port n).cur.length)) / 100

/-- Table 14.2: a BEACON takes T, the sender's GTC at the end of the group that carries it. -/
def State.stampT (s : State) (n : Nat) (f : CtrlFlit) : CtrlFlit :=
  if f.typ = 1 then
    let t := s.groupEnd n
    { f with dst := t % 2 ^ 32, body := toBytes 4 (t / 2 ^ 32) ++ f.body.drop 4 }
  else f

/-- The next CTRL flit. -/
def State.ctrlPick (s : State) (n : Nat) : Option (State × Slot) :=
  let p := s.port n
  match p.ctrl with
  | f :: r =>
    if s.carries n 5 && decide (0 < p.credit 5) then
      some ((s.setPort n ({ p with ctrl := r }.useCredit 5 1)).bcastLeft, (slotTag 5 true true 0, fitBytes 64 (ctrlBytes (s.stampT n f))))
    else none
  | [] => none

/-- R350: a PROBE takes t1, a PROBE_REPLY t3, the sender's GTC at the end of its group. -/
def State.stampProbe (s : State) (n : Nat) (f : List Byte) : List Byte :=
  let t := toBytes 8 (s.groupEnd n)
  if byF f 0 1 = 2 then f.take 8 ++ t ++ f.drop 16 else if byF f 0 1 = 3 then f.take 24 ++ t ++ f.drop 32 else f

/-- The next MAINT flit. DEDUCED (log 70): credits are counted from step 5 of training on, and a PROBE before it needs none. -/
def State.maintPick (s : State) (n : Nat) : Option (State × Slot) :=
  let p := s.port n
  match p.maint with
  | f :: r =>
    if s.carries n 6 && (s.pstate n == 1 || decide (0 < p.credit 6)) then
      some (s.setPort n ({ p with maint := r }.useCredit 6 1), (slotTag 6 true true 0, fitBytes 64 (s.stampProbe n f)))
    else none
  | [] => none

/-- The next flit of a frame already started. -/
def State.framePick (s : State) (n : Nat) : Option (State × Slot) :=
  let p := s.port n
  match p.frm with
  | some (vc, f :: r) => some (s.setPort n { p with frm := if r.isEmpty then none else some (vc, r) }, (slotTag vc false r.isEmpty 0, f))
  | _ => none

/-- R326: how many SCHED messages may begin in one group. -/
def State.rhLimit (s : State) (n : Nat) : Nat := if s.fld F.PORT_STAT_MINOR n = 0 then 1 else 2

/-- The next SCHED flit. -/
def State.schedPick (s : State) (n : Nat) : Option (State × Slot) :=
  let p := s.port n
  match p.sched with
  | m :: r =>
    match m.flits with
    | f :: fr =>
      if s.carries n 0 && decide (0 < p.credit 0) && (m.begun || decide (p.curRh.length < s.rhLimit n)) then
        let last := m.entered - m.flits.length + 1 == m.total
        let rh := if m.begun then p.curRh else p.curRh ++ [routeHeader m.hops m.dcore m.ch m.len m.sig]
        let m' := { m with flits := fr, begun := true }
        let p := { p with sched := if last then r else m' :: r, curRh := rh }
        some (s.setPort n (p.useCredit 0 1), (slotTag 0 (!m.begun) last (if m.begun then 0 else rh.length), f))
      else none
    | [] => none
  | [] => none

/-- A frame of this part's own starts on a port: the timer of its request starts (R382). -/
def State.frameLeaves (s : State) (f : Frame) : State :=
  let v := s.tag f.tag
  if f.net = 0 ∧ f.src = s.node ∧ v.state = .out ∧ v.gen = f.gen ∧ v.sent.isNone then s.startTimer f.tag else s

/-- R334, R335: the head frame of a channel starts, or is deferred (counted once in a window period). -/
def State.dynPickVc (s : State) (n vc : Nat) : State × Option Slot :=
  let p := s.port n
  match SMap.get [] p.dyn vc with
  | f :: r =>
    let fl := frameFlits f
    if !s.carries n vc || decide (p.credit vc < fl.length) then (s, none)
    else if s.frameFits n fl.length then
      let p := { p with dyn := SMap.put [] p.dyn vc r, frm := if fl.length ≤ 1 then none else some (vc, fl.tail) }
      ((s.setPort n (p.useCredit vc fl.length)).frameLeaves f, some (slotTag vc true (decide (fl.length ≤ 1)) 0, fl.headD []))
    else
      let per := (s.slotPhase n).1 + 1
      if SMap.get 0 p.deferAt vc = per then (s, none)
      else ((s.setPort n { p with deferAt := SMap.put 0 p.deferAt vc per }).addFld F.PORT_DEFER_DEFER n 1, none)
  | [] => (s, none)

/-- R333, rank 5: channels in the order RSP-B, RSP-A, REQ-B, REQ-A. -/
def State.dynPick (s : State) (n : Nat) : State × Option Slot :=
  if !s.inDynamic n then (s, none)
  else [4, 3, 2, 1].foldl (fun acc vc => if acc.2.isSome then acc else acc.1.dynPickVc n vc) (s, none)

/-- A CTRL flit, then a MAINT flit, then idle. -/
def State.freePick (s : State) (n : Nat) : State × Slot :=
  ((s.ctrlPick n).orElse fun _ => s.maintPick n).getD (s, idleSlot)

/-- R333: the unit of the next slot of new traffic. -/
def State.slotPick (s : State) (n : Nat) : State × Slot :=
  if (s.port n).cur.length = 63 then s.freePick n
  else match (s.framePick n).orElse fun _ => s.schedPick n with
    | some r => r
    | none =>
      let d := s.dynPick n
      match d.2 with
      | some v => (d.1, v)
      | none => d.1.freePick n

/-- R343: the groups a replay buffer holds. -/
def replaySize : Nat := 128

/-- The CREDIT field of a trailer. -/
def Port.creditWord (p : Port) : Nat := (List.range 7).foldl (fun a v => a + SMap.get 0 p.freed v * 4096 ^ v) 0

/-- The ACK field of a trailer that begins now (R344): NAK in the first after a NAK is issued. -/
def Port.ackWord (p : Port) : Nat := p.ackSeq + (if p.nakOut then 2 else 1) * 4096

/-- A group begins: its ACK and CREDIT fields take their values (R324); it is null where the replay buffer is full (R343). -/
def Port.beginGroup (p : Port) : Port :=
  { p with curAck := p.ackWord, curCredit := p.creditWord, nakOut := false, curRh := [], curNull := decide (replaySize ≤ p.replay.length) }

/-- R346: a group of the replay begins. -/
def Port.beginReplay (p : Port) : Port :=
  match p.rep, p.resend with
  | none, g :: r => { p with rep := some ⟨g, 0, p.ackWord, p.creditWord⟩, resend := r, nakOut := false }
  | _, _ => p

/-- A null group leaves. The sequence number of a null group is unstated: a free value. -/
def State.sendNull (s : State) (n : Nat) (slots : List Slot) : State :=
  let p := s.port n
  let s := s.setPort n { p with cur := [], curNull := false }
  { s with
    free := s.free + 1
    out := s.out ++ [.group n (groupBytes slots [] (4096 + Config.freeValue s.free % 4096) p.curAck p.curCredit)] }

/-- A group of new traffic ends: it leaves the part; one with a flit is sequenced (R324, R343). -/
def State.endGroup (s : State) (n : Nat) : State :=
  let p := s.port n
  if p.cur.all fun v => v.1 < 128 then s.sendNull n p.cur
  else
    let q := (p.gseq + 1) % 4096
    let s := s.setPort n { p with cur := [], gseq := q, replay := p.replay ++ [⟨q, s.refNs, p.cur, p.curRh⟩] }
    { s with out := s.out ++ [.group n (groupBytes p.cur p.curRh q p.curAck p.curCredit)] }

/-- A slot of a replay: it carries what it carried before; with the last the group leaves, unchanged but for ACK and CREDIT (R324, R346). -/
def State.replaySlot (s : State) (n : Nat) (r : Replaying) : State :=
  let p := s.port n
  if r.at_ + 1 < 64 then s.setPort n { p with rep := some { r with at_ := r.at_ + 1 }, slots := p.slots + 1 }
  else
    let rp := p.replay.map fun h => if h.gseq == r.g.gseq then { h with sent := s.refNs } else h
    let s := s.setPort n { p with rep := none, slots := p.slots + 1, replay := rp }
    { s with out := s.out ++ [.group n (groupBytes r.g.slots r.g.rh r.g.gseq r.ack r.credit)] }

/-- R351: a port that has sent its record sends it again when any field has changed. -/
def State.identChange (s : State) (n : Nat) : State :=
  let p := s.port n
  let r := s.ownRec n
  if decide (2 ≤ s.pstate n ∧ s.pstate n ≤ 6) && p.lastRec != r then s.setPort n { p with lastRec := r, maint := p.maint ++ [r] } else s

/-- A slot of new traffic. -/
def State.newSlot (s : State) (n : Nat) : State :=
  let s := if (s.port n).cur.isEmpty then (s.identChange n).modPort n Port.beginGroup else s
  let r := if (s.port n).curNull then (s, idleSlot) else s.slotPick n
  let s := r.1.modPort n fun p => { p with cur := p.cur ++ [r.2], slots := p.slots + 1 }
  if (s.port n).cur.length = 64 then s.endGroup n else s

/-- SLOT_FILL: one slot of port `n`. A replay goes before all new traffic, whose group goes on after it (R333, R346). -/
def State.fillSlot (s : State) (n : Nat) : State :=
  let s := s.modPort n Port.beginReplay
  match (s.port n).rep with
  | some r => s.replaySlot n r
  | none => s.newSlot n

/-- SLOT_FILL (R333). -/
def execSlotFill (n : Nat) (s : State) : Res := if s.slotDue n then done s (s.fillSlot n) else done s s

/-! ## Retry (R345 to R348) -/

/-- R345: the port's engine slice runs now. -/
def State.inSlice (s : State) (n : Nat) : Bool := s.refNs / 20 % 4 == n % 4

/-- R345: a slice of the port runs now that began after the ns in which something was found. -/
def State.sliceAfter (s : State) (n found : Nat) : Bool := s.inSlice n && decide (found / 20 < s.refNs / 20)

/-- NAK_ISSUE (R345). -/
def execNakIssue (n : Nat) (s : State) : Res :=
  match (s.port n).nakWant with
  | some t => if s.sliceAfter n t then done s (s.modPort n fun p => { p with nakWant := none, nakOut := true }) else done s s
  | none => done s s

/-- R346, R348: a replay starts; it is a retry. -/
def State.replay (s : State) (n : Nat) : State :=
  let p := s.port n
  let run := p.retryRun + 1
  let s := s.setPort n { p with resend := p.replay, rep := none, replayWant := none, retryRun := run }
  let s := s.addFld F.PORT_RETRY_RETRY n 1
  let s := s.hwMax F.PORT_RETRY_MAXRUN n (min (2 ^ F.PORT_RETRY_MAXRUN.width - 1) run)
  let s := if run = 4 then s.raise (64 + 4 * n + 1) else s
  if run = 16 ∧ s.pstate n = 3 then s.portDown n 2 else s

/-- REPLAY_START (R346). -/
def execReplayStart (n : Nat) (s : State) : Res :=
  match (s.port n).replayWant with
  | some t => if s.sliceAfter n t then done s (s.replay n) else done s s
  | none => done s s

/-- R347: the oldest group has not been acknowledged in time, and a slice of the port that began after that runs now. -/
def State.replayLate (s : State) (n : Nat) : Bool :=
  let p := s.port n
  match p.replay with
  | g :: _ => p.resend.isEmpty && p.rep.isNone && s.sliceAfter n ((1000 * g.sent + 2 * s.fld F.PORT_STAT_LAT n + 400000 + 999) / 1000)
  | [] => false

/-- REPLAY_TIMEOUT (R347). -/
def execReplayTimeout (n : Nat) (s : State) : Res :=
  if s.replayLate n then done s ((s.addFld F.PORT_RETRY_RTO n 1).replay n) else done s s

end Sys2Proof.Machine
end

