-- ==== Sys2Proof/Machine/PortRx.lean ====
section
/-! DEFINITION. The receiver of a port: groups, receive buffers, delivery and forwarding of SCHED messages (10_denian_links.md R324,
R328 to R331, R340, R341, R344). -/

namespace Sys2Proof.Machine

/-- A place of a receive buffer is freed (R329). -/
def Port.freeFlits (p : Port) (vc k : Nat) : Port := { p with freed := SMap.put 0 p.freed vc ((SMap.get 0 p.freed vc + k) % 4096) }

/-! ## The way through the part (R340) -/

/-- The dies on the way from compute die `a` to `b`, column first (R32), `a` left out. -/
def diePath : Nat → Nat → Nat → List Nat
  | 0, _, _ => []
  | fuel + 1, a, b =>
    if a = b then []
    else
      let nx := if a % 4 < b % 4 then a + 1 else if b % 4 < a % 4 then a - 1 else if a < b then a + 4 else a - 4
      nx :: diePath fuel nx b

/-- The attached compute dies that join two I/O dies in the fewest hops. -/
def joinDies (a b : Nat) : Nat × Nat :=
  let x := attached (64 + a)
  let y := attached (64 + b)
  [(x.1, y.1), (x.1, y.2), (x.2, y.1), (x.2, y.2)].foldl (fun m v => if gridHops v.1 v.2 < gridHops m.1 m.2 then v else m) (x.1, y.1)

/-- The clusters whose region each link of the way from I/O die `a` to `b` counts 25 cc of (R340). -/
def linkClusters (a b : Nat) : List Nat :=
  let j := joinDies a b
  let ds := diePath 8 j.1 j.2
  let ent := ((j.1 :: ds).zip ds).map fun e => e.2 * 8 + gwEntry e.1 e.2
  [j.1 * 8 + gwAttach (64 + a)] ++ ent ++ [j.2 * 8 + gwAttach (64 + b)]

/-- The frequency of the region of a cluster in MHz (R28): that of the partition that holds either of its clusters. -/
def State.regionFreq (s : State) (cl : Nat) : Nat :=
  match (s.partOf (cl / 2 * 2)).orElse fun _ => s.partOf (cl / 2 * 2 + 1) with
  | some q => s.freq q
  | none => freqOf 7

/-- A common multiple of the frequencies of Table 1.5. -/
def freqLcm : Nat := 1141140000

/-- The ns a SCHED flit takes from the arrival port to the outbound queue of another port (R340), rounded up. -/
def State.forwardNs (s : State) (n m : Nat) : Nat :=
  if n / 4 = m / 4 then 10
  else
    let t := ((linkClusters (n / 4) (m / 4)).map fun cl => 25000 * (freqLcm / s.regionFreq cl)).sum
    10 + (t + freqLcm - 1) / freqLcm

/-- The ns from an I/O die to the cluster port of a core of partition `q` (R340), rounded up. -/
def State.deliverNs (s : State) (n core q : Nat) : Nat :=
  let f := s.freq q
  (1000 * portDist (64 + n / 4) (core / 64) (core / 8 % 8) + f - 1) / f

/-! ## SCHED messages -/

/-- What becomes of a SCHED message at its first flit: taken, or discarded with the counter of R341 (none for a FAULTED partition). -/
inductive SchedFate where
  | take (ns : Nat)
  | discard (f : Option Fld)
  deriving DecidableEq, Repr

/-- R341, R563. -/
def State.schedFate (s : State) (n : Nat) (hops : List Nat) (dcore : Nat) : SchedFate :=
  match hops with
  | h :: _ => if h < 0x30 && s.portUp h then .take (s.forwardNs n h) else .discard (some F.PORT_DISC_BADHOP)
  | [] =>
    match s.partOf (dcore / 8) with
    | none => .discard (some F.PORT_DISC_NODEST)
    | some q =>
      if !s.coreExists dcore then .discard (some F.PORT_DISC_NODEST)
      else match (s.part q).job with
        | .launched => .take (s.deliverNs n dcore q)
        | .run => .take (s.deliverNs n dcore q)
        | .faulted => .discard none
        | _ => .discard (some F.PORT_DISC_NODEST)

/-- The first flit of a SCHED message: its route header is read (Table 10.5). -/
def State.rxSchedFirst (s : State) (n : Nat) (rh : List Byte) (flit : List Byte) : State :=
  let left := byF rh 0 1
  let hops := ((rh.drop 12).take (min 19 left)).map BitVec.toNat
  let dest := byF rh 2 2
  let len := byF rh 4 2
  let sig := if byF rh 6 1 % 2 = 1 then some (byF rh 7 1 % 32, byF rh 8 1) else none
  let m : RxMsg := ⟨hops, dest % 512, dest / 512 % 16, len, sig, 1, [], 0, false⟩
  match s.schedFate n hops (dest % 512) with
  | .take ns => s.modPort n fun p => { p with rx := p.rx ++ [{ m with flits := [(s.refNs + ns, flit)] }] }
  | .discard c =>
    let s := s.modPort n fun p => ({ p with rx := if len ≤ 64 then p.rx else p.rx ++ [{ m with drop := true }] }).freeFlits 0 1
    match c with
    | some f => (s.addFld f n 1).raise (64 + 4 * n + 3)
    | none => s

/-- A later flit of the SCHED message that is arriving. -/
def State.rxSchedNext (s : State) (n : Nat) (flit : List Byte) : State :=
  let p := s.port n
  match p.rx.getLast? with
  | some m =>
    let fin := decide (64 * (m.got + 1) ≥ m.len)
    if m.drop then
      s.setPort n ({ p with rx := if fin then p.rx.dropLast else p.rx.dropLast ++ [{ m with got := m.got + 1 }] }.freeFlits 0 1)
    else
      let ns := match s.schedFate n m.hops m.dcore with | .take k => k | .discard _ => 0
      s.setPort n { p with rx := p.rx.dropLast ++ [{ m with got := m.got + 1, flits := m.flits ++ [(s.refNs + ns, flit)] }] }
  | none => s.setPort n (p.freeFlits 0 1)

/-! ## Groups -/

/-- A flit of a dynamic frame; a frame whose header breaks the rules is discarded (R327). -/
def State.rxDynFlit (s : State) (n vc : Nat) (last : Bool) (flit : List Byte) : State :=
  let p := s.port n
  let fl := SMap.get [] p.rxDyn vc ++ [flit]
  if !last then s.setPort n { p with rxDyn := SMap.put [] p.rxDyn vc fl }
  else
    let p := { p with rxDyn := SMap.put [] p.rxDyn vc [] }
    match frameOf vc fl with
    | some f => s.setPort n { p with frames := p.frames ++ [f] }
    | none => ((s.setPort n (p.freeFlits vc fl.length)).addFld F.PORT_DISC_OVERLONG n 1).raise (64 + 4 * n + 3)

/-- R328, R350: the training logic takes a PROBE, which it answers, or, in step 4, a PROBE_REPLY; `t` is the GTC at delivery. DESIGN CHOICE
(log 70): t1 stands in bytes 8 to 15 of the flit, t2 in 16 to 23, t3 in 24 to 31. Any other type is discarded. -/
def Port.takeProbe (p : Port) (step4 : Bool) (t : Nat) (f : List Byte) : Port :=
  match byF f 0 1 with
  | 2 => { p with maint := p.maint ++ [toBytes 8 3 ++ toBytes 8 (byF f 8 8) ++ toBytes 8 t ++ toBytes 40 0] }
  | 3 => if step4 then { p with pairs := p.pairs ++ [(byF f 8 8, byF f 16 8, byF f 24 8, t)] } else p
  | _ => p

/-- One slot of an accepted group. -/
def State.rxSlot (s : State) (n : Nat) (rh0 rh1 : List Byte) (v : Slot) : State :=
  let t := v.1
  let vc := tagVc t
  if t < 128 then s
  else if !s.carries n vc then s.modPort n fun p => p.freeFlits vc 1
  else match vc with
    | 0 => if tagFirst t then s.rxSchedFirst n (if t % 4 = 2 then rh1 else rh0) v.2 else s.rxSchedNext n v.2
    | 5 =>
      let f := ctrlOf v.2
      if f.typ = 0 ∨ f.typ ≥ 0x0B then (s.modPort n fun p => p.freeFlits 5 1).fabDisc F.ROUTE_ERR0_CTRLDISC
      else s.modPort n fun p => { p with ctrlIn := p.ctrlIn ++ [f] }
    | 6 =>
      if byF v.2 0 1 = 1 then s.modPort n fun p => { p with maintIn := p.maintIn ++ [v.2] }
      else s.modPort n fun p => (p.takeProbe (s.pstate n == 1 && p.step == 4) (s.gtc % 2 ^ 64) v.2).freeFlits 6 1
    | _ => s.rxDynFlit n vc (tagLast t) v.2

/-- R344: a group that is not accepted: the first since an accepted one asks for a NAK. -/
def Port.refuse (p : Port) (ns : Nat) : Port :=
  if p.nakHeld then p else { p with nakHeld := true, nakWant := some (p.nakWant.getD ns) }

/-- R330: the credits of a good trailer. -/
def Port.addCredits (p : Port) (w : Nat) : Port :=
  (List.range 7).foldl (fun p v =>
    let c := w / 4096 ^ v % 4096
    let d := (c + 4096 - SMap.get 0 p.lastCredit v) % 4096
    { p with credits := SMap.put 0 p.credits v (p.credit v + d), lastCredit := SMap.put 0 p.lastCredit v c }) p

/-- R343, R345: the acknowledgement of a good trailer: groups up to ACKSEQ leave the replay buffer; a NAK asks for a replay. -/
def Port.takeAck (p : Port) (w ns : Nat) : Port :=
  let typ := w / 4096 % 4
  let k := p.replay.findIdx fun g => g.gseq == w % 4096
  let p := if typ = 0 ∨ typ = 3 ∨ p.replay.length ≤ k then p
    else { p with replay := p.replay.drop (k + 1), retryRun := 0,
                  resend := p.resend.filter fun g => (p.replay.drop (k + 1)).any fun h => h.gseq == g.gseq }
  if typ = 2 ∧ !p.replay.isEmpty then { p with replayWant := some (p.replayWant.getD ns) } else p

/-- Table 10.8, step 3: 64 consecutive good null groups end it; step 4 sends 16 PROBE flits. -/
def Port.countNull (p : Port) : Port :=
  if p.step ≠ 3 then p
  else if p.nulls + 1 < 64 then { p with nulls := p.nulls + 1 }
  else { p with nulls := p.nulls + 1, step := 4, maint := p.maint ++ List.replicate 16 (toBytes 64 2) }

/-- A group is received (R324, R344). -/
def State.rxGroup (s : State) (n : Nat) (raw : List Byte) (corr uncorr : Nat) : State :=
  let s := if corr = 0 then s else s.addFld F.PORT_FEC_CORR n corr
  let s := if uncorr = 0 then s else s.addFld F.PORT_FEC_UNCORR n uncorr
  if uncorr ≠ 0 ∨ !groupGood raw then s.modPort n fun p => { p.refuse s.refNs with nulls := 0 }
  else
    let w := byF raw 4224 2
    let s := s.modPort n fun p => (p.addCredits (byF raw 4228 12)).takeAck (byF raw 4226 2) s.refNs
    if w / 4096 % 2 = 1 then s.modPort n Port.countNull
    else if w % 4096 = ((s.port n).ackSeq + 1) % 4096 then
      let s := s.modPort n fun p => { p with ackSeq := w % 4096, nakHeld := false, nulls := 0 }
      (groupSlots raw).foldl (fun t v => t.rxSlot n ((raw.drop 4160).take 32) ((raw.drop 4192).take 32) v) s
    else s.modPort n fun p => p.refuse s.refNs

/-- GROUP_RECEIVE (R324). -/
def execGroupReceive (n : Nat) (raw : List Byte) (corr uncorr : Nat) (s : State) : Res :=
  if s.slotsRun n then done s (s.rxGroup n raw corr uncorr) else done s s

/-! ## Out of the receive buffer -/

/-- The first flit of message `m` leaves the receive buffer, its place freed; a message that has left whole is gone. -/
def Port.popFlit (p : Port) (m : RxMsg) : Port :=
  let m' := { m with flits := m.flits.tail, passed := m.passed + 1 }
  let fin := decide (64 * m'.passed ≥ m.len)
  let i := p.rx.findIdx fun x => x == m
  ({ p with rx := if fin then p.rx.eraseIdx i else p.rx.set i m' }).freeFlits 0 1

/-- The message of a port whose flit is delivered next: the first ripe one with HOPSLEFT 0. -/
def State.rxLand (s : State) (n : Nat) : Option RxMsg := (s.rxRipe n).find? fun m => m.hops.isEmpty

/-- Delivery of one flit to its landing channel; a full channel holds it (R331). -/
def State.deliverFlit (s : State) (n : Nat) : State :=
  match s.rxLand n with
  | none => s
  | some m =>
    let bs := ((m.flits.headD (0, [])).2).take (min 64 (m.len - 64 * m.passed))
    let live := match s.partOf (m.dcore / 8) with | some q => (s.part q).jobLive | none => false
    let s := s.modPort n fun p => p.popFlit m
    if live then s.landBytes m.dcore m.ch bs .denian (if 64 * (m.passed + 1) ≥ m.len then m.sig else none) else s

/-- The message in progress at the end of a port's outbound SCHED queue came by port `n` and awaits its next flit. -/
def Port.isFwd (p : Port) (n : Nat) (m : RxMsg) : Bool :=
  match p.sched.getLast? with
  | some o => o.q == none && o.src == 1024 + n && o.entered != o.total && o.entered == m.passed
  | none => false

/-- A flit of a forwarded message enters the next port's outbound queue (R340). -/
def Port.putFwd (p : Port) (n : Nat) (m : RxMsg) (f : List Byte) : Port :=
  if m.passed = 0 then
    { p with sched := p.sched ++ [⟨none, m.hops.tail, m.dcore, m.ch, 1024 + n, m.len, m.sig, [f], 1, false⟩] }
  else { p with sched := p.sched.modify (p.sched.length - 1) fun o => { o with flits := o.flits ++ [f], entered := o.entered + 1 } }

/-- Where the port that message `m` names has gone from under it, its flit is discarded (R357). -/
def State.fwdGone (s : State) (n h : Nat) (m : RxMsg) : Bool := !s.portUp h || (decide (0 < m.passed) && !(s.port h).isFwd n m)

/-- A flit of message `m` enters the outbound queue of port `h`: there is room, and its message begun there or its turn (R339). -/
def State.fwdRoom (s : State) (n h : Nat) (m : RxMsg) : Bool :=
  decide ((s.port h).schedFill < 256)
    && (decide (0 < m.passed) || ((s.port h).whole && s.schedLeads h (m.flits.headD (0, [])).1 n))

/-- The message of a port whose flit goes on next. -/
def State.rxFwd (s : State) (n : Nat) : Option RxMsg :=
  (s.rxRipe n).find? fun m => match m.hops with | h :: _ => s.fwdGone n h m || s.fwdRoom n h m | [] => false

/-- SCHED_FORWARD: one flit moves to the port its hop byte names. -/
def State.forwardFlit (s : State) (n : Nat) : State :=
  match s.rxFwd n with
  | none => s
  | some m =>
    let h := m.hops.headD 0
    let t := s.modPort n fun p => p.popFlit m
    if s.fwdGone n h m then t else t.modPort h fun p => p.putFwd n m (m.flits.headD (0, [])).2

/-- SCHED_FORWARD (R340). -/
def execSchedForward (n : Nat) (s : State) : Res := done s (s.forwardFlit n)

/-- Every ns, what is ripe moves: `k` flits of each port at most. -/
def State.rxMove (s : State) : Nat → State
  | 0 => s
  | k + 1 => (s.ports.foldl (fun t e => if (t.port e.1).rx.isEmpty then t else (t.deliverFlit e.1).forwardFlit e.1) s).rxMove k

/-- The ripe flits of the port that holds most. -/
def State.rxMost (s : State) : Nat :=
  s.ports.foldl (fun k e => max k (e.2.rx.map fun m => (m.flits.filter fun f => decide (f.1 ≤ s.refNs)).length).sum) 0

/-- What passes through the part in a ns by itself: SCHED flits that have arrived, and those that the send buffers hold (R339, R340). -/
def State.portTick (s : State) : State := let s := s.rxMove s.rxMost; s.drainAll s.sendFlits

end Sys2Proof.Machine
end

