-- ==== Sys2Proof/Machine/Ports.lean ====
section
/-! DEFINITION. The rows of training, identity and port control (10_denian_links.md R349 to R360). -/

namespace Sys2Proof.Machine

/-- Table 10.8, steps 1 and 2: lanes are locked and placed; step 3 begins. -/
def State.lanesPlaced (s : State) (n lanes : Nat) : State :=
  let s := s.modPort n fun p => { p with lanes := lanes, step := 3, nulls := 0, epoch := s.refNs, slots := 0, cur := [] }
  s.setFld F.PORT_STAT_LANEMAP n (if lanes % 4096 = s.psWord (0x40 + n) % 4096 then 0 else 1)

/-- LANE_LOCK (R349). -/
def execLaneLock (n lanes : Nat) (s : State) : Res :=
  if s.pstate n = 1 ∧ (s.port n).step = 1 then done s (s.lanesPlaced n lanes) else done s s

/-- R350: a pair's result in half ns. -/
def probePair (t1 t2 t3 t4 : Nat) : Int := (Int.ofNat t4 - Int.ofNat t1) - (Int.ofNat t3 - Int.ofNat t2)

/-- The least of some values. -/
def leastInt (l : List Int) : Int := l.foldl min (l.headD 0)

/-- R349: training has lasted 1 s. -/
def State.trainLate (s : State) (n : Nat) : Bool :=
  (s.pstate n == 1 || (s.pstate n == 2 && !(s.port n).heard)) && decide ((s.port n).since + 1000000000 ≤ s.refNs)

/-- A PROBE pair whose reply has come is taken; the sixteenth gives L (R350). Where training ends in the same ns, that cause governs (R356). -/
def State.probe (s : State) (n t1 t2 t3 t4 : Nat) : State :=
  let p := s.port n
  let l := p.probes ++ [probePair t1 t2 t3 t4]
  let late := s.trainLate n
  let s := s.setPort n { p with probes := l, pairs := p.pairs.drop 1 }
  if l.length < 16 then s
  else
    let ps := (leastInt l * 500).toNat
    let s := s.setFld F.PORT_STAT_LAT n ps
    if ps > 2000000 then s.portDown n (if late then 3 else 4) else s.enterIdent n

/-- PROBE_EXCHANGE (R350): the oldest pair that the port has received is taken. -/
def execProbeExchange (n t1 t2 t3 t4 : Nat) (s : State) : Res :=
  if s.pstate n = 1 ∧ (s.port n).step = 4 ∧ (s.port n).pairs.head? = some (t1, t2, t3, t4) then done s (s.probe n t1 t2 t3 t4)
  else done s s

/-- The port queues its record again. -/
def State.resendIdent (s : State) (n : Nat) : State :=
  let r := s.ownRec n
  s.modPort n fun p => { p with maint := p.maint ++ [r], lastRec := r, sentId := s.refNs }

/-- IDENTITY_RESEND (R349): until the neighbour's record has arrived. -/
def execIdentityResend (n : Nat) (s : State) : Res :=
  if s.pstate n = 2 ∧ (s.port n).heard = false ∧ (s.port n).sentId + 1000000 ≤ s.refNs then done s (s.resendIdent n) else done s s

/-- A record leaves the receive buffer where it stands there. -/
def State.maintTake (s : State) (n : Nat) (r : List Byte) : State :=
  let p := s.port n
  if p.maintIn.contains r then s.setPort n ({ p with maintIn := p.maintIn.erase r }.freeFlits 6 1) else s

/-- NEIGHBOUR_RECORD (R352): a record with a wrong MAGIC, CRC or TYPE is discarded. -/
def execNeighbourRecord (n : Nat) (rec : List Byte) (s : State) : Res :=
  if s.pstate n ∈ [2, 3, 4, 5, 6] then
    done s (if recGood rec then (s.maintTake n rec).takeRecord n rec else s.maintTake n rec)
  else done s s

/-- The port went DOWN in this ns by an event of a lower row of Table 10.11. -/
def State.downNow (s : State) (n : Nat) : Bool :=
  s.pstate n == 7 && (match (s.port n).stopped with | some t => t.1 == s.refNs | none => false)

/-- PORT_LOCK_LOSS (R356): it governs over the other causes of the same ns. -/
def execPortLockLoss (n : Nat) (s : State) : Res :=
  if n < s.id.ports ∧ s.pstate n ≠ 0 ∧ s.pstate n ≠ 7 then done s (s.portDown n 1)
  else if n < s.id.ports ∧ s.downNow n then done s (s.setFld F.PORT_STAT_DOWNCAUSE n 1)
  else done s s

/-- TRAIN_TIMEOUT (R349). -/
def execTrainTimeout (n : Nat) (s : State) : Res := if s.trainLate n then done s (s.portDown n 3) else done s s

/-- IDENT_TIMEOUT (R356): no record has come; where training ends in the same ns, that cause governs. -/
def execIdentTimeout (n : Nat) (s : State) : Res :=
  if s.pstate n = 2 ∧ (s.port n).heard = false ∧ (s.port n).ident + 10000000 ≤ s.refNs then done s (s.portDown n (if s.trainLate n then 3 else 5)) else done s s

/-- A write of PORT_CTL.ENABLE. -/
def State.enablePort (s : State) (n : Nat) (on : Bool) : State :=
  if on then
    if s.fld F.PORT_CTL_ENABLE n = 1 then s
    else if s.canAct (retrainAct n) then
      ((s.setFld F.PORT_CTL_ENABLE n 1).startAct (retrainAct n)).startTraining n
    else s.refuseWrite .PORT_CTL n
  else if s.schedBusy n then s.refuseWrite .PORT_CTL n
  else
    let s := s.setFld F.PORT_CTL_ENABLE n 0
    -- R356: it governs over an event that took the port DOWN in this ns
    let s := match s.downNow n, (s.port n).stopped with | true, some t => s.setFld F.PORT_STAT_DOWNCAUSE n t.2 | _, _ => s
    if s.pstate n = 0 then s else s.portStop n 0 0

/-- PORT_CTL_ENABLE (R349, R358). -/
def execPortCtlEnable (by_ : Requester) (n : Nat) (on : Bool) (s : State) : Res :=
  let _ := by_
  if n < s.id.ports then done s (s.enablePort n on) else done s (s.refuseWrite .PORT_CTL n)

/-- A PORT reset: a port that is enabled trains again (R349, R358). -/
def State.resetPort (s : State) (n : Nat) : State :=
  if s.schedBusy n || !s.canAct (retrainAct n) then s.refuseWrite .PORT_CTL n
  else if s.fld F.PORT_CTL_ENABLE n = 0 then s
  else
    let up := s.pstate n == 3
    let s := if up then s.leaveUp n else s
    (s.startAct (retrainAct n)).startTraining n

/-- PORT_CTL_RESET (R358). -/
def execPortCtlReset (by_ : Requester) (n : Nat) (s : State) : Res :=
  let _ := by_
  if n < s.id.ports then done s (s.resetPort n) else done s (s.refuseWrite .PORT_CTL n)

/-- R360: what PORT_WIN would hold after a write; none where a field of it is reserved under its K. -/
def winAfter (old v : Nat) : Option Nat :=
  let k := if 12 ≤ v % 32 ∧ v % 32 ≤ 20 then v % 32 else old % 32
  let slen := bits v 29 15
  let phase := bits v 63 44
  if phase < 2 ^ k ∧ slen ≤ 100 * 2 ^ (k - 12) then some (phase * 2 ^ 44 + slen * 2 ^ 15 + k) else none

/-- A write of PORT_WIN, judged as a whole. -/
def State.writeWin (s : State) (n v : Nat) : State :=
  if s.schedBusy n then s.refuseWrite .PORT_WIN n
  else match winAfter (s.reg .PORT_WIN n).toNat v with
    | some w => s.setReg .PORT_WIN n (BitVec.ofNat 64 w)
    | none => s.refuseWrite .PORT_WIN n

/-- PORT_WIN_WRITE (R360). -/
def execPortWinWrite (by_ : Requester) (n value : Nat) (s : State) : Res :=
  let _ := by_
  if n < s.id.ports then done s (s.writeWin n value) else done s (s.refuseWrite .PORT_WIN n)

end Sys2Proof.Machine
end

