-- ==== Sys2Proof/Machine/Fabric.lean ====
section
/-! DEFINITION. The rows of routing, requests, replies and route-table changes (11_fabric.md R368 to R384). -/

namespace Sys2Proof.Machine

/-! ## Frames -/

/-- Table 11.6: the opcodes of a network. -/
def opOk (net op : Nat) : Bool := if net = 0 then decide (1 ≤ op ∧ op ≤ 3) else decide (0x81 ≤ op ∧ op ≤ 0x83)

/-- A frame is delivered to this part (R373, R374). A request keeps its place in the receive buffer until it is served. -/
def State.frameHere (s : State) (from_ : Option Nat) (held : Bool) (f : Frame) : State :=
  let free (s : State) : State := match from_, held with
    | some n, true => s.modPort n fun p => p.freeFlits (frameVc f) (frameFlitCount f.bytes)
    | _, _ => s
  if !opOk f.net f.op then (free s).fabDisc F.ROUTE_ERR0_BADOP
  else if f.net = 0 then { s with fab := { s.fab with inReq := s.fab.inReq ++ [(from_, held, f)] } }
  else let s := free s; { s with fab := { s.fab with inRsp := s.fab.inRsp ++ [f] } }

/-- The routing stage (R369, R372 to R374, R336) for a frame that came by port `n`. -/
def State.frameFrom (s : State) (n : Nat) (held : Bool) (f : Frame) : State :=
  let free (s : State) : State := if held then s.modPort n fun p => p.freeFlits (frameVc f) (frameFlitCount f.bytes) else s
  if f.dst = s.node then s.frameHere (some n) held f
  else if s.role n = 0x10 then (free s).fabDisc F.ROUTE_ERR0_BADEXP
  else if f.hops ≥ 192 then (free s).fabDisc F.ROUTE_ERR1_HOPLIMIT
  else match s.route f with
    | .here => s.frameHere (some n) held f
    | .discard => (free s).noRoute
    | .port m =>
      if s.dynSlots m < frameFlitCount f.bytes then ((free s).addFld F.PORT_DISC_OVERLONG m 1).raise (64 + 4 * m + 3)
      else (free s).modPort m fun p => p.putFrame { f with hops := f.hops + 1, cls := s.hopClass (some n) f.cls m } s.refNs n

/-- FRAME_ARRIVE of a frame by a port: it leaves the port's assembled frames where it stands there. -/
def State.frameArrive (s : State) (n : Nat) (f : Frame) : State :=
  let p := s.port n
  if p.frames.contains f then (s.setPort n { p with frames := p.frames.erase f }).frameFrom n true f else s.frameFrom n false f

/-- FRAME_ARRIVE (R372): from a port that carries frames, or from this part itself. -/
def execFrameArrive (from_ : Option Nat) (f : Frame) (s : State) : Res :=
  match from_ with
  | some n => if s.frameUp n then done s (s.frameArrive n f) else done s s
  | none =>
    if f.net = 0 then done s (match s.route f with
      | .here => s.frameHere none false f
      | _ => s.sendFrame f)
    else done s (s.sendFrame f)

/-- REQUEST_INJECT (R381). -/
def execRequestInject (r : ReqSpec) (s : State) : Res := done s (s.request r)

/-! ## The target (R380) -/

/-- The size of the memory an address names. -/
def spaceSize (a : Nat) : Nat := if daSpace a = 0 then 2 ^ 28 else 2 ^ 22

/-- An address range crosses the end of its tier-column or core store. -/
def crossesEnd (a n : Nat) : Bool := decide (spaceSize a < daOff a + n)

/-- The partition that an address range lies in is LAUNCHED or in RUN. -/
def State.targetLive (s : State) (a : Nat) : Bool :=
  match s.partOf (daCluster a) with | some q => (s.part q).jobLive | none => false

/-- R380: the first status that applies before memory is read or written; `n` bytes at `a` for job `jobid`. -/
def State.targetStatus (s : State) (a n jobid : Nat) : Nat :=
  if s.absent a ∨ (daSpace a ≤ 1 ∧ crossesEnd a n) then stBAD_ARG
  else if daSpace a = 2 then stNOT_PERMITTED
  else
    let q := s.partOf (daCluster a)
    let owner := match q with | some q => s.fld F.TIME_JOB_CFG_JOBID q == jobid | none => jobid == 0
    if !owner ∨ (daSpace a = 1 ∧ s.targetLive a) then stNOT_PERMITTED
    else if s.shut (daCluster a) then stNOT_READY
    else stOK

/-- R201, R380: a bulk access for a live partition needs slots of the I/O die of the arrival port. -/
def State.frameSlots (s : State) (from_ : Option Nat) (a : Nat) : Bool :=
  match from_ with
  | some n => daSpace a != 0 || !s.targetLive a || s.ownsSlot (daTc a) (ownIo (n / 4))
  | none => true

/-- The reply to a request. -/
def State.reply (s : State) (f : Frame) (status : Nat) (opspec : Nat) (data : List Byte) : State :=
  s.sendFrame
    { net := 1, dst := f.src, src := s.node, op := f.op + 0x80, tag := f.tag, gen := f.gen, cls := 0, hops := 0, opspec := opspec,
      addr := f.addr, status := status, bytes := data.length, payload := data }

/-- The LEN and JOBID of a request. -/
def frameLen (f : Frame) : Nat := f.opspec % 2 ^ 16
def frameJob (f : Frame) : Nat := f.opspec / 2 ^ 32 % 2 ^ 32

/-- The first delivered request of an opcode. -/
def State.firstReq (s : State) (op : Nat) : Option (Option Nat × Bool × Frame) := s.fab.inReq.find? fun e => e.2.2.op == op

/-- A request is taken for service: its place in the receive buffer is freed. -/
def State.takeReq (s : State) (e : Option Nat × Bool × Frame) : State :=
  let s := { s with fab := { s.fab with inReq := s.fab.inReq.erase e } }
  match e with
  | (some n, true, f) => s.modPort n fun p => p.freeFlits (frameVc f) (frameFlitCount f.bytes)
  | _ => s

/-- RD: the target reads and replies (R380). A LEN out of range is a BAD_ARG. -/
def State.serveRd (s : State) (e : Option Nat × Bool × Frame) : State :=
  let f := e.2.2
  let s := s.takeReq e
  let st := if (frameLen f) = 0 ∨ (frameLen f) > 4064 then stBAD_ARG else s.targetStatus f.addr (frameLen f) (frameJob f)
  if st ≠ stOK then s.reply f st 0 []
  else if !s.frameSlots e.1 f.addr then s.reply f stNO_RESOURCE 0 []
  else
    let r := s.readMem .other f.addr (frameLen f)
    if r.2.2 then r.1.reply f stFAULTED 0 [] else r.1.reply f stOK 0 r.2.1

/-- R380: the slots of its arrival port's I/O die that the access of `n` bytes at `a` for a request needs in a live tier-column. -/
def State.slotNeed (s : State) (from_ : Option Nat) (a n : Nat) (write : Bool) : List (Nat × Nat) :=
  match from_ with
  | some p => if daSpace a = 0 ∧ s.targetLive a then
      (chunks 256 (n + 1) a n).flatMap fun u => List.replicate (lineSlots u.2 write) (daTc u.1, ownIo (p / 4)) else []
  | none => []

/-- Take the slots from number `got` on, as far as they have occurred; how many it has then. -/
def State.takeUpTo (s : State) (need : List (Nat × Nat)) (got : Nat) : State × Nat :=
  (need.drop got).foldl (fun (acc : State × Nat × Bool) u =>
    if acc.2.2 then acc
    else match acc.1.passedSlot u.1 u.2 with | some t => (t, acc.2.1 + 1, false) | none => (acc.1, acc.2.1, true)) (s, got, false)
    |> fun r => (r.1, r.2.1)

/-- RD (R380): it reads once its slots have occurred. A request that its status turns away needs none. -/
def execRd (s : State) : Res :=
  match s.firstReq 1 with
  | some e =>
    let f := e.2.2
    let ok := s.targetStatus f.addr (frameLen f) (frameJob f) == stOK && s.frameSlots e.1 f.addr && decide (0 < frameLen f ∧ frameLen f ≤ 4064)
    let need := if ok then s.slotNeed e.1 f.addr (frameLen f) false else []
    let r := s.takeUpTo need s.fab.rdGot
    let got (t : State) (n : Nat) : State := { t with fab := { t.fab with rdGot := n } }
    if need.length ≤ r.2 then done s ((got r.1 0).serveRd e) else done s (got r.1 r.2)
  | none => done s s

/-- WR: the target lands the bytes and replies (R380, R608). -/
def State.serveWr (s : State) (e : Option Nat × Bool × Frame) : State :=
  let f := e.2.2
  let s := s.takeReq e
  let st := s.targetStatus f.addr f.bytes (frameJob f)
  if st ≠ stOK then s.reply f st 0 []
  else if !s.frameSlots e.1 f.addr then s.reply f stNO_RESOURCE 0 []
  else
    let r := s.writeMem .other f.addr (fitBytes f.bytes f.payload)
    r.1.reply f (if r.2 then stFAULTED else stOK) 0 []

/-- WR (R380): it lands once its slots have occurred. -/
def execWr (s : State) : Res :=
  match s.firstReq 2 with
  | some e =>
    let f := e.2.2
    let ok := s.targetStatus f.addr f.bytes (frameJob f) == stOK && s.frameSlots e.1 f.addr
    let need := if ok then s.slotNeed e.1 f.addr f.bytes true else []
    let r := s.takeUpTo need s.fab.wrGot
    let got (t : State) (n : Nat) : State := { t with fab := { t.fab with wrGot := n } }
    if need.length ≤ r.2 then done s ((got r.1 0).serveWr e) else done s (got r.1 r.2)
  | none => done s s

/-! ## Replies and tags (R382, R383) -/

/-- A reply reaches the request agent (Table 11.7). -/
def State.takeReply (s : State) (f : Frame) : State :=
  let s := { s with fab := { s.fab with inRsp := s.fab.inRsp.erase f } }
  let v := s.tag f.tag
  match v.state, v.req with
  | .out, some r =>
    if v.gen = f.gen then (s.setTag f.tag { v with state := .free, req := none, port := none, sent := none }).complete r f.status f.payload
    else s.addFld F.ROUTE_ERR0_LATE_COMPLETION 0 1
  | _, _ => s.addFld F.ROUTE_ERR0_LATE_COMPLETION 0 1

/-- A frame is delivered to this part: it is addressed to it, or its route is LOCAL. -/
def State.deliveredBy (s : State) (n : Nat) (f : Frame) : Bool :=
  decide ((s.fab.inRsp).length < (s.frameArrive n f).fab.inRsp.length)

/-- REPLY_ARRIVE (R383): a reply delivered to this part. One that comes by a port is routed first; one that has been delivered waits. -/
def execReplyArrive (from_ : Option Nat) (f : Frame) (s : State) : Res :=
  if f.net = 1 ∧ opOk 1 f.op then
    match from_ with
    | some n => if s.frameUp n ∧ s.deliveredBy n f then done s ((s.frameArrive n f).takeReply f) else done s s
    | none => if f.dst = s.node ∨ s.fab.inRsp.contains f then done s (s.takeReply f) else done s s
  else done s s

/-- The timer of a tag has expired (R382). -/
def State.timerDue (s : State) (t : Nat) : Bool :=
  let v := s.tag t
  v.state == .out && v.sent.isSome && decide (v.expires ≤ s.gtc)

/-- REQUEST_TIMEOUT (R382). -/
def execRequestTimeout (tag : Nat) (s : State) : Res :=
  if s.timerDue tag then done s (s.retireTag tag stTIMEOUT) else done s s

/-- RETIRE_EXPIRY (R383). -/
def execRetireExpiry (tag : Nat) (s : State) : Res :=
  let v := s.tag tag
  if v.state = .retire ∧ v.until_ ≤ s.gtc then
    done s (s.setTag tag { v with state := .free, req := none, port := none, sent := none })
  else done s s

/-! ## Changing route tables (R375, R376) -/

/-- The node ids from `cur` to `hi` are covered by entries of better rank. -/
def coveredFrom (es : List Nat) (hi : Nat) : Nat → Nat → Bool
  | 0, cur => decide (hi < cur)
  | fuel + 1, cur =>
    if hi < cur then true
    else
      let c := (es.filter fun v => entryMatches v cur).foldl (fun m v => max m (bits v 39 20 + 1)) cur
      if c = cur then false else coveredFrom es hi fuel c

/-- R375: an entry is shadowed. -/
def shadowed (tab : List Nat) (e : Nat) : Bool :=
  let v := tab.getD e 0
  let better := ((List.range 256).zip tab).filterMap fun p =>
    if p.2.testBit 63 && (decide (bits p.2 62 61 < bits v 62 61) || (bits p.2 62 61 == bits v 62 61 && decide (p.1 < e))) then some p.2
    else none
  v.testBit 63 && coveredFrom better (bits v 39 20) 257 (bits v 19 0)

/-- A swap of one network: banks exchange, ROUTE_SHADOW is computed, source 11 raised. -/
def State.swapNet (s : State) (k : Nat) : State :=
  let s := (List.range 256).foldl (fun t e =>
    let i := k * 256 + e
    let a := t.reg .ROUTE_ENTRY i
    let b := t.reg .ROUTE_ENTRY (512 + i)
    if a = b then t else (t.setReg .ROUTE_ENTRY i b).setReg .ROUTE_ENTRY (512 + i) a) s
  let tab := (List.range 256).map (s.routeEntry k)
  let s := (List.range 4).foldl (fun t i =>
    let w := (List.range 64).foldl (fun a j => if shadowed tab (64 * i + j) then a + 2 ^ j else a) 0
    t.setReg .ROUTE_SHADOW (k * 4 + i) (BitVec.ofNat 64 w)) s
  s.raise 11

/-- The networks a command names. -/
def netsOf (nets : Nat) : List Nat := [0, 1].filter nets.testBit

/-- A ROUTE_CTL command: BUSY while a CHANGE runs, NOT_PERMITTED in another state, else its effect (R376). -/
def State.routeCmd (s : State) (nets state : Nat) (eff : State → Nat → State) : State :=
  let l := netsOf nets
  let st (v : Nat) (t : State) : State := t.setFld F.ROUTE_STAT_STATUS 0 v
  if [0, 1].any fun k => (s.net k).change then st stBUSY s
  else if l.any fun k => (s.net k).state != state then st stNOT_PERMITTED s
  else st stOK (l.foldl eff s)

/-- DRAIN (R376). -/
def execDrain (nets : Nat) (s : State) : Res :=
  done s (s.routeCmd nets 0 fun t k => t.setNet k { t.net k with state := 1 })

/-- SWAP (R376). -/
def execSwap (nets : Nat) (s : State) : Res := done s (s.routeCmd nets 2 State.swapNet)

/-- A network becomes ACTIVE; held requests are injected in order. -/
def State.resumeNet (s : State) (k : Nat) : State := (s.setNet k { s.net k with state := 0, change := false }).injectHeld

/-- RESUME (R376). -/
def execResume (nets : Nat) (s : State) : Res := done s (s.routeCmd nets 2 State.resumeNet)

/-- CHANGE (R376): it drains; what follows happens when DRAINED is reached. -/
def execChange (nets : Nat) (s : State) : Res :=
  done s (s.routeCmd nets 0 fun t k => t.setNet k { t.net k with state := 1, change := true })

/-- A network enters DRAINED; under CHANGE it swaps and resumes at once. -/
def State.drained (s : State) (k : Nat) : State :=
  let s := (s.setNet k { s.net k with state := 2 }).raise 11
  if (s.net k).change then (s.swapNet k).resumeNet k else s

/-- DRAINED (R376). -/
def execDrained (net : Nat) (s : State) : Res :=
  if net < 2 ∧ (s.net net).state = 1 ∧ s.tagsOut.isEmpty then done s (s.drained net) else done s s

end Sys2Proof.Machine
end

