-- ==== Sys2Proof/Machine/Gop.lean ====
section
/-! DEFINITION. Barriers, broadcasts and snapshots (11_fabric.md R391 to R395). -/

namespace Sys2Proof.Machine

def State.gop (s : State) (q : Nat) : Gop := SMap.get Gop.init s.fab.gops q
def State.setGop (s : State) (q : Nat) (g : Gop) : State := { s with fab := { s.fab with gops := SMap.put Gop.init s.fab.gops q g } }

/-- The job's root. -/
def State.jobRoot (s : State) (q : Nat) : Nat := s.fld F.ROUTE_JOBROOT_ROOT q

/-- A global operation begins on this part. -/
def State.gopHold (s : State) (q op : Nat) : State :=
  ((s.setGop q { s.gop q with op := op }).setFld F.ROUTE_GOPSTAT_OP q op).setFld F.ROUTE_GOPSTAT_BUSY q 1

/-- ROUTE_GOPSTAT shows an operation that has ended on this part, and source 16 + q is raised. -/
def State.gopShow (s : State) (q op status : Nat) : State :=
  ((s.setFld F.ROUTE_GOPSTAT_STATUS q status).setFld F.ROUTE_GOPSTAT_OP q op).raise (16 + q)

/-- The held operation completes (R395, R396); with a barrier end the arrivals counted for it (R391). -/
def State.gopDone (s : State) (q status : Nat) : State :=
  let g := s.gop q
  let g' := if g.op = 1 then { g with kept := [], keptBid := none } else g
  ((s.setGop q { g' with op := 0, entered := false }).setFld F.ROUTE_GOPSTAT_BUSY q 0).gopShow q g.op status

/-- A write of ROUTE_GOPCMD that completes at once with a status. -/
def State.gopRefuse (s : State) (q op status : Nat) : State := s.gopShow q op status

/-- R395, R385: an operation that cannot start: BUSY while one is held, NOT_PERMITTED without a box. -/
def State.gopBlocked (s : State) (q : Nat) : Option Nat :=
  if (s.gop q).op ≠ 0 then some stBUSY else if !s.hasBox q then some stNOT_PERMITTED else none

/-! ## Barrier (R391) -/

/-- The arrivals a part awaits from its children in the root's tree: all have come. -/
def State.gathered (s : State) (q : Nat) : Bool :=
  let g := s.gop q
  let o := s.jobRoot q
  if s.express q then (o != s.node || decide (s.boxParts q ≤ g.kept.length + 1))
  else (s.childDirs q o s.node).all fun c => g.kept.contains c.2

/-- The body of a RELEASE. -/
def releaseBody (bid status : Nat) : List Byte := toBytes 2 bid ++ toBytes 1 status

/-- The root originates RELEASE and completes. -/
def State.originateRelease (s : State) (q status : Nat) : State :=
  let r := s.ownFlit q 5 (releaseBody (s.gop q).bid status)
  (r.1.toChildren q s.node { r.2 with flags := 1 }).gopDone q status

/-- A part whose gather has completed sends ARRIVE to its parent, or, as the root, RELEASE. -/
def State.gatherStep (s : State) (q : Nat) : State :=
  let g := s.gop q
  if g.op = 1 ∧ g.entered ∧ s.gathered q then
    if s.jobRoot q = s.node then s.originateRelease q stOK
    else
      let r := s.ownFlit q 4 (toBytes 2 g.bid)
      let dst := match s.parentDir q (s.jobRoot q) s.node with | some d => s.neighbour s.node d | none => 0
      let s := r.1.toParent q (s.jobRoot q) { r.2 with dst := dst }
      -- the gather is over: what was kept is used up
      s.setGop q { s.gop q with kept := [], keptBid := none, entered := true, op := 1, spent := true }
  else s

/-- The part enters barrier BID. `spent` marks a barrier whose gather is over. -/
def State.enterBarrier (s : State) (q : Nat) : State :=
  let bid := s.fld F.ROUTE_GOPARG0_VALUE q % 2 ^ 16
  let g := s.gop q
  let kept := if g.keptBid = some bid then g.kept else []
  let s := (s.gopHold q 1).setFld F.ROUTE_GOPSTAT_BID q bid
  (s.setGop q { s.gop q with bid := bid, entered := true, enteredAt := s.gtc, kept := kept, keptBid := some bid, spent := false }).gatherStep q

/-- BARRIER (R391). -/
def execBarrier (q : Nat) (s : State) : Res :=
  match s.gopBlocked q with
  | some st => done s (s.gopRefuse q 1 st)
  | none => done s (s.enterBarrier q)

/-- An ARRIVE for a partition: counted or kept, for one BID at a time. -/
def State.takeArrive (s : State) (q : Nat) (f : CtrlFlit) : State :=
  let bid := byF f.body 0 2
  let g := s.gop q
  let held := if g.op = 1 ∧ g.entered then g.bid == bid && !g.spent
    else match g.keptBid with | some b => b == bid | none => true
  if held then
    let kept := if g.kept.contains f.node then g.kept else g.kept ++ [f.node]
    (s.setGop q { g with kept := kept, keptBid := some bid }).gatherStep q
  else s.fabDisc F.ROUTE_ERR0_CTRLDISC

/-- ARRIVE (R391): to one part, not forwarded. -/
def execArrive (n : Nat) (f : CtrlFlit) (s : State) : Res :=
  let t := s.ctrlTake n f
  match s.jobPart f.jobid with
  | some q => done s (t.takeArrive q f)
  | none => done s (t.fabDisc F.ROUTE_ERR0_CTRLDISC)

/-- A RELEASE for a partition: its barrier completes with the release's status; any other is counted. -/
def State.takeRelease (s : State) (q : Nat) (f : CtrlFlit) : State :=
  let g := s.gop q
  if g.op = 1 ∧ g.entered ∧ g.bid = byF f.body 0 2 then s.gopDone q (byF f.body 2 1) else s.fabDisc F.ROUTE_ERR0_CTRLDISC

/-- RELEASE (R391). -/
def execRelease (n : Nat) (f : CtrlFlit) (s : State) : Res := done s (s.ctrlJob n f fun t q => t.takeRelease q f)

/-- The part holds an entered barrier that has lasted `k` times TMO. -/
def State.barrierLate (s : State) (q k : Nat) : Bool :=
  let g := s.gop q
  g.op == 1 && g.entered && decide (g.enteredAt + k * 1000 * s.fld F.ROUTE_GOPCFG_TMO q ≤ s.gtc)

/-- BARRIER_ROOT_TIMEOUT (R391). -/
def execBarrierRootTimeout (q : Nat) (s : State) : Res :=
  if s.jobRoot q = s.node ∧ s.barrierLate q 1 then done s (s.originateRelease q stTIMEOUT) else done s s

/-- BARRIER_TIMEOUT (R391). -/
def execBarrierTimeout (q : Nat) (s : State) : Res :=
  if s.jobRoot q ≠ s.node ∧ s.barrierLate q 2 then done s (s.gopDone q stTIMEOUT) else done s s

/-! ## Broadcast (R392) -/

/-- The bytes a broadcast sends. -/
def State.bcastSize (s : State) (q : Nat) : Nat := s.fld F.ROUTE_GOPARG1_SIZE q + 1

/-- The part's own DST passes the target rules. -/
def State.bcastOk (s : State) (q : Nat) : Bool :=
  s.targetStatus (s.fld F.ROUTE_GOPARG1_DST q) (s.bcastSize q) (s.fld F.TIME_JOB_CFG_JOBID q) == stOK

/-- The part writes bytes of a broadcast at its own DST; where that fails the target rules, it counts it once and writes nothing of it. -/
def State.bcastWrite (s : State) (q off : Nat) (bs : List Byte) : State :=
  let bad := off != 0 && (s.gop q).bcBad
  if bad then s
  else if s.bcastOk q then
    let s := (s.writeMem .other (s.fld F.ROUTE_GOPARG1_DST q + off) bs).1
    s.setGop q { s.gop q with bcBad := false }
  else (s.setGop q { s.gop q with bcBad := true }).fabDisc F.ROUTE_ERR0_CTRLDISC

/-- The flits of a broadcast: index, count of flits, 44 bytes. -/
def bcastBodies (data : List Byte) : List (List Byte) :=
  let n := (data.length + 43) / 44
  (List.range n).map fun i => toBytes 2 i ++ toBytes 2 n ++ fitBytes 44 ((data.drop (44 * i)).take 44)

/-- The origin sends; it writes its own copy, and completes when its last flit has left. -/
def State.originateBcast (s : State) (q : Nat) : State :=
  let src := s.fld F.ROUTE_GOPARG0_VALUE q % 2 ^ 48
  let n := s.bcastSize q
  if s.absent src ∨ daSpace src > 1 ∨ crossesEnd src n then s.gopRefuse q 2 stBAD_ARG
  else
    let r := s.readMem .other src n
    let s := r.1.gopHold q 2
    let f := s.ownFlit q 6 []
    let s := (bcastBodies r.2.1).foldl (fun t b => t.toChildren q s.node { f.2 with body := b }) f.1
    let s := s.bcastWrite q 0 r.2.1
    (s.setGop q { s.gop q with entered := true }).bcastLeft

/-- BCAST (R392). -/
def execBcast (q : Nat) (s : State) : Res :=
  match s.gopBlocked q with
  | some st => done s (s.gopRefuse q 2 st)
  | none => done s (s.originateBcast q)

/-- A part takes one flit of a broadcast; it completes when its last byte has landed. -/
def State.takeBcast (s : State) (q : Nat) (f : CtrlFlit) : State :=
  let i := byF f.body 0 2
  let n := byF f.body 2 2
  let k := min 44 (s.bcastSize q - 44 * i)
  let s := s.bcastWrite q (44 * i) ((f.body.drop 4).take k)
  if i + 1 = n ∧ !(s.gop q).bcBad then s.gopShow q 2 stOK else s

/-- BCAST_RECEIVE (R392). -/
def execBcastReceive (n : Nat) (f : CtrlFlit) (s : State) : Res := done s (s.ctrlJob n f fun t q => t.takeBcast q f)

/-! ## Snapshot (R394) -/

/-- The origin announces the snapshot and holds it. -/
def State.originateSnap (s : State) (q : Nat) : State :=
  let b := s.fld F.ROUTE_GOPARG0_VALUE q
  let v := s.fld F.ROUTE_GOPARG1_SNAPVAR q
  if (s.part q).job ≠ .run then s.gopRefuse q 3 stNOT_PERMITTED
  else if (s.gop q).snap.isSome then s.gopRefuse q 3 stBUSY
  else if s.grid q b < s.gtc + s.ecc q s.node * s.fld F.ROUTE_GOPCFG_HOPNS q then s.gopRefuse q 3 stLATE
  else
    let r := s.ownFlit q 7 (toBytes 8 b ++ toBytes 1 v)
    let s := (r.1.toChildren q s.node r.2).gopHold q 3
    s.setGop q { s.gop q with snap := some (b, v) }

/-- SNAP (R394). -/
def execSnap (q : Nat) (s : State) : Res :=
  match s.gopBlocked q with
  | some st => done s (s.gopRefuse q 3 st)
  | none => done s (s.originateSnap q)

/-- A part takes a SNAP: too late it faults the job; a second one for another beat is discarded. -/
def State.takeSnap (s : State) (q : Nat) (f : CtrlFlit) : State :=
  let b := byF f.body 0 8
  if (s.part q).begun b then s.jobFault q caLATE stLATE 0 0
  else match (s.gop q).snap with
    | some p => if p.1 = b then s else s.fabDisc F.ROUTE_ERR0_CTRLDISC
    | none => s.setGop q { s.gop q with snap := some (b, byF f.body 8 1) }

/-- SNAP_RECEIVE (R394). -/
def execSnapReceive (n : Nat) (f : CtrlFlit) (s : State) : Res := done s (s.ctrlJob n f fun t q => t.takeSnap q f)

end Sys2Proof.Machine
end

