-- ==== Sys2Proof/Machine/Rings.lean ====
section
/-! DEFINITION. Host rings, interrupt messages and Ethernet streams (13_host_interfaces.md R432 to R436, R450 to R453). -/

namespace Sys2Proof.Machine

/-! ## The state of the host interface -/

def State.modHost (s : State) (f : HostIf → HostIf) : State := { s with host := f s.host }
def State.hring (s : State) (r : Nat) : HRing := SMap.get HRing.init s.host.rings r
def State.setHring (s : State) (r : Nat) (v : HRing) : State := s.modHost fun h => { h with rings := SMap.put HRing.init h.rings r v }
def State.ethStream (s : State) (k : Nat) : EthStream := SMap.get EthStream.init s.host.streams k
def State.setEthStream (s : State) (k : Nat) (v : EthStream) : State :=
  s.modHost fun h => { h with streams := SMap.put EthStream.init h.streams k v }
/-- A link is up: 0 PCI Express, 1 and 2 Ethernet ports 0 and 1, 3 management. -/
def State.linkUp (s : State) (l : Nat) : Bool := SMap.get false s.host.links l
def State.setLink (s : State) (l : Nat) (up : Bool) : State := s.modHost fun h => { h with links := SMap.put false h.links l up }

/-! ## Rings -/

def State.ringOn (s : State) (r : Nat) : Bool := decide (r < 64) && s.fld F.HQ_RCFG_EN r == 1
def State.ringUse (s : State) (r : Nat) : Nat := s.fld F.HQ_RCFG_USE r
def State.ringMedium (s : State) (r : Nat) : Nat := s.fld F.HQ_RCFG_MEDIUM r
/-- Table 13.2: the part produces into the ring. -/
def State.ringIsOut (s : State) (r : Nat) : Bool :=
  match s.ringUse r with | 2 => true | 3 => s.fld F.HQ_RCFG_DIR r == 1 | 4 => true | 6 => true | _ => false
def State.ringSlots (s : State) (r : Nat) : Nat := 2 ^ s.fld F.HQ_RCFG_NSLOTLOG r
def State.slotSize (s : State) (r : Nat) : Nat := 2 ^ s.fld F.HQ_RCFG_SLOTLOG r
def State.hpos (s : State) (r : Nat) : Nat := s.fld F.HQ_RHPOS_HPOS r
def State.dpos (s : State) (r : Nat) : Nat := s.fld F.HQ_RSTAT_DPOS r

/-- R432: the depth of a ring. -/
def State.ringDepth (s : State) (r : Nat) : Nat :=
  if s.ringIsOut r then (s.dpos r + 2 ^ 32 - s.hpos r) % 2 ^ 32 else (s.hpos r + 2 ^ 32 - s.dpos r) % 2 ^ 32
def State.ringFull (s : State) (r : Nat) : Bool := decide (s.ringSlots r ≤ s.ringDepth r)

/-- R429: slots of the ring move now. -/
def State.ringMoves (s : State) (r : Nat) : Bool := s.ringMedium r != 0 || s.linkUp 0

/-- R434, R435: a violation of a ring (source 321). -/
def State.ringOvr (s : State) (r : Nat) : State := (s.hwSet F.HQ_RSTAT_OVR r 1).raise 321
def State.ringUnd (s : State) (r : Nat) : State := (s.hwSet F.HQ_RSTAT_UND r 1).raise 321

/-- DPOS advances. -/
def State.dposUp (s : State) (r : Nat) : State := s.setFld F.HQ_RSTAT_DPOS r ((s.dpos r + 1) % 2 ^ 32)

/-- The head slot of an in-ring that the part may take now, with the input bytes that came with it. -/
def State.ringHead (s : State) (r : Nat) : Option (List Byte × List Byte) :=
  if s.ringOn r && !s.ringIsOut r && s.ringMoves r && decide (0 < s.ringDepth r) then (s.hring r).slots.head? else none

/-- R433: the part has taken a slot of an in-ring. -/
def State.ringTake (s : State) (r : Nat) : State :=
  (s.setHring r { s.hring r with slots := (s.hring r).slots.tail }).dposUp r

/-! ## Host memory and interrupts -/

/-- Bytes written to host memory. -/
def State.hostWrite (s : State) (a : Nat) (bs : List Byte) : State :=
  let m := (bs.foldl (fun (acc : SMap (Option Byte) × Nat) b => (SMap.put none acc.1 acc.2 (some b), acc.2 + 1)) (s.host.hostMem, a)).1
  { s with host := { s.host with hostMem := m }, out := s.out ++ [.host a bs] }

/-- Bytes read from host memory: those the part wrote, free values elsewhere. -/
def State.hostRead (s : State) (a n : Nat) : State × List Byte :=
  (List.range n).foldl (fun (acc : State × List Byte) i =>
    match SMap.get none acc.1.host.hostMem (a + i) with
    | some b => (acc.1, acc.2 ++ [b])
    | none => (acc.1.takeFree.1, acc.2 ++ [BitVec.ofNat 8 (Config.freeValue acc.1.takeFree.2)])) (s, [])

/-- The 8-byte words of an MSI-X vector, masked at reset (PCI Express Base Specification): word 0 the address, word 1 the data and the
mask bit (bit 32). -/
def msixDflt (i : Nat) : Word := if i % 2 = 1 then BitVec.ofNat 64 (2 ^ 32) else 0
def State.msixWord (s : State) (i : Nat) : Word := SMap.get (msixDflt i) s.host.msix i
def State.setMsix (s : State) (i : Nat) (w : Word) : State := s.modHost fun h => { h with msix := SMap.put (msixDflt i) h.msix i w }

/-- An MSI-X message: pending while its vector is masked or the link is down. -/
def State.sendVector (s : State) (v : Nat) : State :=
  if (s.msixWord (2 * v + 1)).toNat.testBit 32 || !s.linkUp 0 then s.modHost fun h => { h with pba := SMap.put false h.pba v true }
  else { s with out := s.out ++ [.vector v], host := { s.host with pba := SMap.put false s.host.pba v false } }

/-- R436: at an event tick each ring whose DPOS has changed sends one message. -/
def State.ringIrqs (s : State) : State :=
  (List.range 64).foldl (fun t r =>
    if t.ringOn r && t.fld F.HQ_RCFG_IRQ r == 1 && t.ringMedium r == 0 && t.dpos r != (t.hring r).irqPos then
      (t.setHring r { t.hring r with irqPos := t.dpos r }).sendVector (t.fld F.HQ_RCFG_VEC r)
    else t) s

/-! ## Ethernet streams (R450, R451) -/

/-- ASCII "FLVN". -/
def ethMagic : List Byte := [0x46, 0x4C, 0x56, 0x4E]

/-- Table 13.8: a message. -/
def ethBytes (typ stream flags seq : Nat) (body : List Byte) : List Byte :=
  ethMagic ++ toBytes 1 1 ++ toBytes 1 typ ++ toBytes 2 body.length ++ toBytes 2 stream ++ toBytes 2 flags ++ toBytes 4 seq ++ body

/-- STREAM of a stream's key. -/
def streamNo (k : Nat) : Nat := if k = 64 then 0xFFFF else k

/-- The Ethernet port of a message: that of its ring's medium, or of the park or telemetry endpoint. -/
def State.ethPort (s : State) (k typ : Nat) : Nat :=
  if k < 64 then s.ringMedium k - 1 else (SMap.get ⟨0, 0, 0⟩ s.host.ends (if typ = 6 then 65 else 64)).port

/-- A message leaves a port, where its link is up. -/
def State.ethOut (s : State) (port : Nat) (bs : List Byte) : State :=
  if s.linkUp (1 + port) then { s with out := s.out ++ [.eth port bs] } else s

/-- Send a message on a stream: it stays until it is acknowledged. -/
def State.ethSend (s : State) (k typ flags : Nat) (body : List Byte) : State :=
  let st := s.ethStream k
  let s := s.setEthStream k { st with
    tx := (st.tx + 1) % 2 ^ 32, unacked := st.unacked ++ [⟨typ, flags, st.tx, body⟩], sent := if st.unacked.isEmpty then s.refNs else st.sent }
  s.ethOut (s.ethPort k typ) (ethBytes typ (streamNo k) flags st.tx body)

/-- R451: an ACK of a SEQ by the port the message came by. -/
def State.ethAck (s : State) (port k seq : Nat) : State :=
  let f := s.takeFree
  f.1.ethOut port (ethBytes 2 (streamNo k) 0 (Config.freeValue f.2 % 2 ^ 32) (toBytes 4 seq))

/-- A datagram that is a message of the part: its stream's key and its fields; `none` where it is discarded. -/
structure EthIn where
  typ : Nat
  key : Nat
  flags : Nat
  seq : Nat
  body : List Byte

def ethParse (raw : List Byte) : Option EthIn :=
  let typ := byF raw 5 1
  let st := byF raw 8 2
  if raw.take 4 = ethMagic ∧ byF raw 4 1 = 1 ∧ 1 ≤ typ ∧ typ ≤ 6 then
    some ⟨typ, if st = 0xFFFF then 64 else st, byF raw 10 2, byF raw 12 4, (raw.drop 16).take (byF raw 6 2)⟩
  else none

/-- R450: a datagram is discarded. -/
def State.ethDiscard (s : State) : State := s.raise 327

/-- R451: the message is the next of its stream: it is accepted and acknowledged; any other is answered with an ACK of the last
accepted SEQ. -/
def State.ethAccept (s : State) (port : Nat) (m : EthIn) : State × Bool :=
  let st := s.ethStream m.key
  if m.seq = st.rx then ((s.setEthStream m.key { st with rx := (st.rx + 1) % 2 ^ 32 }).ethAck port m.key m.seq, true)
  else (s.ethAck port m.key ((st.rx + 2 ^ 32 - 1) % 2 ^ 32), false)

/-! ## Pushing into an out-ring -/

/-- The part pushes a slot into an out-ring with room (R433, R452). -/
def State.ringPut (s : State) (r : Nat) (bs : List Byte) : State :=
  let slot := fitBytes (s.slotSize r) bs
  let s := if s.ringMedium r = 0 then
      s.hostWrite (s.fld F.HQ_RBASE_BASE r * 4096 + s.dpos r % s.ringSlots r * s.slotSize r) slot
    else s.ethSend r 1 0 slot
  s.dposUp r

/-- R432: HQ_RCFG.EN goes from 0 to 1: positions 0, nothing held, the streams start anew. -/
def State.ringEnable (s : State) (r : Nat) : State :=
  let s := (s.setFld F.HQ_RHPOS_HPOS r 0).setFld F.HQ_RSTAT_DPOS r 0
  (s.setHring r HRing.init).setEthStream r EthStream.init

end Sys2Proof.Machine
end

