-- ==== Sys2Proof/Machine/Table.lean ====
section
/-! DEFINITION. The request table, page pools, audit digests and output records (12_serving.md R398 to R415, 09 R315, R316, 13 R444
to R447). -/

namespace Sys2Proof.Machine

/-! ## Access -/

def State.srv (s : State) (q : Nat) : Serve := SMap.get Serve.init s.serve q
def State.setSrv (s : State) (q : Nat) (v : Serve) : State := { s with serve := SMap.put Serve.init s.serve q v }
def State.modSrv (s : State) (q : Nat) (f : Serve → Serve) : State := s.setSrv q (f (s.srv q))
def State.ent (s : State) (e : Nat) : Entry := SMap.get Entry.free s.table e
def State.setEnt (s : State) (e : Nat) (v : Entry) : State := { s with table := SMap.put Entry.free s.table e v }
def State.modEnt (s : State) (e : Nat) (f : Entry → Entry) : State := s.setEnt e (f (s.ent e))

def State.serveOn (s : State) (q : Nat) : Bool := s.fld F.SERVE_PCFG_EN q == 1
def State.ingress (s : State) (q : Nat) : Bool := s.fld F.SERVE_PCFG_INGRESS q == 1
def State.efirst (s : State) (q : Nat) : Nat := s.fld F.SERVE_PCFG_EFIRST q
/-- R398: the entries of a partition. -/
def State.ownsEnt (s : State) (q e : Nat) : Bool := decide (s.efirst q ≤ e ∧ e < s.efirst q + s.fld F.SERVE_PCFG_ECOUNT q)

/-! Table 12.1: states of an entry. -/
def esFREE : Nat := 0
def esQUEUED : Nat := 1
def esPREFILL : Nat := 2
def esDECODE : Nat := 3
def esPAUSED : Nat := 4
def esPARKED : Nat := 5
def esDONE : Nat := 6
def esABORTED : Nat := 7

def Entry.flag (v : Entry) (i : Nat) : Bool := v.flags.testBit i
def Entry.setFlag (v : Entry) (i : Nat) (on : Bool) : Entry :=
  { v with flags := if on then v.flags ||| 2 ^ i else v.flags &&& (255 - 2 ^ i) }
def flMOVING : Nat := 4
def flNOPAGE : Nat := 5

/-- Put a number in order by a key. -/
def insertBy (key : Nat → Nat) (x : Nat) : List Nat → List Nat
  | [] => [x]
  | y :: r => if key x < key y then x :: y :: r else y :: insertBy key x r
def sortBy (key : Nat → Nat) (l : List Nat) : List Nat := l.foldl (fun a x => insertBy key x a) []

/-- R412: serving order as one number. -/
def State.servKey (s : State) (e : Nat) : Nat := let v := s.ent e; (v.prio * 2 ^ 32 + v.admseq) * 8192 + e

/-- Entries of a partition that are not FREE and satisfy a condition, in serving order. -/
def State.inOrder (s : State) (q : Nat) (p : Nat → Entry → Bool) : List Nat :=
  sortBy s.servKey ((s.table.filter fun x => s.ownsEnt q x.1 && x.2.state != esFREE && p x.1 x.2).map (·.1))

/-- Table 12.1: the bytes of an entry. -/
def Entry.bytes (v : Entry) : List Byte :=
  toBytes 4 (v.state + v.prio * 16 + v.part * 256 + v.ring * 2 ^ 16 + v.flags * 2 ^ 24) ++ toBytes 4 v.reqid ++ toBytes 4 v.length
    ++ toBytes 4 v.pages ++ toBytes 6 v.plist ++ toBytes 2 0 ++ toBytes 8 v.deadline ++ toBytes 4 v.admseq ++ toBytes 4 v.prompt
    ++ toBytes 4 v.maxlen ++ toBytes 4 v.served ++ toBytes 8 v.key ++ toBytes 8 v.stamp

/-- An entry changes STATE in the step of beat `n`. -/
def State.enter (s : State) (q e st n : Nat) : State :=
  let s := s.modEnt e fun v => { v with state := st, stamp := n % 2 ^ 64 }
  let s := if st = esPAUSED then s.addFld F.SERVE_CNT1_PAUSED q 1 else s
  if st = esPARKED then s.addFld F.SERVE_CNT1_PARKED q 1 else s

/-! ## Pages (R414 to R416) -/

/-- Queue a write of RT0, by lines; each takes the slots of RT0 (R193, R439). -/
def State.queueRoot (s : State) (q pri a : Nat) (bs : List Byte) : State :=
  ((chunks 256 (bs.length + 1) a bs.length).foldl (fun (acc : State × List Byte) u =>
    (acc.1.addXfer (daTc u.1) ⟨ownRoot 0, 0, 0, 0, daOff u.1 / 256, 0, none, .root q pri false (daOff u.1 % 256) (acc.2.take u.2)⟩,
      acc.2.drop u.2)) (s, bs)).1

/-- R201, R416, R439, R444: a write of RT0 of a precedence. In a tier-column of a live partition it waits for a slot of RT0. Where the address
(SERVE_POOL, HQ_INSTAGE, HQ_INDESC) names a memory outside the partition the access is made all the same: no rule checks it (log 67). -/
def State.rootWrite (s : State) (q pri a : Nat) (bs : List Byte) : State :=
  if s.absent a ∨ 1 < daSpace a then s
  else if daSpace a = 0 ∧ s.targetLive a then
    if s.ownsSlot (daTc a) (ownRoot 0) then s.queueRoot q pri a bs else s.jobFault q caSERVE stNO_RESOURCE 0 0
  else (s.writeMem .other a bs).1

/-- R416: the slots of a read of RT0 in a live tier-column, taken; none where it must wait for them. An access that R201 refuses takes none. -/
def State.rootSlots (s : State) (a n : Nat) : Option State :=
  if daSpace a = 0 ∧ s.targetLive a ∧ s.ownsSlot (daTc a) (ownRoot 0) then
    (chunks 256 (n + 1) a n).foldl (fun acc u => acc.bind fun t => t.passedSlots (daTc u.1) (ownRoot 0) 1) (some s)
  else some s

/-- R416, R201: a read of the serving sequencer. -/
def State.rootRead (s : State) (q a n : Nat) : State × List Byte :=
  if s.absent a ∨ 1 < daSpace a then (s, s.fillBytes a n)
  else if daSpace a = 0 ∧ s.targetLive a ∧ !s.ownsSlot (daTc a) (ownRoot 0) then (s.jobFault q caSERVE stNO_RESOURCE 0 0, s.fillBytes a n)
  else let r := s.readMem .other a n; (r.1, r.2.1)

def State.npages (s : State) (q : Nat) : Nat := s.fld F.SERVE_POOL2_NPAGES q
/-- The pages that entries of the partition hold. -/
def State.heldPages (s : State) (q : Nat) : List Nat := (s.table.filter fun x => s.ownsEnt q x.1).flatMap fun x => x.2.pgs
/-- The free pages, ascending. -/
def State.freeList (s : State) (q : Nat) : List Nat := let h := s.heldPages q; (List.range (s.npages q)).filter fun g => !h.contains g
def State.freeCount (s : State) (q : Nat) : Nat := s.npages q - (s.heldPages q).length

def State.kpage (s : State) (q g : Nat) : Nat := (s.fld F.SERVE_POOL0_KBASE q + g * s.fld F.SERVE_POOL2_KPAGE q * 256) % 2 ^ 48
def State.vpage (s : State) (q g : Nat) : Nat := (s.fld F.SERVE_POOL1_VBASE q + g * s.fld F.SERVE_POOL2_VPAGE q * 256) % 2 ^ 48
/-- PLSTRIDE, in entries. -/
def State.plstride (s : State) (q : Nat) : Nat := s.fld F.SERVE_POOL3_PLSTRIDE q + 1
/-- R415: the page list of an entry. -/
def State.plistOf (s : State) (q e : Nat) : Nat := (s.fld F.SERVE_POOL3_PLBASE q + (e - s.efirst q) * s.plstride q * 16) % 2 ^ 48

/-- Page `g` becomes page `j` of an entry's list (R415). -/
def State.listPage (s : State) (q e j g : Nat) : State :=
  s.rootWrite q 1 ((s.plistOf q e + 16 * j) % 2 ^ 48) (toBytes 8 (s.kpage q g) ++ toBytes 8 (s.vpage q g))

/-- R414: take `n` pages, the lowest free, one at a time; none where they are not all free. -/
def State.takePages (s : State) (q e n : Nat) : Option State :=
  let l := (s.freeList q).take n
  if l.length < n then none
  else
    let at0 := (s.ent e).pgs.length
    let s := (l.zip (List.range n)).foldl (fun t p => t.listPage q e (at0 + p.2) p.1) s
    some (s.modEnt e fun v => { v with pgs := v.pgs ++ l, pages := at0 + n })

/-- All pages of an entry become free. -/
def State.freePages (s : State) (e : Nat) : State := s.modEnt e fun v => { v with pgs := [], pages := 0 }

/-! ## Digests (R315, R316) -/

/-- Take bytes into a digest; at most all of them. -/
def HashSt.absorb (d : HashSt) (bs : List Byte) : HashSt :=
  let h := if d.h.isEmpty then sha256Alg.h0 else d.h
  let r := Sha.blocks sha256Alg ((d.tail.length + bs.length) / 64 + 1) h (d.tail ++ bs)
  ⟨r.1, r.2, d.len + bs.length⟩

/-- The digest of what a computation has taken. -/
def HashSt.final (d : HashSt) : List Byte :=
  let p := Sha.pad sha256Alg d.len
  let d := d.absorb p
  Sha.stateBytes sha256Alg d.h

/-- ASCII "FLVAUDT1". -/
def auditMagic : List Byte := [0x46, 0x4C, 0x56, 0x41, 0x55, 0x44, 0x54, 0x31]

/-- Table 9.4: the string p of a request. -/
def State.auditHead (s : State) (q reqid : Nat) : List Byte :=
  auditMagic ++ ((List.range 8).flatMap fun i => toBytes 8 (s.fld F.TIME_DIGEST_BYTES (q * 8 + i))) ++ toBytes 4 reqid ++ toBytes 4 0

/-- R316: an entry's digest with e(j) taken, and d(j). -/
def State.auditRecord (s : State) (q : Nat) (v : Entry) (payload : List Byte) : HashSt × List Byte :=
  let j := v.recs + 1
  let d := if v.recs = 0 then HashSt.init.absorb (s.auditHead q v.reqid) else v.dig
  let d := d.absorb (toBytes 8 j ++ toBytes 4 v.input.length ++ toBytes 4 payload.length ++ v.input ++ payload)
  (d, (d.absorb (toBytes 1 (s.fld F.TIME_JOB_CFG_MODE q) ++ toBytes 7 0 ++ toBytes 8 j)).final)

/-! ## Output records (R446, R447) -/

/-- A ring takes the output records of a partition. -/
def State.outputRing (s : State) (q r : Nat) : Bool := s.ringOn r && s.ringUse r == 2 && s.fld F.HQ_RCFG_PART r == q

/-- Table 13.6. -/
def State.outRecord (s : State) (r reqid b flags status j beat a : Nat) (d payload : List Byte) : List Byte :=
  let room := s.slotSize r - 64
  let flags := if room < payload.length then flags + 4 else flags
  toBytes 4 reqid ++ toBytes 2 b ++ toBytes 1 flags ++ toBytes 1 status ++ toBytes 8 j ++ toBytes 8 beat ++ toBytes 4 a ++ toBytes 4 0
    ++ fitBytes 32 d ++ payload.take room

/-- R435: a push found its output ring full: the beat commits no record. -/
def State.outputFull (s : State) (q r : Nat) : State := (s.ringOvr r).modSrv q fun v => { v with full := true }

/-- R447: a status record, where its ring takes records. -/
def State.statusRecord (s : State) (q ring reqid status : Nat) : State :=
  if !s.outputRing q ring then s
  else if s.ringFull ring then s.outputFull q ring
  else s.ringPut ring (s.outRecord ring reqid 0 3 status 0 (s.part q).beat 0 [] [])

/-! ## Submissions (R402, R426, R444) -/

/-- R444: the staging slots of a partition. -/
def State.stageSize (s : State) (q : Nat) : Nat := s.fld F.HQ_INCFG_SLOTLINES q * 256
def State.stageAddr (s : State) (q k : Nat) : Nat := (s.fld F.HQ_INSTAGE_STBASE q + k * s.stageSize q) % 2 ^ 48
/-- The staging slots in use. -/
def State.stagesHeld (s : State) (q : Nat) : List Nat :=
  let v := s.srv q
  (v.staging.map (·.slot)) ++ (v.arrivals.map (·.slot)) ++ (v.taken.map fun p => p.2.slot)
    ++ (((s.table.filter fun x => s.ownsEnt q x.1 && x.2.stage != 0)).map fun x => x.2.stage - 1)
/-- The lowest free staging slot. -/
def State.freeStage (s : State) (q : Nat) : Option Nat :=
  let h := s.stagesHeld q
  (List.range (s.fld F.HQ_INCFG_NSTAGE q + 1)).find? fun k => !h.contains k

/-- R402: a submission is refused: reported, counted, source 960 + 6q + 5. -/
def State.refuseSub (s : State) (q : Nat) (v : Sub) (status : Nat) : State :=
  let s := s.statusRecord q v.ring v.reqid status
  (s.addFld F.SERVE_CNT0_REFUSED q 1).raise (960 + 6 * q + 5)

/-- R402: the status of a submission's check. -/
def State.checkSub (s : State) (q : Nat) (v : Sub) : Nat :=
  let sv := s.srv q
  if !s.ingress q ∨ !(s.part q).jobLive then stNOT_PERMITTED
  else if v.prompt = 0 ∨ v.maxlen ≤ v.prompt ∨ 2 ^ 24 < v.maxlen ∨ s.plstride q < (v.maxlen + 255) / 256 ∨ 63 < v.ring ∨ 16 ≤ v.flags
      ∨ (sv.arrivals.any fun w => w.reqid == v.reqid)
      ∨ (s.table.any fun x => s.ownsEnt q x.1 && x.2.state != esFREE && x.2.reqid == v.reqid) then stBAD_ARG
  else if 1024 ≤ sv.arrivals.length then stNO_RESOURCE
  else stOK

end Sys2Proof.Machine
end

