-- ==== Sys2Proof/Machine/ServeStep.lean ====
section
/-! DEFINITION. The beat-start step and page moves (12_serving.md R403 to R419). -/

namespace Sys2Proof.Machine

/-! ## ADMIT bodies (Table 12.4) -/

def admBEAT (b : List Byte) : Nat := byF b 0 8
def admINDEX (b : List Byte) : Nat := byF b 8 1
def admLAST (b : List Byte) : Bool := byF b 9 1 % 2 == 1
def admOP (b : List Byte) : Nat := byF b 10 1
def admENTRY (b : List Byte) : Nat := byF b 12 2 % 8192
def admREQID (b : List Byte) : Nat := byF b 16 4

/-- The flits of a beat in a store, in order of INDEX. -/
def beatFlits (store : List (List Byte)) (n : Nat) : List (List Byte) :=
  let l := store.filter fun b => admBEAT b == n
  (List.range 256).flatMap fun i => l.filter fun b => admINDEX b == i

/-- R406: every flit of a beat up to the one with LAST set is present. -/
def beatComplete (store : List (List Byte)) (n : Nat) : Bool :=
  let l := store.filter fun b => admBEAT b == n
  match l.find? admLAST with
  | some b => (List.range (admINDEX b + 1)).all fun i => l.any fun c => admINDEX c == i
  | none => false

/-- R406: a beat's notices are present, or it requires none. -/
def State.noticed (s : State) (q n : Nat) : Bool :=
  decide (n < s.fld F.SERVE_PCFG_ALAG q) || beatComplete (s.srv q).store n

/-! ## Page moves (R419) -/

/-- The parts of a move of one page. -/
def cutMove : Nat → Nat → Nat → Nat → List MoveBit
  | 0, _, _, _ => []
  | fuel + 1, a, off, n => if n = 0 then [] else ⟨a, off, min n 2048⟩ :: cutMove fuel (a + 2048) (off + 2048) (n - 2048)

/-- The parts of a move of an entry's pages between the pool and the park area. -/
def State.moveBits (s : State) (q e : Nat) : List MoveBit :=
  let kb := s.fld F.SERVE_POOL2_KPAGE q * 256
  let vb := s.fld F.SERVE_POOL2_VPAGE q * 256
  let pgs := (s.ent e).pgs
  ((List.range pgs.length).zip pgs).flatMap fun p =>
    let off := ((e - s.efirst q) * s.plstride q + p.1) * (kb + vb)
    cutMove (kb / 2048 + 1) (s.kpage q p.2) off kb ++ cutMove (vb / 2048 + 1) (s.vpage q p.2) (off + kb) vb

/-- A move of an entry begins in the step of beat `n`. -/
def State.beginMove (s : State) (q e n : Nat) (out : Bool) : State :=
  let s := s.modEnt e fun v => v.setFlag flMOVING true
  s.modSrv q fun v => { v with moves := v.moves ++ [⟨e, out, n + s.fld F.SERVE_PCFG_MOVEBEATS q, s.moveBits q e, [], stOK⟩] }

/-- The parts of a move are all made, or it has failed. -/
def Move.over (m : Move) : Bool := (m.left.isEmpty && m.flying.isEmpty) || m.status != stOK

/-- A move completes in the step of its due beat. -/
def State.endMove (s : State) (q n : Nat) (m : Move) : State :=
  let s := if m.status = stOK then s else s.modSrv q fun v => { v with moveBad := some (v.moveBad.getD m.status) }
  let s := s.modEnt m.e fun v => v.setFlag flMOVING false
  let v := s.ent m.e
  if v.state = esABORTED then s.freePages m.e
  else if m.out then s.modEnt m.e fun v => { v with pgs := [] }
  else if v.state = esPARKED then s.enter q m.e esDECODE n
  else s

/-- The moves due by beat `n` complete. -/
def State.endMoves (s : State) (q n : Nat) : State :=
  let ms := (s.srv q).moves.filter fun m => decide (m.due ≤ n)
  let s := s.modSrv q fun v => { v with moves := v.moves.filter fun m => decide (n < m.due) }
  ms.foldl (fun t m => t.endMove q n m) s

/-! ## What a step notes for its events (R423) -/

/-- What a step has met: an entry entered DONE or ABORTED; a page shortage or an ignored record; entries given a page. -/
structure StepX where
  s : State
  fin : Bool
  odd : Bool
  newp : List Nat

/-- An entry enters DONE or ABORTED: its pages are freed, those that move when their move completes. -/
def StepX.finish (x : StepX) (q e st n : Nat) : StepX :=
  let s := if (x.s.ent e).flag flMOVING then x.s else x.s.freePages e
  { x with s := s.enter q e st n, fin := true }

/-- A page shortage is counted. -/
def StepX.noPage (x : StepX) (q : Nat) : StepX := { x with s := x.s.addFld F.SERVE_CNT0_NOPAGE q 1 }

/-! ## 1. Commit -/

/-- The slots of the last plan are committed, finished entries become FREE and what was noted of their requests is forgotten, entries move
on. -/
def StepX.commit (x : StepX) (q n : Nat) : StepX :=
  let s := (x.s.srv q).slots.foldl (fun t p =>
    t.modEnt p.1 fun v => { v with length := v.length + p.2, served := (v.served + 1) % 2 ^ 32 }) x.s
  let s := s.modSrv q fun v => { v with slots := [] }
  let gone := s.inOrder q fun _ v => (v.state == esDONE || v.state == esABORTED) && !v.flag flMOVING
  let ids := gone.map fun e => (s.ent e).reqid
  let s := (gone.foldl (fun t e => t.setEnt e Entry.free) s).modSrv q fun v => { v with
    ends := v.ends.filter fun e => !gone.contains e, aborts := v.aborts.filter fun r => !ids.contains r }
  let dec := s.inOrder q fun _ v => v.state == esPREFILL && v.length == v.prompt
  let s := dec.foldl (fun t e => t.enter q e esDECODE n) s
  let full := s.inOrder q fun _ v => v.state == esDECODE && v.length == v.maxlen
  let x := full.foldl (fun (y : StepX) e =>
    let v := y.s.ent e
    let y := y.finish q e esDONE n
    if y.s.ingress q && !v.ended then { y with s := y.s.statusRecord q v.ring v.reqid stOK } else y) { x with s := s }
  { x with s := x.s.endMoves q n }

/-! ## 2. Apply (R407, Table 12.5) -/

/-- The fields that an ADMIT record gives a FREE entry. -/
def State.admitEntry (s : State) (q e n : Nat) (b : List Byte) : Entry :=
  { Entry.free with
    state := esQUEUED, prio := byF b 11 1 % 8, part := q, ring := byF b 15 1, flags := byF b 14 1 % 16, reqid := admREQID b,
    plist := s.plistOf q e, deadline := byF b 32 8, admseq := byF b 20 4, prompt := byF b 24 4 % 2 ^ 25, maxlen := byF b 28 4 % 2 ^ 25,
    key := byF b 40 8, stamp := n % 2 ^ 64 }

/-- ADMIT is applied: on the ingress part the entry takes its submission's input. -/
def State.applyAdmit (s : State) (q e n : Nat) (b : List Byte) : State :=
  let v := s.admitEntry q e n b
  let sub := (s.srv q).taken.find? fun p => p.1 == e
  let v := match sub with | some p => { v with input := p.2.input, stage := p.2.slot + 1 } | none => v
  let s := s.modSrv q fun w => { w with taken := w.taken.filter fun p => p.1 != e }
  (((s.setEnt e v).addFld F.SERVE_CNT0_ADMITTED q 1).setFld F.SERVE_SEQ_ADMSEQ q v.admseq)

/-- A record is ignored. -/
def StepX.stale (x : StepX) (q : Nat) : StepX := { x with s := x.s.addFld F.SERVE_CNT1_STALE q 1, odd := true }

/-- One ADMIT record is applied. -/
def StepX.apply (x : StepX) (q n : Nat) (b : List Byte) : StepX :=
  let e := admENTRY b
  let v := x.s.ent e
  let op := admOP b
  if op = 0 then x
  else if !x.s.ownsEnt q e then x.stale q
  else if op = 1 then (if v.state = esFREE then { x with s := x.s.applyAdmit q e n b } else x.stale q)
  else if v.reqid ≠ admREQID b then x.stale q
  else match op, v.state with
    | 2, 3 => { x with s := x.s.enter q e esPAUSED n }
    | 3, 4 =>
      if v.length = v.pages * 256 then
        match x.s.takePages q e 1 with
        | some t => { x with s := (t.modEnt e fun w => w.setFlag flNOPAGE false).enter q e esDECODE n, newp := e :: x.newp }
        | none => x.noPage q
      else { x with s := (x.s.modEnt e fun w => w.setFlag flNOPAGE false).enter q e esDECODE n }
    | 4, 4 => { x with s := (x.s.enter q e esPARKED n).beginMove q e n true }
    | 5, 5 =>
      if v.flag flMOVING then x.stale q
      else match x.s.takePages q e v.pages with
        | some t => { x with s := (t.modEnt e fun w => { w with pages := v.pages }).beginMove q e n false }
        | none => x.noPage q
    | 6, st =>
      if esQUEUED ≤ st ∧ st ≤ esPARKED then
        let x := x.finish q e esABORTED n
        if x.s.ingress q then { x with s := x.s.statusRecord q v.ring v.reqid stABORTED } else x
      else x.stale q
    | 7, st => if esPREFILL ≤ st ∧ st ≤ esPAUSED then x.finish q e esDONE n else x.stale q
    | _, _ => x.stale q

/-- The records of beat `n` are applied in order of INDEX. -/
def StepX.applyAll (x : StepX) (q n : Nat) : StepX :=
  let l := beatFlits (x.s.srv q).store n
  let s := x.s.modSrv q fun v => { v with
    store := v.store.filter fun b => admBEAT b != n, pend := v.pend.filter fun p => decide (n < p.2.1) }
  l.foldl (fun y b => y.apply q n b) { x with s := s }

/-! ## 3. Variant (R417) -/

/-- The prefill depth. -/
def State.pdp (s : State) (q : Nat) : Nat :=
  (((s.table.filter fun x => s.ownsEnt q x.1 && (x.2.state == esQUEUED || x.2.state == esPREFILL)).map fun x =>
    x.2.prompt - x.2.length).sum + 255) / 256

/-- The entry of the ratio table that is chosen. -/
def State.ratioEntry (s : State) (q pdp : Nat) : Nat :=
  (((List.range 16).filter fun j => s.fld F.SERVE_RATIO_VALID (q * 16 + j) == 1 && decide (s.fld F.SERVE_RATIO_TH (q * 16 + j) ≤ pdp)).getLast?).getD 0

/-- The pending snapshot names beat `n`: its variant (R394). -/
def State.snapAt (s : State) (q n : Nat) : Option Nat :=
  match (s.gop q).snap with | some p => if p.1 = n then some p.2 else none | none => none

/-- The variant of beat `n`. -/
def State.pickVariant (s : State) (q n : Nat) : Nat :=
  match s.snapAt q n with
  | some v => v % 16
  | none => if s.serveOn q then s.fld F.SERVE_RATIO_VAR (q * 16 + s.ratioEntry q (s.pdp q)) else 0

/-! ## 4. Slots (R411) -/

/-- A slot: entry, kind (1 prefill, 2 decode), count. -/
structure PlanSlot where
  e : Nat
  kind : Nat
  count : Nat
  deriving DecidableEq, Repr

/-- Each DECODE entry that needs a page takes one, or is paused. -/
def StepX.decodePages (x : StepX) (q n : Nat) : StepX :=
  (x.s.inOrder q fun _ v => v.state == esDECODE).foldl (fun (y : StepX) e =>
    let v := y.s.ent e
    if v.length = v.pages * 256 then
      match y.s.takePages q e 1 with
      | some t => { y with s := t, newp := e :: y.newp }
      | none =>
        let y := y.noPage q
        { y with s := (y.s.modEnt e fun w => w.setFlag flNOPAGE true).enter q e esPAUSED n, odd := true }
    else y) x

/-- Slots of PREFILL entries from a budget. -/
def prefillSlots (s : State) (chunk : Nat) : List Nat → Nat → Nat → List PlanSlot × Nat
  | [], b, _ => ([], b)
  | e :: r, b, room =>
    let v := s.ent e
    let k := min (min (v.prompt - v.length) chunk) b
    if room = 0 ∨ k = 0 then prefillSlots s chunk r b room
    else let t := prefillSlots s chunk r (b - k) (room - 1); (⟨e, 1, k⟩ :: t.1, t.2)

/-- QUEUED entries enter PREFILL while budget and slots remain. -/
def StepX.admitPrefill (x : StepX) (q n chunk : Nat) : List Nat → Nat → Nat → StepX × List PlanSlot
  | [], _, _ => (x, [])
  | e :: r, b, room =>
    if b = 0 ∨ room = 0 then (x, [])
    else
      let v := x.s.ent e
      match x.s.takePages q e ((v.prompt + 255) / 256) with
      | none => (x, [])
      | some t =>
        let k := min (min v.prompt chunk) b
        let y : StepX := { x with s := t.enter q e esPREFILL n, newp := e :: x.newp }
        let z := y.admitPrefill q n chunk r (b - k) (room - 1)
        (z.1, ⟨e, 1, k⟩ :: z.2)

/-- The slots of beat `n` under variant `var`. -/
def StepX.slots (x : StepX) (q n var : Nat) : StepX × List PlanSlot :=
  let i := q * 16 + var
  let room := x.s.fld F.SERVE_PLANCFG_SLOTMAX q
  let chunk := x.s.fld F.SERVE_VAR_CHUNKMAX i
  let x := x.decodePages q n
  let dec := ((x.s.inOrder q fun _ v => v.state == esDECODE).take (min room (x.s.fld F.SERVE_VAR_DSLOTS i))).map fun e => PlanSlot.mk e 2 1
  let pre := prefillSlots x.s chunk (x.s.inOrder q fun _ v => v.state == esPREFILL) (x.s.fld F.SERVE_VAR_PBUDGET i) (room - dec.length)
  let adm := x.admitPrefill q n chunk (x.s.inOrder q fun _ v => v.state == esQUEUED) pre.2 (room - dec.length - pre.1.length)
  (adm.1, dec ++ (sortBy x.s.servKey ((pre.1 ++ adm.2).map (·.e))).flatMap fun e => (pre.1 ++ adm.2).filter fun p => p.e == e)

/-! ## 5. Plan (R410) -/

/-- Table 12.7. -/
def StepX.slotRec (x : StepX) (p : PlanSlot) : List Byte :=
  let v := x.s.ent p.e
  let b (c : Bool) (i : Nat) : Nat := if c then 2 ^ i else 0
  let pre := p.kind == 1
  let fl := b (pre && v.length == 0) 0 + b (pre && v.length + p.count == v.prompt) 1 + b (x.newp.contains p.e) 2 + b (v.flag 2) 3 + b (v.flag 3) 4
  toBytes 2 p.e ++ toBytes 1 p.kind ++ toBytes 1 fl ++ toBytes 4 v.reqid ++ toBytes 4 v.length ++ toBytes 4 p.count ++ toBytes 8 v.key
    ++ toBytes 4 v.pages ++ toBytes 4 0

/-- Table 12.6. -/
def StepX.planHead (x : StepX) (q n var pdp : Nat) (l : List PlanSlot) : List Byte :=
  let dd := (x.s.inOrder q fun _ v => v.state == esDECODE).length
  let ndec := (l.filter fun p => p.kind == 2).length
  toBytes 8 n ++ toBytes 1 var ++ toBytes 1 (if (x.s.snapAt q n).isSome then 1 else 0) ++ toBytes 2 ndec ++ toBytes 2 (l.length - ndec)
    ++ toBytes 2 0 ++ toBytes 4 pdp ++ toBytes 4 dd ++ toBytes 4 (x.s.freeCount q) ++ List.replicate 36 0

/-- R410: the plan lies in the core store of a core of the partition, aligned to 16 bytes. -/
def State.planOk (s : State) (q : Nat) : Bool :=
  let a := s.fld F.SERVE_PLANCFG_PLAN q
  s.within q a && daSpace a == 1 && a % 16 == 0 && decide (daOff a + 64 + 32 * s.fld F.SERVE_PLANCFG_SLOTMAX q ≤ 2 ^ 22)

/-! ## The step (R409, R423) -/

/-- The step of beat `n` of partition `q`. -/
def State.beatStep (s : State) (q n : Nat) : State :=
  let x : StepX := ⟨s, false, (s.srv q).late, []⟩
  let x := (x.commit q n).applyAll q n
  let pdp := x.s.pdp q
  let var := x.s.pickVariant q n
  let r := x.slots q n var
  let x := r.1
  let s := if x.s.planOk q then
      (x.s.writeMem .other (x.s.fld F.SERVE_PLANCFG_PLAN q) (x.planHead q n var pdp r.2 ++ r.2.flatMap x.slotRec)).1
    else x.s.jobFault q caSERVE stBAD_ARG 0 0
  let s := (s.modSrv q fun v => { v with slots := r.2.map fun p => (p.e, p.count), next := n + 1, late := false }).modPart q fun p => { p with variant := var }
  let s := (s.setFld F.SERVE_PSTAT_FREEPAGES q (s.freeCount q)).setFld F.SERVE_PSTAT_INUSE q (s.inOrder q fun _ _ => true).length
  let s := s.setFld F.SERVE_SEQ_BEAT q (n % 2 ^ 32)
  let s := if x.fin && s.ingress q then s.raise (960 + 6 * q + 4) else s
  if x.odd then s.raise (960 + 6 * q + 5) else s

/-- The step of the awaited beat may run: its notices are present and its moves are over. -/
def State.stepReady (s : State) (q : Nat) : Bool :=
  let p := s.part q
  p.waiting && s.serveOn q && (s.srv q).next == p.beat && s.noticed q p.beat
    && (s.srv q).moves.all fun m => decide (p.beat < m.due) || m.over

/-- BEAT_START_STEP (R409). -/
def execBeatStartStep (q : Nat) (s : State) : Res :=
  if s.stepReady q then done s (s.beatStep q (s.part q).beat) else done s s

end Sys2Proof.Machine
end

