-- ==== Sys2Proof/Machine/Decide.lean ====
section
/-! DEFINITION. Decisions of the ingress part, submissions, the admission log and page moves in progress (12_serving.md R400 to R408,
R418 to R422, R426; 13 R444, R453). -/

namespace Sys2Proof.Machine

/-! ## Decisions (Table 12.3) -/

/-- A decision: OP, entry, and the submission of an ADMIT. -/
structure Decision where
  op : Nat
  e : Nat
  sub : Option Sub
  deriving DecidableEq, Repr

/-- Decisions as they are taken: the list and what is pending with it. -/
structure DecX where
  l : List Decision
  pend : List Nat
  max : Nat

/-- A decision is taken while MAXDEC allows. -/
def DecX.take (x : DecX) (d : Decision) : DecX :=
  if x.l.length < x.max then { x with l := x.l ++ [d], pend := d.e :: x.pend } else x

/-- R418: slack(e) at GTC `t`. -/
def slackOf (v : Entry) (t tokns : Nat) : Int :=
  (Int.ofNat v.deadline - Int.ofNat t) - Int.ofNat ((v.maxlen - v.length) * tokns)

/-- R418: an urgent entry under a threshold. -/
def State.tight (s : State) (q : Nat) (pend : List Nat) (th : Nat) : Bool :=
  s.table.any fun x =>
    s.ownsEnt q x.1 && decide (esQUEUED ≤ x.2.state ∧ x.2.state ≤ esDECODE) && !pend.contains x.1 && decide (x.2.prio ≤ 1)
      && decide (slackOf x.2 s.gtc (s.fld F.SERVE_DLCFG2_TOKNS q) < Int.ofNat th)

/-- Take one OP for the first `k` entries of a list. -/
def DecX.takeAll (x : DecX) (op k : Nat) (l : List Nat) : DecX := (l.take k).foldl (fun y e => y.take ⟨op, e, none⟩) x

/-- FINISH and ABORT (R403, R426). -/
def State.decideEnds (s : State) (q : Nat) (x : DecX) : DecX :=
  let sv := s.srv q
  let has (e op : Nat) : Bool := sv.pend.any fun p => p.1 == e && p.2.2 == op
  let fin := s.inOrder q fun e v => sv.ends.contains e && !has e 7 && decide (esPREFILL ≤ v.state ∧ v.state ≤ esPAUSED)
  let x := x.takeAll 7 fin.length fin
  let ab := s.inOrder q fun e v => !has e 6 && (sv.aborts.contains v.reqid ||
    (v.flag 1 && decide (v.deadline < s.gtc) && decide (esQUEUED ≤ v.state ∧ v.state ≤ esPARKED)))
  x.takeAll 6 ab.length ab

/-- R418: PAUSE, RESUME, PARK and UNPARK. -/
def State.decideDeadlines (s : State) (q : Nat) (x : DecX) : DecX :=
  let b := (s.part q).beat
  let pth := s.fld F.SERVE_DLCFG_PAUSETH q
  let urgent := pth != 0 && s.tight q x.pend pth
  let calm := !s.tight q x.pend (s.fld F.SERVE_DLCFG_RESUMETH q)
  let x :=
    if urgent then
      x.takeAll 2 (s.fld F.SERVE_DLCFG2_PAUSEN q) (s.inOrder q fun e v =>
        v.state == esDECODE && decide (s.fld F.SERVE_DLCFG2_PAUSEPRIO q ≤ v.prio) && !v.flag 0 && !x.pend.contains e).reverse
    else if calm then
      x.takeAll 3 (s.fld F.SERVE_DLCFG2_RESUMEN q) (s.inOrder q fun e v => v.state == esPAUSED && !x.pend.contains e)
    else x
  let free := s.fld F.SERVE_PSTAT_FREEPAGES q
  if free < s.fld F.SERVE_PARKTH_PARKLOW q then
    x.takeAll 4 (s.fld F.SERVE_DLCFG2_PARKN q) (s.inOrder q fun e v =>
      v.state == esPAUSED && !x.pend.contains e && decide (v.stamp + s.fld F.SERVE_DLCFG2_PARKAFTER q ≤ b)).reverse
  else if calm ∧ s.fld F.SERVE_PARKTH_PARKHIGH q ≤ free then
    x.takeAll 5 (s.fld F.SERVE_DLCFG2_PARKN q) (s.inOrder q fun e v =>
      v.state == esPARKED && !v.flag flMOVING && !x.pend.contains e)
  else x

/-- R404: submissions in order of PRIO, then of arrival. -/
def byPrio (l : List Sub) : List Sub := (List.range 8).flatMap fun p => l.filter fun v => v.prio == p

/-- R404: admission. -/
def State.decideAdmits (s : State) (q : Nat) : List Sub → DecX → DecX
  | [], x => x
  | v :: r, x =>
    match ((List.range (s.fld F.SERVE_PCFG_ECOUNT q)).map (s.efirst q + ·)).find? fun e =>
        (s.ent e).state == esFREE && !x.pend.contains e with
    | some e => s.decideAdmits q r (x.take ⟨1, e, some v⟩)
    | none => x

/-- The decisions of the present beat. -/
def State.decisions (s : State) (q : Nat) : List Decision :=
  let x : DecX := ⟨[], (s.srv q).pend.map (·.1), s.fld F.SERVE_PCFG_MAXDEC q⟩
  (s.decideAdmits q (byPrio (s.srv q).arrivals) (s.decideDeadlines q (s.decideEnds q x))).l

/-! ## Sending decisions (R405, R406, R420) -/

/-- A body of a flit is kept in the ADMIT store (R406). -/
def State.storeFlit (s : State) (q : Nat) (b : List Byte) : State :=
  if (s.part q).begun (admBEAT b) then s.jobFault q caLATE stLATE 0 0
  else if 1024 ≤ (s.srv q).store.length then s.jobFault q caSERVE stNO_RESOURCE 0 0
  else s.modSrv q fun v => { v with store := v.store ++ [b] }

/-- The ingress part sends a flit down its tree and keeps it for itself. -/
def State.sendAdmit (s : State) (q : Nat) (b : List Byte) : State :=
  let r := s.ownFlit q 3 b
  (r.1.toChildren q s.node r.2).storeFlit q b

/-- R444: an input descriptor of an entry. -/
def State.inputDesc (s : State) (q e : Nat) (v : Sub) : State :=
  s.rootWrite q 0 ((s.fld F.HQ_INDESC_INBASE q + (e - s.efirst q) * 16) % 2 ^ 48)
    (toBytes 6 (s.stageAddr q v.slot) ++ toBytes 2 0 ++ toBytes 4 v.input.length ++ toBytes 4 0)

/-- A submission leaves the arrival queue for an entry. -/
def State.takeSub (s : State) (q e : Nat) (v : Sub) : State :=
  (s.modSrv q fun w => { w with arrivals := w.arrivals.erase v, taken := w.taken ++ [(e, v)] }).inputDesc q e v

/-- Table 12.4: the body of a decision's flit. -/
def State.admitBody (s : State) (q : Nat) (beat i : Nat) (last : Bool) (d : Decision) : List Byte :=
  let h := toBytes 8 beat ++ toBytes 1 i ++ toBytes 1 (if last then 1 else 0) ++ toBytes 1 d.op
  match d.sub with
  | some v =>
    h ++ toBytes 1 v.prio ++ toBytes 2 d.e ++ toBytes 1 v.flags ++ toBytes 1 v.ring ++ toBytes 4 v.reqid ++ toBytes 4 ((s.srv q).lastSeq + 1)
      ++ toBytes 4 v.prompt ++ toBytes 4 v.maxlen ++ toBytes 8 v.deadline ++ toBytes 8 v.key
  | none =>
    h ++ toBytes 1 0 ++ toBytes 2 d.e ++ toBytes 2 0 ++ toBytes 4 (if d.op = 0 then 0 else (s.ent d.e).reqid) ++ List.replicate 28 0

/-- R420: one record of the admission log. -/
def State.logPush (s : State) (q : Nat) (body : List Byte) : State :=
  let r := s.fld F.SERVE_PCFG_LOGRING q
  if !s.ringOn r ∨ s.ringUse r ≠ 3 ∨ !s.ringIsOut r then s
  else if s.ringFull r then s.outputFull q r
  else s.ringPut r (toBytes 8 (s.part q).beat ++ toBytes 8 s.gtc ++ body)

/-- One decision of beat `b` is taken and sent. -/
def State.sendDecision (s : State) (q i : Nat) (last : Bool) (d : Decision) : State :=
  let b := (s.part q).beat + s.fld F.SERVE_PCFG_ALAG q
  let body := s.admitBody q b i last d
  let s := if d.op = 0 ∨ d.op = 7 then s else s.choice q F.TIME_CHOICEBY_SERVE
  let s := match d.sub with
    | some v => (s.takeSub q d.e v).modSrv q fun w => { w with lastSeq := w.lastSeq + 1 }
    | none => s
  let s := if d.op = 0 then s else s.modSrv q fun w => { w with
    pend := w.pend ++ [(d.e, b, d.op)], ends := w.ends.filter fun e => !(d.op == 7 && e == d.e),
    aborts := w.aborts.filter fun r => !(d.op == 6 && r == (s.ent d.e).reqid) }
  (s.sendAdmit q body).logPush q body

/-- The decisions of a beat are sent in order, INDEX from 0, the last with LAST set. -/
def State.sendAll (s : State) (q i : Nat) : List Decision → State
  | [] => s
  | [d] => s.sendDecision q i true d
  | d :: r => (s.sendDecision q i false d).sendAll q (i + 1) r

/-- The present beat's decisions: at least one flit. -/
def State.takeDecisions (s : State) (q : Nat) : State :=
  let l := s.decisions q
  s.sendAll q 0 (if l.isEmpty then [⟨0, 0, none⟩] else l)

/-! ## The log as the source (R421, R422) -/

/-- The last beat that the partition has begun. -/
def Part.lastBegun (p : Part) : Option Nat :=
  if p.job != .run then none else if p.waiting then (if p.beat = 0 then none else some (p.beat - 1)) else some p.beat

/-- The head record of the log can be sent: its beat is due, and an ADMIT has its submission. -/
def State.logReady (s : State) (q : Nat) : Option (List Byte × Option Sub) :=
  match s.ringHead (s.fld F.SERVE_PCFG_LOGRING q), (s.part q).lastBegun with
  | some h, some b =>
    let body := fitBytes 48 (h.1.drop 16)
    if b + s.fld F.SERVE_PCFG_ALAG q < admBEAT body then none
    else if admOP body = 1 then
      match (s.srv q).arrivals.find? fun v => v.reqid == admREQID body with
      | some v => some (body, some v)
      | none => none
    else some (body, none)
  | _, _ => none

/-- Records of the log that are due are sent; `now` is false where a record for the present beat's notice comes after its cycle. -/
def State.pumpLog (s : State) (q : Nat) (now : Bool) : Nat → State
  | 0 => s
  | fuel + 1 =>
    match s.logReady q with
    | none => s
    | some (body, sub) =>
      let b := ((s.part q).lastBegun.getD 0) + s.fld F.SERVE_PCFG_ALAG q
      let s := s.ringTake (s.fld F.SERVE_PCFG_LOGRING q)
      let s := match sub with | some v => s.takeSub q (admENTRY body) v | none => s
      let s := if now ∧ (admBEAT body = b ∨ (s.part q).lastBegun = some 0) then s else s.modSrv q fun v => { v with late := true }
      (s.sendAdmit q body).pumpLog q now fuel

/-- The ingress part of a job under LOGMODE 1. -/
def State.logIn (s : State) (q : Nat) : Bool := s.serveOn q && s.ingress q && s.fld F.SERVE_PCFG_LOGMODE q == 1 && (s.part q).job == .run

/-- Records that have become ready on arrival of a slot or of a submission. -/
def State.pumpLate (s : State) : State :=
  (List.range 8).foldl (fun t q => if t.logIn q then t.pumpLog q false ((t.hring (t.fld F.SERVE_PCFG_LOGRING q)).slots.length) else t) s

/-- The decisions that the ingress part takes, or sends from the log, in the first cycle of a beat. -/
def State.beatDecide (s : State) (q : Nat) : State :=
  if s.logIn q then s.pumpLog q true ((s.hring (s.fld F.SERVE_PCFG_LOGRING q)).slots.length)
  else if s.serveOn q && s.ingress q then s.takeDecisions q
  else s

/-! ## Rows -/

/-- An ADMIT flit for a partition (R401, R406). -/
def State.takeAdmit (s : State) (q : Nat) (f : CtrlFlit) : State :=
  if f.node ≠ s.fld F.SERVE_INGNODE_NODE q then (s.fabDisc F.ROUTE_ERR0_CTRLDISC).jobFault q caSERVE stBAD_ARG 0 0
  else if (s.part q).jobLive then s.storeFlit q (fitBytes 48 f.body)
  else s

/-- ADMIT_RECEIVE (R406). -/
def execAdmitReceive (n : Nat) (f : CtrlFlit) (s : State) : Res := done s (s.ctrlJob n f fun t q => t.takeAdmit q f)

/-- Table 13.4: the submission of a slot with its input bytes. -/
def subOf (slot input : List Byte) : Sub :=
  { reqid := byF slot 0 4, prio := byF slot 4 1 % 8, flags := byF slot 5 1, ring := byF slot 6 1, prompt := byF slot 8 4,
    maxlen := byF slot 12 4, deadline := byF slot 16 8, key := byF slot 24 8, input := fitBytes (byF slot 40 4) input, slot := 0 }

/-- A SUBMIT slot is taken from its ring and its staging begins, or it is refused (R444). -/
def State.submit (s : State) (r : Nat) (slot input : List Byte) : State :=
  let q := s.fld F.HQ_RCFG_PART r
  let s := s.ringTake r
  let v := subOf slot input
  if !s.ingress q then s.refuseSub q v stNOT_PERMITTED
  else if byF slot 40 4 = 0 ∨ s.stageSize q < byF slot 40 4 then s.refuseSub q v stBAD_ARG
  else match s.freeStage q with
    | none => s.refuseSub q v stNO_RESOURCE
    | some k => s.modSrv q fun w => { w with staging := w.staging ++ [{ v with slot := k }] }

/-- SUBMIT (R444): on the PCI Express medium the input bytes are those of host memory. -/
def execSubmit (ring : Nat) (input : List Byte) (s : State) : Res :=
  match s.ringHead ring with
  | some h =>
    if s.ringUse ring = 1 then done s (s.submit ring h.1 (if s.ringMedium ring = 0 then input else h.2)) else done s s
  | none => done s s

/-- The oldest submission of the lowest partition that is being staged. -/
def State.stagingHead (s : State) : Option (Nat × Sub) :=
  (List.range 8).findSome? fun q => (s.srv q).staging.head?.map fun v => (q, v)

/-- Its staging ends: the bytes stand in its slot, it is checked, it joins the arrival queue or is refused (R402). -/
def State.staged (s : State) (q : Nat) (v : Sub) : State :=
  let s := s.modSrv q fun w => { w with staging := w.staging.tail }
  let s := s.rootWrite q 2 (s.stageAddr q v.slot) v.input
  let st := s.checkSub q v
  if st = stOK then (s.modSrv q fun w => { w with arrivals := w.arrivals ++ [v] }).pumpLate else s.refuseSub q v st

/-- STAGING_COMPLETE (R402). -/
def execStagingComplete (s : State) : Res :=
  match s.stagingHead with | some p => done s (s.staged p.1 p.2) | none => done s s

/-- R426: a request is aborted: the state and the status of the write. -/
def State.abortReq (s : State) (q reqid : Nat) : State × Nat :=
  if !s.ingress q then (s, stNOT_PERMITTED)
  else match (s.srv q).arrivals.find? fun v => v.reqid == reqid with
    | some v => ((s.modSrv q fun w => { w with arrivals := w.arrivals.erase v }).statusRecord q v.ring v.reqid stABORTED, stOK)
    | none =>
      if s.table.any fun x => s.ownsEnt q x.1 && x.2.state != esFREE && x.2.reqid == reqid then
        (s.modSrv q fun w => { w with aborts := if w.aborts.contains reqid then w.aborts else w.aborts ++ [reqid] }, stOK)
      else (s, stBAD_ARG)

/-- A write of SERVE_ABORT. -/
def State.writeAbort (s : State) (q reqid : Nat) : State :=
  let r := s.abortReq q (reqid % 2 ^ 32)
  r.1.setFld F.SERVE_ABORT_STATUS q r.2

/-- SERVE_ABORT_WRITE (R426). -/
def execServeAbortWrite (by_ : Requester) (q : Nat) (reqid : Nat) (s : State) : Res :=
  let _ := by_
  if q < 8 then done s (s.writeAbort q reqid) else done s s

/-! ## Moves in progress (R419, R453) -/

/-- Change the move of an entry. -/
def State.modMove (s : State) (q e : Nat) (f : Move → Move) : State :=
  s.modSrv q fun v => { v with moves := v.moves.map fun m => if m.e = e then f m else m }

def State.parkPeer (s : State) (q : Nat) : Bool := s.fld F.SERVE_PARK_PEER q == 1
def State.parkBase (s : State) (q : Nat) : Nat := s.fld F.SERVE_PARKBASE_BASE q

/-- The request of one part of a move to a peer part: WR or RD of JOBID 0; its reply lands nowhere by itself. -/
def State.moveReq (s : State) (q : Nat) (out : Bool) (b : MoveBit) (data : List Byte) : ReqSpec :=
  { requester := 64 + q, q := none, node := s.fld F.SERVE_PARK_NODE q, op := if out then 2 else 1, addr := (s.parkBase q + b.off) % 2 ^ 48,
    bytes := b.len, payload := data, timeout := 0, land := 2 ^ 48 - 1, beat := none, jobid := 0 }

/-- The next part of a move is made, where its medium takes it now. -/
def State.moveWith (s : State) (q : Nat) (m : Move) (b : MoveBit) : State :=
  let fly (t : State) : State := t.modMove q m.e fun w => { w with left := w.left.tail, flying := w.flying ++ [b] }
  let past (t : State) : State := t.modMove q m.e fun w => { w with left := w.left.tail }
  if s.parkPeer q then
    if s.freeTag.isNone ∨ !s.injecting then s
    else
      let r := if m.out then s.rootRead q b.addr b.len else (s, [])
      (fly r.1).request (s.moveReq q m.out b r.2)
  else if s.fld F.HQ_NETCFG_PARKNET 0 = 1 then
    if (s.ethStream 64).down then s.modMove q m.e fun w => { w with status := stLINK_LOST }
    else
      let off := toBytes 8 (s.parkBase q + b.off)
      if m.out then let r := s.rootRead q b.addr b.len; (fly r.1).ethSend 64 3 0 (off ++ r.2)
      else (fly s).ethSend 64 4 0 (off ++ toBytes 4 b.len)
  else if !s.linkUp 0 then s
  else if m.out then let r := s.rootRead q b.addr b.len; (past r.1).hostWrite (s.parkBase q + b.off) r.2
  else let r := s.hostRead (s.parkBase q + b.off) b.len; (past r.1).rootWrite q 1 b.addr r.2

/-- The next part of a move; one that is read from a live tier-column waits for the slots of RT0 (R416). -/
def State.moveNext (s : State) (q : Nat) (m : Move) (b : MoveBit) : State :=
  if m.out then match s.rootSlots b.addr b.len with | some t => t.moveWith q m b | none => s
  else s.moveWith q m b

/-- The bytes of one part of a move in arrive, or a part of a move out is known to have landed. -/
def State.moveGot (s : State) (q : Nat) (m : Move) (b : MoveBit) (status : Nat) (data : List Byte) : State :=
  let s := s.modMove q m.e fun w => { w with flying := w.flying.erase b, status := if w.status = stOK then status else w.status }
  if m.out ∨ status ≠ stOK then s else s.rootWrite q 1 b.addr (fitBytes b.len data)

/-- The part of a move of partition `q` in flight at an offset of the park area. -/
def State.flyingAt (s : State) (q a : Nat) (out : Bool) : Option (Move × MoveBit) :=
  (s.srv q).moves.findSome? fun m =>
    if m.out == out then (m.flying.find? fun b => (s.parkBase q + b.off) % 2 ^ 48 == a % 2 ^ 48).map fun b => (m, b) else none

/-- Completions of the serving sequencer's requests are taken; those of abandoned moves are discarded. -/
def State.moveReplies (s : State) : State :=
  let mine (d : ReqDone) : Bool := decide (64 ≤ d.req.requester ∧ d.req.requester < 72) && d.req.q.isNone
  let l := s.fab.dones.filter mine
  if l.isEmpty then s
  else
    let s := { s with fab := { s.fab with dones := s.fab.dones.filter fun d => !mine d } }
    l.foldl (fun t d =>
      let q := d.req.requester - 64
      match t.flyingAt q d.req.addr (d.req.op == 2) with
      | some (m, b) => t.moveGot q m b d.status d.data
      | none => t) s

/-- PARKW messages that have been acknowledged have landed. -/
def State.parkAcks (s : State) (q : Nat) : State :=
  (s.srv q).moves.foldl (fun t m =>
    if m.out then m.flying.foldl (fun u b =>
      if (u.ethStream 64).unacked.any fun e => e.typ == 3 && byF e.body 0 8 == (u.parkBase q + b.off) % 2 ^ 64 then u
      else u.moveGot q m b stOK []) t
    else t) s

/-- Moves go on for one ns. -/
def State.moveTick (s : State) : State :=
  let s := s.moveReplies
  s.serve.foldl (fun t x =>
    let q := x.1
    let t := if !t.parkPeer q && t.fld F.HQ_NETCFG_PARKNET 0 == 1 then t.parkAcks q else t
    match (t.srv q).moves.find? fun m => !m.left.isEmpty && m.status == stOK with
    | some m => match m.left with | b :: _ => t.moveNext q m b | [] => t
    | none => t) s

end Sys2Proof.Machine
end

