-- ==== Sys2Proof/Machine/Power.lean ====
section
/-! DEFINITION. Frequency steps, the power cap and requests for power states (14_time_clocks_power.md R473 to R488). -/

namespace Sys2Proof.Machine

def State.modPow (s : State) (f : PowSt → PowSt) : State := { s with pow := f s.pow }

/-! ## The budget (R480, R481) -/

/-- Table 14.4: the power factor of a step, in thousandths. -/
def powerFactor (step : Nat) : Nat :=
  match step with | 0 => 185 | 1 => 264 | 2 => 365 | 3 => 476 | 4 => 607 | 5 => 763 | 6 => 901 | _ => 1000

/-- PWR_BASE in W. -/
def State.powerBase (s : State) : Nat :=
  155 + (9 * ((List.range s.id.ports).filter fun n => s.fld F.PORT_CTL_ENABLE n == 1).length + 1) / 2

/-- The dies that hold a cluster of a partition. -/
def State.diesOf (s : State) (q : Nat) : List Nat := (List.range 8).filter fun d => (s.part q).mask / 2 ^ (8 * d) % 256 != 0

/-- The step of a partition, a pending change counted at its new step. -/
def Part.stepAhead (p : Part) : Nat := match p.stepPend with | some c => c.2 | none => p.step

/-- The highest step on any die that holds a cluster of a partition. -/
def State.dieStep (s : State) (q : Nat) : Nat :=
  ((List.range 8).filter fun r => (s.diesOf r).any (s.diesOf q).contains).foldl (fun m r => max m (s.part r).stepAhead) 0

/-- R480: the budget in W. -/
def State.powerBudget (s : State) : Nat :=
  s.powerBase + (((List.range 8).filter fun q => (s.part q).jobLive || (s.part q).job == .armed).map fun q =>
    (s.fld F.PWR_PDECL_W q * powerFactor (s.dieStep q) + 999) / 1000).sum

def State.powerCap (s : State) : Nat := s.fld F.PWR_CAP_CAP 0

/-- A write of PWR_CAP (R481). -/
def State.writeCap (s : State) (v : Nat) : State :=
  let c := v % 2 ^ 11
  if c < 250 ∨ 1200 < c then s
  else if c < s.powerBudget then s.setFld F.PWR_BUDGET_STATUS 0 stNOT_PERMITTED
  else (s.setFld F.PWR_CAP_CAP 0 c).setFld F.PWR_BUDGET_STATUS 0 stOK

/-- PWR_CAP_WRITE (R481). -/
def execPwrCapWrite (by_ : Requester) (value : Nat) (s : State) : Res :=
  let _ := by_
  done s (s.writeCap value)

/-- A write of PWR_PDECL (R481, R490). -/
def State.writePdecl (s : State) (q v : Nat) : State :=
  if (s.part q).jobLive then s.refuseWrite .PWR_PDECL q
  else
    let t := s.setFld F.PWR_PDECL_W q (v % 2 ^ 11)
    if s.powerCap < t.powerBudget ∧ s.powerBudget < t.powerBudget then s.setFld F.PWR_BUDGET_STATUS 0 stNOT_PERMITTED
    else t.setFld F.PWR_BUDGET_STATUS 0 stOK

/-- PWR_PDECL_WRITE (R481). -/
def execPwrPdeclWrite (by_ : Requester) (q value : Nat) (s : State) : Res :=
  let _ := by_
  if q < 8 then done s (s.writePdecl q value) else done s s

/-- The power guard trips (R482). -/
def State.powerTrip (s : State) : State :=
  ((s.hwSet F.PWR_BUDGET_TRIP 0 1).faultAll caPOWER stNOT_PERMITTED).raise 354

/-- A measurement of package power: the average of the last ten is kept. -/
def State.measure (s : State) (w : Nat) : State :=
  let l := (w :: s.pow.samples).take 10
  let s := (s.modPow fun p => { p with samples := l }).setFld F.PWR_BUDGET_NOW 0 (min 2047 (l.sum / l.length))
  if s.powerCap * l.length < l.sum then s.powerTrip else s

/-- POWER_MEASURE (R482). -/
def execPowerMeasure (watts : Nat) (s : State) : Res := done s (s.measure watts)

/-! ## Step changes (R476 to R478) -/

/-- R28: two clusters lie in one region. -/
def sameRegion (a b : Nat) : Bool := a / 2 == b / 2

/-- R28: partitions that share a region with `q`. -/
def State.sharers (s : State) (q : Nat) : List Nat :=
  (List.range 8).filter fun r => r != q && (s.partClusters r).any fun a => (s.partClusters q).any fun b => sameRegion a b

/-- Table 18.6: the activity of a step change. -/
def State.stepAct (s : State) (q : Nat) : Act := { Act.mk0 actStep (tokRoot ||| tokDies (s.part q).mask) with arg := q }

/-- R476: the checks of a step change but that of LATE. -/
def State.checkStep (s : State) (q step : Nat) : Nat :=
  let p := s.part q
  if p.stepPend.isSome ∨ !s.canAct (s.stepAct q) then stBUSY
  else if (s.sharers q).any fun r => (s.part r).step != step then stNOT_PERMITTED
  else if s.powerCap < (s.setPart q { p with stepPend := some (0, step) }).powerBudget then stNOT_PERMITTED
  else stOK

/-- R476: a change for beat `n` comes too late. -/
def State.stepLate (s : State) (q n : Nat) : Bool :=
  (s.part q).job == .run && (decide (s.grid q n < s.gtc + s.ecc q s.node * s.fld F.ROUTE_GOPCFG_HOPNS q) || (s.part q).begun n)

/-- A step change is complete (R478). -/
def State.stepDone (s : State) (q : Nat) : State :=
  let p := s.part q
  match p.stepPend with
  | none => s.setPart q { p with stopUntil := none }
  | some c =>
    let s := s.setPart q { p with step := c.2, stepPend := none, stopUntil := none }
    let s := match (s.actsOf actStep).find? fun a => a.arg == q with | some a => s.endAct a stOK | none => s
    s.raise 353

/-- A change that has passed its checks: at once where no job is launched, else pending for beat `n`. -/
def State.takeStep (s : State) (q n step : Nat) : State :=
  let s := (s.startAct (s.stepAct q)).modPart q fun p => { p with stepPend := some (n, step) }
  let s := (s.setFld F.PWR_STEP_BEAT q (n % 2 ^ 32)).setFld F.PWR_STEP_NEXT q step
  if (s.part q).jobLive then s else s.stepDone q

/-- A STEP flit of this part as origin. -/
def State.sendStep (s : State) (q n step : Nat) : State :=
  let r := s.ownFlit q 9 (toBytes 8 n ++ toBytes 1 step)
  r.1.toChildren q s.node r.2

/-- A request for a step change: its status, and the state. -/
def State.askStep (s : State) (q n step : Nat) (spread : Bool) : State × Nat :=
  let st := s.checkStep q step
  let st := if st = stOK ∧ s.stepLate q n then stLATE else st
  if st ≠ stOK then (s, st)
  else
    let t := s.takeStep q n step
    (if spread && (s.part q).jobLive then t.sendStep q n step else t, stOK)

/-- A write of PWR_STEPCMD. -/
def State.writeStepcmd (s : State) (q v : Nat) : State :=
  let r := s.askStep q (bits v 47 0) (bits v 50 48) (v.testBit 63)
  r.1.setFld F.PWR_STEP_STATUS q r.2

/-- PWR_STEPCMD (R476). -/
def execPwrStepcmd (by_ : Requester) (q value : Nat) (s : State) : Res :=
  let _ := by_
  if q < 8 then done s (s.writeStepcmd q value) else done s s

/-- A STEP flit for a partition (R477). -/
def State.stepFlit (s : State) (q : Nat) (f : CtrlFlit) : State :=
  let n := byF f.body 0 8
  let step := byF f.body 8 1 % 8
  if (s.part q).begun n then s.jobFault q caLATE stLATE 0 0
  else
    let st := s.checkStep q step
    if st = stOK then s.takeStep q n step else s.jobFault q caSTEP st 0 0

/-- STEP_RECEIVE (R477). -/
def execStepReceive (n : Nat) (f : CtrlFlit) (s : State) : Res := done s (s.ctrlJob n f fun t q => t.stepFlit q f)

/-- R478: the clocks of the partition may stop for its pending change. -/
def State.stepRuns (s : State) (q : Nat) : Bool :=
  let p := s.part q
  p.waiting && !p.frozen && p.stopUntil.isNone && (match p.stepPend with | some c => c.1 == p.beat | none => false)

/-- STEP_CHANGE_RUN (R478): the stop begins at a cc edge and lasts 5,000 ns. -/
def execStepChangeRun (q : Nat) (s : State) : Res :=
  if s.stepRuns q ∧ s.atEdge q then done s (s.modPart q fun p => { p with stopUntil := some (s.now + 5000 * tu) }) else done s s

/-! ## Loss of lock (R475) -/

/-- The clusters of a region (die * 4 + region). -/
def regionClusters (r : Nat) : List Nat := [r / 4 * 8 + r % 4 * 2, r / 4 * 8 + r % 4 * 2 + 1]

/-- A region PLL loses lock. -/
def State.pllLost (s : State) (r : Nat) : State :=
  let s := (s.hwSet F.PWR_PLL_LOST 0 (2 ^ r)).modPow fun p =>
    { p with unlocked := if p.unlocked.contains r then p.unlocked else p.unlocked ++ [r] }
  let s := (List.range 8).foldl (fun t q =>
    if (regionClusters r).any (t.inPart q) then t.jobFault q caPLL stFAULTED 0 0 else t) s
  s.raise 356

/-- PLL_LOCK_LOSS (R475). -/
def execPllLockLoss (region : Nat) (s : State) : Res := if region < 32 then done s (s.pllLost region) else done s s

/-- PLL_RELOCK (R475): with the reference present. -/
def execPllRelock (region : Nat) (s : State) : Res :=
  if s.tm.refLost then done s s else done s (s.modPow fun p => { p with unlocked := p.unlocked.filter fun r => r != region })

/-! ## Power states (R483 to R488) -/

/-- The present power state. -/
def State.power (s : State) : Nat := s.fld F.PWR_STATE_CUR 0

/-- A transition to a state begins: it holds every token (Table 18.6). -/
def State.beginTrans (s : State) (t : Nat) : State :=
  ((s.setFld F.PWR_STATE_BUSY 0 1).modPow fun p => { p with trans := some t }).startAct { Act.mk0 actState tokAll with arg := t }

/-- R484: the status of a request for REST, DEEP or DORMANT. -/
def State.checkState (s : State) (t : Nat) : Nat :=
  if s.pow.trans.isSome ∨ !s.acts.isEmpty then stBUSY
  else if s.anyBusy ∨ t < s.power then stNOT_PERMITTED
  else stOK

/-- A request for REST, DEEP or DORMANT. -/
def State.askState (s : State) (t : Nat) : State × Nat :=
  let st := s.checkState t
  (if st = stOK then s.beginTrans t else s, st)

/-- R487: a wake source is selected. -/
def State.wakeOn (s : State) (code : Nat) : Bool := (s.fld F.PWR_WAKESEL_SOURCES 0).testBit code

/-- A wake begins: its source is recorded. -/
def State.beginWake (s : State) (code : Nat) : State :=
  ((s.beginTrans 0).setFld F.PWR_STATE_WAKESRC 0 code).modPow fun p => { p with wakeNext := none }

/-- R487: of the sources that occur in the event tick of the first, the lowest code counts; of flits among them, FLOOD. -/
def PowSt.wakeDuring (p : PowSt) (code tick : Nat) (flood : Bool) : PowSt :=
  match p.wakeNext with
  | none => { p with wakeNext := some code, wakeTick := tick, flood := flood }
  | some c => if tick = p.wakeTick then { p with wakeNext := some (min code c), flood := p.flood || flood } else p

/-- A wake source occurs (Table 14.6); `flood`: it is a WAKE flit with FLOOD set. One that occurs during an entry is kept for its end. -/
def State.wakeBy (s : State) (code : Nat) (flood : Bool) : State :=
  let tick := s.gtc / 64
  if !s.wakeOn code then s
  else match s.pow.trans with
    | some 0 =>
      if tick ≠ s.pow.wakeTick then s
      else (s.setFld F.PWR_STATE_WAKESRC 0 (min code (s.fld F.PWR_STATE_WAKESRC 0))).modPow fun p => { p with flood := p.flood || flood }
    | some _ => s.modPow fun p => p.wakeDuring code tick flood
    | none => if s.power = 0 then s else (s.beginWake code).modPow fun p => { p with flood := flood, wakeTick := tick }

/-- A write of PWR_STATECMD: a write of RUN is a wake. -/
def State.writeState (s : State) (t : Nat) : State × Nat :=
  if t = 0 then (s.wakeBy 1 false, stOK) else s.askState t

/-- The write with its status. -/
def State.stateCmd (s : State) (t : Nat) : State :=
  if s.power = 3 then s else let r := s.writeState t; r.1.setFld F.PWR_STATE_STATUS 0 r.2

/-- STATECMD_RUN (R484). -/
def execStatecmdRun (by_ : Requester) (s : State) : Res := let _ := by_; done s (s.stateCmd 0)
/-- STATECMD_REST (R484). -/
def execStatecmdRest (by_ : Requester) (s : State) : Res := let _ := by_; done s (s.stateCmd 1)
/-- STATECMD_DEEP (R484). -/
def execStatecmdDeep (by_ : Requester) (s : State) : Res := let _ := by_; done s (s.stateCmd 2)
/-- STATECMD_DORMANT (R484). -/
def execStatecmdDormant (by_ : Requester) (s : State) : Res := let _ := by_; done s (s.stateCmd 3)

/-- A wake port (R487, R488). -/
def State.wakePort (s : State) (n : Nat) : Bool := decide (n < s.id.ports) && (s.fld F.PWR_WAKESEL_PORTS 0).testBit n

/-- WAKE_PIN (R487). -/
def execWakePin (s : State) : Res := done s (s.wakeBy 0 false)

/-- WAKE_FRAME (R455, R487): a frame with another serial number wakes nothing. -/
def execWakeFrame (serial : Nat) (s : State) : Res :=
  if serial = s.id.serial then done s (s.wakeBy 5 false) else done s s

/-- WAKE_RECEIVE (R488): a part in RUN discards the flit. -/
def execWakeReceive (n : Nat) (f : CtrlFlit) (s : State) : Res :=
  let t := s.ctrlTake n f
  if s.wakePort n ∧ s.power ≠ 3 then done s (t.wakeBy 2 (f.flags.testBit 0)) else done s t

/-- DENIAN_WAKE_BEACON (R487): signal on a wake port of a DORMANT part. -/
def execDenianWakeBeacon (n : Nat) (s : State) : Res :=
  if s.power = 3 ∧ s.wakePort n then done s (s.wakeBy 2 false) else done s s

end Sys2Proof.Machine
end

