-- ==== Sys2Proof/Machine/Beat.lean ====
section
/-! DEFINITION. Beats: their start, the end of their work, freezes at their start, lag (09_beat_determinism.md R293 to R316, 07 R236,
R237, 13 R445 to R448, 18 R571). -/

namespace Sys2Proof.Machine

/-! ## Output records (R413, R445, R446) -/

/-- The commit of a beat as it goes on: a full output ring or a bad pop met, the entries with a record (entry, its ledger bytes). -/
structure CommitX where
  s : State
  full : Option Nat
  bad : Bool
  recs : List (Nat × List Byte)

/-- R413: the entry that a record is for. -/
def State.recordEntry (s : State) (q reqid : Nat) : Option (Nat × Entry) :=
  s.table.find? fun x => s.ownsEnt q x.1 && decide (esPREFILL ≤ x.2.state ∧ x.2.state ≤ esPAUSED) && x.2.reqid == reqid
    && !((s.srv q).pend.any fun p => p.1 == x.1 && p.2.2 == 7)

/-- Table 18.4: the ledger's bytes of an entry. -/
def ledgerEntry (v : Entry) (j beat a : Nat) (d : List Byte) : List Byte :=
  toBytes 4 v.reqid ++ toBytes 1 v.state ++ toBytes 3 0 ++ toBytes 8 j ++ toBytes 8 beat ++ toBytes 4 a ++ toBytes 4 0 ++ fitBytes 32 d

/-- One slot of the emission ring is committed or dropped (R446). -/
def CommitX.slot (x : CommitX) (q : Nat) (slot : List Byte) : CommitX :=
  let s := x.s
  match s.recordEntry q (byF slot 0 4) with
  | none => { x with s := s.addFld F.SERVE_CNT1_DROPREC q 1 }
  | some (e, v) =>
    let pay := fitBytes (byF slot 4 2) (slot.drop 16)
    let fin := byF slot 6 1 % 2
    let d := s.auditRecord q v pay
    let j := v.recs + 1
    let a := v.input.length
    let beat := (s.part q).beat
    let full := s.outputRing q v.ring && s.ringFull v.ring
    let s := if s.outputRing q v.ring && !full then
        s.ringPut v.ring (s.outRecord v.ring v.reqid pay.length fin 0 j beat a d.2 pay)
      else s
    let s := s.modEnt e fun w => { w with dig := d.1, recs := j, input := [], ended := w.ended || fin == 1 }
    let s := if fin = 1 then s.modSrv q fun w => { w with ends := if w.ends.contains e then w.ends else w.ends ++ [e] } else s
    let s := s.modPart q fun p => { p with records := p.records + 1 }
    { s := s, full := if full then some (x.full.getD v.ring) else x.full, bad := x.bad,
      recs := (x.recs.filter fun r => r.1 != e) ++ [(e, ledgerEntry v j beat a d.2)] }

/-- The guard bit of a slot is cleared as the slot is popped. -/
def CommitX.pop (x : CommitX) (cl bit : Nat) (guarded : Bool) : CommitX :=
  if !guarded then x
  else if SMap.get false (x.s.cluster cl).guards bit then
    { x with s := x.s.modCluster cl fun k => { k with guards := SMap.put false k.guards bit false } }
  else { x with bad := true }

/-- The emission ring of a partition. -/
def State.emitDesc (s : State) (q : Nat) : Nat := s.fld F.HQ_EMIT_DESC q

/-- The commit of the slots from RPOS to WPOS (R446). -/
def State.commitRecords (s : State) (q : Nat) : CommitX :=
  let a := s.emitDesc q
  let x0 : CommitX := ⟨s, none, false, []⟩
  if !(s.serveOn q && s.ingress q) ∨ s.absent a ∨ daSpace a ≠ 1 then x0
  else
    let d := s.readMem .other a 48
    let r := ringOf d.2.1
    if d.1.ringBad q r then { x0 with s := d.1 }
    else
      let n := min r.nslot ((r.wpos + 2 ^ 32 - r.rpos) % 2 ^ 32)
      let x := (List.range n).foldl (fun (x : CommitX) i =>
        let pos := (r.rpos + i) % 2 ^ 32 % r.nslot
        let v := x.s.rootRead q (r.base + pos * r.slotBytes) r.slotBytes
        ({ x with s := v.1 }.pop (daCore a / 8) (r.gbase + pos) (r.guard == 1)).slot q v.2) { x0 with s := d.1 }
      if n = 0 then x else { x with s := (x.s.writeMem .other (a + 32) (toBytes 4 r.wpos)).1 }

/-! ## The ledger (R571) -/

/-- A write of the ledger is queued, by lines. -/
def State.queueLedger (s : State) (q off : Nat) (bs : List Byte) : State :=
  let a := s.fld F.TIME_LEDGER_BASE q + off
  let tc := daTc a
  s.addXfer tc ⟨ownRoot 0, 0, 0, 0, daOff a / 256, 0, none, .root q 1 true (daOff a % 256) bs⟩

/-- Ledger writes of a partition are still queued. -/
def State.ledgerQueued (s : State) (q : Nat) : Bool :=
  s.cols.any fun e => e.2.pend.any fun x => match x.act with | .root p _ led _ _ => p == q && led | _ => false

/-- The ledger writes of the beat that ends: entries, cores that halted, header. -/
def State.queueBeat (s : State) (q : Nat) (recs : List (Nat × List Byte)) (end_ : Bool) : State :=
  if !s.ledgerOn q then s
  else
    let b := (s.part q).beat
    let s := recs.foldl (fun t r => t.queueLedger q (4352 + 64 * (r.1 - t.efirst q)) r.2) s
    let cs := s.partCores q
    let s := ((List.range cs.length).zip cs).foldl (fun t p =>
      if (t.core p.2).haltBeat = some b then t.queueLedger q (256 + 8 * p.1) (toBytes 8 b) else t) s
    let head (t : State) (st : Nat) : State := t.queueLedger q 0 (t.ledgerHead q st 0 0 255 0 0xFFFF)
    let s := head s 1
    if end_ then head s 2 else s

/-! ## The end of the work of a beat (R308, R311) -/

/-- R221, R435: the beat commits no record and the job faults. -/
def State.ringFault (s : State) (q core : Nat) : State := s.jobFault q caRING stFAULTED core 0

/-- The beat's records are committed; the partition waits for the next beat, or its job has ended. -/
def State.commitBeat (s : State) (q : Nat) (recs : List (Nat × List Byte)) : State :=
  let fin := (s.partCores q).all fun c => (s.core c).halted
  let s := s.modPart q fun p => { p with lastBeat := some p.beat, choiceAt := s.fld F.TIME_CHOICE_COUNT q }
  let s := s.queueBeat q recs fin
  if fin then (s.modPart q fun p => { p with job := .ended, gate := false }).raise (960 + 6 * q + 2)
  else s.modPart q fun p => { p with beat := p.beat + 1, bc := 0, gate := true }

/-- R221: the part's pop of the emission ring found a guard bit clear: the slots are popped and RPOS advances all the same, no record is
committed, and the violation is that of the core whose store holds the descriptor. -/
def State.badPop (s : State) (q : Nat) : State :=
  let a := s.emitDesc q
  let r := ringOf (s.readMem .other a 48).2.1
  let n := min r.nslot ((r.wpos + 2 ^ 32 - r.rpos) % 2 ^ 32)
  let s := s.modCluster (daCore a / 8) fun k =>
    { k with guards := (List.range n).foldl (fun g i => SMap.put false g (r.gbase + (r.rpos + i) % 2 ^ 32 % r.nslot) false) k.guards }
  let s := (s.writeMem .other (a + 32) (toBytes 4 r.wpos)).1
  (s.ringViolation q (daCore a) 4 a).ringFault q (daCore a)

/-- The work of a beat has ended. -/
def State.workEnd (s : State) (q : Nat) : State :=
  let s := s.endCycle q
  let p := s.part q
  if p.job != .run then s
  else match p.ringBad with
    | some c => s.ringFault q c
    | none =>
      if (s.srv q).full then s.ringFault q 0
      else if s.ledgerQueued q then s.jobFault q caLEDGER stNO_RESOURCE 0 0
      else
        let x := s.commitRecords q
        match x.full with
        | some r => (s.ringOvr r).ringFault q 0
        | none => if x.bad then s.badPop q else x.s.commitBeat q x.recs

/-- Every core of the partition has completed its BEATEND, or has halted. -/
def State.workOver (s : State) (q : Nat) : Bool := (s.partCores q).all fun c => (s.core c).halted || (s.core c).beatDone

/-- R236: the queues other than SEQ are empty in a cycle. -/
def Core.idle (k : Core) (lc : Nat) : Bool := [1, 2, 3, 4].all fun qc => k.fill qc lc == 0

/-- The front SEQ word of an opcode may complete as BEATEND and HALT do. -/
def State.endDue (s : State) (c op : Nat) : Option (Nat × QEntry × Nat) :=
  match s.completeOp c 0 [op] with
  | some (q, e, lc) => if (s.core c).idle lc then some (q, e, lc) else none
  | none => none

/-- BEATEND completes: under NEXT 1 the next fetch address comes from the variant table. -/
def State.endBeat (s : State) (q c lc : Nat) (e : QEntry) : State :=
  let s := s.completeRun c 0 lc
  let s := s.modCore c fun k =>
    { k with beatDone := true, beats := k.beats + 1, vtab := if W.BEATEND_NEXT e.lead = 1 then some (W.BEATEND_VTAB e.lead, e.addr) else none }
  if s.workOver q then s.workEnd q else s

/-- BEATEND_COMPLETE (R236). -/
def execBeatendComplete (core : Nat) (s : State) : Res :=
  match s.endDue core 3 with
  | some (q, e, lc) => done s (s.endBeat q core lc e)
  | none => done s s

/-- HALT completes. -/
def State.haltCore (s : State) (q c lc : Nat) : State :=
  let s := s.completeRun c 0 lc
  let b := (s.part q).beat
  let s := s.modCore c fun k => { k with halted := true, haltBeat := some b }
  if s.workOver q then s.workEnd q else s

/-- HALT_COMPLETE (R237). -/
def execHaltComplete (core : Nat) (s : State) : Res :=
  match s.endDue core 4 with
  | some (q, _, lc) => done s (s.haltCore q core lc)
  | none => done s s

/-! ## The start of a beat (R294, R309) -/

/-- The program image digest as a number (TIME_DIGEST0 to TIME_DIGEST3). -/
def State.imageDigest (s : State) (q : Nat) : Nat :=
  ((List.range 4).map fun i => s.fld F.TIME_DIGEST_BYTES (q * 8 + i) * 2 ^ (64 * i)).sum

/-- R203: the tier-columns of a cluster switch to the page of the variant. -/
def State.switchPage (s : State) (q cl v : Nat) : State :=
  let d := cl / 8
  let k := 2 * (cl % 8)
  let old := s.fld F.CAL_CUR_PAGE d
  let g := Config.imagePage (s.imageDigest q) v d % 4
  s.setFld F.CAL_CUR_PAGE d (old - old / 2 ^ k % 4 * 2 ^ k + g * 2 ^ k)

/-- Slots of a cluster's tier-columns count anew. -/
def State.restartSlots (s : State) (cl : Nat) : State := (s.colsOf cl).foldl (fun t tc => t.setCol tc { t.col tc with slot := 0, used := [] }) s

/-- R236: fetch resumes on a core: behind its BEATEND, or at the entry of the variant table once that is read. -/
def State.resumeFetch (s : State) (q v c : Nat) : State :=
  let k := s.core c
  if k.halted ∨ k.stopped then s
  else
    match k.vtab with
    | none => s.modCore c fun k => { k with fetchOn := true, beatDone := false }
    | some (tab, at_) => s.askTable c (s.part q).lc v tab at_

/-- R314: the completions announced for a beat are released. -/
def State.releaseDones (s : State) (q b : Nat) : State :=
  let due (d : ReqDone) : Bool := d.req.q == some q && d.req.beat == some b
  let l := s.fab.dones.filter due
  let s := { s with fab := { s.fab with dones := s.fab.dones.filter fun d => !due d } }
  l.foldl (fun t d => (t.landRead d).countDelivery d.req d.status) s

/-- R314: a request announced for a beat has not completed. -/
def State.announcedLate (s : State) (q b : Nat) : Bool :=
  let due (r : ReqSpec) : Bool := r.q == some q && r.beat == some b
  (s.fab.tags.any fun t => t.2.state == .out && (match t.2.req with | some r => due r | none => false))
    || s.fab.nets.any fun n => n.2.held.any due

/-- Table 13.7. -/
def State.snapRecord (s : State) (q var b : Nat) : List Byte :=
  toBytes 4 (s.fld F.TIME_JOB_CFG_JOBID q) ++ toBytes 1 var ++ toBytes 3 0 ++ toBytes 8 b ++ toBytes 8 s.gtc
    ++ toBytes 8 (s.fld F.TIME_CHOICE_COUNT q) ++ toBytes 8 ((s.part q).lastBeat.getD (2 ^ 64 - 1))

/-- R394, R448: the snapshot of the beat that begins. -/
def State.takeSnapshot (s : State) (q b : Nat) : State :=
  match s.snapAt q b with
  | none => s
  | some v =>
    let rec_ := s.snapRecord q v b
    let s := s.setGop q { s.gop q with snap := none }
    let s := match (List.range 64).find? fun r => s.ringOn r && s.ringUse r == 4 && s.fld F.HQ_RCFG_PART r == q with
      | some r => if s.ringFull r then s.ringOvr r else s.ringPut r rec_
      | none => s
    if (s.gop q).op = 3 then s.gopDone q stOK else s.gopShow q 3 stOK

/-- R409: a page move that failed faults the job. -/
def State.moveFault (s : State) (q : Nat) : State :=
  match (s.srv q).moveBad with
  | some st => (s.modSrv q fun v => { v with moveBad := none }).jobFault q caSERVE st 0 0
  | none => s

/-- The first logical cycle of a beat. -/
def State.beginBeat (s : State) (q : Nat) : State :=
  let b := (s.part q).beat
  let v := if s.serveOn q then (s.part q).variant else s.pickVariant q b
  let s := s.modPart q fun p => { p with job := .run, gate := false, frozen := false, bc := 0, variant := v }
  let s := s.setFld F.SERVE_PSTAT_VAR q v
  let s := (s.partClusters q).foldl (fun t cl => (t.switchPage q cl v).restartSlots cl) s
  let s := (s.releaseDones q b).takeSnapshot q b
  let s := (s.partCores q).foldl (fun t c => t.resumeFetch q v c) s
  let s := (s.beatDecide q).moveFault q
  if (s.part q).job == .run then s.beginCycle q (s.part q).lc else s

/-- R409: the beat-start step of the awaited beat has completed. -/
def State.stepDoneFor (s : State) (q : Nat) : Bool := !s.serveOn q || (s.srv q).next == (s.part q).beat + 1

/-- What the start of the awaited beat meets late: a cause of TIME_FRZLAST, 0 nothing. -/
def State.startLate (s : State) (q : Nat) : Nat :=
  if !s.stepDoneFor q then 5 else if s.announcedLate q (s.part q).beat then 6 else 0

/-- The clocks of the partition run: RUN, no guard tripped, no region without lock. -/
def State.clocked (s : State) (q : Nat) : Bool :=
  s.power == 0 && s.pow.trans.isNone && !s.pins.trip && s.fld F.PWR_BUDGET_TRIP 0 == 0
    && !(s.pow.unlocked.any fun r => (regionClusters r).any (s.inPart q))

/-- The awaited beat may begin: at a cc edge at or after its wall-grid instant (R294). -/
def State.beatReady (s : State) (q : Nat) : Bool :=
  let p := s.part q
  p.waiting && !p.frozen && p.stopUntil.isNone && s.atEdge q && decide (s.grid q p.beat ≤ s.gtc) && s.clocked q && !s.stepRuns q

/-- The awaited beat begins, or its start freezes the partition (R305). -/
def State.startBeat (s : State) (q : Nat) : State :=
  let late := s.startLate q
  if late = 0 then s.beginBeat q
  else (s.modPart q fun p => { p with job := .run, gate := false, bc := 0 }).freeze q late 0 0

/-- BEAT_START (R294). -/
def execBeatStart (q : Nat) (s : State) : Res := if q < 8 ∧ s.beatReady q then done s (s.startBeat q) else done s s

/-! ## The end of a freeze (R305) -/

/-- A meaning's next state. -/
def Res.get (r : Res) (s : State) : State := match r with | .next t => t | _ => s

/-- Every awaited item is present. -/
def State.thawed (s : State) (q : Nat) : Bool :=
  let p := s.part q
  if p.frzCause = 5 ∨ p.frzCause = 6 then s.startLate q == 0
  else (((s.setPart q { p with frozen := false }).retireAll q p.lc).lateItems q p.lc).isEmpty

/-- The partition resumes: the cycle before which it froze begins. -/
def State.thaw (s : State) (q : Nat) : State :=
  let p := s.part q
  let s := s.unfreeze q
  if p.waiting then s.beginBeat q else s.beginCycle q p.lc

/-- A cc edge in a freeze: what is present now was present before the cc that begins. -/
def State.frozenEdge (s : State) (q : Nat) : State := let ok := s.thawed q; s.modPart q fun p => { p with thawOk := ok }

/-- FREEZE_END (R305): at a cc edge, in the cc after the last awaited item is present. -/
def execFreezeEnd (q : Nat) (s : State) : Res :=
  if (s.part q).job == .run ∧ (s.part q).frozen ∧ s.atEdge q ∧ (s.part q).thawOk ∧ s.thawed q then done s (s.thaw q) else done s s

/-! ## Lag (R310) -/

/-- The lag is above a number of beats. -/
def State.lagAbove (s : State) (q n : Nat) : Bool := decide (n * s.beatLen q * tu < s.lagU q)

/-- LAG_EVENT (R310). -/
def execLagEvent (q : Nat) (s : State) : Res :=
  if (s.part q).jobLive ∧ (s.part q).lagArm ∧ s.lagAbove q (s.fld F.TIME_BEAT_CFG_LAGLIM q) then
    done s ((s.modPart q fun p => { p with lagArm := false }).raise (960 + 6 * q))
  else done s s

/-- LAG_FAULT (R310). -/
def execLagFault (q : Nat) (s : State) : Res :=
  if (s.part q).jobLive ∧ s.lagAbove q (s.fld F.TIME_BEAT_CFG_FAULTLIM q) then done s (s.jobFault q caLAG stTIMEOUT 0 0) else done s s

end Sys2Proof.Machine
end

