-- ==== Sys2Proof/Machine/Launch.lean ====
section
/-! DEFINITION. Job loads, launch notices and PART resets (13_host_interfaces.md R442, R443; 09 R298 to R300; 12 R425; 18 R559; 11
R393). -/

namespace Sys2Proof.Machine

/-! ## What a launch sets (R299, R425) -/

/-- Registers of a core that a launch clears (R81, R107, R145, R225, R292). -/
def launchCoreRegs : List RegName :=
  [.CORECTL_NUMSTAT, .CORECTL_CVFLAGS, .CORECTL_MATSTAT, .CORECTL_CHNSTAT, .CORECTL_QSTAT, .CORECTL_ILLEGAL, .CORECTL_MEMLOG]

/-- R185: the operand buffers of a core hold zeros, with no error and no poison mark. -/
def State.clearBufMarks (s : State) (c : Nat) : State :=
  { s with
    bad := s.bad.filter fun e => !(decide (2 ^ 60 ≤ e.1) && (e.1 - 2 ^ 60) / 32768 == c)
    poison := s.poison.filter fun e => !(decide (2 ^ 60 ≤ e.1) && (poisonMemOf e.1 - 1024) / 4 == c)
    poisonMem := [0, 1, 2].foldl (fun m b => SMap.put false m (1024 + 4 * c + b) false) s.poisonMem }

/-- A core at a launch (R96, R111, R225, R277): ENTRY holds bits [17:1] of an even word address. -/
def State.launchCore (s : State) (c : Nat) : State :=
  let s := launchCoreRegs.foldl (fun t r => t.clrReg r c) (s.clearBufMarks c)
  s.setCore c { Core.init with fetchAddr := 2 * s.fld F.CORECTL_SEQCFG_ENTRY c, bufZero := true, bufFill := (s.core c).bufFill }

/-- A cluster at a launch (R177, R179, R220). -/
def State.launchCluster (s : State) (cl : Nat) : State :=
  ((s.setCluster cl Cluster.init).clrReg .THKT_CNT cl).clrReg .THKT_MOECNT cl

/-- Registers of the partition that a launch clears (R299, R425). -/
def launchPartRegs : List RegName :=
  [.TIME_FRZ, .TIME_FRZLAST, .TIME_LAG, .TIME_CHOICE, .TIME_CHOICEBY, .TIME_FAULT, .SERVE_CNT0, .SERVE_CNT1, .SERVE_SEQ]

/-- R425: the request table and the pool of the partition. Submissions that wait are kept. -/
def State.launchServe (s : State) (q : Nat) : State :=
  let v := s.srv q
  { s with table := s.table.filter fun x => !s.ownsEnt q x.1 }.setSrv q { Serve.init with staging := v.staging, arrivals := v.arrivals }

/-- Change the tier-columns of a partition's clusters. -/
def State.modCols (s : State) (q : Nat) (f : TierCol → TierCol) : State :=
  ((s.partClusters q).flatMap s.colsOf).foldl (fun t tc => t.setCol tc (f (t.col tc))) s

/-- The settings between acceptance and beat 0. -/
def State.launchSet (s : State) (q count : Nat) : State :=
  let s := (s.partCores q).foldl (fun t c => t.launchCore c) s
  let s := (s.partClusters q).foldl (fun t k => t.launchCluster k) s
  let s := (launchPartRegs.foldl (fun t r => t.clrReg r q) s).launchServe q
  let s := s.modCols q fun c => { c with pend := c.pend.filter fun x => !x.slotted }
  let s := (s.setFld F.TIME_LAUNCH_COUNT q count).setFld F.TIME_JOB_STAT_LAGF q 0
  let s := s.setFld F.TIME_LEDGER_BAD q (if s.fld F.TIME_LEDGER_BASE q != 0 && !s.ledgerOk q then 1 else 0)
  s.modPart q fun p =>
    { p with job := .launched, beat := 0, lc := 0, bc := 0, gate := true, frozen := false, frzFrom := none, frzRem := 0, thawOk := false, lagArm := true, thkw := [], ringBad := none, records := 0,
             faultGtc := 0, fault := none, variant := 0, lastBeat := none, choiceAt := 0 }

/-- R485: a launch in REST starts a wake. -/
def State.launchWake (s : State) : State := if s.power = 1 ∧ s.pow.trans.isNone then s.beginTrans 0 else s

/-! ## Launch notices (R298) -/

/-- The partition a notice applies to. -/
def State.noticePart (s : State) (jobid : Nat) : Option Nat :=
  (List.range 8).find? fun q => (s.part q).job == .armed && s.fld F.TIME_JOB_CFG_JOBID q == jobid

/-- The limits of the lag are in order. -/
def State.limitsBad (s : State) (q : Nat) : Bool := decide (s.fld F.TIME_BEAT_CFG_FAULTLIM q ≤ s.fld F.TIME_BEAT_CFG_LAGLIM q)

/-- A sweep covers a cluster of the partition. -/
def State.sweptPart (s : State) (q : Nat) : Bool := (s.partClusters q).any s.swept

/-- The status of a notice for an ARMED partition. -/
def State.noticeStatus (s : State) (q count mode k : Nat) : Nat :=
  if s.fld F.TIME_JOB_CFG_MODE q ≠ mode ∨ s.fld F.TIME_BEAT_CFG_K q ≠ k ∨ s.limitsBad q then stBAD_ARG
  else if s.sweptPart q then stNOT_READY
  else if count < s.gtc + 10000 then stLATE
  else stOK

/-- A notice: its status where it is not ignored, and the state. -/
def State.notice (s : State) (jobid count mode k : Nat) : State × Option Nat :=
  match s.noticePart jobid with
  | none => (s, none)
  | some q =>
    let st := s.noticeStatus q count mode k
    let s := s.setFld F.TIME_JOB_STAT_LSTATUS q st
    (if st = stOK then (s.launchSet q count).launchWake else s.raise (960 + 6 * q + 3), some st)

/-- LAUNCH by host software (R443). -/
def State.launch (s : State) (q : Nat) (spread : Bool) : State :=
  let job := s.fld F.TIME_JOB_CFG_JOBID q
  let count := s.fld F.HQ_LAUNCHCNT_COUNT q
  let mode := s.fld F.TIME_JOB_CFG_MODE q
  let k := s.fld F.TIME_BEAT_CFG_K q
  let r := s.notice job count mode k
  let s := match r.2 with | some st => r.1.setFld F.HQ_JOB_STATUS q st | none => r.1
  if spread ∧ r.2 = some stOK then
    let f := s.ownFlit q 2 (toBytes 8 count ++ toBytes 1 mode ++ toBytes 1 k)
    f.1.toChildren q s.node f.2
  else s

/-- LAUNCH (R443). -/
def execLaunch (q : Nat) (spread : Bool) (s : State) : Res := if q < 8 then done s (s.launch q spread) else done s s

/-- LAUNCH_RECEIVE (R298). -/
def execLaunchReceive (n : Nat) (f : CtrlFlit) (s : State) : Res :=
  done s (s.ctrlJob n f fun t _ => (t.notice f.jobid (byF f.body 0 8) (byF f.body 8 1) (byF f.body 9 1)).1)

/-! ## Job loads (R442) -/

/-- HQ_EMIT names a guarded ring descriptor in a core store of the partition. -/
def State.emitOk (s : State) (q : Nat) : Bool :=
  let a := s.emitDesc q
  let r := ringOf (s.rdBytes a 48)
  s.within q a && daSpace a == 1 && a % 16 == 0 && decide (daOff a + 48 ≤ 2 ^ 22) && r.guard == 1 && !s.ringBad q r

/-- The ring of the admission log is enabled for its use and direction. -/
def State.logRingOk (s : State) (q : Nat) : Bool :=
  let r := s.fld F.SERVE_PCFG_LOGRING q
  s.ringOn r && s.ringUse r == 3 && (s.ringIsOut r == (s.fld F.SERVE_PCFG_LOGMODE q == 0))

/-- The status of a job load; before BOOT_OK it is NOT_READY (R512). -/
def State.loadStatus (s : State) (q : Nat) : Nat :=
  let p := s.part q
  if s.fld F.ROOT_BOOT_BOOT_OK 0 = 0 then stNOT_READY
  else if p.job != .idle && p.job != .ended then stNOT_PERMITTED
  else if p.mask = 0 ∨ s.limitsBad q
      ∨ (s.serveOn q ∧ (!s.logRingOk q ∨ (s.ingress q ∧ !s.emitOk q) ∨ (s.ingress q == (s.fld F.SERVE_INGNODE_NODE q != s.node)))) then stBAD_ARG
  else if s.sweptPart q then stNOT_READY
  else stOK

/-- LOAD by host software. -/
def State.load (s : State) (q : Nat) : State :=
  let st := s.loadStatus q
  let s := s.setFld F.HQ_JOB_STATUS q st
  if st = stOK then (s.modPart q fun p => { p with job := .armed }).raise 323 else s

/-- LOAD (R442). -/
def execLoad (q : Nat) (s : State) : Res := if q < 8 then done s (s.load q) else done s s

/-! ## PART reset (R559) -/

/-- A register's class J copies of a partition: those indexed by it, by its clusters or by its cores. -/
def jIndices (s : State) (q : Nat) (r : RegName) : List Nat :=
  let rows (n : Nat) (k : Nat) : List Nat := (List.range n).map fun i => k * n + i
  match r with
  | .CORECTL_SYNC => (s.partCores q).flatMap (rows 32)
  | .CORECTL_LANDING => (s.partCores q).flatMap (rows 16)
  | .THKT_QFILL0 | .THKT_QFILL1 | .THKT_UQFILL | .THKT_CNT | .THKT_MOECNT => s.partClusters q
  | .TIME_DIGEST => rows 8 q
  | .SERVE_RATIO | .SERVE_VAR => rows 16 q
  | .CORECTL_QFILL | .CORECTL_SEQSTAT | .CORECTL_SEQCFG | .CORECTL_QSTAT | .CORECTL_NUMSTAT | .CORECTL_CVFLAGS | .CORECTL_MATSTAT
  | .CORECTL_CHNSTAT | .CORECTL_ILLEGAL | .CORECTL_MEMLOG => s.partCores q
  | .CAL_CUR => []
  | _ => [q]

/-- The class J registers. -/
def jRegs : List RegName := allRegs.filter fun r => (regInfo r).cls == .J

/-- The class J registers of a partition return to their defaults. -/
def State.clearJ (s : State) (q : Nat) : State :=
  let s := jRegs.foldl (fun t r => (jIndices s q r).foldl (fun u i => u.clrReg r i) t) s
  -- CAL_CUR holds two bits for each cluster of a die
  (s.partClusters q).foldl (fun t cl =>
    let old := t.fld F.CAL_CUR_PAGE (cl / 8)
    let k := 2 * (cl % 8)
    t.setFld F.CAL_CUR_PAGE (cl / 8) (old - old / 2 ^ k % 4 * 2 ^ k)) s

/-- R559, step 2: queues, engines and calendars of the partition's clusters stop; landing channels, send buffers and thicket
queues are empty. Operand buffers, tiles and accumulators stay (Table 18.2). -/
def State.stopUnits (s : State) (q : Nat) : State :=
  let s := s.modPartCores q fun k =>
    { Core.init with arrs := k.arrs, bufs := k.bufs, bufZero := k.bufZero, bufFill := k.bufFill, ks := k.ks, sync := [] }
  let s := (s.partClusters q).foldl (fun t k => t.setCluster k Cluster.init) s
  s.modCols q fun c => { c with pend := [] }

/-- R559, steps 4 to 6: entries, pages and the ADMIT store; waiting submissions, each with its status record; moves. -/
def State.resetServe (s : State) (q : Nat) : State :=
  let v := s.srv q
  let s := v.arrivals.foldl (fun t w => t.statusRecord q w.ring w.reqid stABORTED) s
  { s with table := s.table.filter fun x => !s.ownsEnt q x.1 }.setSrv q { Serve.init with staging := v.staging }

/-- R559, step 6: the global operation, the step change and the snapshot of the partition are cancelled. -/
def State.cancelOps (s : State) (q : Nat) : State :=
  let s := s.setGop q { Gop.init with seq := (s.gop q).seq }
  (s.actsOf actStep).foldl (fun t a => if a.arg = q then t.endAct a stABORTED else t) s

/-- R559, R28: the step of a partition after a reset. -/
def State.restStep (s : State) (q : Nat) : Nat := match s.sharers q with | r :: _ => (s.part r).step | [] => 7

/-- A request whose results are discarded, where it was one of partition `q`. -/
def ReqSpec.orphan (q : Nat) (r : ReqSpec) : ReqSpec :=
  if r.q = some q then { r with q := none, beat := none, land := 2 ^ 48 - 1 } else r

/-- A PART reset of a partition. Deliveries to it are discarded from now on. -/
def State.partReset (s : State) (q : Nat) : State :=
  let s := (s.landLedger q).dropSched q
  let s := (s.stopUnits q).resetServe q
  let s := s.cancelOps q
  let s := { s with fab := { s.fab with
    tags := s.fab.tags.map fun (t : Nat × Tag) => (t.1, { t.2 with req := t.2.req.map (ReqSpec.orphan q) })
    nets := s.fab.nets.map fun (n : Nat × Net) => (n.1, { n.2 with held := n.2.held.map (ReqSpec.orphan q) })
    dones := s.fab.dones.filter fun d => d.req.q != some q } }
  let step := s.restStep q
  (s.setPart q { Part.init with mask := (s.part q).mask, step := step }).clearJ q

/-- A RESET write: the flit goes down the tree first (R393). -/
def State.gopReset (s : State) (q : Nat) : State :=
  let r := s.ownFlit q 8 []
  ((r.1.toChildren q s.node r.2).partReset q).raise (16 + q)

/-- RESET (R393). -/
def execReset (q : Nat) (s : State) : Res :=
  if 8 ≤ q then done s s
  else match s.gopBlocked q with
    | some st => done s (s.gopRefuse q 4 st)
    | none => done s (s.gopReset q)

/-- RESET_RECEIVE (R393). -/
def execResetReceive (n : Nat) (f : CtrlFlit) (s : State) : Res := done s (s.ctrlJob n f fun t q => t.partReset q)

end Sys2Proof.Machine
end

