-- ==== Sys2Proof/Machine/Host.lean ====
section
/-! DEFINITION. The rows of the host interface: ring positions, DMA channels, the BAR2 window, Ethernet messages, links (13_host_interfaces.md
R429 to R454). -/

namespace Sys2Proof.Machine

/-! ## Ring positions (R433, R434) -/

/-- Slots that host software has filled, as they stand in host memory where the command does not give them. -/
def State.slotsFrom (s : State) (r at_ n : Nat) (given : List (List Byte)) : State × List (List Byte) :=
  let size := s.slotSize r
  (List.range n).foldl (fun (acc : State × List (List Byte)) i =>
    match given[i]? with
    | some b => (acc.1, acc.2 ++ [fitBytes size b])
    | none =>
      let v := acc.1.hostRead (s.fld F.HQ_RBASE_BASE r * 4096 + (at_ + i) % s.ringSlots r * size) size
      (v.1, acc.2 ++ [v.2])) (s, [])

/-- A host write of HQ_RHPOS. -/
def State.writeHpos (s : State) (r v : Nat) (given : List (List Byte)) : State :=
  let v := v % 2 ^ 32
  if s.ringIsOut r then
    if s.ringSlots r < (s.dpos r + 2 ^ 32 - v) % 2 ^ 32 then s.ringUnd r else s.setFld F.HQ_RHPOS_HPOS r v
  else
    let d := (v + 2 ^ 32 - s.dpos r) % 2 ^ 32
    if s.ringSlots r < d then s.ringOvr r
    else
      let old := s.ringDepth r
      let t := s.slotsFrom r (s.hpos r) (d - old) given
      let h := t.1.hring r
      ((t.1.setHring r { h with slots := h.slots.take d ++ t.2.map fun b => (b, []) }).setFld F.HQ_RHPOS_HPOS r v).pumpLate

/-- HQ_RHPOS_WRITE (R434). -/
def execHqRhposWrite (by_ : Requester) (ring value : Nat) (slots : List (List Byte)) (s : State) : Res :=
  let _ := by_
  if ring < 64 then done s (s.writeHpos ring value slots) else done s s

/-! ## DMA channels (R437 to R441) -/

def State.dma (s : State) (c : Nat) : DmaCh := SMap.get DmaCh.init s.host.dma c
def State.setDma (s : State) (c : Nat) (v : DmaCh) : State := s.modHost fun h => { h with dma := SMap.put DmaCh.init h.dma c v }

/-! Table 13.3: fields of a descriptor. -/
def dOP (d : List Byte) : Nat := byF d 0 1
def dFLAGS (d : List Byte) : Nat := byF d 1 1
def dLEN (d : List Byte) : Nat := byF d 4 4
def dHOST (d : List Byte) : Nat := byF d 8 8
def dDEV (d : List Byte) : Nat := byF d 16 6
def dCORE (d : List Byte) : Nat := byF d 16 2 % 512
def dCH (d : List Byte) : Nat := byF d 16 2 / 512 % 16
def dDIGEST (d : List Byte) : Bool := (dFLAGS d).testBit 0
def dCONT (d : List Byte) : Bool := (dFLAGS d).testBit 1
def dFINAL (d : List Byte) : Bool := (dFLAGS d).testBit 2

def State.descRing (s : State) (c : Nat) : Nat := s.fld F.HQ_DCFG_DESCRING c
def State.cplRing (s : State) (c : Nat) : Nat := s.fld F.HQ_DCFG_CPLRING c

/-- A completion ring takes a completion now. -/
def State.cplRoom (s : State) (c : Nat) : Bool :=
  let r := s.cplRing c
  s.ringOn r && s.ringUse r == 6 && !s.ringFull r && s.ringMoves r

/-- The descriptor that a channel would start now. -/
def State.dmaHead (s : State) (c : Nat) : Option (List Byte) :=
  let r := s.descRing c
  let o := s.cplRing c
  if c < 64 ∧ s.fld F.HQ_DCFG_EN c = 1 ∧ s.ringUse r = 5 ∧ s.ringOn o ∧ s.ringUse o = 6 ∧ (s.dma c).desc.isNone then (s.ringHead r).map (·.1) else none

/-- R438: the status of a descriptor before its transfer. -/
def State.dmaCheck (s : State) (c : Nat) (d : List Byte) : Nat :=
  let a := dDEV d
  let n := dLEN d
  let h2l := dOP d == 3
  if dOP d < 1 ∨ 3 < dOP d ∨ n = 0 then stBAD_ARG
  else if dCONT d ∧ s.fld F.HQ_DCFG_DSTATE c = 0 then stBAD_ARG
  else if h2l then
    if n % 16 ≠ 0 ∨ !s.coreExists (dCORE d) then stBAD_ARG
    else match s.partOf (dCORE d / 8) with
      | some q => if s.busyPart q then stOK else stNOT_PERMITTED
      | none => stNOT_PERMITTED
  else if s.absent a ∨ daSpace a = 2 ∨ crossesEnd a n then stBAD_ARG
  else if daSpace a = 1 ∧ s.targetLive a then stNOT_PERMITTED
  else if s.shut (daCluster a) then stNOT_READY
  else if daSpace a = 0 ∧ s.targetLive a ∧ !s.ownsSlot (daTc a) (ownRoot 0) then stNO_RESOURCE
  else stOK

/-- The pieces of a transfer: words of a core store, lines of bulk memory. -/
def dmaPieces (a n : Nat) : List (Nat × Nat) :=
  let u := if daSpace a = 1 then 16 else 256
  chunks u (n / u + 2) a n

/-- R439: the slots of one piece in a live tier-column, taken; none where the piece waits. -/
def State.pieceSlots (s : State) (a n : Nat) (write : Bool) : Option State :=
  if daSpace a = 0 ∧ s.targetLive a then s.passedSlots (daTc a) (ownRoot 0) (lineSlots n write) else some s

/-- How the moving of a transfer stands: the state, the bytes moved, the bytes read, whether a piece met an uncorrectable error, and whether
one waits for its slots. -/
structure Moving where
  s : State
  moved : Nat
  got : List Byte
  ue : Bool
  waits : Bool

/-- H2D: bytes are written until a piece meets an uncorrectable error or waits. -/
def State.dmaWrite (s : State) (a : Nat) (bs : List Byte) : Moving :=
  ((dmaPieces a bs.length).foldl (fun (acc : Moving × List Byte) p =>
    let x := acc.1
    if x.ue || x.waits then acc
    else match x.s.pieceSlots p.1 p.2 true with
      | none => ({ x with waits := true }, acc.2)
      | some t =>
        let v := t.writeMem .other p.1 (acc.2.take p.2)
        ({ x with s := v.1, moved := if v.2 then x.moved else x.moved + p.2, ue := v.2 }, acc.2.drop p.2)) (⟨s, 0, [], false, false⟩, bs)).1

/-- D2H: bytes are read until a piece meets an uncorrectable error or waits. -/
def State.dmaRead (s : State) (a n : Nat) : Moving :=
  (dmaPieces a n).foldl (fun (x : Moving) p =>
    if x.ue || x.waits then x
    else match x.s.pieceSlots p.1 p.2 false with
      | none => { x with waits := true }
      | some t =>
        let v := t.readMem .other p.1 p.2
        { x with s := v.1, moved := if v.2.2 then x.moved else x.moved + p.2, got := if v.2.2 then x.got else x.got ++ v.2.1, ue := v.2.2 })
    ⟨s, 0, [], false, false⟩

/-- The digest that a descriptor starts from. -/
def DmaCh.digFrom (v : DmaCh) (d : List Byte) : HashSt := if dCONT d then v.dig else HashSt.init

/-- A descriptor is taken; one that is refused has its status at once. -/
def State.dmaTake (s : State) (c : Nat) (d : List Byte) (status : Option Nat) : State :=
  let v := s.dma c
  let s := s.ringTake (s.descRing c)
  let hash := dDIGEST d && status.isNone
  let dig := if hash then v.digFrom d else v.dig
  let s := if hash then s.setFld F.HQ_DCFG_DSTATE c 1 else s
  s.setDma c { desc := some d, status := status, moved := 0, rest := [], unhashed := [], dig := dig }

/-- A transfer has ended: its status, what it moved, the bytes to digest. -/
def State.dmaMoved (s : State) (c : Nat) (status : Nat) (bs : List Byte) : State :=
  let v := s.dma c
  let d := v.desc.getD []
  s.setDma c { v with status := some status, moved := v.moved + bs.length, rest := [], unhashed := v.unhashed ++ (if dDIGEST d then bs else []) }

/-- A part of a transfer has been moved; the rest waits for its slots. -/
def State.dmaPart (s : State) (c n : Nat) (bs rest : List Byte) : State :=
  let v := s.dma c
  s.setDma c { v with
    moved := v.moved + n, rest := rest,
    unhashed := v.unhashed ++ (if dDIGEST (v.desc.getD []) then bs else []) }

/-- H2D goes on with the bytes that the host returned and that are not yet written; short of LEN, or after an error, it is FAULTED. -/
def State.h2dMove (s : State) (c : Nat) (d bs : List Byte) (err : Bool) : State :=
  let v := s.dma c
  let r := s.dmaWrite (dDEV d + v.moved) bs
  if r.waits then r.s.dmaPart c r.moved (bs.take r.moved) (bs.drop r.moved)
  else r.s.dmaMoved c (if r.ue || err || decide (v.moved + bs.length < dLEN d) then stFAULTED else stOK) (bs.take r.moved)

/-- H2D of a descriptor: the bytes that the host returned, and whether it returned an error. -/
def State.h2d (s : State) (c : Nat) (d data : List Byte) (err : Bool) : State :=
  let st := s.dmaCheck c d
  if st ≠ stOK then s.dmaTake c d (some st)
  else
    let s := s.dmaTake c d none
    s.h2dMove c d (if s.linkUp 0 then data.take (dLEN d) else []) err

/-- The descriptor of a channel whose transfer is in progress. -/
def State.dmaAt (s : State) (c : Nat) : Option (List Byte) := if (s.dma c).status.isNone then (s.dma c).desc else none

/-- H2D (R438); a descriptor with a reserved OP completes here as well; one that waits for slots goes on. -/
def execH2d (ch : Nat) (data : List Byte) (err : Bool) (s : State) : Res :=
  match s.dmaHead ch, s.dmaAt ch with
  | _, some d => if dOP d = 1 then done s (s.h2dMove ch d (s.dma ch).rest false) else done s s
  | some d, none => if dOP d ≠ 2 ∧ dOP d ≠ 3 then done s (s.h2d ch d data err) else done s s
  | none, none => done s s

/-- D2H goes on from where it stands. -/
def State.d2hMove (s : State) (c : Nat) (d : List Byte) (err : Bool) : State :=
  let v := s.dma c
  if err || !s.linkUp 0 then s.dmaMoved c stFAULTED []
  else
    let r := s.dmaRead (dDEV d + v.moved) (dLEN d - v.moved)
    let t := r.s.hostWrite (dHOST d + v.moved) r.got
    if r.waits then t.dmaPart c r.moved r.got [] else t.dmaMoved c (if r.ue then stFAULTED else stOK) r.got

/-- D2H of a descriptor. -/
def State.d2h (s : State) (c : Nat) (d : List Byte) (err : Bool) : State :=
  let st := s.dmaCheck c d
  if st ≠ stOK then s.dmaTake c d (some st) else (s.dmaTake c d none).d2hMove c d err

/-- D2H (R438); one that waits for slots goes on. -/
def execD2h (ch : Nat) (err : Bool) (s : State) : Res :=
  match s.dmaHead ch, s.dmaAt ch with
  | _, some d => if dOP d = 2 then done s (s.d2hMove ch d err) else done s s
  | some d, none => if dOP d = 2 then done s (s.d2h ch d err) else done s s
  | none, none => done s s

/-- R439: bytes of an H2L are appended as far as the channel has room; `fin` is the status once all are there. -/
def State.h2lMove (s : State) (c fin : Nat) : State :=
  let v := s.dma c
  let d := v.desc.getD []
  let room := chanSize - (s.chan (dCORE d) (dCH d)).bytes.length
  let bs := v.rest.take room
  let s := if bs.isEmpty then s else s.landBytes (dCORE d) (dCH d) bs .dma none
  let rest := v.rest.drop room
  let s := s.setDma c { v with
    rest := rest, moved := v.moved + bs.length, unhashed := v.unhashed ++ (if dDIGEST d then bs else []),
    status := if rest.isEmpty then some fin else none }
  s

/-- The status of an H2L whose bytes have come as they have. -/
def h2lFin (d bs : List Byte) (err : Bool) : Nat := if err || decide (bs.length < dLEN d) then stFAULTED else stOK

/-- An H2L starts. -/
def State.h2l (s : State) (c : Nat) (d data : List Byte) (err : Bool) : State :=
  let st := s.dmaCheck c d
  if st ≠ stOK then s.dmaTake c d (some st)
  else
    let s := s.dmaTake c d none
    let bs := if s.linkUp 0 then data.take (dLEN d) else []
    (s.setDma c { s.dma c with rest := bs }).h2lMove c (h2lFin d bs err)

/-- An H2L that a full channel holds back goes on: its status follows from the bytes that it has in all. -/
def State.h2lMore (s : State) (c : Nat) : State :=
  let v := s.dma c
  s.h2lMove c (if v.moved + v.rest.length < dLEN (v.desc.getD []) then stFAULTED else stOK)

/-- H2L (R439). -/
def execH2l (ch : Nat) (data : List Byte) (err : Bool) (s : State) : Res :=
  match s.dmaHead ch with
  | some d => if dOP d = 3 then done s (s.h2l ch d data err) else done s s
  | none => if ((s.dmaAt ch).any fun d => dOP d == 3) && !(s.dma ch).rest.isEmpty then done s (s.h2lMore ch) else done s s

/-- The first channel after one, in increasing order with wrap, that holds unhashed bytes. -/
def State.digNext (s : State) : Option Nat :=
  ((List.range 64).map fun i => (s.host.digLast + 1 + i) % 64).find? fun c => !(s.dma c).unhashed.isEmpty

/-- One slice of the digest engine. -/
def State.digSlice (s : State) (c : Nat) : State :=
  let v := s.dma c
  (s.setDma c { v with dig := v.dig.absorb (v.unhashed.take 1024), unhashed := v.unhashed.drop 1024 }).modHost fun h => { h with digLast := c }

/-- DIGEST_SLICE (R441). -/
def execDigestSlice (s : State) : Res :=
  match s.digNext with | some c => done s (s.digSlice c) | none => done s s

/-- The digest that a completion holds: none without FINAL; a free value where no digest was made. -/
def State.dmaDigest (s : State) (v : DmaCh) (d : List Byte) (status : Nat) : State × List Byte :=
  if !dFINAL d then (s, List.replicate 32 0)
  else if dDIGEST d ∧ (status = stOK ∨ status = stFAULTED) then (s, v.dig.final)
  else
    let f := s.takeFree
    (f.1, toBytes 32 (Config.freeValue f.2))

/-- Table 13.3: the completion of a descriptor. -/
def State.dmaDone (s : State) (c : Nat) (v : DmaCh) (d : List Byte) (status : Nat) : State :=
  let g := s.dmaDigest v d status
  let s := g.1.ringPut (s.cplRing c)
    (toBytes 1 status ++ toBytes 1 (dFLAGS d) ++ toBytes 1 c ++ toBytes 1 0 ++ toBytes 4 v.moved ++ toBytes 8 (byF d 24 8) ++ List.replicate 16 0 ++ g.2)
  let s := s.setFld F.HQ_DCFG_DONE c ((s.fld F.HQ_DCFG_DONE c + 1) % 2 ^ 32)
  let ran := status = stOK ∨ status = stFAULTED
  let held := if dDIGEST d ∧ ran then !dFINAL d else s.fld F.HQ_DCFG_DSTATE c == 1
  let keep := held && s.fld F.HQ_DCFG_EN c == 1
  let s := (s.setDma c { DmaCh.init with dig := if keep then v.dig else HashSt.init }).setFld F.HQ_DCFG_DSTATE c (if keep then 1 else 0)
  if status = stOK then s else s.raise 322

/-- DMA_COMPLETE (R437). -/
def execDmaComplete (ch : Nat) (s : State) : Res :=
  let v := s.dma ch
  match v.desc, v.status with
  | some d, some st => if v.unhashed.isEmpty ∧ s.cplRoom ch then done s (s.dmaDone ch v d st) else done s s
  | _, _ => done s s

/-! ## Links (R429, R458) -/

/-- MSI-X messages that are pending and whose vector is not masked are sent. -/
def State.sendPending (s : State) : State :=
  s.host.pba.foldl (fun t e => if (t.msixWord (2 * e.1 + 1)).toNat.testBit 32 then t else t.sendVector e.1) s

/-- PCIE_LINK_UP (R458). -/
def execPcieLinkUp (s : State) : Res :=
  if s.linkUp 0 ∨ s.pins.perst then done s s else done s (((s.setLink 0 true).raise 324).sendPending)

/-- DMA descriptors in progress complete with FAULTED. -/
def State.dmaAbort (s : State) : State :=
  s.modHost fun h => { h with dma := h.dma.map fun (e : Nat × DmaCh) =>
    (e.1, if e.2.desc.isSome then { e.2 with status := some stFAULTED, rest := [] } else e.2) }

/-- The PCI Express link goes down. -/
def State.pcieDown (s : State) : State := if s.linkUp 0 then ((s.setLink 0 false).dmaAbort).raise 324 else s

/-- PCIE_LINK_DOWN (R429). -/
def execPcieLinkDown (s : State) : Res := done s s.pcieDown

/-- An Ethernet port's link changes. -/
def State.ethLink (s : State) (p : Nat) (up : Bool) : State :=
  if s.linkUp (1 + p) = up then s else (s.setLink (1 + p) up).raise (325 + p)

/-- ETH_LINK_UP (R458): not in DEEP or DORMANT, where the ports are down (Table 14.5). -/
def execEthLinkUp (port : Nat) (s : State) : Res :=
  if port < 2 ∧ s.power < 2 then done s (s.ethLink port true) else done s s
/-- ETH_LINK_DOWN (R458). -/
def execEthLinkDown (port : Nat) (s : State) : Res := if port < 2 then done s (s.ethLink port false) else done s s

/-- The management port's link changes. -/
def State.mgmtLink (s : State) (up : Bool) : State := if s.linkUp 3 = up then s else (s.setLink 3 up).raise 328
/-- MGMT_LINK_UP (R458). -/
def execMgmtLinkUp (s : State) : Res := done s (s.mgmtLink true)
/-- MGMT_LINK_DOWN (R458). -/
def execMgmtLinkDown (s : State) : Res := done s (s.mgmtLink false)

/-! ## BAR2 (R430, R431) -/

/-- The device address of a BAR2 offset. -/
def State.bar2Addr (s : State) (off : Nat) : Nat := s.fld F.HQ_BAR2CFG_SPACE 0 * 2 ^ 44 + off % 2 ^ 36

/-- Why a BAR2 access is refused: a KIND of HQ_ACCERR, 0 not at all. -/
def State.bar2Refuse (s : State) (a n : Nat) : Nat :=
  if s.absent a ∨ crossesEnd a n then 3
  else if s.shut (daCluster a) then 4
  else if s.targetLive a then 6
  else 0

/-- R513: in minimal mode the part serves no BAR2 access. -/
def State.minimal (s : State) : Bool := s.fld F.ROOT_BOOT_MINIMAL 0 == 1

/-- The answer of a read. -/
def State.answer (s : State) (bs : List Byte) : State := { s with out := s.out ++ [.cpl bs] }

/-- A BAR2 read. -/
def State.bar2Read (s : State) (off n : Nat) : State :=
  let a := s.bar2Addr off
  let k := if s.minimal then 2 else s.bar2Refuse a n
  if k ≠ 0 then (s.accErr k 1 false off).answer (List.replicate n 0)
  else
    let r := s.readMem .other a n
    if r.2.2 then (r.1.accErr 5 1 false off).answer (List.replicate n 0) else r.1.answer r.2.1

/-- BAR2_READ (R430). -/
def execBar2Read (off len : Nat) (s : State) : Res := done s (s.bar2Read off len)

/-- A BAR2 write; an uncorrectable error that a partial write meets is recorded, and the write lands (R608). -/
def State.bar2Write (s : State) (off : Nat) (bs : List Byte) : State :=
  let a := s.bar2Addr off
  let k := if s.minimal then 2 else s.bar2Refuse a bs.length
  if k ≠ 0 then s.accErr k 1 true off
  else
    let r := s.writeMem .other a bs
    if r.2 then r.1.accErr 5 1 true off else r.1

/-- BAR2_WRITE (R430). -/
def execBar2Write (off : Nat) (data : List Byte) (s : State) : Res := done s (s.bar2Write off data)

/-! ## Ethernet messages (R450 to R454) -/

/-- A slot of an in-ring comes by Ethernet: it advances HPOS (R452); a SUBMIT slot at the last of its messages. -/
def State.ethSlotIn (s : State) (r : Nat) (m : EthIn) : State :=
  let more := m.flags.testBit 0
  let h := s.hring r
  let v : List Byte × List Byte := match h.partial_ with
    | some p => (p.1, p.2 ++ m.body)
    | none => (fitBytes (s.slotSize r) m.body, [])
  if more then s.setHring r { h with partial_ := some v }
  else
    ((s.setHring r { h with partial_ := none, slots := h.slots ++ [v] }).setFld F.HQ_RHPOS_HPOS r ((s.hpos r + 1) % 2 ^ 32)).pumpLate

/-- A SLOT message: for an enabled in-ring of the port's medium, with room, next in its stream. -/
def State.ethSlot (s : State) (port : Nat) (m : EthIn) : State :=
  let r := m.key
  if !s.ringOn r ∨ s.ringMedium r ≠ port + 1 ∨ s.ringIsOut r then s.ethDiscard
  else if s.ringFull r then s.ethDiscard
  else
    let v := s.ethAccept port m
    if v.2 then v.1.ethSlotIn r m else v.1

/-- ETH_SLOT (R452). -/
def execEthSlot (port : Nat) (raw : List Byte) (s : State) : Res :=
  if port < 2 ∧ s.linkUp (1 + port) then
    match ethParse raw with
    | some m => if m.typ = 1 then done s (s.ethSlot port m) else done s s
    | none => done s s.ethDiscard
  else done s s

/-- R451: messages of a stream up to a SEQ are acknowledged; each SLOT of an out-ring advances HPOS (R452). -/
def State.ethAcked (s : State) (k seq : Nat) : State :=
  let st := s.ethStream k
  if !(st.unacked.any fun m => m.seq == seq) then s
  else
    let rest := (st.unacked.dropWhile fun m => m.seq != seq).drop 1
    let n := st.unacked.length - rest.length
    let s := s.setEthStream k { st with unacked := rest, resends := 0, sent := s.refNs }
    if k < 64 ∧ s.ringIsOut k then s.setFld F.HQ_RHPOS_HPOS k ((s.hpos k + n) % 2 ^ 32) else s

/-- ETH_ACK (R451). -/
def execEthAck (port : Nat) (raw : List Byte) (s : State) : Res :=
  if port < 2 ∧ s.linkUp (1 + port) then
    match ethParse raw with
    | some m => if m.typ = 2 then done s (s.ethAcked m.key (byF m.body 0 4)) else done s s
    | none => done s s.ethDiscard
  else done s s

/-- A stream goes down (R451, R453). -/
def State.streamDown (s : State) (k : Nat) : State :=
  let st := s.ethStream k
  let s := s.setEthStream k { st with unacked := [], resends := 0, down := true }
  let s := if k < 64 then s.setFld F.HQ_RCFG_EN k 0
    else (List.range 8).foldl (fun t q => t.modSrv q fun v => { v with moves := v.moves.map fun m =>
      if m.flying.isEmpty then m else { m with status := if m.status = stOK then stLINK_LOST else m.status } }) s
  s.raise 327

/-- A stream's unacknowledged messages are sent again. -/
def State.ethResend (s : State) (k : Nat) : State :=
  let st := s.ethStream k
  if 8 ≤ st.resends then s.streamDown k
  else
    let s := s.setEthStream k { st with resends := st.resends + 1, sent := s.refNs }
    st.unacked.foldl (fun t m => t.ethOut (t.ethPort k m.typ) (ethBytes m.typ (streamNo k) m.flags m.seq m.body)) s

/-- ETH_RESEND (R451). -/
def execEthResend (stream : Nat) (s : State) : Res :=
  let k := if stream = 0xFFFF then 64 else stream
  let st := s.ethStream k
  if k ≤ 64 ∧ !st.unacked.isEmpty ∧ st.sent + 1000 * s.fld F.HQ_NETCFG_RTO 0 ≤ s.refNs then done s (s.ethResend k) else done s s

/-- A PARKD message: the bytes of a part of a move in (R453). -/
def State.parkd (s : State) (port : Nat) (m : EthIn) : State :=
  let v := s.ethAccept port m
  if !v.2 then v.1
  else
    let a := byF m.body 0 8
    match (List.range 8).findSome? fun q => (v.1.flyingAt q a false).map fun x => (q, x) with
    | some (q, x) => v.1.moveGot q x.1 x.2 stOK (m.body.drop 8)
    | none => v.1

/-- PARKD (R453). -/
def execParkd (port : Nat) (raw : List Byte) (s : State) : Res :=
  if port < 2 ∧ s.linkUp (1 + port) then
    match ethParse raw with
    | some m => if m.typ = 5 ∧ m.key = 64 then done s (s.parkd port m) else done s s
    | none => done s s.ethDiscard
  else done s s

/-- The lag in ns. -/
def State.lagNs (s : State) (q : Nat) : Nat := s.lagU q / tu

/-- R454: the body of a TELEM message. -/
def State.telemBody (s : State) : List Byte :=
  toBytes 8 s.gtc ++ toBytes 2 (s.fld F.PWR_BUDGET_NOW 0) ++ toBytes 2 (s.fld F.PWR_THERM_TEMP 0)
    ++ (List.range 8).flatMap fun q =>
      toBytes 1 (s.part q).job.num ++ toBytes 3 0 ++ toBytes 4 (min (2 ^ 32 - 1) (s.lagNs q)) ++ toBytes 8 (s.part q).beat

/-- TELEM (R454). -/
def execTelem (s : State) : Res :=
  let t := s.fld F.HQ_NETCFG_TELEMMS 0
  if t ≠ 0 ∧ s.host.telemAt + 1000000 * t ≤ s.refNs then
    done s ((s.modHost fun h => { h with telemAt := s.refNs }).ethSend 64 6 0 s.telemBody)
  else done s s

/-! ## Boundary scan (R457) -/

/-- R591: the sideband outputs and PPS_OUT are driven: the part is not unpowered, and no longer in reset. -/
def State.driven (s : State) : Bool := s.pins.green && !s.pins.held && s.boot.due != some 1

/-- READY (R512, Table 19.4), asserted. -/
def State.readyOut (s : State) : Bool := s.driven && s.fld F.ROOT_BOOT_BOOT_OK 0 == 1 && s.fld F.PWR_STATE_CUR 0 != 3

/-- FAULT# (R568), asserted. -/
def State.faultOut (s : State) : Bool := s.driven && (s.minimal || (List.range 8).any fun q => (s.part q).job == .faulted)

/-- ALERT# (R482, Table 19.4), asserted. -/
def State.alertOut (s : State) : Bool :=
  s.driven && (s.fld F.PWR_BUDGET_TRIP 0 == 1 || decide (10 * s.fld F.PWR_THERM_ALERT 0 ≤ s.fld F.PWR_THERM_TEMP 0))

/-- THERMTRIP# (R567, R591), asserted: it stays driven in reset. -/
def State.tripOut (s : State) : Bool := s.pins.green && s.pins.trip

/-- WAKE_OUT# (Table 19.4), asserted: from a selected wake source in REST, DEEP or DORMANT until RUN is reached. -/
def State.wakeOut (s : State) : Bool :=
  s.driven && s.fld F.PWR_STATE_CUR 0 != 0 && (s.pow.trans == some 0 || s.pow.wakeNext.isSome)

/-- What the boundary register samples: READY, FAULT#, ALERT#, THERMTRIP#, PERST#, PPS_OUT, WAKE_OUT# from bit 0; 1 asserted or high. -/
def State.pinLevels (s : State) : Nat :=
  let b (c : Bool) (i : Nat) : Nat := if c then 2 ^ i else 0
  b s.readyOut 0 + b s.faultOut 1 + b s.alertOut 2 + b s.tripOut 3 + b s.pins.perst 4 + b (s.driven && s.tm.ppsHigh) 5 + b s.wakeOut 6

def State.modPins (s : State) (f : Pins → Pins) : State := { s with pins := f s.pins }

/-- An instruction of the boundary-scan port that drives no land. -/
def State.scan (s : State) (ir : Nat) : State := s.modPins fun p => { p with ir := ir, drive := 0 }
/-- An instruction that acts only while PERST# is asserted, and otherwise acts as BYPASS. -/
def State.scanDrive (s : State) (ir drive : Nat) : State :=
  if s.pins.perst then s.modPins fun p => { p with ir := ir, drive := drive } else s.modPins fun p => { p with ir := ir, drive := 0 }

/-- BYPASS (R457). -/
def execBypass (s : State) : Res := done s (s.scan 0xFF)
/-- IDCODE (R457). -/
def execIdcode (s : State) : Res := done s (s.scan 1)
/-- SAMPLE/PRELOAD (R457): the boundary register takes the levels. -/
def execSamplePreload (s : State) : Res := done s ((s.scan 2).modPins fun p => { p with boundary := s.pinLevels })
/-- EXTEST (R457). -/
def execExtest (s : State) : Res := done s (s.scanDrive 3 1)
/-- CLAMP (R457). -/
def execClamp (s : State) : Res := done s (s.scanDrive 4 2)
/-- HIGHZ (R457). -/
def execHighz (s : State) : Res := done s (s.scanDrive 5 3)

end Sys2Proof.Machine
end

