-- ==== Sys2Proof/Machine/Time.lean ====
section
/-! DEFINITION. The time base: corrections, slews, beacons, the master's sources, 1PPS, the alarm (14_time_clocks_power.md R459 to R472,
R489). -/

namespace Sys2Proof.Machine

def State.modTm (s : State) (f : TimeSt → TimeSt) : State := { s with tm := f s.tm }

/-! ## Corrections (R463 to R465) -/

/-- A signed number of ns in 32 bits, two's complement, saturating (TIME_ERR). -/
def sat32 (e : Int) : Nat := ((max (-2147483648) (min 2147483647 e)) % 4294967296).toNat

/-- The remaining slew R. -/
def State.setSlew (s : State) (r : Int) : State :=
  (s.modTm fun t => { t with slew := r }).setFld F.TIME_ERR_REMAIN 0 (sat32 r)

/-- A correction handled by a slew replaces any earlier R. -/
def State.slewBy (s : State) (e : Int) : State :=
  (if s.tm.slew = 0 then s.modTm fun t => { t with slewAt := s.refNs } else s).setSlew e

/-- R465: a forward step; a tick that it passes is taken late. -/
def State.stepBy (s : State) (e : Nat) : State :=
  let g := s.gtc + e
  { s with gtc := g, evc := { s.evc with stepped := s.evc.stepped || (decide (s.gtc / 64 < g / 64) && g % 64 != 0) } }

/-- A step is refused (R463). -/
def State.stepRefused (s : State) : State := (s.addFld F.TIME_SLEW_REFUSED 0 1).raise 32

/-- Table 14.1; `own`: the correction is of the master's own discipline or of TIME_SET. -/
def State.correct (s : State) (e : Int) (own : Bool) : State :=
  let s := s.setFld F.TIME_ERR_LAST 0 (sat32 e)
  if e = 0 then s
  else
    let t := s.setFld F.TIME_STAT_INIT 0 1
    if s.fld F.TIME_STAT_INIT 0 = 0 ∧ 0 < e then t.stepBy e.toNat
    else if e < 0 then (if own then (t.slewBy e).stepRefused else t.slewBy e)
    else if 1000000 < e then (t.slewBy e).stepRefused
    else if s.anyBusy then t.slewBy e
    else t.stepBy e.toNat

/-- The reference time between two ns of a slew (R464). -/
def State.slewPeriod (s : State) : Nat :=
  let m := max 1 (s.fld F.TIME_SLEW_MAXPPM 0)
  (1000000 + m - 1) / m

/-- One ns of the slew: it is added at once, or the next count edge withholds it. -/
def State.slewNs (s : State) : State :=
  let s := s.modTm fun t => { t with slewAt := t.slewAt + s.slewPeriod }
  if 0 < s.tm.slew then { s with gtc := s.gtc + 1 }.setSlew (s.tm.slew - 1)
  else (s.modTm fun t => { t with hold := t.hold + 1 }).setSlew (s.tm.slew + 1)

/-- SLEW_STEP (R464). -/
def execSlewStep (s : State) : Res :=
  if s.tm.slew ≠ 0 ∧ s.tm.slewAt + s.slewPeriod ≤ s.refNs then done s s.slewNs else done s s

/-! ## Beacons (R466 to R468) -/

/-- The UP ports of torus or express role. -/
def State.beaconPorts (s : State) : List Nat :=
  (List.range s.id.ports).filter fun n => s.portUp n && (isTorus (s.role n) || s.role n == 0x10)

/-- Table 14.2: a BEACON; T is put in as its group is sent. -/
def beaconFlit (flags hops seq master sys : Nat) : CtrlFlit := ⟨1, flags, hops, seq, master, sys, 0, []⟩

/-- The master sends its next BEACON. -/
def State.beacon (s : State) : State :=
  let f := beaconFlit (s.fld F.TIME_STAT_HOLDOVER 0) 0 (s.tm.beaconSeq % 2 ^ 32) s.node s.sysNo
  (s.beaconPorts.foldl (fun t n => t.ctrlOut n f) s).modTm fun t => { t with beaconSeq := t.beaconSeq + 1, sentAt := some s.gtc }

/-- BEACON_SEND (R466). -/
def execBeaconSend (s : State) : Res :=
  if s.isMaster ∧ s.gtc % 100000 = 0 ∧ s.tm.sentAt ≠ some s.gtc then done s s.beacon else done s s

/-- M and H of TIME_STAT. -/
def State.masterId (s : State) : Nat := s.fld F.TIME_STAT_MASTERID 0
def State.beaconHops (s : State) : Nat := s.fld F.TIME_STAT_HOPS 0
def State.parentPort (s : State) : Nat := s.fld F.TIME_STAT_PARENT 0

/-- A new parent (R467). -/
def State.setParent (s : State) (n : Nat) (f : CtrlFlit) : State :=
  let same := s.tm.parent && s.masterId == f.node && s.parentPort == n && s.beaconHops == f.seq
  let s := if s.tm.parent && s.masterId == f.node then s else s.modTm fun t => { t with seqSeen := none }
  let s := if s.tm.parent && s.masterId == f.node && s.parentPort == n then s else s.modTm fun t => { t with good := 0, heardP := s.gtc }
  let s := ((s.setFld F.TIME_STAT_MASTERID 0 f.node).setFld F.TIME_STAT_PARENT 0 n).setFld F.TIME_STAT_HOPS 0 f.seq
  let s := s.modTm fun t => { t with parent := true }
  if same then s else s.raise 37

/-- R467, cases 1 and 2: whether a beacon's port becomes the parent. -/
def State.takesParent (s : State) (n : Nat) (f : CtrlFlit) : Bool :=
  !s.tm.parent || decide (f.node < s.masterId) || decide (s.tm.heard + 1000000 ≤ s.gtc)
    || (f.node == s.masterId && (decide (f.seq < s.beaconHops) || (f.seq == s.beaconHops && decide (n < s.parentPort))))

/-- A SEQ not yet seen from M. -/
def State.seqNew (s : State) (k : Nat) : Bool :=
  match s.tm.seqSeen with | none => true | some l => let d := (k + 2 ^ 32 - l) % 2 ^ 32; decide (0 < d ∧ d < 2 ^ 31)

/-- R468: SYNC after a correction from the parent. -/
def State.syncAfter (s : State) (e : Int) : State :=
  let g := if e.natAbs ≤ 8 then s.tm.good + 1 else 0
  let s := s.modTm fun t => { t with good := g }
  if 1000 < e.natAbs then s.setSync false else if 4 ≤ g then s.setSync true else s

/-- R467, case 3: the correction of a beacon, and what is forwarded. -/
def State.beaconUse (s : State) (n : Nat) (f : CtrlFlit) : State :=
  let t := f.dst + byF f.body 0 4 * 2 ^ 32
  let l := (s.fld F.PORT_STAT_LAT n + 500) / 1000
  let e : Int := Int.ofNat t + Int.ofNat l - Int.ofNat s.gtc
  let s := (s.modTm fun u => { u with seqSeen := some f.jobid }).correct e false
  let s := s.syncAfter e
  let g := { f with seq := (f.seq + 1) % 2 ^ 16 }
  (s.beaconPorts.filter fun m => m != n).foldl (fun u m => u.ctrlOut m g n) s

/-- A BEACON for a part that is no time master (R467). -/
def State.beaconIn (s : State) (n : Nat) (f : CtrlFlit) : State :=
  if f.sys ≠ s.sysNo then s
  else
    let s := if s.takesParent n f then s.setParent n f else s
    if f.node ≠ s.masterId then s
    else
      let s := s.modTm fun t => { t with heard := s.gtc }
      if n ≠ s.parentPort then s
      else
        let s := s.modTm fun t => { t with heardP := s.gtc }
        if s.seqNew f.jobid then s.beaconUse n f else s

/-- A BEACON: the time master discards every one, one of another master with an event. -/
def State.takeBeacon (s : State) (n : Nat) (f : CtrlFlit) : State :=
  if s.isMaster then (if f.node = s.node ∧ f.sys = s.sysNo then s else s.raise 35) else s.beaconIn n f

/-- BEACON_RECEIVE (R467). -/
def execBeaconReceive (n : Nat) (f : CtrlFlit) (s : State) : Res := done s ((s.ctrlTake n f).takeBeacon n f)

/-- BEACON_TIMEOUT (R468). -/
def execBeaconTimeout (s : State) : Res :=
  if !s.isMaster ∧ s.tm.parent ∧ s.tm.heardP + 1000000 ≤ s.gtc then done s (s.setSync false) else done s s

/-! ## The master's sources (R469, R470) -/

def State.timeSrc (s : State) : Nat := s.fld F.TIME_MASTER_SRC 0

/-- Holdover begins or ends. -/
def State.setHoldover (s : State) (on : Bool) : State :=
  let v := if on then 1 else 0
  if s.fld F.TIME_STAT_HOLDOVER 0 = v then s else (s.setFld F.TIME_STAT_HOLDOVER 0 v).raise 33

/-- R468: the master holds SYNC set while its source is not in holdover. -/
def State.masterSync (s : State) : State :=
  if s.isMaster then s.setSync (s.fld F.TIME_STAT_HOLDOVER 0 == 0 && !s.tm.refLost) else s

/-- The master's source is heard: holdover ends. -/
def State.srcHeard (s : State) : State :=
  ((s.modTm fun t => { t with srcAt := s.refNs, ptmOut := 0 }).setHoldover false).masterSync

/-- TIME_MASTER has been written: sources are watched anew. -/
def State.masterSet (s : State) (old : Word) : State :=
  if s.reg .TIME_MASTER 0 = old then s
  else
    let s := (s.modTm fun t => { t with srcAt := s.refNs, ptmOut := 0, ptmAt := s.refNs, good := 0 }).setHoldover false
    if s.isMaster then s.masterSync else s.setSync false

/-- The source of the master is silent past its limit (Table 14.3). -/
def State.srcSilent (s : State) : Bool :=
  match s.timeSrc with
  | 1 => decide (s.tm.srcAt + 1500000000 ≤ s.refNs)
  | 2 => decide (s.tm.srcAt + 4000000000 ≤ s.refNs)
  | 3 => decide (3 ≤ s.tm.ptmOut)
  | _ => false

/-- HOLDOVER (R469). -/
def execHoldover (s : State) : Res :=
  if s.isMaster ∧ s.srcSilent then done s ((s.setHoldover true).masterSync) else done s s

/-- R469: the correction of a 1PPS edge; where two instants are equally near, which one is taken is left open. -/
def State.ppsCorrection (s : State) : State × Int :=
  let d := (s.fld F.TIME_PPS_OFFSET 0 + 1000000000 - s.gtc % 1000000000) % 1000000000
  if d < 500000000 then (s, Int.ofNat d)
  else if 500000000 < d then (s, Int.ofNat d - 1000000000)
  else
    let f := s.takeFree
    (f.1, if Config.freeValue f.2 % 2 = 0 then 500000000 else -500000000)

/-- A 1PPS edge on a master with SRC 1. -/
def State.ppsIn (s : State) : State :=
  let v := s.srcHeard.ppsCorrection
  v.1.correct v.2 true

/-- PPS_IN_EDGE (R469). -/
def execPpsInEdge (s : State) : Res := if s.isMaster ∧ s.timeSrc = 1 then done s s.ppsIn else done s s

/-- PTP_SYNC (R470): `t` is the offsetFromMaster of the exchange, in ns. -/
def execPtpSync (t : Int) (s : State) : Res :=
  if s.isMaster ∧ s.timeSrc = 2 ∧ s.linkUp 3 then done s (s.srcHeard.correct (-t) true) else done s s

/-- A PTM request is issued. -/
def State.ptmAsk (s : State) : State :=
  ({ s with out := s.out ++ [Out.ptm] } : State).modTm fun t => { t with ptmAt := s.refNs, ptmGtc := s.gtc, ptmOut := t.ptmOut + 1 }

/-- PTM_REQUEST (R469). -/
def execPtmRequest (s : State) : Res :=
  if s.isMaster ∧ s.timeSrc = 3 ∧ s.tm.ptmAt + 10000000 ≤ s.refNs then done s s.ptmAsk else done s s

/-- PTM_RESPONSE (R469): `t` is the PTM master time at t1 plus the link delay, for the last request issued. -/
def execPtmResponse (t : Int) (s : State) : Res :=
  if s.isMaster ∧ s.timeSrc = 3 ∧ 0 < s.tm.ptmOut then done s (s.srcHeard.correct (t - Int.ofNat s.tm.ptmGtc) true) else done s s

/-- A write of TIME_SET (R471). -/
def State.writeTimeSet (s : State) (v : Nat) : State :=
  if s.isMaster ∧ s.timeSrc = 0 then s.correct (Int.ofNat v - Int.ofNat s.gtc) true else s.refuseWrite .TIME_SET 0

/-- TIME_SET_WRITE (R471). -/
def execTimeSetWrite (by_ : Requester) (value : Nat) (s : State) : Res :=
  let _ := by_
  done s (s.writeTimeSet (value % 2 ^ 64))

/-! ## References (R459, R462) -/

/-- REFCLK_LOSS (R462). -/
def execRefclkLoss (s : State) : Res :=
  done s (((s.setFld F.TIME_STAT_REFLOSS 0 1).modTm fun t => { t with refLost := true }).setSync false)

/-- The reference is back: phase points count anew (R607). -/
def State.refBack (s : State) : State :=
  ((s.setFld F.TIME_STAT_REFLOSS 0 0).modTm fun t => { t with refLost := false, phase := s.refNs }).masterSync

/-- REFCLK_RETURN (R462). -/
def execRefclkReturn (s : State) : Res := if s.tm.refLost then done s s.refBack else done s s

/-- TIME_BASE_FAILOVER (R459). -/
def execTimeBaseFailover (s : State) : Res :=
  if s.fld F.TIME_STAT_PRIMARY 0 = 0 then done s ((s.setFld F.TIME_STAT_PRIMARY 0 1).raise 37) else done s s

/-! ## 1PPS output and the alarm (R472, R489) -/

/-- The 1PPS output changes. -/
def State.setPps (s : State) (high : Bool) : State :=
  ({ s with out := s.out ++ [Out.pps high] } : State).modTm fun t => { t with ppsHigh := high }

/-- PPS_OUT_EDGE (R472). -/
def execPpsOutEdge (s : State) : Res :=
  let g := s.gtc % 1000000000
  if g = 0 ∧ s.tm.ppsHigh = false then done s (s.setPps true)
  else if 100000000 ≤ g ∧ s.tm.ppsHigh then done s (s.setPps false)
  else done s s

/-- A write of TIME_ALARM: the alarm fires when GTC next reaches it. -/
def State.writeAlarm (s : State) (v : Nat) : State :=
  (s.setFld F.TIME_ALARM_AT 0 v).modTm fun t => { t with alarmed := decide (v ≤ s.gtc) }

/-- TIME_ALARM_FIRE (R487, R489). -/
def execTimeAlarmFire (s : State) : Res :=
  if s.tm.alarmed = false ∧ s.fld F.TIME_ALARM_AT 0 ≤ s.gtc then
    done s (((s.modTm fun t => { t with alarmed := true }).raise 36).wakeBy 3 false)
  else done s s

end Sys2Proof.Machine
end

