-- ==== Sys2Proof/Machine/Evc.lean ====
section
/-! DEFINITION. The event controller (15_events.md R492 to R507). -/

namespace Sys2Proof.Machine

def State.modEvc (s : State) (f : Evc → Evc) : State := { s with evc := f s.evc }

/-! ## Sources (R492) -/

/-- A source that is ever raised on this part. -/
def State.evcSource (s : State) (n : Nat) : Bool :=
  if n < 24 then n < 14 || 16 ≤ n
  else if n < 64 then 32 ≤ n && n < 38
  else if n < 256 then decide ((n - 64) / 4 < s.id.ports)
  else if n < 384 then (320 ≤ n && n < 329) || (352 ≤ n && n < 357)
  else if n < 896 then s.coreExists (n - 384)
  else n < 1020

/-- An occurrence is applied (R495, R496): its pending bit, and its counter, which stops at 255. -/
def State.occur (s : State) (n : Nat) : State :=
  if !s.evcSource n then s
  else
    let p := s.fld F.EVC_PEND_PEND (n / 64)
    let c := s.fld F.EVC_CNT_COUNT (n / 8)
    let k := c / 256 ^ (n % 8) % 256
    (s.setFld F.EVC_PEND_PEND (n / 64) (p ||| 2 ^ (n % 64))).setFld F.EVC_CNT_COUNT (n / 8)
      (if k < 255 then c + 256 ^ (n % 8) else c)

/-! ## Wire inputs (R498, R499) -/

def State.wire (s : State) (j : Nat) : WireIn := SMap.get WireIn.init s.evc.wires j
def State.setWire (s : State) (j : Nat) (w : WireIn) : State := s.modEvc fun e => { e with wires := SMap.put WireIn.init e.wires j w }

/-- Occurrences of a wire source: `a` assertions and `r` releases. -/
def State.wireOccur (s : State) (j a r : Nat) : State :=
  let n := match s.fld F.EVC_WIRE_EDGE j with | 0 => a | 1 => r | _ => a + r
  (List.range n).foldl (fun t _ => t.occur (1008 + j)) s

/-- One input is sampled at a tick. -/
def State.sampleWire (s : State) (j : Nat) (v : Bool) : State :=
  let w := s.wire j
  let raw := s.fld F.EVC_WIRE_RAW j == 1
  let old := s.fld F.EVC_WIRE_FILT j == 1
  let n := s.fld F.EVC_WIRE_N j
  let run := if w.fresh || raw != v then 1 else min 255 (w.run + 1)
  let s := (s.setFld F.EVC_WIRE_RAW j (if v then 1 else 0)).setWire j ⟨run, false, false⟩
  let set (t : State) : State := t.setFld F.EVC_WIRE_FILT j (if v then 1 else 0)
  let p := if n = 0 && w.pulse then 1 else 0
  if w.fresh then set s
  else if (decide (n ≤ run) && old != v) || p = 1 then
    (set s).wireOccur j (p + (if !old && v then 1 else 0)) (p + (if old && !v then 1 else 0))
  else s

/-- A pulse between ticks, where the filter is bypassed. -/
def State.latchPulse (s : State) (j : Nat) : State := s.setWire j { s.wire j with pulse := true }

/-- WIRE_PULSE_LATCH (R498). -/
def execWirePulseLatch (j : Nat) (s : State) : Res :=
  if j < 12 ∧ s.fld F.EVC_WIRE_N j = 0 then done s (s.latchPulse j) else done s s

/-! ## Writes (R495, R500) -/

/-- A write of an EVC register that waits takes effect. -/
def State.applyEvc (s : State) (w : EvcWrite) : State :=
  let old := (s.reg w.reg w.idx).toNat
  let s := s.setReg w.reg w.idx (BitVec.ofNat 64 ((old &&& (2 ^ 64 - 1 - w.mask)) ||| (w.value &&& w.mask)))
  if w.reg = .EVC_WIRE then s.setWire w.idx { s.wire w.idx with fresh := true, pulse := false } else s

/-- The writes since the last tick: of the host, then of MC0, then of MC1. -/
def State.applyWrites (s : State) : State :=
  let l := s.evc.writes
  let s := s.modEvc fun e => { e with writes := [] }
  [0, 1, 2].foldl (fun t a => (l.filter fun w => w.from_ == a).foldl State.applyEvc t) s

/-! ## Delivery (R501, R503, R504) -/

/-- Sources that are pending and not masked, in increasing order. -/
def State.evcOpen (s : State) : List Nat :=
  (List.range 16).flatMap fun w =>
    let p := s.fld F.EVC_PEND_PEND w
    let m := s.fld F.EVC_MASK_MASK w
    if p = 0 then [] else ((List.range 64).filter fun b => p.testBit b && !m.testBit b).map (64 * w + ·)

/-- A source's route names a management core. -/
def State.routeMc (s : State) (m n : Nat) : Bool :=
  s.fld (if m = 0 then F.EVC_ROUTE_MC0 else F.EVC_ROUTE_MC1) n == 1 || (s.primary == m && s.fld F.EVC_ROUTE_PRIMARY n == 1)

/-- EVC_NEXT of a destination. -/
def State.setNext (s : State) (d : Nat) (l : List Nat) : State :=
  match l with
  | n :: _ => (s.setFld F.EVC_NEXT_VALID d 1).setFld F.EVC_NEXT_SRC d n
  | [] => (s.setFld F.EVC_NEXT_VALID d 0).setFld F.EVC_NEXT_SRC d 0

/-- A management core: its event input is asserted where EVC_NEXT comes to show a source and the core runs. -/
def State.deliverMc (s : State) (m : Nat) (l : List Nat) : State :=
  let was := s.fld F.EVC_NEXT_VALID m
  let s := s.setNext m l
  match l with
  | n :: _ => if was = 0 ∧ s.mcState m = 3 then { s with out := s.out ++ [.toMc m n] } else s
  | [] => s

/-- A set of sources as bits. -/
def bitsOf (l : List Nat) : Nat := l.foldl (fun v n => v ||| 2 ^ n) 0

/-- Numbers once each, in order of first place. -/
def once (l : List Nat) : List Nat := l.foldl (fun a n => if a.contains n then a else a ++ [n]) []

/-- The host: one message for each vector of the sources newly eligible. -/
def State.deliverHost (s : State) (l : List Nat) : State :=
  let fresh := l.filter fun n => !s.evc.hostEl.testBit n
  let s := (s.setNext 2 l).modEvc fun e => { e with hostEl := bitsOf l }
  (once (fresh.map fun n => s.fld F.EVC_ROUTE_VEC n)).foldl State.sendVector s

/-- One entry of the evergreen log. -/
def State.greenEntry (s : State) (n : Nat) : State :=
  let k := s.fld F.EVC_GLOGPOS_NEXT 0
  let s := (s.setFld F.EVC_GLOG_TICK k (s.gtc / 1024)).setFld F.EVC_GLOG_SRC k n
  (s.setFld F.EVC_GLOGPOS_NEXT 0 ((k + 1) % 32)).addFld F.EVC_GLOGPOS_TOTAL 0 1

/-- The evergreen island. -/
def State.deliverGreen (s : State) (l : List Nat) : State :=
  let fresh := l.filter fun n => !s.evc.greenEl.testBit n
  fresh.foldl State.greenEntry (s.modEvc fun e => { e with greenEl := bitsOf l })

/-- Step 3 of a tick. -/
def State.deliver (s : State) : State :=
  let l := s.evcOpen
  let s := (s.deliverMc 0 (l.filter (s.routeMc 0))).deliverMc 1 (l.filter (s.routeMc 1))
  let s := s.deliverHost (l.filter fun n => s.fld F.EVC_ROUTE_HOST n == 1)
  s.deliverGreen (l.filter fun n => s.fld F.EVC_ROUTE_GREEN n == 1)

/-! ## The tick (R495, R497) -/

/-- A tick falls now: at each multiple of 64, and where a forward step has passed one (R461, R465). The EVC does not run in DORMANT. -/
def State.tickDue (s : State) : Bool :=
  (s.gtc % 64 == 0 && s.evc.tick != some s.gtc || s.evc.stepped) && s.power != 3

/-- The event tick; `wires` holds a 1 for each wire input that is asserted. -/
def State.eventTick (s : State) (wires : Nat) : State :=
  let s := s.applyWrites
  let l := s.occ
  let s := l.foldl State.occur { s with occ := [] }
  let s := (List.range 12).foldl (fun t j => t.sampleWire j (wires.testBit j)) s
  (s.deliver.modEvc fun e => { e with tick := if s.gtc % 64 = 0 then some s.gtc else e.tick, stepped := false }).ringIrqs

/-- EVENT_TICK (R495). -/
def execEventTick (wires : Nat) (s : State) : Res := if s.tickDue then done s (s.eventTick wires) else done s s

end Sys2Proof.Machine
end

