-- ==== Sys2Proof/Machine/MboxBase.lean ====
section
/-! DEFINITION. The mailbox: frames, availability, responses, interruption (17_mailbox.md R534 to R541). -/

namespace Sys2Proof.Machine

def State.modMbox (s : State) (f : Mbox → Mbox) : State := { s with mbox := f s.mbox }
def State.modBoot (s : State) (f : Boot → Boot) : State := { s with boot := f s.boot }

/-! ## The server -/

/-- R513, R524: ROM on MC0 serves: in minimal mode, or with both cores HELD. -/
def State.romServes (s : State) : Bool := s.minimal || (s.mcState 0 == 4 && s.mcState 1 == 4)

/-- The primary role is held by a RUNNING core, or ROM serves (R541). -/
def State.serverUp (s : State) : Bool := s.romServes || s.mcState s.primary == 3

/-- MBOX_STAT.AVAIL (R541). -/
def State.mboxAvail (s : State) : Bool :=
  s.serverUp && (match s.mbox.downUntil with | some t => decide (t ≤ s.refNs) | none => true)

/-- SERVER of a response: the VERSION of the firmware, 0 for ROM. -/
def State.serverVersion (s : State) : Nat := if s.romServes then 0 else s.fld F.ROOT_IMG_VERSION (s.mcSlot s.primary)

/-- MBOX_STAT.SERVER. -/
def State.serverCode (s : State) : Nat := if !s.mboxAvail then 0 else if s.romServes then 3 else s.primary + 1

/-! ## Frames (R535) -/

/-- The request of a channel. -/
def State.mboxReq (s : State) (ch : Nat) : List Byte :=
  match ch with
  | 0 => (List.range 512).flatMap fun i => toBytes 8 (s.reg .MBOX_REQ i).toNat
  | 1 => match s.mbox.ch1 with | some r => r.2 | none => []
  | _ => match s.mbox.ch2 with | some r => fitBytes r.2.2.bytes r.2.2.payload | none => []

/-- Table 17.1. -/
def mqCmd (b : List Byte) : Nat := byF b 0 2
def mqSeq (b : List Byte) : Nat := byF b 2 2
def mqLen (b : List Byte) : Nat := byF b 4 2
/-- An argument, by its offset from byte 16. -/
def mqArg (b : List Byte) (off n : Nat) : Nat := byF b (16 + off) n

/-- Table 17.2. -/
def State.mboxFrame (s : State) (req : List Byte) (status detail : Nat) (res : List Byte) : List Byte :=
  fitBytes 4 (req.take 4) ++ toBytes 2 res.length ++ toBytes 1 status ++ toBytes 1 detail ++ toBytes 4 s.serverVersion
    ++ toBytes 4 0 ++ res

/-- The response of channel 0 (R536, step 4). -/
def State.respond0 (s : State) (f : List Byte) : State :=
  let s := (List.range 512).foldl (fun t i => t.setReg .MBOX_RSP i (BitVec.ofNat 64 (byF f (8 * i) 8))) s
  (s.setFld F.MBOX_STAT_STATE 0 3).raise 4

/-- The response of a channel. -/
def State.respond (s : State) (ch status detail : Nat) (res : List Byte) : State :=
  let f := s.mboxFrame (s.mboxReq ch) status detail res
  let s := match ch with
    | 0 => s.respond0 f
    | 1 => match s.mbox.ch1 with
      | some r => { s with out := s.out ++ [Out.mgmt r.1 f] }.modMbox fun m => { m with ch1 := none }
      | none => s
    | _ => match s.mbox.ch2 with
      | some r => (s.modMbox fun m => { m with ch2 := none }).reply r.2.2 stOK (r.2.2.opspec % 2 ^ 16) f
      | none => s
  s.modMbox fun m => { m with busy := none }

/-- R536: a write of MBOX_POST. -/
def State.mboxPost (s : State) (go : Bool) : State :=
  let st := s.fld F.MBOX_STAT_STATE 0
  if st = 1 ∨ st = 2 then s.addFld F.MBOX_STAT_POSTERR 0 1
  else if go then ((s.setFld F.MBOX_STAT_STATE 0 1).raise 3).modMbox fun m => { m with posted := m.posted ++ [0] }
  else s

/-- R549: a standby write left open is closed, its slot INVALID. -/
def State.closeStandby (s : State) : State :=
  match s.mbox.standby with
  | some b => (s.setFld F.ROOT_IMG_STATE b.slot 3).modMbox fun m => { m with standby := none }
  | none => s

/-- R541: the primary core has expired: a request that is BUSY is answered, and the mailbox is away until a new primary serves. -/
def State.mboxInterrupt (s : State) : State :=
  let s := match s.mbox.busy with | some ch => s.respond ch stNOT_READY 4 [] | none => s
  s.closeStandby.modMbox fun m => { m with downUntil := some (s.refNs + 2000000000) }

/-- R541, R547: a MGMT, WARM or COLD reset discards every request, and Ethernet addresses and endpoints. -/
def State.mboxReset (s : State) : State :=
  let s := s.closeStandby
  { s with mbox := Mbox.init }.modHost fun h => { h with ends := [], addrs := [] }

end Sys2Proof.Machine
end

