-- ==== Sys2Proof/Machine/Sig.lean ====
section
/-! DEFINITION. ECDSA P-384 verification (16_boot_firmware.md R517, which names FIPS 186-5). PRESUMED: the constants of the curve are
those of that standard. -/

namespace Sys2Proof.Machine

namespace P384

/-- The field prime. -/
def p : Nat := 2 ^ 384 - 2 ^ 128 - 2 ^ 96 + 2 ^ 32 - 1
/-- The order of the group. -/
def n : Nat := 0xFFFFFFFFFFFFFFFFFFFFFFFFFFFFFFFFFFFFFFFFFFFFFFFFC7634D81F4372DDF581A0DB248B0A77AECEC196ACCC52973
/-- The coefficient b. -/
def b : Nat := 0xB3312FA7E23EE7E4988E056BE3F82D19181D9C6EFE8141120314088F5013875AC656398D8A2ED19D2A85C8EDD3EC2AEF
/-- The generator. -/
def gx : Nat := 0xAA87CA22BE8B05378EB1C71EF320AD746E1D3B628BA79B9859F741E082542A385502F25DBF55296C3A545E3872760AB7
def gy : Nat := 0x3617DE4A96262C6F5D9E98BF9292DC29F8F41DBD289A147CE9DA3113B5F0B8C00A60B1CE1D7E819D7A431D7C90EA0E5F

/-- x to the e modulo m, e below 2^k. -/
def powMod (m : Nat) : Nat → Nat → Nat → Nat
  | 0, _, _ => 1 % m
  | k + 1, x, e =>
    let h := powMod m k (x * x % m) (e / 2)
    if e % 2 = 1 then x * h % m else h

/-- The inverse modulo a prime. -/
def inv (m x : Nat) : Nat := powMod m 384 (x % m) (m - 2)

/-- A point of the curve; none the point at infinity. -/
abbrev Pt := Option (Nat × Nat)

/-- Difference modulo p. -/
def sub (x y : Nat) : Nat := (x + p - y % p) % p

/-- The third point of a line with slope `l`. -/
def third (l x1 y1 x2 : Nat) : Pt :=
  let x := sub (sub (l * l) x1) x2
  some (x, sub (l * sub x1 x) y1)

/-- Sum of two points. -/
def add (a c : Pt) : Pt :=
  match a, c with
  | none, q => q
  | q, none => q
  | some (x1, y1), some (x2, y2) =>
    if x1 = x2 then
      if (y1 + y2) % p = 0 then none
      else third (sub (3 * x1 * x1) 3 * inv p (2 * y1) % p) x1 y1 x2
    else third (sub y2 y1 * inv p (sub x2 x1) % p) x1 y1 x2

/-- A multiple of a point, the factor below 2^k. -/
def mul : Nat → Nat → Pt → Pt
  | 0, _, _ => none
  | k + 1, e, q =>
    let h := mul k (e / 2) (add q q)
    if e % 2 = 1 then add q h else h

/-- A point in uncompressed form on the curve. -/
def point (bs : List Byte) : Pt :=
  let x := Sha.beNat ((bs.drop 1).take 48)
  let y := Sha.beNat ((bs.drop 49).take 48)
  if bs.length = 97 ∧ bs.head? = some 4 ∧ x < p ∧ y < p ∧ y * y % p = (x * x * x + (p - 3) * x + b) % p then some (x, y) else none

/-- The signature (r, s) verifies for a hash. -/
def verifies (key hash sig : List Byte) : Bool :=
  let r := Sha.beNat (sig.take 48)
  let s := Sha.beNat ((sig.drop 48).take 48)
  match point key with
  | none => false
  | some q =>
    if r = 0 ∨ n ≤ r ∨ s = 0 ∨ n ≤ s then false
    else
      let w := inv n s
      let e := Sha.beNat hash
      match add (mul 384 (e * w % n) (some (gx, gy))) (mul 384 (r * w % n) (some q)) with
      | none => false
      | some (x, _) => x % n == r

end P384

end Sys2Proof.Machine
end

