-- ==== Sys2Proof/Machine/Boot.lean ====
section
/-! DEFINITION. Start attempts, image verification, the fetch protocol, management cores and their watchdogs (16_boot_firmware.md R509 to
R526, R532). -/

namespace Sys2Proof.Machine

/-! ## The boot record (R511, R532, Table 16.8) -/

def State.bootRec (s : State) : Nat := s.psWord 8
def State.recStage (s : State) : Nat := bits s.bootRec 24 21
def State.recReason (s : State) : Nat := bits s.bootRec 20 13

/-- FAILCNT. -/
def State.failCnt (s : State) : Nat := bits s.bootRec 31 30

/-- Replace bits of the low word. -/
def State.setRec (s : State) (hi lo v : Nat) : State :=
  s.psSet 8 (s.bootRec - bits s.bootRec hi lo * 2 ^ lo + v % 2 ^ (hi + 1 - lo) * 2 ^ lo)

/-- The stage shown, and reached in the boot record. -/
def State.setStage (s : State) (st : Nat) : State := (s.setFld F.ROOT_BOOT_STAGE 0 st).setRec 24 21 st

/-- The reason shown and recorded. -/
def State.setReason (s : State) (r : Nat) : State := (s.setFld F.ROOT_BOOT_REASON 0 r).setRec 20 13 r

/-- The slot tried or being fetched. -/
def State.setSlot (s : State) (k : Nat) : State := (s.setFld F.ROOT_BOOT_SLOT 0 k).setRec 25 25 k

/-- FAILCNT, in the record and its copy. -/
def State.setFail (s : State) (n : Nat) : State := (s.setRec 31 30 n).setFld F.ROOT_BOOT_FAILCNT 0 n

/-- The VERSION of the image tried. -/
def State.setTried (s : State) (v : Nat) : State := (s.setFld F.ROOT_BOOT_VERSION 0 v).psSet 9 v

/-! ## Management cores -/

def State.mc (s : State) (m : Nat) : Mc := SMap.get Mc.init s.boot.mcs m
def State.setMc (s : State) (m : Nat) (v : Mc) : State := s.modBoot fun b => { b with mcs := SMap.put Mc.init b.mcs m v }
def State.setMcState (s : State) (m st : Nat) : State :=
  s.setFld (if m = 0 then F.ROOT_MGMT_MC0STATE else F.ROOT_MGMT_MC1STATE) 0 st
def State.setMcSlot (s : State) (m k : Nat) : State :=
  s.setFld (if m = 0 then F.ROOT_MGMT_MC0SLOT else F.ROOT_MGMT_MC1SLOT) 0 k

/-- The primary role passes (R523, R525): source 2. -/
def State.setPrimary (s : State) (m : Nat) : State :=
  if s.primary = m then s else (s.setFld F.ROOT_MGMT_PRIMARY 0 m).raise 2

/-- Both cores run ROM; MC0 holds the primary role (R521). -/
def State.toRom (s : State) : State :=
  let s := ((s.setMc 0 Mc.init).setMc 1 Mc.init).modBoot fun b => { b with switchTo := none }
  ((s.setMcState 0 1).setMcState 1 1).setFld F.ROOT_MGMT_PRIMARY 0 0

/-- Stage 5: firmware begins on both cores from a slot. -/
def State.startFw (s : State) (k : Nat) : State :=
  let s := (((s.setMcState 0 2).setMcState 1 2).setMcSlot 0 k).setMcSlot 1 k
  ((s.setSlot k).setStage 5).modBoot fun b => { b with stageAt := s.refNs }

/-! ## Minimal mode (R513) -/

/-- Every enabled port trains. -/
def State.trainAll (s : State) : State :=
  (List.range s.id.ports).foldl (fun t n =>
    if t.fld F.PORT_CTL_ENABLE n = 1 then (if t.pstate n = 3 then t.leaveUp n else t).startTraining n else t) s

/-- R557: enabled ports that are off train. -/
def State.trainEnabled (s : State) : State :=
  (List.range s.id.ports).foldl (fun t n => if t.fld F.PORT_CTL_ENABLE n = 1 ∧ t.pstate n = 0 then t.startTraining n else t) s

/-- The part enters minimal mode. -/
def State.enterMinimal (s : State) : State :=
  ((s.toRom.setFld F.ROOT_BOOT_MINIMAL 0 1).setStage 7).trainAll.raise 5

/-- An attempt fails (R511). -/
def State.failAttempt (s : State) (reason : Nat) : State :=
  let k := s.fld F.ROOT_BOOT_SLOT 0
  let s := (s.setReason reason).setRec 24 21 (s.fld F.ROOT_BOOT_STAGE 0)
  let s := s.modBoot fun b => { b with fetches := SMap.put none b.fetches 0 none, verifs := [], failed := some k, order := [] }
  if s.failCnt < 3 then s.toRom.modBoot fun b => { b with due := some 6 } else s.enterMinimal

/-! ## Images (R515 to R518) -/

def State.slotState (s : State) (k : Nat) : Nat := s.fld F.ROOT_IMG_STATE k
def State.image (s : State) (k : Nat) : List Byte := SMap.get [] s.boot.imgs k

/-- The hash of a key slot; none where it is not programmed. At shipment slot 0 is programmed. -/
def State.keyHash (s : State) (k : Nat) : Option (List Byte) :=
  SMap.get (if k = 0 then some Config.shipKey else none) s.boot.keys k

/-- The bit of the part's ordering code in CODES. -/
def PartId.codeBit (p : PartId) : Nat := p.codeNum - 1

/-- Bytes that are zero. -/
def zeros (b : List Byte) (off n : Nat) : Bool := ((b.drop off).take n).all fun v => v == 0

/-- The first check of R517. -/
def State.formatOk (s : State) (b : List Byte) : Bool :=
  let len := byF b 16 4
  byF b 0 8 == 0x314D495746564C46 && zeros b 22 2 && zeros b 121 391 && decide (608 ≤ len ∧ len ≤ 8388512 ∧ len + 96 ≤ b.length)
    && decide (byF b 21 1 < 8) && (byF b 21 1).testBit s.id.codeBit

/-- R517: 0 where an image passes, else a reason of Table 16.9. -/
def State.verifyImage (s : State) (b : List Byte) : Nat :=
  let len := byF b 16 4
  let k := byF b 20 1
  let key := (b.drop 24).take 97
  if !s.formatOk b then 5
  else if 4 ≤ k ∨ s.keyHash k ≠ some (sha384 key) then 3
  else if (s.fld F.ROOT_FUSE_REVOKED 0).testBit k then 4
  else if byF b 12 4 < s.fld F.ROOT_FUSE_SVNFLOOR 0 then 6
  else if P384.verifies key (sha384 (b.take len)) ((b.drop len).take 96) then 0
  else 2

/-- A slot takes the state that a verification gives it. -/
def State.slotVerified (s : State) (k r : Nat) : State :=
  let b := s.image k
  ((s.setFld F.ROOT_IMG_STATE k (if r = 0 then 2 else 3)).setFld F.ROOT_IMG_KEYIDX k (byF b 20 1)).setFld F.ROOT_IMG_VERSION k (byF b 8 4)

/-- A verification of a slot begins. -/
def State.beginVerify (s : State) (k : Nat) (a : Asker) : State := s.modBoot fun b => { b with verifs := b.verifs ++ [(k, a)] }

/-! ## Fetches (R519, R520) -/

def State.fwFetch (s : State) (i : Nat) : Option Fetch := SMap.get none s.boot.fetches i
def State.setFetch (s : State) (i : Nat) (f : Option Fetch) : State :=
  s.modBoot fun b => { b with fetches := SMap.put none b.fetches i f }

/-- A new XID: the part chooses it. -/
def State.newXid (s : State) : State × Nat :=
  let f := s.takeFree
  (f.1, Config.freeValue f.2 % 2 ^ 32)

/-- A fetch into a slot begins (0 of the attempt, 1 standby). -/
def State.beginFetch (s : State) (i k : Nat) : State :=
  let x := s.newXid
  (x.1.setFld F.ROOT_IMG_STATE k 1).setFetch i (some ⟨k, x.2, none, 0, [], [], 0, none, i == 1, 0⟩)

/-- R520: a fetch returns to step 1 with a new XID; the bytes read so far are discarded. -/
def State.refetch (s : State) (i : Nat) (f : Fetch) : State :=
  let x := s.newXid
  x.1.setFetch i (some { f with xid := x.2, offer := none, next := 0, reads := [], got := [], solicit := none })

/-- A fetch message to a server (0 all nodes), Table 16.5. -/
def State.fetchMsg (s : State) (to_ typ xid off : Nat) (body : List Byte) : State :=
  { s with out := s.out ++ [.mgmt to_ (toBytes 4 0x46564C46 ++ toBytes 1 1 ++ toBytes 1 typ ++ toBytes 2 body.length ++ toBytes 4 xid
    ++ toBytes 4 off ++ body)] }

/-- VERSION of a slot in a SOLICIT. -/
def State.slotVersion (s : State) (k : Nat) : Nat := if s.slotState k = 2 then s.fld F.ROOT_IMG_VERSION k else 0

/-- SOLICIT is sent. -/
def State.sendSolicit (s : State) (i : Nat) (f : Fetch) : State :=
  (s.fetchMsg 0 1 f.xid 0 (toBytes 16 s.id.serial ++ toBytes 1 s.id.codeNum ++ toBytes 1 0xB0 ++ toBytes 1 f.slot ++ toBytes 1 s.failCnt
    ++ toBytes 4 (s.slotVersion 0) ++ toBytes 4 (s.slotVersion 1))).setFetch i (some { f with solicit := some s.refNs })

/-- The fetches in progress. -/
def State.fetchList (s : State) : List (Nat × Fetch) := [0, 1].filterMap fun i => (s.fwFetch i).map fun f => (i, f)

/-- A SOLICIT of a fetch is due. -/
def State.solicitDue (s : State) (f : Fetch) : Bool :=
  f.offer.isNone && f.got.isEmpty && (match f.solicit with | some t => decide (t + 1000000000 ≤ s.refNs) | none => true)

/-- SOLICIT (R520). -/
def execSolicit (s : State) : Res :=
  match s.fetchList.find? fun x => s.solicitDue x.2 with
  | some x => if s.linkUp 3 then done s (s.sendSolicit x.1 x.2) else done s s
  | none => done s s

/-- The blocks of an image, and the bytes of one. -/
def fetchBlocks (size : Nat) : Nat := (size + 1023) / 1024
def blockBytes (size b : Nat) : Nat := min 1024 (size - 1024 * b)

/-- The READ of a block. -/
def State.sendRead (s : State) (f : Fetch) (b : Nat) : State :=
  match f.offer with
  | some (server, size) => s.fetchMsg server 3 f.xid (1024 * b) (toBytes 2 (blockBytes size b))
  | none => s

/-- READs are sent while at most 16 are outstanding. -/
def State.readAhead (s : State) (i : Nat) (f : Fetch) : State :=
  match f.offer with
  | none => s.setFetch i (some f)
  | some (_, size) =>
    let k := min (16 - f.reads.length) (fetchBlocks size - f.next)
    let bs := (List.range k).map (f.next + ·)
    let s := bs.foldl (fun t b => t.sendRead f b) s
    s.setFetch i (some { f with next := f.next + k, reads := f.reads ++ bs.map fun b => (b, s.refNs) })

/-- The fetch of an XID. -/
def State.fetchOf (s : State) (xid : Nat) : Option (Nat × Fetch) := s.fetchList.find? fun x => x.2.xid == xid

/-- An OFFER is accepted. -/
def State.takeOffer (s : State) (i server size : Nat) (f : Fetch) : State :=
  s.readAhead i { f with offer := some (server, size), heard := s.refNs }

/-- OFFER (R520). -/
def execOffer (server xid size : Nat) (s : State) : Res :=
  match s.fetchOf xid with
  | some (i, f) =>
    if f.offer.isNone ∧ f.got.isEmpty ∧ 704 ≤ size ∧ size ≤ 8388608 ∧ s.linkUp 3 then done s (s.takeOffer i server size f) else done s s
  | none => done s s

/-- The image is whole: its verification begins. -/
def State.fetchWhole (s : State) (i size : Nat) (f : Fetch) : State :=
  let img := (List.range (fetchBlocks size)).flatMap fun b => SMap.get [] f.got b
  let s := (s.setFetch i (some f)).modBoot fun b => { b with imgs := SMap.put [] b.imgs f.slot img }
  let s := s.beginVerify f.slot (if f.standby then .standby else .fetched)
  if f.standby then s else (s.setStage 4).setTried (byF img 8 4)

/-- A block arrives. -/
def State.takeData (s : State) (i size b : Nat) (f : Fetch) (data : List Byte) : State :=
  let f := { f with reads := f.reads.filter (fun r => r.1 != b), got := SMap.put [] f.got b data, heard := s.refNs }
  if f.got.length = fetchBlocks size then s.fetchWhole i size f else s.readAhead i f

/-- DATA (R520): of a block that is outstanding. -/
def execData (xid off : Nat) (data : List Byte) (s : State) : Res :=
  match s.fetchOf xid with
  | some (i, f) =>
    match f.offer with
    | some (_, size) =>
      if off % 1024 = 0 ∧ (f.reads.any fun r => r.1 == off / 1024) ∧ data.length = blockBytes size (off / 1024) ∧ s.linkUp 3 then
        done s (s.takeData i size (off / 1024) f data)
      else done s s
    | none => done s s
  | none => done s s

/-- READs unanswered for 100 ms. -/
def State.readsLate (s : State) (f : Fetch) : List (Nat × Nat) := f.reads.filter fun r => decide (r.2 + 100000000 ≤ s.refNs)

/-- They are sent again. -/
def State.resendReads (s : State) (i : Nat) (f : Fetch) : State :=
  let l := s.readsLate f
  let s := l.foldl (fun t r => t.sendRead f r.1) s
  s.setFetch i (some { f with reads := f.reads.map fun r => if l.contains r then (r.1, s.refNs) else r })

/-- READ_RESEND (R520). -/
def execReadResend (s : State) : Res :=
  match s.fetchList.find? fun x => !(s.readsLate x.2).isEmpty with
  | some x => done s (s.resendReads x.1 x.2)
  | none => done s s

/-- No DATA for 5 s. -/
def State.serverGone (s : State) (f : Fetch) : Bool := !f.reads.isEmpty && decide (f.heard + 5000000000 ≤ s.refNs)

/-- SERVER_LOST (R520). -/
def execServerLost (s : State) : Res :=
  match s.fetchList.find? fun x => s.serverGone x.2 with
  | some x => done s (s.refetch x.1 x.2)
  | none => done s s

/-! ## Stage 2 (R516) -/

/-- The next choice of the attempt: a VALID slot of the order is verified; else a fetch into pref. -/
def State.tryNext (s : State) (order : List Nat) (pref : Nat) : State :=
  match order.dropWhile fun k => s.slotState k != 2 with
  | k :: r =>
    let s := ((s.setSlot k).setStage 4).setTried (byF (s.image k) 8 4)
    (s.modBoot fun b => { b with order := r }).beginVerify k .attempt
  | [] => (((s.modBoot fun b => { b with order := [], stageAt := s.refNs }).setSlot pref).setStage 3).beginFetch 0 pref

/-- The boot configuration word. -/
def State.prefSlot (s : State) : Nat := s.psWord 0xB % 2
def State.fetchAll (s : State) : Bool := (s.psWord 0xB).testBit 1

/-- The slots that stage 2 tries, and the slot it fetches into. -/
def State.selectSlots (s : State) (cause : Nat) : List Nat × Nat :=
  let pref := s.prefSlot
  if cause = 5 then ([], s.boot.retry.getD 0)
  else if s.fetchAll then ([], pref)
  else match s.boot.failed with
    | some k => if cause = 6 ∧ s.slotState (1 - k) = 2 then ([1 - k], pref) else ([pref, 1 - pref], pref)
    | none => ([pref, 1 - pref], pref)

/-- A start attempt: stages 0 to 2. -/
def State.attempt (s : State) (cause : Nat) : State :=
  -- R532: a reset ended the attempt before
  let s := if 1 ≤ s.recStage ∧ s.recStage ≤ 5 ∧ s.recReason = 0 then s.setRec 20 13 9 else s
  let full := s.failCnt = 3
  let minimal := s.fld F.ROOT_BOOT_MINIMAL 0 = 1
  let s := (s.toRom.setFld F.ROOT_BOOT_MINIMAL 0 0).modBoot fun b => { b with due := none, stageAt := s.refNs }
  let s := if minimal then s.checkHeard else s
  let s := (s.setFail (min 3 (s.failCnt + 1))).psSet 0xA ((s.psWord 0xA + 1) % 2 ^ 32)
  let s := (((s.setRec 29 26 cause).setFld F.ROOT_BOOT_CAUSE 0 cause).setStage 0).setReason 0
  let s := s.setFld F.ROOT_BOOT_VERSION 0 0
  let s := if cause ≤ 4 then s.trainEnabled else s
  if full ∧ cause ≠ 5 then s.enterMinimal
  else let o := s.selectSlots cause; s.tryNext o.1 o.2

/-- START_ATTEMPT (R510, R511): an attempt of a cause that is due, unless the part is held in reset (R591). -/
def execStartAttempt (cause : Nat) (s : State) : Res :=
  if s.boot.due = some cause ∧ s.pins.held = false then done s (s.attempt cause) else done s s

/-- A stage with a limit has lasted too long (Table 16.1, R520). -/
def State.overrun (s : State) : Option Nat :=
  let since (n : Nat) : Bool := decide (s.boot.stageAt + n * 1000000000 ≤ s.refNs)
  match s.fld F.ROOT_BOOT_STAGE 0, s.fwFetch 0 with
  | 3, some f => if since 60 then some (if f.bad = 0 then 1 else f.bad) else none
  | 4, some f => if since 60 then some (if f.bad = 0 then 1 else f.bad) else none
  | 5, _ => if since 120 then some 7 else none
  | _, _ => none

/-- STAGE_OVERRUN (R509, R511). -/
def execStageOverrun (s : State) : Res := match s.overrun with | some r => done s (s.failAttempt r) | none => done s s

/-- BOOT_OK (R512, R521): both cores are RUNNING. -/
def State.bootOk (s : State) : State := (((s.setFail 0).setStage 6).setFld F.ROOT_BOOT_BOOT_OK 0 1).raise 5

def execBootOk (s : State) : Res :=
  if s.fld F.ROOT_BOOT_STAGE 0 = 5 ∧ s.mcState 0 = 3 ∧ s.mcState 1 = 3 then done s s.bootOk else done s s

/-! ## Restarts and watchdogs (R522 to R525) -/

/-- A restart of a core: it reloads a slot and verifies it. -/
def State.restartMc (s : State) (m k : Nat) (a : Asker) : State :=
  ((s.setMcState m 1).setMc m { s.mc m with kickAt := none, restartAt := some s.refNs }).beginVerify k a

/-- Counts of expiries. -/
def State.countExpiry (s : State) (m : Nat) : State :=
  (s.addFld (if m = 0 then F.ROOT_MGMT_MC0EXP else F.ROOT_MGMT_MC1EXP) 0 1).raise m

/-- R523: the primary role after an expiry of core `m`. -/
def State.expiryRole (s : State) (m : Nat) : State :=
  if s.primary ≠ m then s
  else
    let s := s.mboxInterrupt
    if s.mcState (1 - m) = 3 then s.setPrimary (1 - m) else s

/-- R524: a restart fails; after three in a row the core is HELD. -/
def State.restartFailed (s : State) (m : Nat) : State :=
  let s := s.countExpiry m
  let v := s.mc m
  let s := s.modBoot fun b => { b with verifs := b.verifs.filter fun x => x.2 != .restart m && x.2 != .switch m }
  if 3 ≤ v.fails + 1 then
    ((s.setMcState m 4).setMc m { v with kickAt := none, restartAt := none, fails := v.fails + 1 }).modBoot fun b =>
      { b with switchTo := if b.switchTo = some m then none else b.switchTo }
  else (s.setMc m { v with fails := v.fails + 1 }).restartMc m (s.mcSlot m) (.restart m)

/-- A watchdog expires: before BOOT_OK the attempt fails. -/
def State.expire (s : State) (m : Nat) : State :=
  let s := s.countExpiry m
  if s.fld F.ROOT_BOOT_BOOT_OK 0 = 0 then s.failAttempt 8
  else if (s.mc m).restartAt.isSome then s.restartFailed m
  else (s.expiryRole m).restartMc m (s.mcSlot m) (.restart m)

/-- The watchdog of a core has run out. -/
def State.wdogOut (s : State) (m : Nat) : Bool :=
  let p := s.fld F.ROOT_WDOG_PERIOD m
  match (s.mc m).kickAt with
  | some t => p != 0 && (s.mcState m == 2 || s.mcState m == 3) && decide (t + p * 1000000 ≤ s.refNs)
  | none => false

/-- WATCHDOG_EXPIRE (R522, R523). -/
def execWatchdogExpire (m : Nat) (s : State) : Res := if m < 2 ∧ s.wdogOut m then done s (s.expire m) else done s s

/-- WATCHDOG_KICK (R522): a core's firmware sets its period, or restarts the count. -/
def execWatchdogKick (m period : Nat) (s : State) : Res :=
  if m < 2 ∧ (s.mcState m = 2 ∨ s.mcState m = 3) then
    done s ((s.setFld F.ROOT_WDOG_PERIOD m (period % 65536)).setMc m { s.mc m with kickAt := some s.refNs })
  else done s s

/-- A core enters RUNNING; R524: the first to do so takes the role where the primary core does not run; R525: a role switch ends. -/
def State.runMc (s : State) (m : Nat) : State :=
  let s := (s.setMcState m 3).setMc m { s.mc m with restartAt := none, fails := 0 }
  let ok := s.fld F.ROOT_BOOT_BOOT_OK 0 = 1
  if s.boot.switchTo = some m then (s.modBoot fun b => { b with switchTo := none }).setPrimary m
  else if ok ∧ s.mcState s.primary ≠ 3 then (s.setPrimary m).modMbox fun b => { b with downUntil := none }
  else if m = s.primary then s.modMbox fun b => { b with downUntil := none }
  else s

/-- MC_RUNNING (R521). -/
def execMcRunning (m : Nat) (s : State) : Res := if m < 2 ∧ s.mcState m = 2 then done s (s.runMc m) else done s s

/-- MC_RESTART_TIMEOUT (R524): a restarted core has not reached RUNNING within 120 s. -/
def execMcRestartTimeout (m : Nat) (s : State) : Res :=
  match (s.mc m).restartAt with
  | some t => if m < 2 ∧ t + 120000000000 ≤ s.refNs then done s (s.restartFailed m) else done s s
  | none => done s s

/-! ## The end of a verification (R517, R520) -/

/-- DONE of a fetch. -/
def State.sendDone (s : State) (f : Fetch) (r : Nat) : State :=
  match f.offer with
  | some (server, _) => s.fetchMsg server 5 f.xid 0 (toBytes 1 (if r = 0 then stOK else stFAULTED) ++ toBytes 1 r)
  | none => s

/-- What the asker of a verification does with its result. -/
def State.verified (s : State) (k : Nat) (a : Asker) (r : Nat) : State :=
  match a with
  | .attempt => if r = 0 then s.startFw k else s.tryNext s.boot.order s.prefSlot
  | .fetched => match s.fwFetch 0 with
    | some f =>
      let s := s.sendDone f r
      if r = 0 then (s.setFetch 0 none).startFw k else (s.setStage 3).refetch 0 { f with bad := r }
    | none => s
  | .standby => match s.fwFetch 1 with
    | some f => (s.sendDone f r).setFetch 1 none
    | none => s
  | .restart m => if r = 0 then s.setMcState m 2 else s.restartFailed m
  | .switch m => if r = 0 then (s.setMcState m 2).setMcSlot m k else s.restartFailed m

/-- The first verification of a slot ends. -/
def State.endVerify (s : State) (k : Nat) (a : Asker) : State :=
  let r := s.verifyImage (s.image k)
  let s := s.modBoot fun b => { b with verifs := b.verifs.erase (k, a) }
  (s.slotVerified k r).verified k a r

/-- IMAGE_VERIFIED (R517). -/
def execImageVerified (slot : Nat) (s : State) : Res :=
  match s.boot.verifs.find? fun v => v.1 == slot with
  | some v => done s (s.endVerify v.1 v.2)
  | none => done s s

/-! ## Persistent writes (R528 to R531) -/

/-- Table 16.7: a word marked Host. -/
def psHost (w : Nat) : Bool :=
  w == 6 || w == 0xB || (decide (0x15 ≤ w ∧ w ≤ 0x18)) || decide (0x40 ≤ w ∧ w ≤ 0x6F) || decide (0x80 ≤ w ∧ w ≤ 0x13F)

/-- Table 16.7: a word that is listed and not the factory's. -/
def psOpen (w : Nat) : Bool :=
  psHost w || decide (8 ≤ w ∧ w ≤ 0xA) || decide (0x10 ≤ w ∧ w ≤ 0x14) || decide (0x200 ≤ w ∧ w ≤ 0x23F)
    || decide (0x1000 ≤ w ∧ w ≤ 0x3FFF)

/-- A persistent write with what follows from the word's new value. -/
def State.psWrite (s : State) (w v : Nat) : State :=
  let old := s.reg .TIME_MASTER 0
  (s.psSet w v).masterSet old

/-- A write of PS_DATA; where 64 words await writing it is held back. -/
def State.writePsData (s : State) (by_ : Requester) (v : Nat) : State :=
  let w := s.fld F.PS_INDEX_WORD 0
  let ok := match by_ with | .host => psHost w | _ => psOpen w
  if !ok then s.refuseWrite .PS_DATA 0
  else if 64 ≤ s.psQ.length then s
  else s.psWrite w (v % 2 ^ 32)

/-- PS_DATA_WRITE (R531). -/
def execPsDataWrite (by_ : Requester) (value : Nat) (s : State) : Res := done s (s.writePsData by_ value)

/-- A word's write completes: its counter advances (R529). -/
def State.psDone (s : State) (w : Nat) : State :=
  let n := min 1000000 (SMap.get 0 s.psCount w + 1)
  let s := { s with psQ := s.psQ.drop 1, psCount := SMap.put 0 s.psCount w n }
  if n = 990000 then ((s.hwSet F.PS_STAT_WEAR 0 1).setFld F.PS_STAT_WEARWORD 0 w).raise 6 else s

/-- PS_WRITE_COMPLETE (R528). -/
def execPsWriteComplete (s : State) : Res := match s.psQ with | e :: _ => done s (s.psDone e.1) | [] => done s s

end Sys2Proof.Machine
end

