-- ==== Sys2Proof/Machine/Reset.lean ====
section
/-! DEFINITION. Resets, loss of power, power states reached, thermal events (18_resets_faults_maintenance.md R555 to R567, R583; 14 R484
to R491; 16 R510; 19 R591, R599, R600; 11 R361, R362, R364). -/

namespace Sys2Proof.Machine

/-! ## Registers -/

/-- The register of a place of the register file. -/
def keyReg (k : Nat) : RegName := allRegs.getD (k / 2 ^ 24) .ROOT_ID

/-- The survival class of a place. -/
def keyClass (k : Nat) : SClass := (regInfo (keyReg k)).cls

/-- Registers of the compute dies (CORECTL, THKT, CAL, DIST). -/
def keyDie (k : Nat) : Bool := decide (0x1000000 ≤ (regInfo (keyReg k)).base)

/-- Registers that a test picks return to their defaults. -/
def State.defaultRegs (s : State) (p : Nat → Bool) : State := { s with regs := s.regs.filter fun e => !p e.1 }

/-- R364: the default roles of eight ports. -/
def State.roleWord (s : State) (i : Nat) : Nat :=
  ofBytes ((List.range 8).map fun j => BitVec.ofNat 8 (defaultRole s.id.ports (s.fld F.ROUTE_NODE_ORIENT 0) (8 * i + j)))

/-- The persistent port enable mask (Table 16.7). -/
def State.enableMask (s : State) : Nat := s.psWord 0x15 + s.psWord 0x16 * 2 ^ 32

/-- Registers whose default is of the part: default roles, the enable bits of the ports. -/
def State.partDefaults (s : State) : State :=
  let s := (List.range (s.id.ports / 8)).foldl (fun t i => t.setReg .ROUTE_ROLE i (BitVec.ofNat 64 (t.roleWord i))) s
  (List.range s.id.ports).foldl (fun t n => t.setFld F.PORT_CTL_ENABLE n (if t.enableMask.testBit n then 1 else 0)) s

/-! ## WARM (R557) -/

/-- What a core keeps through a WARM reset and a PART reset: tiles, accumulators, operand buffers. -/
def Core.warm (k : Core) : Core :=
  { Core.init with arrs := k.arrs, bufs := k.bufs, bufZero := k.bufZero, bufFill := k.bufFill, ks := k.ks }

/-- A tag after a WARM reset: FREE, its generation kept. -/
def Tag.warm (t : Tag) : Tag := { Tag.init with gen := t.gen }

/-- R208: of a tier-column, what is counted since the last COLD reset. -/
def keepBad (m : SMap TierCol) : SMap TierCol :=
  (m.map fun (e : Nat × TierCol) => (e.1, { TierCol.init with badLines := e.2.badLines })).filter fun e => e.2 != TierCol.init

/-- The units of the fabric, of cores and clusters, and partitions. Table 18.2 has no line for the latches of R21: a WARM reset clears them, a
MGMT reset keeps them, those of MC0 and MC1 too (DESIGN CHOICE, log 68). -/
def State.warmUnits (s : State) : State :=
  let old := s.cores
  let s := { s with cores := [], clusters := [], parts := [], bankUse := [], table := [], serve := [], latch := [], hw := [], scrubs := [], cols := keepBad s.cols, ports := [],
                    acts := [], occ := [] }
  let s := old.foldr (fun e t => t.setCore e.1 e.2.warm) s
  let tags := s.fab.tags
  tags.foldr (fun e t => t.setTag e.1 e.2.warm) { s with fab := Fabric.init }

/-- R491: time through a WARM reset. SYNC of a master holds while its source is not in holdover. -/
def State.warmTime (s : State) : State :=
  let s := s.modTm fun t => { t with parent := false, seqSeen := none, heard := 0, heardP := 0, good := 0, slew := 0, ptmOut := 0, hold := 0 }
  let sync := s.isMaster && s.fld F.TIME_STAT_HOLDOVER 0 == 0 && !s.tm.refLost
  let s := (s.setFld F.TIME_STAT_SYNC 0 (if sync then 1 else 0)).setFld F.TIME_STAT_PARENT 0 0
  (s.setFld F.TIME_STAT_HOPS 0 0).setFld F.TIME_STAT_MASTERID 0 0

/-- The host interface: what host memory holds and the links stay. -/
def State.warmHost (s : State) : State := s.modHost fun h => { HostIf.init with hostMem := h.hostMem, links := h.links, telemAt := s.refNs }

/-- A WARM reset: it ends by starting an attempt of a cause. -/
def State.warmReset (s : State) (cause : Nat) : State :=
  let s := s.mboxReset
  let s := s.defaultRegs fun k => match keyClass k with | .P => false | .C => false | _ => true
  let s := s.warmUnits.warmTime.warmHost.rebuildAll
  let s := { s with evc := Evc.init }
  let s := s.modPow fun p => { p with trans := none, wakeNext := none, flood := false, samples := [] }
  let s := s.modBoot fun b => { Boot.init with due := some cause, stageAt := s.refNs, imgs := b.imgs, keys := b.keys }
  ((s.setFld F.PWR_STATE_BUSY 0 0).setFld F.ROOT_RESET_LAST 0 2).partDefaults

/-- The part does not run: it is held in reset, or in DORMANT. -/
def State.asleep (s : State) : Bool := s.pins.held || s.power == 3

/-- A write of ROOT_RESET by a core; by the host it is refused (R556). -/
def State.byCore (s : State) (by_ : Requester) (eff : State) : State :=
  match by_ with | .host => s.refuseWrite .ROOT_RESET 0 | _ => if s.asleep then s else eff

/-- ROOT_RESET_WARM (R556). -/
def execRootResetWarm (by_ : Requester) (s : State) : Res := done s (s.byCore by_ (s.warmReset 3))

/-! ## MGMT (R558) -/

/-- Both management cores restart. -/
def State.mgmtReset (s : State) : State :=
  let a := s.mcSlot 0
  let b := s.mcSlot 1
  let s := (s.mboxReset.defaultRegs fun k => keyClass k == .M).modEvc fun e => { e with wires := [] }
  let s := s.modBoot fun v => { v with switchTo := none, verifs := v.verifs.filter fun x => match x.2 with
    | .restart _ => false | .switch _ => false | _ => true }
  let s := (s.setMc 0 Mc.init).setMc 1 Mc.init
  ((s.restartMc 0 a (.restart 0)).restartMc 1 b (.restart 1)).setFld F.ROOT_RESET_LAST 0 3

/-- ROOT_RESET_MGMT (R556, R558). -/
def execRootResetMgmt (by_ : Requester) (s : State) : Res := done s (s.byCore by_ s.mgmtReset)

/-! ## COLD (R555, R361, R362) -/

/-- The strap word of ten levels; a pin in no band reads as level 0. -/
def strapWord (l : List (Option Nat)) : Nat :=
  ((List.range 10).map fun j => ((l.getD j none).getD 0 % 8) * 8 ^ j).sum

/-- R361: the effective strap word. -/
def State.effStraps (s : State) (raw : Nat) : Nat :=
  let m := s.psWord 0x18 % 2 ^ 30
  (raw &&& (2 ^ 30 - 1 - m)) ||| (s.psWord 0x17 &&& m)

/-- ROUTE_NODE takes the straps. -/
def State.readStraps (s : State) (l : List (Option Nat)) : State :=
  let raw := strapWord l
  let e := s.effStraps raw
  let err := (List.range 10).any fun j => (l.getD j none).isNone
  let s := ((s.setFld F.ROUTE_NODE_RAW 0 raw).setFld F.ROUTE_NODE_NODE 0 (bits e 19 0)).setFld F.ROUTE_NODE_SYSTEM 0 (bits e 27 20)
  (s.setFld F.ROUTE_NODE_ORIENT 0 (bits e 29 28)).setFld F.ROUTE_NODE_STRAPERR 0 (if err then 1 else 0)

/-- What outlasts a loss of power, over the state right after a COLD reset. -/
def State.overCold (s : State) : State :=
  { State.reset with
    id := s.id, ps := s.ps, topo := ((List.range 64).foldl State.loadTopo s).topo, psCount := s.psCount, psQ := s.psQ, out := s.out, free := s.free
    regs := s.regs.filter fun e => keyClass e.1 == .P
    host := { HostIf.init with hostMem := s.host.hostMem }
    boot := { Boot.init with keys := s.boot.keys }
    pins := { Pins.init with perst := s.pins.perst, ir := s.pins.ir, boundary := s.pins.boundary, drive := s.pins.drive } }

/-- A COLD reset. -/
def State.coldReset (s : State) (straps : List (Option Nat)) : State :=
  let s := (s.overCold.readStraps straps).partDefaults
  let s := s.setFld F.ROOT_RESET_LAST 0 1
  s.setFld F.TIME_STAT_SYNC 0 (if s.isMaster then 1 else 0)

/-! ## Loss of power (R599) -/

/-- Persistent writes that wait: a number of them that the spec does not state has been made, the rest has not (R528). -/
def State.psLose (s : State) : State :=
  let f := s.takeFree
  let k := Config.freeValue f.2 % (s.psQ.length + 1)
  let s := (s.psQ.take k).foldl (fun t e => { t with psCount := SMap.put 0 t.psCount e.1 (min 1000000 (SMap.get 0 t.psCount e.1 + 1)) }) f.1
  let s := (s.psQ.drop k).reverse.foldl (fun t e => { t with ps := SMap.put (psDflt t.id e.1) t.ps e.1 e.2.1 }) s
  { s with psQ := [] }

/-- The part is in reset until the rails return. THERMTRIP# stays as it is until the evergreen rail is lost (R591). -/
def State.loseWork (s : State) (veg33 : Bool) : State :=
  let trip := s.pins.trip && !veg33
  let green := s.pins.green && !veg33
  let s := s.overCold.partDefaults
  { s with boot := { s.boot with due := none }, pins := { s.pins with held := true, trip := trip, green := green } }

/-- POWER_LOSS (R599): outside DORMANT, and once until the rails return; the loss of VEG33 is one in every state. -/
def execPowerLoss (veg33 : Bool) (s : State) : Res :=
  if (if veg33 then s.pins.green = true else s.power ≠ 3 ∧ s.pins.held = false) then done s (s.psLose.loseWork veg33) else done s s

/-- EVERGREEN_POWER_ON (R598): the evergreen island runs; the part stays in reset until the other rails are up. -/
def execEvergreenPowerOn (s : State) : Res := done s (s.modPins fun p => { p with green := true })

/-! ## Wake and power states reached (R484 to R488) -/

/-- R487, R488: wake ports are enabled, and those that were DISABLED train; one that is DOWN waits for a PORT reset (R358). -/
def State.enableWakePorts (s : State) : State :=
  ((List.range s.id.ports).filter s.wakePort).foldl (fun t n =>
    let t := t.setFld F.PORT_CTL_ENABLE n 1
    if t.pstate n = 0 then t.startTraining n else t) s

/-- R488: a WAKE with FLOOD on every UP port of torus role. -/
def State.floodWake (s : State) : State :=
  if s.pow.flood then
    (((List.range s.id.ports).filter fun n => s.portUp n && isTorus (s.role n)).foldl
      (fun t n => t.ctrlOut n ⟨0x0A, 1, 0, 0, 0, 0, 0, []⟩) s).modPow fun p => { p with flood := false }
  else s

/-- The fill pattern of a sweep that begins now, and its poison bit. -/
def State.fillNow (s : State) : Nat × Bool := (s.fld F.ROOT_FILLCFG_PATTERN 0, s.fld F.ROOT_FILLCFG_POISON 0 == 1)

/-- Every cluster of the part. -/
def allClusters : List Nat := List.range 64

/-- R213: core stores and operand buffers are swept, bulk memory as well where `bulk`. -/
def State.sweepAll (s : State) (bulk : Bool) : State :=
  let f := s.fillNow
  allClusters.foldl (fun t cl =>
    let t := t.sweepCluster cl f.1 f.2 bulk
    (t.clusterCores cl).foldl (fun u c => (u.setCore c Core.init).sweepBufs c f.1 f.2) t) s

/-- The transition in progress ends in a state. -/
def State.reach (s : State) (t : Nat) : State :=
  let s := (s.setFld F.PWR_STATE_CUR 0 t).setFld F.PWR_STATE_BUSY 0 0
  let s := s.modPow fun p => { p with trans := none }
  let s := match s.actsOf actState with | a :: _ => s.endAct a stOK | [] => s
  s.raise 352

/-- ARMED partitions return to IDLE (R484). -/
def State.disarm (s : State) : State :=
  (List.range 8).foldl (fun t q => if (t.part q).job = .armed then t.modPart q fun p => { p with job := .idle } else t) s

/-- The ports that pick a test are disabled. -/
def State.stopPorts (s : State) (p : Nat → Bool) : State :=
  ((List.range s.id.ports).filter p).foldl (fun t n => if t.pstate n = 0 then t else t.portStop n 0 0) s

/-- DEEP (Table 14.5, Table 18.2). -/
def State.enterDeep (s : State) : State :=
  let s := (s.disarm.stopPorts fun n => !s.wakePort n)
  let s := s.defaultRegs fun k => keyDie k && (match keyClass k with | .P => false | .C => false | _ => true)
  (s.ethLink 0 false).ethLink 1 false

/-- DORMANT (Table 14.5). -/
def State.enterDormant (s : State) : State :=
  let s := s.disarm.stopPorts fun _ => true
  let s := (s.dmaAbort.setLink 0 false).setLink 1 false
  let s := (s.setLink 2 false).setLink 3 false
  let s := (s.setMc 0 Mc.init).setMc 1 Mc.init
  let s := (s.closeStandby.setMcState 0 0).setMcState 1 0
  s.modBoot fun b => { b with fetches := [], verifs := [], switchTo := none }

/-- What follows a state at once: a wake that occurred during the entry, a launch that was accepted. -/
def State.thenWake (s : State) : State :=
  match s.pow.wakeNext with
  | some c => s.beginWake c
  | none => if (List.range 8).any fun q => (s.part q).job == .launched then s.beginTrans 0 else s

/-- A transition to REST, DEEP or DORMANT ends. -/
def State.entered (s : State) (t : Nat) : State :=
  let s := match t with | 2 => s.enterDeep | 3 => s.enterDormant | _ => s
  (s.reach t).thenWake

/-- POWER_STATE_ENTERED (R484). -/
def execPowerStateEntered (s : State) : Res :=
  match s.pow.trans with
  | some t => if t = 0 then done s s else done s (s.entered t)
  | none => done s s

/-- R486: leaving DORMANT is a WARM reset with every SRAM swept. -/
def State.leaveDormant (s : State) : State :=
  let keep := s.fld F.PWR_WAKESEL_TIMEKEEP 0 = 1
  let s := (s.warmReset 4).sweepAll true
  if keep then s else (s.setFld F.TIME_STAT_INIT 0 0).setFld F.TIME_STAT_SYNC 0 0

/-- Leaving DEEP: ports train; the SRAMs of the compute dies are swept, what stood in thicket queues, guard arrays and send buffers is gone
(R213), and the distance tables are rebuilt (Table 18.2). -/
def State.leaveDeep (s : State) : State :=
  let s := ({ s with clusters := [] }.sweepAll false).rebuildAll
  (List.range s.id.ports).foldl (fun t n => if t.fld F.PORT_CTL_ENABLE n = 1 ∧ t.pstate n = 0 then t.startTraining n else t) s

/-- A wake reaches RUN. -/
def State.woken (s : State) : State :=
  let from_ := s.power
  let s := match from_ with | 2 => s.leaveDeep | 3 => s.leaveDormant | _ => s
  ((s.reach 0).enableWakePorts).floodWake

/-- WAKE_COMPLETE (R487). -/
def execWakeComplete (s : State) : Res :=
  if s.pow.trans = some 0 then done s s.woken else done s s

/-- COLD_RESET (R555). R600: where the rails return in DORMANT the part leaves DORMANT instead. R598: no other rail starts before VEG33. -/
def execColdReset (straps : List (Option Nat)) (s : State) : Res :=
  if s.pins.green = false then done s s
  else if s.power = 3 then (if s.pow.trans = some 0 then done s s.woken else done s s) else done s (s.coldReset straps)

/-! ## PERST# (R429, R487, R510) -/

/-- Stage 0 of a COLD attempt has not ended. -/
def State.coldStage0 (s : State) : Bool := s.boot.due == some 1

/-- PERST# is asserted. -/
def State.perst (s : State) : State :=
  let s := (s.modPins fun p => { p with perst := true }).pcieDown
  if s.asleep || s.coldStage0 then s else s.warmReset 2

/-- PERST_ASSERT (R510). -/
def execPerstAssert (s : State) : Res := if s.pins.perst then done s s else done s s.perst

/-- PERST# is released: the endpoint leaves reset; in DORMANT it is a wake source. -/
def State.perstOff (s : State) : State :=
  let s := s.modPins fun p => { p with perst := false, drive := 0 }
  if s.power = 3 then s.wakeBy 1 false else s

/-- PERST_RELEASE (R457, R487, R510). -/
def execPerstRelease (s : State) : Res := if s.pins.perst then done s s.perstOff else done s s

/-! ## Temperature (R487, R567, R603) -/

/-- A temperature as PWR_THERM.TEMP holds it, in tenths of a degree. -/
def tempWord (t : Int) : Nat := min 65535 t.toNat

/-- The alert threshold in tenths of a degree. -/
def State.alertAt (s : State) : Nat := 10 * s.fld F.PWR_THERM_ALERT 0

/-- The highest die temperature takes a value; reaching the threshold is an event and a wake source. -/
def State.heat (s : State) (t : Int) : State :=
  let was := s.fld F.PWR_THERM_TEMP 0
  let s := s.setFld F.PWR_THERM_TEMP 0 (tempWord t)
  if was < s.alertAt ∧ s.alertAt ≤ tempWord t then (s.raise 355).wakeBy 4 false else s

/-- THERMAL_ALERT (R487, R489): the temperature is in tenths of a degree. -/
def execThermalAlert (temp : Int) (s : State) : Res := if s.alertAt ≤ tempWord temp then done s (s.heat temp) else done s s

/-- THERMAL_ALERT_CLEAR (R591): ALERT# is released with the temperature. -/
def execThermalAlertClear (temp : Int) (s : State) : Res := if tempWord temp < s.alertAt then done s (s.heat temp) else done s s

/-- The trip: THERMTRIP#, and every job faults. -/
def State.thermTrip (s : State) (t : Int) : State :=
  ((s.heat t).modPins fun p => { p with trip := true }).faultAll caTHERMAL stFAULTED

/-- THERMAL_TRIP (R567): a junction at 125 °C or more. -/
def execThermalTrip (temp : Int) (s : State) : Res :=
  if 1250 ≤ tempWord temp ∧ s.pins.trip = false then done s (s.thermTrip temp) else done s s

end Sys2Proof.Machine
end

