-- ==== Sys2Proof/Machine/View.lean ====
section
/-! DEFINITION. What a read of a register returns (00_scope.md R17, R18, R21, R22 and the register descriptions): registers that
show other state of the part are computed from it. -/

namespace Sys2Proof.Machine

/-- A stored register word with some fields as given. -/
def State.over (s : State) (r : RegName) (i : Nat) (l : List (Fld × Nat)) : Word :=
  l.foldl (fun w e => e.1.put w e.2) (s.reg r i)

/-- A value cut off at the top of a field. -/
def capAt (f : Fld) (v : Nat) : Nat := min (2 ^ f.width - 1) v

def bit (b : Bool) : Nat := if b then 1 else 0

/-! ## The part -/

/-- ROOT_CLASSVEC: the clusters with seven enabled cores. -/
def State.classVec (s : State) : Nat :=
  bitsOf ((List.range 64).filter fun cl => (s.clusterCores cl).length == 7)

/-- ROOT_WDOG.REMAIN. -/
def State.wdogLeft (s : State) (m : Nat) : Nat :=
  let p := s.fld F.ROOT_WDOG_PERIOD m
  match (s.mc m).kickAt with
  | some t => if p = 0 then 0 else (t + p * 1000000 - s.refNs + 999999) / 1000000
  | none => 0

/-- ROOT_FUSE.KEYS. -/
def State.keysSet (s : State) : Nat := bitsOf ((List.range 4).filter fun k => (s.keyHash k).isSome)

/-- Table 16.7: what a persistent word reads as; word 6 reads its shipment value where it holds no SMBus address. -/
def State.psShown (s : State) (w : Nat) : Nat :=
  let v := s.psWord w
  if w = 6 ∧ (v < 8 ∨ 0x77 < v) then 0x58 else v

/-- The ROOT registers. -/
def State.viewRoot (s : State) (r : RegName) (i : Nat) : Option Word :=
  match r with
  | .ROOT_ID => some (s.over r i [(F.ROOT_ID_CODE, s.id.codeNum), (F.ROOT_ID_TIERS, s.id.tiers),
      (F.ROOT_ID_IODIES, s.id.ioDies), (F.ROOT_ID_PORTS, s.id.ports)])
  | .ROOT_SWEEPSTAT => some (s.over r i [(F.ROOT_SWEEPSTAT_ACTIVE, bit (s.sweeping || !(s.actsOf actSweep).isEmpty))])
  | .ROOT_CLASSVEC => some (BitVec.ofNat 64 s.classVec)
  | .ROOT_WDOG => some (s.over r i [(F.ROOT_WDOG_REMAIN, s.wdogLeft i)])
  | .ROOT_FUSE => some (s.over r i [(F.ROOT_FUSE_KEYS, s.keysSet)])
  | .PS_DATA => some (BitVec.ofNat 64 (s.psShown (s.fld F.PS_INDEX_WORD 0)))
  | .PS_WCOUNT => some (BitVec.ofNat 64 (SMap.get 0 s.psCount (s.fld F.PS_INDEX_WORD 0)))
  | .PS_STAT => some (s.over r i [(F.PS_STAT_BUSY, bit (!s.psQ.isEmpty))])
  | .PS_BOOTREC => some (BitVec.ofNat 64 (s.psWord 9 * 2 ^ 32 + s.psWord 8))
  | .PS_BOOTCNT => some (BitVec.ofNat 64 (s.psWord 0xA))
  | .MBOX_STAT => some (s.over r i [(F.MBOX_STAT_AVAIL, bit s.mboxAvail), (F.MBOX_STAT_SERVER, s.serverCode)])
  | _ => none

/-! ## Cores, thickets, distances -/

/-- The logical cycle of the partition of a cluster. -/
def State.lcOf (s : State) (cl : Nat) : Nat := match s.partOf cl with | some q => (s.part q).lc | none => 0

/-- CORECTL_SEQSTAT.STATE. -/
def State.seqState (s : State) (c : Nat) : Nat :=
  let k := s.core c
  match s.partOf (c / 8) with
  | none => 0
  | some q =>
    match (s.part q).job with
    | .idle => 0
    | .armed => 0
    | .launched => 2
    | .ended => 3
    | .faulted => 4
    | .run => if k.stopped then 4 else if k.halted then 3 else if k.beatDone then 2 else 1

/-- R250: the logical cycle whose values a read gives: that in progress, or where none is the last that has been. -/
def State.shownLc (s : State) (cl : Nat) : Nat :=
  match s.partOf cl with
  | some q => let p := s.part q; if p.live || p.job == .faulted then p.lc else p.lc - 1
  | none => 0

/-- CORECTL_QFILL. -/
def State.queueFills (s : State) (c : Nat) : Word :=
  let k := s.core c
  let lc := s.shownLc (c / 8)
  s.over .CORECTL_QFILL c [(F.CORECTL_QFILL_LNK, k.fill 4 lc), (F.CORECTL_QFILL_MOV, k.fill 3 lc), (F.CORECTL_QFILL_CHN, k.fill 2 lc),
    (F.CORECTL_QFILL_MAT, k.fill 1 lc), (F.CORECTL_QFILL_SEQ, k.fill 0 lc), (F.CORECTL_QFILL_INFLT, k.inflight.length - k.arrived lc),
    (F.CORECTL_QFILL_LOOPS, k.loops.length)]

/-- The fills of eight timed queues of a thicket, or of its untimed queues, a byte each. -/
def State.thktFills (s : State) (cl first : Nat) : Nat :=
  ofBytes ((List.range 8).map fun e => BitVec.ofNat 8 ((s.cluster cl).timedFill (first + e) (s.lcOf cl)))
def State.thktUntimed (s : State) (cl : Nat) : Nat :=
  ofBytes ((List.range 6).map fun k => BitVec.ofNat 8 ((s.cluster cl).untimedQ k).length)

/-- A distance source that exists on this part. -/
def State.srcExists (s : State) (src : Nat) : Bool := decide (src < 64 + s.id.ioDies) || decide (76 ≤ src ∧ src < 78)

/-- DIST_BULK: the latency from a source to a tier and column of a die. -/
def State.distBulk (s : State) (d src t c : Nat) : Nat :=
  if s.srcExists src && decide (t < s.id.tiers) then bulkLat src d t c else 0

/-- DIST_PORT. -/
def State.distPort (s : State) (d src c : Nat) : Nat :=
  if s.srcExists src && src != d * 8 + c then portDist src d c else 0

/-- Two figures in one register. -/
def pairWord (odd even : Nat) : Word := BitVec.ofNat 64 (odd * 2 ^ 16 + even)

/-- The physical slots that a cluster's map uses, as bits. -/
def State.mappedSlots (s : State) (cl : Nat) : Nat := bitsOf ((List.range 8).filterMap (s.physSlot cl))

/-- The registers of compute dies. -/
def State.viewDie (s : State) (r : RegName) (i : Nat) : Option Word :=
  match r with
  | .THKT_QFILL0 => some (BitVec.ofNat 64 (s.thktFills i 0))
  | .THKT_QFILL1 => some (BitVec.ofNat 64 (s.thktFills i 8))
  | .THKT_UQFILL => some (BitVec.ofNat 64 (s.thktUntimed i))
  | .DIST_BULK =>
    let t := i / 4 % 4
    let src := i / 16 % 78
    some (pairWord (s.distBulk (i / 1248) src t (2 * (i % 4) + 1)) (s.distBulk (i / 1248) src t (2 * (i % 4))))
  | .DIST_PORT =>
    let src := i / 4 % 78
    some (pairWord (s.distPort (i / 312) src (2 * (i % 4) + 1)) (s.distPort (i / 312) src (2 * (i % 4))))
  | .DIST_CS =>
    let cl := i / 160
    let req := i / 16 % 10
    let tgt := i / 2 % 8
    some (pairWord (s.distCs cl req tgt (2 * (i % 2) + 1)) (s.distCs cl req tgt (2 * (i % 2))))
  | .DIST_SLOTS => some (s.over r i [(F.DIST_SLOTS_MAPPED, s.mappedSlots i)])
  | .CORECTL_QFILL => some (s.queueFills i)
  | .CORECTL_SEQSTAT => some (s.over r i [(F.CORECTL_SEQSTAT_STATE, s.seqState i),
      (F.CORECTL_SEQSTAT_BEATS, (s.core i).beats), (F.CORECTL_SEQSTAT_FETCH, (s.core i).fetchAddr)])
  | .CORECTL_SYNC => some (BitVec.ofNat 64 (SMap.get 0 (s.core (i / 32)).sync (i % 32)))
  | .CORECTL_LANDING => some (BitVec.ofNat 64 (SMap.get Channel.init (s.core (i / 16)).chans (i % 16)).bytes.length)
  | _ => none

/-! ## Jobs, time, power -/

/-- R478: a partition waits at a beat gate; in a clock stop, only before the wall-grid start of the beat. -/
def State.atGate (s : State) (q : Nat) : Bool :=
  let p := s.part q
  p.job == .launched || (p.job == .run && p.gate && (p.stopUntil.isNone || decide (s.gtc < s.grid q p.beat)))

/-- The registers of partitions' jobs, of time and of power. -/
def State.viewTime (s : State) (r : RegName) (i : Nat) : Option Word :=
  let p := s.part i
  match r with
  | .TIME_JOB_STAT => some (s.over r i [(F.TIME_JOB_STAT_STATE, p.job.num), (F.TIME_JOB_STAT_FROZEN, bit p.frozen),
      (F.TIME_JOB_STAT_GATE, bit (s.atGate i)), (F.TIME_JOB_STAT_BEAT, p.beat)])
  | .TIME_FRZ => some (s.over r i [(F.TIME_FRZ_TOTAL, capAt F.TIME_FRZ_TOTAL (s.fld F.TIME_FRZ_TOTAL i + s.frzTime i / tu))])
  | .TIME_LAG => some (s.over r i [(F.TIME_LAG_NOW, capAt F.TIME_LAG_NOW (s.lagNs i))])
  | .TIME_GTC => some (BitVec.ofNat 64 s.gtc)
  | .TIME_STAT =>
    if s.isMaster then some (s.over r i [(F.TIME_STAT_PARENT, 0), (F.TIME_STAT_HOPS, 0), (F.TIME_STAT_MASTERID, s.node)]) else none
  | .PWR_BUDGET => some (s.over r i [(F.PWR_BUDGET_TOTAL, capAt F.PWR_BUDGET_TOTAL s.powerBudget), (F.PWR_BUDGET_BASE, s.powerBase)])
  | .PWR_STEP => some (s.over r i [(F.PWR_STEP_CUR, p.step), (F.PWR_STEP_PENDING, bit p.stepPend.isSome)])
  | _ => none

/-! ## Ports, routing, serving, the host interface -/

/-- A coordinate of the part is not below its torus size (R363). -/
def State.outside (s : State) : Bool := (List.range 3).any fun d => decide (s.dim d ≤ coord d s.node)

/-- R386: DROOT, the eccentricity of ROOT in the box. -/
def State.droot (s : State) (q : Nat) : Nat := if s.hasBox q then s.ecc q (s.jobRoot q) else 0

/-- The registers of ports, routing, serving and the host interface. -/
def State.viewIo (s : State) (r : RegName) (i : Nat) : Option Word :=
  match r with
  | .PORT_NBR => some (BitVec.ofNat 64 (match (s.port (i / 8)).nbr with | some b => byF b (8 * (i % 8)) 8 | none => 0))
  | .PORT_OWN => some (BitVec.ofNat 64 (byF (s.ownRec (i / 8)) (8 * (i % 8)) 8))
  | .ROUTE_NODE => some (s.over r i [(F.ROUTE_NODE_OUTSIDE, bit s.outside)])
  | .ROUTE_STAT => some (s.over r i [(F.ROUTE_STAT_OUT, s.tagsOut.length), (F.ROUTE_STAT_RSPSTATE, (s.net 1).state),
      (F.ROUTE_STAT_REQSTATE, (s.net 0).state)])
  | .ROUTE_GOPSTAT => some (s.over r i [(F.ROUTE_GOPSTAT_DROOT, s.droot i)])
  | .SERVE_TABLE =>
    some (BitVec.ofNat 64 (byF (s.ent (1024 * s.fld F.SERVE_TBANK_BANK 0 + i / 8)).bytes (8 * (i % 8)) 8))
  | .HQ_RSTAT => some (s.over r i [(F.HQ_RSTAT_DEPTH, capAt F.HQ_RSTAT_DEPTH (s.ringDepth i))])
  | _ => none

/-- What a read of a register returns; fields that are write-only and reserved bits read zero (R17, R18). -/
def State.view (s : State) (r : RegName) (i : Nat) : Word :=
  ((s.viewRoot r i).orElse fun _ => (s.viewDie r i).orElse fun _ => (s.viewTime r i).orElse fun _ => s.viewIo r i).getD (s.reg r i)

/-! ## Which registers this part has -/

/-- A tier-column of a CAL register that the part has. -/
def calCol : RegName → Nat → Option Nat
  | .CAL_ENTRY, i => let k := i / 1600; some (k / 128 * 32 + k % 32)
  | .CAL_LEN, i => some (i / 128 * 32 + i % 32)
  | .CAL_COLSTAT, i => some i
  | .CAL_SCRUB, i => some i
  | _, _ => none

/-- The port of a PORT register. -/
def portOf : RegName → Nat → Option Nat
  | .PORT_NBR, i => some (i / 8)
  | .PORT_OWN, i => some (i / 8)
  | r, i => if r.num ≥ RegName.PORT_CTL.num ∧ r.num ≤ RegName.PORT_FEC.num then some i else none

/-- The core of a CORECTL register. -/
def coreOf : RegName → Nat → Option Nat
  | .CORECTL_SYNC, i => some (i / 32)
  | .CORECTL_LANDING, i => some (i / 16)
  | r, i => if (regInfo r).dims.take 2 = [(0x1000000, 8), (0x1000, 64)] then some i else none

/-- R8, R9: the part has the register: its core, tier or port exists. -/
def State.regHere (s : State) (r : RegName) (i : Nat) : Bool :=
  (match calCol r i with | some tc => s.colExists tc | none => true)
    && (match portOf r i with | some n => decide (n < s.id.ports) | none => true)
    && (match coreOf r i with | some c => s.coreExists c | none => true)

/-- R513: what BAR0 serves in minimal mode. -/
def minimalReg (r : RegName) : Bool :=
  [.ROOT_ID, .ROOT_BOOT, .ROOT_IMG, .ROOT_MGMT, .ROOT_WDOG, .ROOT_FUSE, .PS_INDEX, .PS_DATA, .PS_WCOUNT, .PS_STAT, .PS_BOOTREC,
    .PS_BOOTCNT, .MBOX_STAT, .MBOX_POST, .MBOX_REQ, .MBOX_RSP].contains r

/-- A register that a BAR0 access reaches now. -/
def State.barServes (s : State) (r : RegName) (i : Nat) : Bool := s.regHere r i && (!s.minimal || minimalReg r)

end Sys2Proof.Machine
end

