-- ==== Sys2Proof/Machine/Bar0.lean ====
section
/-! DEFINITION. Accesses to registers through BAR0 (00_scope.md R16 to R22, 13_host_interfaces.md R428, and the state rules of
each block: R205, R253, R319, R358, R360, R397, R398, R424, R471, R481, R490, R500, R513, R531, R536, R556, R584). -/

namespace Sys2Proof.Machine

/-- A requester's number. -/
def reqNum : Requester → Nat | .host => 0 | .mc0 => 1 | .mc1 => 2

/-- The state a meaning answers. -/
def State.via (s : State) (r : Res) : State := match r with | .next t => t | _ => s

/-- The bits of `v` under a mask, over the other bits of `old`. -/
def mergeMask (old v m : Nat) : Nat := (old &&& (2 ^ 64 - 1 - m)) ||| (v &&& m)

/-! ## Fields (R17 to R19) -/

/-- How many bits of a value are 1. -/
def ones (n v : Nat) : Nat := ((List.range n).filter v.testBit).length

/-- R19: a value that is not a reserved encoding of a field: one outside the stated range is reserved (log 47). A range that another register
or another field states is not judged here (log 66): XN, YN and ZN of ROUTE_JOBBOX ("from 0 to DX" of ROUTE_DIMS) and TARGET of ROUTE_ENTRY (by
ACTION) are stored as written. -/
def Fld.legal (f : Fld) (v : Nat) : Bool :=
  decide (f.minV ≤ v) && decide (v ≤ f.maxV) && (f != F.PWR_WAKESEL_PORTS || decide (ones 48 v ≤ 2))

/-- A field of a word as a write of `v` under the mask `m` leaves it. -/
def Fld.written (f : Fld) (old : Word) (v m : Nat) : Nat :=
  let o := f.get old
  let c := f.get (BitVec.ofNat 64 (mergeMask old.toNat v m))
  match f.acc with
  | .rw => if f.legal c then c else o
  | .ps => if f.legal c then c else o
  | .w1c => o &&& (2 ^ f.width - 1 - (v &&& m) / 2 ^ f.lo % 2 ^ f.width)
  | .ro => o
  | .wo => o

/-- A register word as a write leaves it: each field by its access code, a reserved encoding leaving its field as it was. -/
def writtenWord (r : RegName) (old : Word) (v m : Nat) : Word :=
  (fieldsOf r).foldl (fun w f => f.put w (f.written old v m)) old

/-- The bits of a register that a write changes to what it writes: those of RW fields whose value is no reserved encoding. -/
def openBits (r : RegName) (old : Word) (v m : Nat) : Nat :=
  (fieldsOf r).foldl (fun k f =>
    if f.acc == .rw && f.legal (f.get (BitVec.ofNat 64 (mergeMask old.toNat v m))) then k ||| (2 ^ f.width - 1) * 2 ^ f.lo else k) 0 &&& m

/-! ## Writes refused by state -/

/-- A write of 1 to PORT_CTL.RESET or of 0 to PORT_CTL.ENABLE (R358). -/
def stopsPort (v m : Nat) : Bool := (v &&& m).testBit 1 || (m.testBit 0 && !v.testBit 0)

/-- R397: the write covers the ROUTE_ROLE byte of a port that a partition's job uses, while a job runs. -/
def State.roleGated (s : State) (i m : Nat) : Bool :=
  s.anyBusy && (List.range 8).any fun j =>
    m / 256 ^ j % 256 != 0 && s.fld F.PORT_CFG_SCHEDMASK (8 * i + j) != 0 && decide (8 * i + j < s.id.ports)

/-- HQ_RCFG of an enabled ring: the write changes a field but EN. -/
def State.ringGated (s : State) (i v m : Nat) : Bool :=
  let old := s.reg .HQ_RCFG i
  s.fld F.HQ_RCFG_EN i == 1 && F.HQ_RCFG_EN.put (writtenWord .HQ_RCFG old v m) 1 != old

/-- The partition whose job, LAUNCHED or in RUN, refuses writes of a register (R319, R397, R424, R490, R584). -/
def jobGated : RegName → Nat → Option Nat
  | .TIME_JOB_CFG, i => some i
  | .TIME_BEAT_CFG, i => some i
  | .TIME_LEDGER, i => some i
  | .TIME_DIGEST, i => some (i / 8)
  | .ROUTE_JOBBOX, i => some i
  | .ROUTE_JOBROOT, i => some i
  | .PWR_PDECL, i => some i
  | .SERVE_PCFG, i => some i
  | .SERVE_INGNODE, i => some i
  | .SERVE_PLANCFG, i => some i
  | .SERVE_POOL0, i => some i
  | .SERVE_POOL1, i => some i
  | .SERVE_POOL2, i => some i
  | .SERVE_POOL3, i => some i
  | .SERVE_PARK, i => some i
  | .SERVE_PARKBASE, i => some i
  | .SERVE_RATIO, i => some (i / 16)
  | .SERVE_VAR, i => some (i / 16)
  | _, _ => none

/-- The cluster whose partition refuses writes of a register (R205, R253). -/
def clusterGated (r : RegName) (i : Nat) : Option Nat :=
  if r = .CORECTL_SEQCFG then some (i / 8) else (calCol r i).map tcCluster

/-- The job of a cluster's partition is LAUNCHED or in RUN. -/
def State.clusterBusy (s : State) (cl : Nat) : Bool := match s.partOf cl with | some q => s.busyPart q | none => false

/-- A write that the state of the part refuses: it is handled as a write to an offset that holds no register. -/
def State.gated (s : State) (by_ : Requester) (r : RegName) (i v m : Nat) : Bool :=
  (match jobGated r i with | some q => s.busyPart q | none => false)
    || (match clusterGated r i with | some cl => s.clusterBusy cl | none => false)
    || (match r with
      | .PORT_CFG => s.schedBusy i
      | .PORT_WIN => s.schedBusy i || (winAfter (s.reg r i).toNat (mergeMask (s.reg r i).toNat v m)).isNone
      | .PORT_CTL => s.schedBusy i && stopsPort v m
      | .ROUTE_DIMS => s.anyBusy
      | .ROUTE_ROLE => s.roleGated i m
      | .HQ_RCFG => s.ringGated i v m
      | .MBOX_REQ => s.fld F.MBOX_STAT_STATE 0 == 1 || s.fld F.MBOX_STAT_STATE 0 == 2
      | .ROOT_RESET => by_ == .host
      | _ => false)

/-! ## Writes that act -/

/-- A write of ROOT_SWEEPCTL. -/
def State.writeSweep (s : State) (mask : Nat) : State :=
  if mask % 2 ^ 64 = 0 then s else let r := s.askSweep mask; r.1.setFld F.ROOT_SWEEPSTAT_STATUS 0 r.2

/-- A write of PORT_CTL: a port that ENABLE starts trains at once, without the reset. -/
def State.writePortCtl (s : State) (n v m : Nat) : State :=
  let rises := m.testBit 0 && v.testBit 0 && s.fld F.PORT_CTL_ENABLE n == 0
  let s := if m.testBit 0 then s.enablePort n (v.testBit 0) else s
  if (v &&& m).testBit 1 && !rises then s.resetPort n else s

/-- A write of ROUTE_CTL (R376). -/
def State.writeRouteCtl (s : State) (v : Nat) : State :=
  let nets := bits v 9 8
  match v % 16 with
  | 1 => s.via (execDrain nets s)
  | 2 => s.via (execSwap nets s)
  | 3 => s.via (execResume nets s)
  | 4 => s.via (execChange nets s)
  | _ => s

/-- A write of ROUTE_GOPCMD (R389 to R395). -/
def State.writeGop (s : State) (q v : Nat) : State :=
  match v % 16 with
  | 1 => s.via (execBarrier q s)
  | 2 => s.via (execBcast q s)
  | 3 => s.via (execSnap q s)
  | 4 => s.via (execReset q s)
  | _ => s

/-- A write of HQ_JOB (R442, R443). -/
def State.writeJob (s : State) (q v : Nat) : State :=
  match v % 16 with
  | 1 => s.load q
  | 2 => s.launch q (v.testBit 8)
  | _ => s

/-- A write of ROOT_RESET by a management core (R556). -/
def State.writeReset (s : State) (v : Nat) : State :=
  match v % 4 with
  | 1 => s.warmReset 3
  | 2 => s.mgmtReset
  | _ => s

/-- R364: the role codes. -/
def roleCode (c : Nat) : Bool := decide (c < 7) || c == 0x10 || c == 0x20

/-- A write of ROUTE_ROLE: each byte a field of its own; absent ports ignore it. -/
def State.writeRole (s : State) (i v m : Nat) : State :=
  let old := (s.reg .ROUTE_ROLE i).toNat
  let new := mergeMask old v m
  let byte (j : Nat) : Nat :=
    let c := new / 256 ^ j % 256
    if roleCode c && decide (8 * i + j < s.id.ports) then c else old / 256 ^ j % 256
  s.setReg .ROUTE_ROLE i (BitVec.ofNat 64 (ofBytes ((List.range 8).map fun j => BitVec.ofNat 8 (byte j))))

/-- R398: entries from `a`, `n` of them, lie in the table and belong to no other partition. -/
def State.entriesFree (s : State) (q a n : Nat) : Bool :=
  n == 0 || (decide (a + n ≤ 8192) && (List.range 8).all fun p =>
    let b := s.fld F.SERVE_PCFG_EFIRST p
    let k := s.fld F.SERVE_PCFG_ECOUNT p
    p == q || k == 0 || decide (a + n ≤ b) || decide (b + k ≤ a))

/-- A write of SERVE_PCFG. -/
def State.writePcfg (s : State) (q v m : Nat) : State :=
  let old := s.reg .SERVE_PCFG q
  let w := writtenWord .SERVE_PCFG old v m
  let w := if s.entriesFree q (F.SERVE_PCFG_EFIRST.get w) (F.SERVE_PCFG_ECOUNT.get w) then w
    else F.SERVE_PCFG_ECOUNT.put (F.SERVE_PCFG_EFIRST.put w (F.SERVE_PCFG_EFIRST.get old)) (F.SERVE_PCFG_ECOUNT.get old)
  s.setReg .SERVE_PCFG q w

/-- A write of HQ_RCFG: a ring that becomes enabled starts anew (R432). -/
def State.writeRcfg (s : State) (r v m : Nat) : State :=
  let was := s.fld F.HQ_RCFG_EN r
  let s := s.setReg .HQ_RCFG r (writtenWord .HQ_RCFG (s.reg .HQ_RCFG r) v m)
  if was = 0 ∧ s.fld F.HQ_RCFG_EN r = 1 then s.ringEnable r else s

/-- A write of HQ_DCFG: EN 0 discards the digest state, of a channel at work when its descriptor completes. -/
def State.writeDcfg (s : State) (c v m : Nat) : State :=
  let s := s.setReg .HQ_DCFG c (writtenWord .HQ_DCFG (s.reg .HQ_DCFG c) v m)
  if s.fld F.HQ_DCFG_EN c = 0 ∧ (s.dma c).desc.isNone then (s.setDma c { s.dma c with dig := HashSt.init }).setFld F.HQ_DCFG_DSTATE c 0
  else s

/-- A write of an EVC register that waits for the next tick (R495, R500). -/
def State.writeEvc (s : State) (by_ : Requester) (r : RegName) (i v m : Nat) : State :=
  let b := openBits r (s.reg r i) v m
  if b = 0 ∨ (r = .EVC_WIRE ∧ 12 ≤ i) then s
  else s.modEvc fun e => { e with writes := e.writes ++ [⟨reqNum by_, r, i, v % 2 ^ 64, b⟩] }

/-- The EVC registers that software writes. -/
def evcReg (r : RegName) : Bool := [.EVC_PEND, .EVC_MASK, .EVC_WIRE, .EVC_CNT, .EVC_ROUTE].contains r

/-- A write to a register with nothing but fields. -/
def State.writePlain (s : State) (r : RegName) (i v m : Nat) : State := s.setReg r i (writtenWord r (s.reg r i) v m)

/-- A write of TIME_FRZ: TOTAL is set also in a freeze, whose time counts on from there (R319). -/
def State.writeFrz (s : State) (q v m : Nat) : State :=
  let s := s.writePlain .TIME_FRZ q v m
  if m % 2 ^ 32 = 0 then s else s.modPart q fun p => { p with frzSince := s.now, frzRem := 0 }

/-- A write to the registers of ports, routing and power that acts; none where the register is not one of them. -/
def State.writeIo (s : State) (r : RegName) (i v m : Nat) : Option State :=
  let new := mergeMask (s.reg r i).toNat v m
  match r with
  | .PORT_CTL => some (s.writePortCtl i v m)
  | .PORT_WIN => some (s.writeWin i new)
  | .ROUTE_ROLE => some (s.writeRole i v m)
  | .TIME_FRZ => some (s.writeFrz i v m)
  | .ROUTE_CTL => some (s.writeRouteCtl (v &&& m))
  | .ROUTE_GOPCMD => some (s.writeGop i (v &&& m))
  | .ROUTE_ENTRY => some (if i < 512 then s else s.writePlain r i v m)
  | .PWR_CAP => some (s.writeCap new)
  | .PWR_PDECL => some (s.writePdecl i new)
  | .PWR_STEPCMD => some (s.writeStepcmd i (v &&& m))
  | .PWR_STATECMD => some (s.stateCmd (v % 4))
  | .TIME_SET => some (s.writeTimeSet (v &&& m))
  | .TIME_ALARM => some (s.writeAlarm new)
  | .TIME_MASTER => some ((s.writePlain r i v m).masterSet (s.reg r i))
  | _ => none

/-- The same of the root, serving, host, mailbox and event registers. -/
def State.writeRoot (s : State) (by_ : Requester) (r : RegName) (i v m : Nat) : Option State :=
  match r with
  | .ROOT_SWEEPCTL => some (s.writeSweep (v &&& m))
  | .SERVE_PCFG => some (s.writePcfg i v m)
  | .SERVE_ABORT => some (if m % 2 ^ 32 = 0 then s else s.writeAbort i (v % 2 ^ 32))
  | .HQ_RCFG => some (s.writeRcfg i v m)
  | .HQ_RHPOS => some (s.writeHpos i (v % 2 ^ 32) [])
  | .HQ_DCFG => some (s.writeDcfg i v m)
  | .HQ_JOB => some (s.writeJob i (v &&& m))
  | .PS_DATA => some (s.writePsData by_ (v % 2 ^ 32))
  | .MBOX_POST => some (s.mboxPost (v.testBit 0))
  | .ROOT_RESET => some (s.writeReset (v &&& m))
  | _ => if evcReg r then some (s.writeEvc by_ r i v m) else none

/-- A write of bits `m` of a register that serves it. -/
def State.writeTo (s : State) (by_ : Requester) (r : RegName) (i v m : Nat) : State :=
  ((s.writeIo r i v m).orElse fun _ => s.writeRoot by_ r i v m).getD (s.writePlain r i v m)

/-- A hardware change of the present cycle taken back from its register, and made again. -/
def State.undoHw (s : State) (n : HwNote) : State :=
  match n.kind with
  | 0 => s.setFld n.fld n.idx (s.fld n.fld n.idx - n.k)
  | 1 => s.setFld n.fld n.idx (s.fld n.fld n.idx &&& (2 ^ n.fld.width - 1 - n.k))
  | _ => s
def State.redoHw (s : State) (n : HwNote) : State :=
  match n.kind with
  | 0 => s.setFld n.fld n.idx (min (2 ^ n.fld.width - 1) (s.fld n.fld n.idx + n.k))
  | 1 => s.setFld n.fld n.idx (s.fld n.fld n.idx ||| n.k)
  | _ => s.setFld n.fld n.idx (max (s.fld n.fld n.idx) n.k)

/-- R81, R107, R145, R179, R253, R319, R360: a host write comes before the hardware changes of its cc or ns: those made to the register are
taken back, the write is made, and they are made again. -/
def State.writeUnder (s : State) (by_ : Requester) (r : RegName) (i v m : Nat) : State :=
  let hw := s.hw.filter fun n => n.key == regKey r i
  hw.foldl State.redoHw ((hw.foldl State.undoHw s).writeTo by_ r i v m)

/-- A write of bits `m` of a register, made at an offset. -/
def State.writeReg (s : State) (by_ : Requester) (r : RegName) (i v m off : Nat) : State :=
  if !s.barServes r i || s.gated by_ r i v m then s.accErr 2 0 true off
  else s.writeUnder by_ r i v m

/-! ## Accesses (R16, R20, R21) -/

/-- R428: the offset lies in the MSI-X table, or in its pending bits. -/
def inMsix (off : Nat) : Bool := decide (0x58000 ≤ off ∧ off < 0x59000)
def inPba (off : Nat) : Bool := decide (0x59000 ≤ off ∧ off < 0x59020)

/-- A 4-byte write to the MSI-X table; a vector that is unmasked sends the message it owes. -/
def State.writeMsix (s : State) (off v : Nat) : State :=
  let i := (off - 0x58000) / 8
  let sh := off % 8 * 8
  let m := (2 ^ 32 - 1) * 2 ^ sh
  let keep := if i % 2 = 1 then 2 ^ 33 - 1 else 2 ^ 64 - 4
  (s.setMsix i (BitVec.ofNat 64 (mergeMask (s.msixWord i).toNat (v % 2 ^ 32 * 2 ^ sh) m &&& keep))).sendPending

/-- A 4-byte write. -/
def State.write4 (s : State) (by_ : Requester) (off v : Nat) : State :=
  if inMsix off && !s.minimal then s.writeMsix off v
  else if inPba off && !s.minimal then s
  else match regAt off with
    | some (r, i, hi) => let sh := if hi then 32 else 0; s.writeReg by_ r i (v % 2 ^ 32 * 2 ^ sh) ((2 ^ 32 - 1) * 2 ^ sh) off
    | none => s.accErr 2 0 true off

/-- R20: a write of 4 or 8 bytes, naturally aligned; 8 bytes that are no one register of the part are two writes of 4, low half first. -/
def State.bar0Write (s : State) (by_ : Requester) (off size v : Nat) : State :=
  if s.asleep then s
  else if (size ≠ 4 ∧ size ≠ 8) ∨ off % size ≠ 0 then s.accErr 1 0 true off
  else if size = 4 then s.write4 by_ off v
  else match regAt off with
    | some (r, i, false) =>
      if (regInfo r).width = 64 ∧ s.barServes r i then s.writeReg by_ r i (v % 2 ^ 64) (2 ^ 64 - 1) off
      else (s.write4 by_ off v).write4 by_ (off + 4) (v / 2 ^ 32)
    | _ => (s.write4 by_ off v).write4 by_ (off + 4) (v / 2 ^ 32)

/-- REGISTER_WRITE (R17, R20). -/
def execRegisterWrite (by_ : Requester) (off size value : Nat) (s : State) : Res := done s (s.bar0Write by_ off size value)

/-- The place of a latch (R21): each requester has its own for each register. -/
def latchKey (by_ : Requester) (r : RegName) (i : Nat) : Nat := reqNum by_ * 2 ^ 40 + regKey r i

/-- A 4-byte read of half of a register that BAR0 serves: the low half of a 64-bit register latches the high half, and a read of the
high half takes what is latched. -/
def State.readHalf (s : State) (by_ : Requester) (r : RegName) (i : Nat) (hi : Bool) : State × Nat :=
  let v := (s.view r i).toNat
  let k := latchKey by_ r i
  if (regInfo r).width = 32 then (s, v % 2 ^ 32)
  else if hi then ({ s with latch := SMap.put none s.latch k none }, (SMap.get none s.latch k).getD (v / 2 ^ 32))
  else ({ s with latch := SMap.put none s.latch k (some (v / 2 ^ 32)) }, v % 2 ^ 32)

/-- The MSI-X table and its pending bits as a read shows them, 4 bytes at an offset. -/
def State.readMsix (s : State) (off : Nat) : Nat :=
  if inMsix off then (s.msixWord ((off - 0x58000) / 8)).toNat / 2 ^ (off % 8 * 8) % 2 ^ 32
  else bitsOf ((List.range 32).filter fun j => SMap.get false s.host.pba ((off - 0x59000) * 8 + j))

/-- A 4-byte read: the state, and what it returns. -/
def State.read4 (s : State) (by_ : Requester) (off : Nat) : State × Nat :=
  if off % 4 ≠ 0 then (s.accErr 1 0 false off, 0)
  else if (inMsix off || inPba off) && !s.minimal then (s, s.readMsix off)
  else match regAt off with
    | some (r, i, hi) => if s.barServes r i then s.readHalf by_ r i hi else (s.accErr 2 0 false off, 0)
    | none => (s.accErr 2 0 false off, 0)

/-- R20, R21: a read of 8 bytes: a 64-bit register of the part at one instant, or two reads of 4. -/
def State.read8 (s : State) (by_ : Requester) (off : Nat) : State × Nat :=
  if off % 8 ≠ 0 then (s.accErr 1 0 false off, 0)
  else
    let two : State × Nat := let a := s.read4 by_ off; let b := a.1.read4 by_ (off + 4); (b.1, a.2 + b.2 * 2 ^ 32)
    match regAt off with
    | some (r, i, false) => if (regInfo r).width = 64 ∧ s.barServes r i then (s, (s.view r i).toNat) else two
    | _ => two

/-- R20: a read of any size: of 4 or 8 bytes naturally aligned, or recorded and answered with zeros. -/
def State.bar0Read (s : State) (by_ : Requester) (off size : Nat) : State × Nat :=
  if size = 4 then s.read4 by_ off else if size = 8 then s.read8 by_ off else (s.accErr 1 0 false off, 0)

/-- LOW_HALF_READ (R16, R20, R21): a read of a register by host software or, through space 0x2, by a management core; one of 4 bytes of the
low half latches the high half. -/
def execLowHalfRead (by_ : Requester) (a : RegRead) (s : State) : Res :=
  if s.asleep then done s s else let r := s.bar0Read by_ a.off a.size; done s (r.1.answer (toBytes a.size r.2))

end Sys2Proof.Machine
end

