-- ==== Sys2Proof/Machine/Maint.lean ====
section
/-! DEFINITION. Maintenance activities: their starts and their ends (18_resets_faults_maintenance.md R575 to R583). A start answers
the state and the status of the request. -/

namespace Sys2Proof.Machine

/-! ## The topiary map -/

/-- The logical slot of a physical slot of a cluster. -/
def State.logSlot (s : State) (cl p : Nat) : Option Nat := (List.range 8).find? fun j => s.physSlot cl j == some p

/-- DIST_SLOTS.FENCED. -/
def State.fenced (s : State) (cl : Nat) : Nat := s.fld F.DIST_SLOTS_FENCED cl

/-- Physical slots of a cluster that may replace one: not mapped, not fenced, lowest first. -/
def State.spares (s : State) (cl : Nat) : List Nat :=
  (List.range 9).filter fun p => (s.logSlot cl p).isNone && !(s.fenced cl).testBit p

/-- The memories of a core whose logical slot changed are swept as ROOT_SWEEPCTL sweeps. -/
def State.sweepCore (s : State) (c : Nat) : State := s.sweepMem (256 + c) s.fillNow.1 s.fillNow.2

/-- A cluster's topiary word is written, and the core stores of slots that it moves are swept. -/
def State.remap (s : State) (cl w : Nat) : State :=
  let t := (s.psSet (0x200 + cl) w).loadTopo cl
  ((List.range 8).filter fun j => s.physSlot cl j != t.physSlot cl j).foldl (fun u j => u.sweepCore (cl * 8 + j)) t

/-- The partition of a cluster, where it is LAUNCHED or in RUN, forbids work on the slots it maps (R577, R580). -/
def State.slotBusy (s : State) (cl p : Nat) : Bool := (s.logSlot cl p).isSome && s.clusterBusy cl

/-! ## Starts -/

/-- An activity that takes its tokens, or BUSY (R582); NOT_PERMITTED where the in-service rules forbid it (R580). -/
def State.begin (s : State) (a : Act) (forbidden : Bool) : State × Nat :=
  if !s.canAct a then (s, stBUSY) else if forbidden then (s, stNOT_PERMITTED) else (s.startAct a, stOK)

/-- The activity of a physical slot. -/
def slotAct (code d k p : Nat) : Act := { Act.mk0 code (2 ^ d) with slots := [(8 * d + k) * 16 + p], arg := (8 * d + k) * 16 + p }

/-- Arguments that name a physical slot. -/
def slotArgs (d k p : Nat) : Bool := decide (d < 8) && decide (k < 8) && decide (p < 9)

/-- CORE_TEST (R577). -/
def State.beginTest (s : State) (d k p : Nat) : State × Nat :=
  if !slotArgs d k p then (s, stBAD_ARG) else s.begin (slotAct actCoreTest d k p) (s.slotBusy (8 * d + k) p)

/-- R575: a fence that no slot can stand for is refused: no spare is left and no logical slot 7 to give up. -/
def State.noClass (s : State) (cl p : Nat) : Bool :=
  (s.logSlot cl p).isSome && (s.spares cl).isEmpty && (s.physSlot cl 7).isNone

/-- CORE_FENCE (R575): the slot is fenced at the start. -/
def State.beginFence (s : State) (d k p : Nat) : State × Nat :=
  let cl := 8 * d + k
  if !slotArgs d k p then (s, stBAD_ARG)
  else
    let r := s.begin (slotAct actCoreFence d k p) (s.slotBusy cl p)
    if r.2 ≠ stOK then r
    else if s.noClass cl p then (s, stNO_RESOURCE)
    else (r.1.setFld F.DIST_SLOTS_FENCED cl (s.fenced cl ||| 2 ^ p), stOK)

/-- A topiary nibble names a physical slot that may be mapped. -/
def nibbleOk (fenced w j : Nat) : Bool :=
  let p := w / 16 ^ j % 16
  decide (p ≤ 8) && !fenced.testBit p && (List.range 8).all fun i => i == j || w / 16 ^ i % 16 != p

/-- R576: a topiary word that may be written. -/
def mapOk (fenced w : Nat) : Bool :=
  ((List.range 7).all (nibbleOk fenced w)) && (w / 16 ^ 7 % 16 == 15 || nibbleOk fenced w 7)

/-- A partition with a cluster on a die is LAUNCHED or in RUN. -/
def State.dieBusy (s : State) (d : Nat) : Bool := (List.range 8).any fun k => s.clusterBusy (8 * d + k)

/-- TOPIARY_REMAP (R576): eight words of 32 bits. -/
def State.beginRemap (s : State) (d words : Nat) : State × Nat :=
  if 8 ≤ d ∨ !((List.range 8).all fun k => mapOk (s.fenced (8 * d + k)) (words / 2 ^ (32 * k) % 2 ^ 32)) then (s, stBAD_ARG)
  else s.begin { Act.mk0 actRemap (2 ^ d) with arg := words * 8 + d } (s.dieBusy d)

/-- BANK_FAIL (R578). -/
def State.beginBank (s : State) (d t k b : Nat) : State × Nat :=
  let tc := d * 32 + t * 8 + k
  if 8 ≤ d ∨ s.id.tiers ≤ t ∨ 8 ≤ k ∨ 17 ≤ b then (s, stBAD_ARG)
  else s.begin { Act.mk0 actBankFail (2 ^ d) with cols := [tc], arg := tc * 32 + b } (s.fld F.CAL_COLSTAT_FAILED (colIdx tc) == 1)

/-- PORT_TEST (R579): the port leaves UP. -/
def State.beginPortTest (s : State) (n pat : Nat) : State × Nat :=
  if s.id.ports ≤ n ∨ 1 < pat then (s, stBAD_ARG)
  else
    let r := s.begin { Act.mk0 actPortTest tokRoot with ports := [n], arg := n } (s.schedBusy n)
    if r.2 = stOK then (r.1.portStop n 0 0, stOK) else r

/-! ## Ends -/

/-- R575: the spare that replaces a slot: the lowest that passes its test. Whether the first passes is given; the results of others
are free values. -/
def State.pickSpare (s : State) (ok : Bool) : List Nat → State × Option Nat
  | [] => (s, none)
  | p :: ps =>
    if ok then (s, some p)
    else match ps with
      | [] => (s, none)
      | r :: _ => let f := s.takeFree; (f.1, if Config.freeValue f.2 % 2 = 1 then some r else none)

/-- A nibble of a topiary word replaced. -/
def putNibble (w j v : Nat) : Nat := w - w / 16 ^ j % 16 * 16 ^ j + v % 16 * 16 ^ j

/-- R575: the map after a mapped slot is fenced; none where the cluster would fall below seven cores. -/
def fenceMap (w j : Nat) (cand : Option Nat) : Option Nat :=
  let last := w / 16 ^ 7 % 16
  match cand with
  | some c => some (putNibble w j c)
  | none => if last ≤ 8 then some (putNibble (if j = 7 then w else putNibble w j last) 7 15) else none

/-- The end of CORE_FENCE. -/
def State.endFence (s : State) (a : Act) (ok : Bool) : State :=
  let cl := a.arg / 16
  let p := a.arg % 16
  match s.logSlot cl p with
  | none => s.endAct a stOK
  | some j =>
    let r := s.pickSpare ok (s.spares cl)
    match fenceMap (s.topiary cl) j r.2 with
    | some w => ((r.1.remap cl w).rebuilt s (cl / 8)).endAct a stOK
    | none => (r.1.setFld F.DIST_SLOTS_FENCED cl (s.fenced cl &&& (511 - 2 ^ p))).endAct a stNO_RESOURCE

/-- The end of CORE_TEST: the core store is left swept. -/
def State.endTest (s : State) (a : Act) (ok : Bool) : State :=
  let s := match s.logSlot (a.arg / 16) (a.arg % 16) with | some j => s.sweepCore (a.arg / 16 * 8 + j) | none => s
  s.endAct a (if ok then stOK else stFAULTED)

/-- The end of TOPIARY_REMAP: words in cluster order. -/
def State.endRemap (s : State) (a : Act) : State :=
  let d := a.arg % 8
  let t := (List.range 8).foldl (fun (u : State) k => u.remap (8 * d + k) (a.arg / 8 / 2 ^ (32 * k) % 2 ^ 32)) s
  (t.rebuilt s d).endAct a stOK

/-- The end of BANK_FAIL. -/
def State.endBank (s : State) (a : Act) : State :=
  let ci := colIdx (a.arg / 32)
  if s.fld F.CAL_COLSTAT_FAILED ci = 1 then s.endAct a stNOT_PERMITTED
  else (s.failBank ci (a.arg % 32)).endAct a stOK

/-- The end of PORT_TEST: an enabled port trains again. -/
def State.endPortTest (s : State) (a : Act) (ok : Bool) : State :=
  let s := s.endAct a (if ok then stOK else stFAULTED)
  if s.fld F.PORT_CTL_ENABLE a.arg = 1 then s.startTraining a.arg else s

/-- The end of an activity by its code (Table 18.6); STEP, RETRAIN and STATE end with what they wait for. -/
def State.endMaint (s : State) (a : Act) (ok : Bool) : State :=
  if a.code = actCoreTest then s.endTest a ok
  else if a.code = actCoreFence then s.endFence a ok
  else if a.code = actRemap then s.endRemap a
  else if a.code = actBankFail then s.endBank a
  else if a.code = actPortTest then s.endPortTest a ok
  else if a.code = actSweep ∧ a.ends ≤ s.refNs then s.endSweep a
  else s

/-- MAINT_ACTIVITY_END (R582). -/
def execMaintActivityEnd (id : Nat) (ok : Bool) (s : State) : Res :=
  match s.acts.find? fun a => a.id == id with
  | some a => done s (s.endMaint a ok)
  | none => done s s

end Sys2Proof.Machine
end

