-- ==== Sys2Proof/Machine/Mbox.lean ====
section
/-! DEFINITION. The exchange on the mailbox (17_mailbox.md R534 to R543) and the commands of groups 0x01 to 0x03. A row of a command
has two halves: the server takes the oldest post, and later answers it. -/

namespace Sys2Proof.Machine

/-! ## Requests come (R534, R536) -/

/-- MBOX_POST (R536). -/
def execMboxPost (by_ : Requester) (s : State) : Res :=
  let _ := by_
  if s.asleep then done s s else done s (s.mboxPost true)

/-- A request for channel 1: one that finds the channel taken is discarded. -/
def State.mgmtIn (s : State) (from_ : Nat) (b : List Byte) : State :=
  if s.mbox.ch1.isSome then s else s.modMbox fun m => { m with ch1 := some (from_, b), posted := m.posted ++ [1] }

/-- MGMT_MESSAGE (R534). -/
def execMgmtMessage (from_ : Nat) (bytes : List Byte) (s : State) : Res :=
  if s.asleep then done s s else done s (s.mgmtIn from_ bytes)

/-- A MSG frame: a request where its message type equals its COMMAND and channel 2 is free, else discarded. -/
def State.msgIn (s : State) (e : Option Nat × Bool × Frame) : State :=
  let f := e.2.2
  let s := s.takeReq e
  if s.mbox.ch2.isSome ∨ f.opspec % 2 ^ 16 ≠ mqCmd f.payload then s
  else s.modMbox fun m => { m with ch2 := some e, posted := m.posted ++ [2] }

/-- MSG (R379, R534). -/
def execMsg (s : State) : Res := match s.firstReq 3 with | some e => done s (s.msgIn e) | none => done s s

/-! ## Commands (R538, R542, R544 to R553) -/

/-- How many commands a group has (Tables 17.4 to 17.13). -/
def groupSize (g : Nat) : Nat :=
  match g with | 1 => 5 | 2 => 4 | 3 => 5 | 4 => 8 | 5 => 7 | 6 => 11 | 7 => 3 | 8 => 6 | 9 => 3 | 10 => 5 | _ => 0

def knownCmd (c : Nat) : Bool := decide (c % 256 < groupSize (c / 256))

/-- The argument lengths of commands by group; none where the length varies. -/
def groupLens (g : Nat) : List (Option Nat) :=
  match g with
  | 1 => [some 0, some 2, some 0, some 0, some 0]
  | 2 => [some 16, some 1, some 1, some 1]
  | 3 => [some 1, some 2, some 16, some 8, some 4]
  | 4 => [some 1, some 0, some 3, some 1, some 2, some 4, some 24, some 24]
  | 5 => [some 0, some 3, some 3, some 40, some 4, some 2, some 8]
  | 6 => [some 0, some 1, some 0, some 4, none, some 0, some 2, some 1, some 56, some 1, some 4]
  | 7 => [some 4, none, some 4]
  | 8 => [some 0, some 4, some 8, some 8, some 4, some 1]
  | 9 => [some 32, some 1, some 8]
  | _ => [some 1, some 16, some 5, none, none]

/-- Step 6 of R538: LEN is the length the command's table gives. -/
def lenOk (b : List Byte) : Bool :=
  let c := mqCmd b
  let n := mqLen b
  match (groupLens (c / 256)).getD (c % 256) none with
  | some k => n == k
  | none =>
    if c = 0x604 then decide (9 ≤ n)
    else if c = 0x701 then n == 8 + 4 * mqArg b 2 2
    else if c = 0xA03 then n == 8 + (if mqArg b 4 1 = 4 then 4 else 8)
    else true

/-- R542: commands that channel 2 serves. -/
def peerCmd (c : Nat) : Bool := [0x100, 0x102, 0x103, 0x400, 0x401].contains c

/-- R540: the largest minor version that the server serves. -/
def State.serverMinor (s : State) : Nat := if s.romServes then 0 else s.serverVersion / 256 % 256

/-- The negotiated minor version of a channel. -/
def State.chMinor (s : State) (ch : Nat) : Nat := if ch = 0 then s.fld F.MBOX_STAT_IFMINOR 0 else SMap.get 0 s.mbox.minors ch

/-- R538: the checks of a request but the command's own; status and DETAIL of the first that fails. -/
def State.mboxCheck (s : State) (ch : Nat) (b : List Byte) : Option (Nat × Nat) :=
  let c := mqCmd b
  let n := mqLen b
  if 4080 < n ∨ byF b 8 8 ≠ 0 ∨ b.length < 16 + n then some (stBAD_ARG, 2)
  else if c / 256 ≠ 1 ∧ (byF b 6 1 ≠ 4 ∨ byF b 7 1 ≠ s.chMinor ch) then some (stVERSION, 0)
  else if !knownCmd c then some (stBAD_ARG, 1)
  else if s.romServes ∧ c / 256 ≠ 1 ∧ c ≠ 0x601 then some (stMINIMAL_MODE, 0)
  else if ch = 2 ∧ !peerCmd c then some (stNOT_PERMITTED, 5)
  else if !lenOk b then some (stBAD_ARG, 2)
  else none

/-! ## Taking and answering (R536, R537, R541) -/

/-- The channel whose request the server may take now: the oldest post, while the server is up and serves no other. -/
def State.mboxNext (s : State) : Option Nat :=
  if s.asleep || !s.serverUp || s.mbox.busy.isSome then none else s.mbox.posted.head?

/-- The server takes a request; a post waited for AVAIL until now at the latest. -/
def State.mboxTake (s : State) (ch : Nat) : State :=
  let s := s.modMbox fun m => { m with busy := some ch, posted := m.posted.tail, downUntil := none }
  if ch = 0 then (s.setFld F.MBOX_STAT_STATE 0 2).setFld F.MBOX_STAT_SEQ 0 (mqSeq (s.mboxReq 0)) else s

/-- What a command answers: the state, STATUS, DETAIL, results. -/
abbrev Ans := State × Nat × Nat × List Byte

def ansOk (s : State) (res : List Byte) : Ans := (s, stOK, 0, res)
def ansSt (s : State) (st : Nat) : Ans := (s, st, if st = stBAD_ARG then 3 else 0, [])
def ansArg (s : State) : Ans := ansSt s stBAD_ARG

/-- The status of a start or of a register with results that stand only beside OK (Table 17.2). -/
def ansWith (s : State) (st : Nat) (res : List Byte) : Ans := if st = stOK then ansOk s res else ansSt s st

/-- R549: commands of group 0x06 that leave a standby write open. -/
def keepsStandby (c : Nat) : Bool := c / 256 != 6 || c == 0x600 || c == 0x604 || c == 0x605

/-- The request of a channel is served; a reset made meanwhile leaves nothing to answer (R556). -/
def State.mboxServe (s : State) (ch : Nat) (serve : State → Nat → List Byte → Ans) : State :=
  let b := s.mboxReq ch
  match s.mboxCheck ch b with
  | some e => s.respond ch e.1 e.2 []
  | none =>
    let s := if keepsStandby (mqCmd b) then s else s.closeStandby
    let a := serve s ch b
    if a.1.mbox.busy.isNone then a.1 else a.1.respond ch a.2.1 a.2.2.1 a.2.2.2

/-- A request that the row of a command takes: its COMMAND is the row's, or names no command. -/
def rowTakes (code : Nat) (b : List Byte) : Bool := mqCmd b == code || !knownCmd (mqCmd b)

/-- A row of a command, in its two halves. -/
def State.mboxRow (s : State) (ph : Phase) (code : Nat) (serve : State → Nat → List Byte → Ans) : State :=
  match ph with
  | .take => match s.mboxNext with
    | some ch => if rowTakes code (s.mboxReq ch) then s.mboxTake ch else s
    | none => s
  | .serve => match s.mbox.busy with
    | some ch => if rowTakes code (s.mboxReq ch) ∧ !s.asleep then s.mboxServe ch serve else s
    | none => s

/-! ## Registers through the mailbox (R537, R543) -/

/-- Bytes of a register as it reads. -/
def State.rd (s : State) (r : RegName) (i n : Nat) : List Byte := toBytes n (s.view r i).toNat

/-- A write "as register": that of host software. -/
def State.asReg (s : State) (r : RegName) (i v m : Nat) : State := s.writeReg .host r i v m (regOffset r i)

/-- The whole of a register, and its low half. -/
def allBits : Nat := 2 ^ 64 - 1
def lowBits : Nat := 2 ^ 32 - 1

/-- A command with a partition number. -/
def withQ (s : State) (b : List Byte) (f : Nat → Ans) : Ans := let q := mqArg b 0 1; if 7 < q then ansArg s else f q

/-! ## Group 0x01 -/

def serveGetVersion (s : State) (_ : Nat) (_ : List Byte) : Ans :=
  ansOk s (toBytes 4 s.serverVersion ++ toBytes 1 0 ++ toBytes 1 s.serverMinor ++ toBytes 1 4 ++ toBytes 1 0
    ++ toBytes 4 Config.romVersion)

/-- GET_VERSION (R544). -/
def execGetVersion (ph : Phase) (s : State) : Res := done s (s.mboxRow ph 0x100 serveGetVersion)

/-- R540: a major other than 4 fails, and the range served is given. -/
def serveNegotiate (s : State) (ch : Nat) (b : List Byte) : Ans :=
  let k := min (mqArg b 1 1) s.serverMinor
  if mqArg b 0 1 ≠ 4 then (s, stVERSION, 0, toBytes 1 4 ++ toBytes 1 s.serverMinor)
  else
    let t := if ch = 0 then s.setFld F.MBOX_STAT_IFMINOR 0 k else s.modMbox fun m => { m with minors := SMap.put 0 m.minors ch k }
    ansOk t (toBytes 1 4 ++ toBytes 1 k)

/-- NEGOTIATE (R540). -/
def execNegotiate (ph : Phase) (s : State) : Res := done s (s.mboxRow ph 0x101 serveNegotiate)

def serveGetIdentity (s : State) (_ : Nat) (_ : List Byte) : Ans :=
  ansOk s (s.rd .ROOT_ID 0 8 ++ (List.range 4).flatMap (fun w => toBytes 4 (s.psWord w)) ++ s.rd .ROUTE_NODE 0 8
    ++ toBytes 6 (s.psWord 4 + s.psWord 5 * 2 ^ 32))

/-- GET_IDENTITY (R544). -/
def execGetIdentity (ph : Phase) (s : State) : Res := done s (s.mboxRow ph 0x102 serveGetIdentity)

def serveGetStatus (s : State) (_ : Nat) (_ : List Byte) : Ans :=
  ansOk s (s.rd .ROOT_BOOT 0 8 ++ s.rd .ROOT_MGMT 0 8 ++ s.rd .PWR_STATE 0 8 ++ s.rd .PWR_BUDGET 0 8 ++ s.rd .PWR_THERM 0 4)

/-- GET_STATUS (R544). -/
def execGetStatus (ph : Phase) (s : State) : Res := done s (s.mboxRow ph 0x103 serveGetStatus)

def serveGetBootrec (s : State) (_ : Nat) (_ : List Byte) : Ans :=
  ansOk s (s.rd .PS_BOOTREC 0 8 ++ s.rd .PS_BOOTCNT 0 4 ++ toBytes 4 0 ++ s.rd .ROOT_IMG 0 8 ++ s.rd .ROOT_IMG 1 8 ++ s.rd .ROOT_FUSE 0 8)

/-- GET_BOOTREC (R544). -/
def execGetBootrec (ph : Phase) (s : State) : Res := done s (s.mboxRow ph 0x104 serveGetBootrec)

/-! ## Group 0x02 -/

/-- R28: the steps of other partitions that share a region with some clusters. -/
def State.regionSteps (s : State) (q mask : Nat) : List Nat :=
  ((List.range 8).filter fun r => r != q && (clustersOf mask).any fun a => (s.partClusters r).any fun b => sameRegion a b).map fun r =>
    (s.part r).step

/-- The step of a partition with the clusters of a mask: a partition that held none takes that of a region it shares, or step 7. -/
def State.newStep (s : State) (q mask : Nat) : Nat :=
  if (s.part q).mask = 0 ∨ mask = 0 then (s.regionSteps q mask).headD 7 else (s.part q).step

/-- R545: the status of PART_SET. -/
def State.partSetStatus (s : State) (q mask : Nat) : Nat :=
  let held := (s.acts.foldl (fun t a => t ||| a.tokens) 0) &&& tokDies (mask ||| (s.part q).mask)
  if (s.part q).job ≠ .idle then stNOT_PERMITTED
  else if (List.range 8).any fun r => r != q && (s.part r).mask &&& mask != 0 then stBAD_ARG
  else if (s.regionSteps q mask).any fun k => k != s.newStep q mask then stNOT_PERMITTED
  else if (clustersOf mask).any s.swept then stNOT_READY
  else if held ≠ 0 then stBUSY
  else stOK

def servePartSet (s : State) (_ : Nat) (b : List Byte) : Ans :=
  withQ s b fun q =>
    let mask := mqArg b 8 8
    let st := s.partSetStatus q mask
    ansWith (if st = stOK then s.modPart q fun p => { p with mask := mask, step := s.newStep q mask } else s) st []

/-- PART_SET (R545). -/
def execPartSet (ph : Phase) (s : State) : Res := done s (s.mboxRow ph 0x200 servePartSet)

def servePartQuery (s : State) (_ : Nat) (b : List Byte) : Ans :=
  withQ s b fun q =>
    ansOk s (toBytes 8 (s.part q).mask ++ s.rd .TIME_JOB_STAT q 8 ++ s.rd .TIME_JOB_CFG q 8 ++ s.rd .PWR_STEP q 8)

/-- PART_QUERY (R545). -/
def execPartQuery (ph : Phase) (s : State) : Res := done s (s.mboxRow ph 0x201 servePartQuery)

def servePartReset (s : State) (_ : Nat) (b : List Byte) : Ans := withQ s b fun q => ansOk (s.partReset q) []

/-- PART_RESET (R545, R559). -/
def execPartReset (ph : Phase) (s : State) : Res := done s (s.mboxRow ph 0x202 servePartReset)

def servePartLedger (s : State) (_ : Nat) (b : List Byte) : Ans :=
  withQ s b fun q =>
    if (s.part q).job = .idle then ansSt s stNOT_PERMITTED
    else ansOk s (toBytes 8 ((s.part q).lastBeat.getD (2 ^ 64 - 1)) ++ toBytes 8 (s.part q).records ++ toBytes 8 (s.fld F.TIME_LEDGER_BASE q))

/-- PART_LEDGER (R545). -/
def execPartLedger (ph : Phase) (s : State) : Res := done s (s.mboxRow ph 0x203 servePartLedger)

/-! ## Group 0x03: the values that no field holds are out of range; others go as a write of the register goes (R543) -/

def serveSetState (s : State) (_ : Nat) (b : List Byte) : Ans :=
  let t := mqArg b 0 1
  if 3 < t then ansArg s else let u := s.stateCmd t; ansSt u (u.fld F.PWR_STATE_STATUS 0)

/-- SET_STATE (R546, R484). -/
def execSetState (ph : Phase) (s : State) : Res := done s (s.mboxRow ph 0x300 serveSetState)

/-- The budget as a result. -/
def State.budgetRes (s : State) : List Byte := toBytes 2 (capAt F.PWR_BUDGET_TOTAL s.powerBudget)

def serveSetCap (s : State) (_ : Nat) (b : List Byte) : Ans :=
  let c := mqArg b 0 2
  if 2 ^ 11 ≤ c then ansArg s
  else let t := s.asReg .PWR_CAP 0 c lowBits; ansWith t (t.fld F.PWR_BUDGET_STATUS 0) t.budgetRes

/-- SET_CAP (R546, R481). -/
def execSetCap (ph : Phase) (s : State) : Res := done s (s.mboxRow ph 0x301 serveSetCap)

def serveSetStep (s : State) (_ : Nat) (b : List Byte) : Ans :=
  withQ s b fun q =>
    let step := mqArg b 1 1
    let spread := mqArg b 2 1
    let beat := mqArg b 8 8
    if 7 < step ∨ 1 < spread ∨ 2 ^ 48 ≤ beat then ansArg s
    else
      let t := s.asReg .PWR_STEPCMD q (spread * 2 ^ 63 + step * 2 ^ 48 + beat) allBits
      ansSt t (t.fld F.PWR_STEP_STATUS q)

/-- SET_STEP (R546, R476). -/
def execSetStep (ph : Phase) (s : State) : Res := done s (s.mboxRow ph 0x302 serveSetStep)

def serveSetWakesel (s : State) (_ : Nat) (b : List Byte) : Ans := ansOk (s.asReg .PWR_WAKESEL 0 (mqArg b 0 8) allBits) []

/-- SET_WAKESEL (R546). -/
def execSetWakesel (ph : Phase) (s : State) : Res := done s (s.mboxRow ph 0x303 serveSetWakesel)

def serveSetPdecl (s : State) (_ : Nat) (b : List Byte) : Ans :=
  withQ s b fun q =>
    let w := mqArg b 2 2
    if 2 ^ 11 ≤ w then ansArg s
    else let t := s.asReg .PWR_PDECL q w lowBits; ansWith t (t.fld F.PWR_BUDGET_STATUS 0) t.budgetRes

/-- SET_PDECL (R546, R481). -/
def execSetPdecl (ph : Phase) (s : State) : Res := done s (s.mboxRow ph 0x304 serveSetPdecl)

end Sys2Proof.Machine
end

