-- ==== Sys2Proof/Machine/MboxDiag.lean ====
section
/-! DEFINITION. Mailbox commands of groups 0x08 to 0x0A: time, serving policy, diagnostics (17_mailbox.md R551 to R553). -/

namespace Sys2Proof.Machine

/-! ## Group 0x08 -/

def serveTimeStatus (s : State) (_ : Nat) (_ : List Byte) : Ans :=
  ansOk s (s.rd .TIME_GTC 0 8 ++ s.rd .TIME_STAT 0 8 ++ s.rd .TIME_ERR 0 8 ++ s.rd .TIME_SLEW 0 8)

/-- TIME_STATUS (R551). -/
def execTimeStatus (ph : Phase) (s : State) : Res := done s (s.mboxRow ph 0x800 serveTimeStatus)

def serveSetMaster (s : State) (_ : Nat) (b : List Byte) : Ans := ansOk (s.asReg .TIME_MASTER 0 (mqArg b 0 4) lowBits) []

/-- SET_MASTER (R551). -/
def execSetMaster (ph : Phase) (s : State) : Res := done s (s.mboxRow ph 0x801 serveSetMaster)

/-- R471: the correction e, where the part takes it. -/
def serveTimeSet (s : State) (_ : Nat) (b : List Byte) : Ans :=
  let v := mqArg b 0 8
  let t := s.asReg .TIME_SET 0 v allBits
  if s.isMaster ∧ s.timeSrc = 0 then ansOk t (toBytes 8 (BitVec.ofInt 64 (Int.ofNat v - Int.ofNat s.gtc)).toNat)
  else ansSt t stNOT_PERMITTED

/-- TIME_SET (R551, R471). -/
def execTimeSet (ph : Phase) (s : State) : Res := done s (s.mboxRow ph 0x802 serveTimeSet)

def serveSetAlarm (s : State) (_ : Nat) (b : List Byte) : Ans := ansOk (s.asReg .TIME_ALARM 0 (mqArg b 0 8) allBits) []

/-- SET_ALARM (R551). -/
def execSetAlarm (ph : Phase) (s : State) : Res := done s (s.mboxRow ph 0x803 serveSetAlarm)

def serveSetPps (s : State) (_ : Nat) (b : List Byte) : Ans := ansOk (s.asReg .TIME_PPS 0 (mqArg b 0 4) lowBits) []

/-- SET_PPS (R551). -/
def execSetPps (ph : Phase) (s : State) : Res := done s (s.mboxRow ph 0x804 serveSetPps)

def serveSetSlew (s : State) (_ : Nat) (b : List Byte) : Ans := ansOk (s.asReg .TIME_SLEW 0 (mqArg b 0 1) 255) []

/-- SET_SLEW (R551). -/
def execSetSlew (ph : Phase) (s : State) : Res := done s (s.mboxRow ph 0x805 serveSetSlew)

/-! ## Group 0x09 -/

def serveSetDeadline (s : State) (_ : Nat) (b : List Byte) : Ans :=
  withQ s b fun q =>
    let t := s.asReg .SERVE_DLCFG q (mqArg b 8 8) allBits
    let t := t.asReg .SERVE_DLCFG2 q (mqArg b 16 8) allBits
    ansOk (t.asReg .SERVE_PARKTH q (mqArg b 24 8) allBits) []

/-- SET_DEADLINE (R552). -/
def execSetDeadline (ph : Phase) (s : State) : Res := done s (s.mboxRow ph 0x900 serveSetDeadline)

def serveServeStatus (s : State) (_ : Nat) (b : List Byte) : Ans :=
  withQ s b fun q => ansOk s (s.rd .SERVE_PSTAT q 8 ++ s.rd .SERVE_SEQ q 8 ++ s.rd .SERVE_CNT0 q 8 ++ s.rd .SERVE_CNT1 q 8)

/-- SERVE_STATUS (R552). -/
def execServeStatus (ph : Phase) (s : State) : Res := done s (s.mboxRow ph 0x901 serveServeStatus)

def serveServeAbort (s : State) (_ : Nat) (b : List Byte) : Ans :=
  withQ s b fun q => let t := s.asReg .SERVE_ABORT q (mqArg b 4 4) lowBits; ansSt t (t.fld F.SERVE_ABORT_STATUS q)

/-- SERVE_ABORT (R552, R426). -/
def execServeAbort (ph : Phase) (s : State) : Res := done s (s.mboxRow ph 0x902 serveServeAbort)

/-! ## Group 0x0A -/

/-- The primary management core as a requester; ROM serves on MC0. -/
def State.primaryReq (s : State) : Requester := if s.primary = 1 ∧ !s.romServes then .mc1 else .mc0

/-- R553: the pending registers that the two commands act on. -/
def clearable (w : Nat) : Bool := w == 0 || w == 5 || w == 15

/-- R505: the sources of a register that a pass handles: source, occurrences, pending bit. -/
def State.passList (s : State) (w : Nat) : List (Nat × Nat × Nat) :=
  (List.range 64).filterMap fun j =>
    let n := 64 * w + j
    let c := s.fld F.EVC_CNT_COUNT (n / 8) / 256 ^ (n % 8) % 256
    let p := s.fld F.EVC_PEND_PEND w / 2 ^ j % 2
    if c = 0 ∧ p = 0 then none else some (n, c, p)

/-- R505: the pass clears the counters and the pending bits of a register; its mask stands as before. -/
def State.clearPass (s : State) (w : Nat) : State :=
  ((List.range 8).foldl (fun (t : State) i => t.setFld F.EVC_CNT_COUNT (8 * w + i) 0) s).setFld F.EVC_PEND_PEND w 0

def serveEvcClear (s : State) (_ : Nat) (b : List Byte) : Ans :=
  let w := mqArg b 0 1
  if !clearable w then ansArg s
  else
    let l := s.passList w
    ansOk (s.clearPass w) (toBytes 8 l.length ++ l.flatMap fun e => toBytes 2 e.1 ++ toBytes 1 e.2.1 ++ toBytes 1 e.2.2)

/-- EVC_CLEAR (R553, R505). -/
def execEvcClear (ph : Phase) (s : State) : Res := done s (s.mboxRow ph 0xA00 serveEvcClear)

def serveEvcSetmask (s : State) (_ : Nat) (b : List Byte) : Ans :=
  let w := mqArg b 0 1
  if !clearable w then ansArg s else ansOk (s.writeEvc s.primaryReq .EVC_MASK w (mqArg b 8 8) allBits) []

/-- EVC_SETMASK (R553). -/
def execEvcSetmask (ph : Phase) (s : State) : Res := done s (s.mboxRow ph 0xA01 serveEvcSetmask)

def serveRegRead (s : State) (_ : Nat) (b : List Byte) : Ans :=
  let off := mqArg b 0 4
  match mqArg b 4 1 with
  | 4 => let r := s.read4 s.primaryReq off; ansOk r.1 (toBytes 4 r.2)
  | 8 => let r := s.read8 s.primaryReq off; ansOk r.1 (toBytes 8 r.2)
  | _ => ansArg s

/-- REG_READ (R553). -/
def execRegRead (ph : Phase) (s : State) : Res := done s (s.mboxRow ph 0xA02 serveRegRead)

def serveRegWrite (s : State) (_ : Nat) (b : List Byte) : Ans :=
  let n := mqArg b 4 1
  if n = 4 ∨ n = 8 then ansOk (s.bar0Write s.primaryReq (mqArg b 0 4) n (mqArg b 8 n)) [] else ansArg s

/-- REG_WRITE (R553, R543). -/
def execRegWrite (ph : Phase) (s : State) : Res := done s (s.mboxRow ph 0xA03 serveRegWrite)

def serveEcho (s : State) (_ : Nat) (b : List Byte) : Ans := ansOk s ((b.drop 16).take (mqLen b))

/-- ECHO (R553). -/
def execEcho (ph : Phase) (s : State) : Res := done s (s.mboxRow ph 0xA04 serveEcho)

end Sys2Proof.Machine
end

