-- ==== Sys2Proof/Machine/MboxFw.lean ====
section
/-! DEFINITION. Mailbox commands of groups 0x06 and 0x07: firmware, fuses, the persistent store (17_mailbox.md R549, R550). -/

namespace Sys2Proof.Machine

/-! ## Group 0x06 -/

def serveImgStatus (s : State) (_ : Nat) (_ : List Byte) : Ans := ansOk s (s.rd .ROOT_IMG 0 8 ++ s.rd .ROOT_IMG 1 8 ++ s.rd .ROOT_MGMT 0 8)

/-- IMG_STATUS (R549). -/
def execImgStatus (ph : Phase) (s : State) : Res := done s (s.mboxRow ph 0x600 serveImgStatus)

/-- R514: a fetch retry makes an attempt of cause 5 due. -/
def serveFetchRetry (s : State) (_ : Nat) (b : List Byte) : Ans :=
  let k := mqArg b 0 1
  if 1 < k then ansArg s
  else if !s.minimal then ansSt s stNOT_PERMITTED
  else ansOk (s.modBoot fun v => { v with due := some 5, retry := some k }) []

/-- FETCH_RETRY (R549, R514). -/
def execFetchRetry (ph : Phase) (s : State) : Res := done s (s.mboxRow ph 0x601 serveFetchRetry)

/-- R526: the slot not run by the primary core. -/
def State.standbySlot (s : State) : Nat := 1 - s.mcSlot s.primary

/-- R526: a slot that a RUNNING or STARTING core runs from. -/
def State.slotRun (s : State) (k : Nat) : Bool := [0, 1].any fun m => (s.mcState m == 2 || s.mcState m == 3) && s.mcSlot m == k

def serveStandbyFetch (s : State) (_ : Nat) (_ : List Byte) : Ans :=
  let k := s.standbySlot
  if s.slotRun k then ansSt s stNOT_PERMITTED else ansOk (s.beginFetch 1 k) (toBytes 1 k)

/-- STANDBY_FETCH (R549, R526). -/
def execStandbyFetch (ph : Phase) (s : State) : Res := done s (s.mboxRow ph 0x602 serveStandbyFetch)

def serveStandbyBegin (s : State) (_ : Nat) (b : List Byte) : Ans :=
  let k := s.standbySlot
  let n := mqArg b 0 4
  if n < 704 ∨ 8388608 < n then ansArg s
  else if s.slotRun k then ansSt s stNOT_PERMITTED
  else ansOk ((s.setFld F.ROOT_IMG_STATE k 1).modMbox fun m => { m with standby := some ⟨k, n, []⟩ }) (toBytes 1 k)

/-- STANDBY_BEGIN (R549). -/
def execStandbyBegin (ph : Phase) (s : State) : Res := done s (s.mboxRow ph 0x603 serveStandbyBegin)

/-- Bytes of an image that have come. -/
def Standby.take (w : Standby) (off : Nat) (bs : List Byte) : Standby :=
  { w with got := (bs.foldl (fun (acc : SMap (Option Byte) × Nat) v => (SMap.put none acc.1 acc.2 (some v), acc.2 + 1)) (w.got, off)).1 }

def serveStandbyData (s : State) (_ : Nat) (b : List Byte) : Ans :=
  let off := mqArg b 0 4
  let bs := (b.drop 24).take (mqLen b - 8)
  match s.mbox.standby with
  | none => ansSt s stNOT_PERMITTED
  | some w => if w.size < off + bs.length then ansArg s else ansOk (s.modMbox fun m => { m with standby := some (w.take off bs) }) []

/-- STANDBY_DATA (R549). -/
def execStandbyData (ph : Phase) (s : State) : Res := done s (s.mboxRow ph 0x604 serveStandbyData)

/-- The whole image, or none where bytes are missing. -/
def Standby.image (w : Standby) : Option (List Byte) := if w.got.length = w.size then some (w.got.map fun e => e.2.getD 0) else none

/-- The image is written and verified (R517). -/
def State.endStandby (s : State) (k : Nat) (img : List Byte) : State × Nat :=
  let s := s.modBoot fun v => { v with imgs := SMap.put [] v.imgs k img }
  let r := s.verifyImage img
  ((s.slotVerified k r).modMbox fun m => { m with standby := none }, r)

def serveStandbyEnd (s : State) (_ : Nat) (_ : List Byte) : Ans :=
  match s.mbox.standby with
  | none => ansSt s stNOT_PERMITTED
  | some w => match w.image with
    | none => ansSt s stNOT_PERMITTED
    | some img => let r := s.endStandby w.slot img; ansOk r.1 (toBytes 1 (r.1.slotState w.slot) ++ toBytes 1 r.2)

/-- STANDBY_END (R549). -/
def execStandbyEnd (ph : Phase) (s : State) : Res := done s (s.mboxRow ph 0x605 serveStandbyEnd)

/-- R529: a persistent word that takes no more writes. -/
def State.psWorn (s : State) (w : Nat) : Bool := decide (1000000 ≤ SMap.get 0 s.psCount w + s.psWaiting w)

def serveSetBootcfg (s : State) (_ : Nat) (b : List Byte) : Ans :=
  let p := mqArg b 0 1
  let f := mqArg b 1 1
  if 1 < p ∨ 1 < f then ansArg s
  else
    let t := s.psWrite 0xB (p + 2 * f)
    ansSt t (if t.psWord 0xB = p + 2 * f then stOK else stNOT_PERMITTED)

/-- SET_BOOTCFG (R549). -/
def execSetBootcfg (ph : Phase) (s : State) : Res := done s (s.mboxRow ph 0x606 serveSetBootcfg)

def serveRoleSwitch (s : State) (_ : Nat) (b : List Byte) : Ans :=
  let k := mqArg b 0 1
  let m := 1 - s.primary
  if 1 < k then ansArg s
  else if s.mcState 0 ≠ 3 ∨ s.mcState 1 ≠ 3 then ansSt s stBUSY
  else if s.slotState k ≠ 2 then ansSt s stNOT_PERMITTED
  else ansOk ((s.modBoot fun v => { v with switchTo := some m }).restartMc m k (.switch m)) []

/-- ROLE_SWITCH (R549, R525). -/
def execRoleSwitch (ph : Phase) (s : State) : Res := done s (s.mboxRow ph 0x607 serveRoleSwitch)

def serveFuseKey (s : State) (_ : Nat) (b : List Byte) : Ans :=
  let k := mqArg b 0 1
  if 3 < k then ansArg s
  else if (s.keyHash k).isSome then ansSt s stNOT_PERMITTED
  else ansOk (s.modBoot fun v => { v with keys := SMap.put (if k = 0 then some Config.shipKey else none) v.keys k (some ((b.drop 24).take 48)) }) []

/-- FUSE_KEY (R549, R518). -/
def execFuseKey (ph : Phase) (s : State) : Res := done s (s.mboxRow ph 0x608 serveFuseKey)

/-- Key slots that are programmed and not revoked. -/
def State.liveKeys (s : State) : List Nat :=
  (List.range 4).filter fun k => (s.keyHash k).isSome && !(s.fld F.ROOT_FUSE_REVOKED 0).testBit k

def serveFuseRevoke (s : State) (_ : Nat) (b : List Byte) : Ans :=
  let k := mqArg b 0 1
  if 3 < k then ansArg s
  else if (s.liveKeys.filter (· != k)).isEmpty then ansSt s stNOT_PERMITTED
  else ansOk (s.setFld F.ROOT_FUSE_REVOKED 0 (s.fld F.ROOT_FUSE_REVOKED 0 ||| 2 ^ k)) []

/-- FUSE_REVOKE (R549, R518). -/
def execFuseRevoke (ph : Phase) (s : State) : Res := done s (s.mboxRow ph 0x609 serveFuseRevoke)

def serveFuseSvn (s : State) (_ : Nat) (b : List Byte) : Ans :=
  let v := mqArg b 0 4
  if v < s.fld F.ROOT_FUSE_SVNFLOOR 0 then ansArg s
  else if byF (s.image (s.mcSlot s.primary)) 12 4 < v then ansSt s stNOT_PERMITTED
  else ansOk (s.setFld F.ROOT_FUSE_SVNFLOOR 0 (s.fld F.ROOT_FUSE_SVNFLOOR 0 ||| v)) []

/-- FUSE_SVN (R549, R518): programming never clears a bit. -/
def execFuseSvn (ph : Phase) (s : State) : Res := done s (s.mboxRow ph 0x60A serveFuseSvn)

/-! ## Group 0x07 -/

/-- COUNT words from WORD, at most `most`, within the store. -/
def psRange (b : List Byte) (most : Nat) : Bool :=
  let n := mqArg b 2 2
  decide (1 ≤ n ∧ n ≤ most ∧ mqArg b 0 2 + n ≤ 16384)

def servePsRead (s : State) (_ : Nat) (b : List Byte) : Ans :=
  if psRange b 1020 then ansOk s ((List.range (mqArg b 2 2)).flatMap fun i => toBytes 4 (s.psShown (mqArg b 0 2 + i))) else ansArg s

/-- PS_READ (R550). -/
def execPsRead (ph : Phase) (s : State) : Res := done s (s.mboxRow ph 0x700 servePsRead)

/-- A word that PS_WRITE may write. -/
def psMail (w : Nat) : Bool := psHost w || decide (0x1000 ≤ w ∧ w < 0x4000)

/-- Words written in increasing order; a refusal stops the write. The state, and how many were written. -/
def State.psWords (s : State) (w : Nat) : List Nat → Nat → State × Nat
  | [], k => (s, k)
  | v :: vs, k =>
    let t := s.psWrite w v
    if t.psWord w = v then t.psWords (w + 1) vs (k + 1) else (t, k)

def servePsWrite (s : State) (_ : Nat) (b : List Byte) : Ans :=
  let w := mqArg b 0 2
  let n := mqArg b 2 2
  if !psRange b 1018 || !((List.range n).all fun i => psMail (w + i)) then ansArg s
  else
    let r := s.psWords w ((List.range n).map fun i => mqArg b (8 + 4 * i) 4) 0
    (r.1, if r.2 = n then stOK else stNOT_PERMITTED, 0, toBytes 2 r.2)

/-- PS_WRITE (R550). -/
def execPsWrite (ph : Phase) (s : State) : Res := done s (s.mboxRow ph 0x701 servePsWrite)

def servePsWear (s : State) (_ : Nat) (b : List Byte) : Ans :=
  if psRange b 1020 then ansOk s ((List.range (mqArg b 2 2)).flatMap fun i => toBytes 4 (SMap.get 0 s.psCount (mqArg b 0 2 + i))) else ansArg s

/-- PS_WEAR (R550). -/
def execPsWear (ph : Phase) (s : State) : Res := done s (s.mboxRow ph 0x702 servePsWear)

end Sys2Proof.Machine
end

