-- ==== Sys2Proof/Machine/MboxPort.lean ====
section
/-! DEFINITION. Mailbox commands of groups 0x04 and 0x05: the fabric and its ports, Ethernet endpoints, maintenance
(17_mailbox.md R547, R548). -/

namespace Sys2Proof.Machine

/-! ## Group 0x04 -/

/-- A command with a port number. -/
def withN (s : State) (b : List Byte) (f : Nat → Ans) : Ans := let n := mqArg b 0 1; if s.id.ports ≤ n then ansArg s else f n

def servePortInfo (s : State) (_ : Nat) (b : List Byte) : Ans :=
  withN s b fun n =>
    ansOk s (s.rd .PORT_STAT n 8 ++ s.rd .PORT_RETRY n 8 ++ toBytes 8 (s.roleReg n) ++ (List.range 8).flatMap fun i => s.rd .PORT_NBR (8 * n + i) 8)

/-- PORT_INFO (R547). -/
def execPortInfo (ph : Phase) (s : State) : Res := done s (s.mboxRow ph 0x400 servePortInfo)

/-- A port in NBR_MAP. -/
def State.nbrEntry (s : State) (n : Nat) : List Byte :=
  match (s.port n).nbr with
  | some r => toBytes 1 (s.pstate n) ++ toBytes 1 (s.roleReg n) ++ toBytes 1 (s.fld F.PORT_STAT_NBRPORT n)
      ++ toBytes 1 (s.fld F.PORT_STAT_PERMUTED n) ++ toBytes 4 (byF r 8 4 % 2 ^ 28)
  | none => toBytes 8 (s.pstate n)

def serveNbrMap (s : State) (_ : Nat) (_ : List Byte) : Ans := ansOk s ((List.range s.id.ports).flatMap s.nbrEntry)

/-- NBR_MAP (R547). -/
def execNbrMap (ph : Phase) (s : State) : Res := done s (s.mboxRow ph 0x401 serveNbrMap)

/-- The bit of a port in the persistent port enable mask. -/
def State.persistEnable (s : State) (n : Nat) (on : Bool) : State :=
  let w := 0x15 + n / 32
  let v := s.psWord w
  let k := 2 ^ (n % 32)
  s.psSet w (if on then v ||| k else v - (v &&& k))

def servePortEnable (s : State) (_ : Nat) (b : List Byte) : Ans :=
  withN s b fun n =>
    let e := mqArg b 1 1
    let p := mqArg b 2 1
    if 1 < e ∨ 1 < p then ansArg s
    else
      let t := s.asReg .PORT_CTL n e 1
      ansOk (if p = 1 then t.persistEnable n (e == 1) else t) []

/-- PORT_ENABLE (R547). -/
def execPortEnable (ph : Phase) (s : State) : Res := done s (s.mboxRow ph 0x402 servePortEnable)

def servePortReset (s : State) (_ : Nat) (b : List Byte) : Ans := withN s b fun n => ansOk (s.asReg .PORT_CTL n 2 2) []

/-- PORT_RESET (R547, R358). -/
def execPortReset (ph : Phase) (s : State) : Res := done s (s.mboxRow ph 0x403 servePortReset)

def serveSetRole (s : State) (_ : Nat) (b : List Byte) : Ans :=
  withN s b fun n =>
    let k := 256 ^ (n % 8)
    ansOk (s.asReg .ROUTE_ROLE (n / 8) (mqArg b 1 1 * k) (255 * k)) []

/-- SET_ROLE (R547, R366). -/
def execSetRole (ph : Phase) (s : State) : Res := done s (s.mboxRow ph 0x404 serveSetRole)

def serveSetDims (s : State) (_ : Nat) (b : List Byte) : Ans := ansOk (s.asReg .ROUTE_DIMS 0 (mqArg b 0 4) lowBits) []

/-- SET_DIMS (R547). -/
def execSetDims (ph : Phase) (s : State) : Res := done s (s.mboxRow ph 0x405 serveSetDims)

def serveEthAddr (s : State) (_ : Nat) (b : List Byte) : Ans :=
  let p := mqArg b 0 1
  let l := mqArg b 1 1
  if 1 < p ∨ 128 < l then ansArg s
  else ansOk (s.modHost fun h => { h with addrs := SMap.put (0, 0) h.addrs p (l, mqArg b 8 16) }) []

/-- ETH_ADDR (R547). -/
def execEthAddr (ph : Phase) (s : State) : Res := done s (s.mboxRow ph 0x406 serveEthAddr)

/-- The endpoint that ETH_ENDPOINT names: a ring's, the park server's (64), telemetry's (65). -/
def endKey (b : List Byte) : Nat := match mqArg b 0 1 with | 0 => mqArg b 1 1 | k => 63 + k

def serveEthEndpoint (s : State) (_ : Nat) (b : List Byte) : Ans :=
  let ring := mqArg b 0 1 = 0
  if 2 < mqArg b 0 1 ∨ (ring ∧ 64 ≤ mqArg b 1 1) ∨ 1 < mqArg b 2 1 then ansArg s
  else if ring ∧ s.ringOn (mqArg b 1 1) then ansSt s stNOT_PERMITTED
  else ansOk (s.modHost fun h => { h with ends := SMap.insert (h.ends.erase (endKey b)) (endKey b) ⟨mqArg b 2 1, mqArg b 4 2, mqArg b 8 16⟩ }) []

/-- ETH_ENDPOINT (R547). -/
def execEthEndpoint (ph : Phase) (s : State) : Res := done s (s.mboxRow ph 0x407 serveEthEndpoint)

/-! ## Group 0x05 -/

/-- Table 17.8: activity code, status and progress of a token. -/
def State.maintEntry (s : State) (k : Nat) : List Byte :=
  toBytes 1 (s.fld F.ROOT_MAINT_ACT k) ++ toBytes 1 (s.fld F.ROOT_MAINT_STATUS k) ++ toBytes 6 (s.fld F.ROOT_MAINT_PROGRESS k)

def serveMaintStatus (s : State) (_ : Nat) (_ : List Byte) : Ans := ansOk s ((List.range 9).flatMap s.maintEntry)

/-- MAINT_STATUS (R548). -/
def execMaintStatus (ph : Phase) (s : State) : Res := done s (s.mboxRow ph 0x500 serveMaintStatus)

/-- The answer at the start of an activity: its code. -/
def ansStart (r : State × Nat) (code : Nat) : Ans := ansWith r.1 r.2 (toBytes 1 code)

def serveCoreTest (s : State) (_ : Nat) (b : List Byte) : Ans :=
  ansStart (s.beginTest (mqArg b 0 1) (mqArg b 1 1) (mqArg b 2 1)) actCoreTest

/-- CORE_TEST (R548, R577). -/
def execCoreTest (ph : Phase) (s : State) : Res := done s (s.mboxRow ph 0x501 serveCoreTest)

def serveCoreFence (s : State) (_ : Nat) (b : List Byte) : Ans :=
  ansStart (s.beginFence (mqArg b 0 1) (mqArg b 1 1) (mqArg b 2 1)) actCoreFence

/-- CORE_FENCE (R548, R575). -/
def execCoreFence (ph : Phase) (s : State) : Res := done s (s.mboxRow ph 0x502 serveCoreFence)

def serveTopiaryRemap (s : State) (_ : Nat) (b : List Byte) : Ans := ansStart (s.beginRemap (mqArg b 0 1) (mqArg b 8 32)) actRemap

/-- TOPIARY_REMAP (R548, R576). -/
def execTopiaryRemap (ph : Phase) (s : State) : Res := done s (s.mboxRow ph 0x503 serveTopiaryRemap)

def serveBankFail (s : State) (_ : Nat) (b : List Byte) : Ans :=
  ansStart (s.beginBank (mqArg b 0 1) (mqArg b 1 1) (mqArg b 2 1) (mqArg b 3 1)) actBankFail

/-- BANK_FAIL (R548, R578). -/
def execBankFail (ph : Phase) (s : State) : Res := done s (s.mboxRow ph 0x504 serveBankFail)

def servePortTest (s : State) (_ : Nat) (b : List Byte) : Ans := ansStart (s.beginPortTest (mqArg b 0 1) (mqArg b 1 1)) actPortTest

/-- PORT_TEST (R548, R579). -/
def execPortTest (ph : Phase) (s : State) : Res := done s (s.mboxRow ph 0x505 servePortTest)

/-- SWEEP acts as ROOT_SWEEPCTL; a sweep that runs is a start. -/
def serveSweep (s : State) (_ : Nat) (b : List Byte) : Ans :=
  let m := mqArg b 0 8
  if m = 0 then ansOk s (toBytes 1 actSweep)
  else
    let t := s.writeSweep m
    let st := t.fld F.ROOT_SWEEPSTAT_STATUS 0
    ansWith t (if st = stNOT_READY then stOK else st) (toBytes 1 actSweep)

/-- SWEEP (R548, R217). -/
def execSweep (ph : Phase) (s : State) : Res := done s (s.mboxRow ph 0x506 serveSweep)

end Sys2Proof.Machine
end

