-- ==== Sys2Proof/Machine/Dispatch.lean ====
section
/-! DEFINITION. The one dispatch: each command to its meaning. -/

namespace Sys2Proof.Machine

def exec (i : Instr) (s : State) : Host.Outcome State Fault Refusal :=
  match i with
  | .nop core queue => Sys2Proof.Machine.execNop core queue s
  | .loop core => Sys2Proof.Machine.execLoop core s
  | .jump core => Sys2Proof.Machine.execJump core s
  | .beatend core => Sys2Proof.Machine.execBeatend core s
  | .beatendComplete core => Sys2Proof.Machine.execBeatendComplete core s
  | .halt core => Sys2Proof.Machine.execHalt core s
  | .haltComplete core => Sys2Proof.Machine.execHaltComplete core s
  | .loadw core => Sys2Proof.Machine.execLoadw core s
  | .loadwComplete core => Sys2Proof.Machine.execLoadwComplete core s
  | .mmul core => Sys2Proof.Machine.execMmul core s
  | .mmulComplete core => Sys2Proof.Machine.execMmulComplete core s
  | .chain core => Sys2Proof.Machine.execChain core s
  | .chainComplete core => Sys2Proof.Machine.execChainComplete core s
  | .setk core => Sys2Proof.Machine.execSetk core s
  | .copy core => Sys2Proof.Machine.execCopy core s
  | .copyComplete core => Sys2Proof.Machine.execCopyComplete core s
  | .pleach core => Sys2Proof.Machine.execPleach core s
  | .pleachReceive core => Sys2Proof.Machine.execPleachReceive core s
  | .pleachComplete core => Sys2Proof.Machine.execPleachComplete core s
  | .push core => Sys2Proof.Machine.execPush core s
  | .pop core => Sys2Proof.Machine.execPop core s
  | .tsub core => Sys2Proof.Machine.execTsub core s
  | .tsubAccept core => Sys2Proof.Machine.execTsubAccept core s
  | .send core => Sys2Proof.Machine.execSend core s
  | .sendComplete core => Sys2Proof.Machine.execSendComplete core s
  | .recv core => Sys2Proof.Machine.execRecv core s
  | .recvComplete core => Sys2Proof.Machine.execRecvComplete core s
  | .fetchRequest core => Sys2Proof.Machine.execFetchRequest core s
  | .fetchInspect core => Sys2Proof.Machine.execFetchInspect core s
  | .dispatch core => Sys2Proof.Machine.execDispatch core s
  | .peerSignal core => Sys2Proof.Machine.execPeerSignal core s
  | .clusterSignal core => Sys2Proof.Machine.execClusterSignal core s
  | .landingArrival cl => Sys2Proof.Machine.execLandingArrival cl s
  | .sendBufferDrain cl => Sys2Proof.Machine.execSendBufferDrain cl s
  | .freezeEnd q => Sys2Proof.Machine.execFreezeEnd q s
  | .gatherRow cl e => Sys2Proof.Machine.execGatherRow cl e s
  | .gatherPage cl e => Sys2Proof.Machine.execGatherPage cl e s
  | .scatterRow cl e => Sys2Proof.Machine.execScatterRow cl e s
  | .kvappend cl e => Sys2Proof.Machine.execKvappend cl e s
  | .topk cl e => Sys2Proof.Machine.execTopk cl e s
  | .pagescore cl e => Sys2Proof.Machine.execPagescore cl e s
  | .sample cl e => Sys2Proof.Machine.execSample cl e s
  | .sampleall cl e => Sys2Proof.Machine.execSampleall cl e s
  | .transpose cl e => Sys2Proof.Machine.execTranspose cl e s
  | .relayout cl e => Sys2Proof.Machine.execRelayout cl e s
  | .requant cl e => Sys2Proof.Machine.execRequant cl e s
  | .compactFlags cl e => Sys2Proof.Machine.execCompactFlags cl e s
  | .moe cl e => Sys2Proof.Machine.execMoe cl e s
  | .digest cl e => Sys2Proof.Machine.execDigest cl e s
  | .thktComplete cl e => Sys2Proof.Machine.execThktComplete cl e s
  | .untimedPick cl e => Sys2Proof.Machine.execUntimedPick cl e s
  | .untimedComplete cl e => Sys2Proof.Machine.execUntimedComplete cl e s
  | .bulkSlotTransfer tc slot => Sys2Proof.Machine.execBulkSlotTransfer tc slot s
  | .scrubSlot tc slot => Sys2Proof.Machine.execScrubSlot tc slot s
  | .coreStoreScrub core unit word => Sys2Proof.Machine.execCoreStoreScrub core unit word s
  | .rootSweepctlWrite by_ mask => Sys2Proof.Machine.execRootSweepctlWrite by_ mask s
  | .sweepComplete => Sys2Proof.Machine.execSweepComplete s
  | .beatStart q => Sys2Proof.Machine.execBeatStart q s
  | .lagEvent q => Sys2Proof.Machine.execLagEvent q s
  | .lagFault q => Sys2Proof.Machine.execLagFault q s
  | .beatStartStep q => Sys2Proof.Machine.execBeatStartStep q s
  | .stepChangeRun q => Sys2Proof.Machine.execStepChangeRun q s
  | .launch q spread => Sys2Proof.Machine.execLaunch q spread s
  | .launchReceive n f => Sys2Proof.Machine.execLaunchReceive n f s
  | .load q => Sys2Proof.Machine.execLoad q s
  | .slotFill n => Sys2Proof.Machine.execSlotFill n s
  | .groupReceive n raw corr uncorr => Sys2Proof.Machine.execGroupReceive n raw corr uncorr s
  | .schedForward n => Sys2Proof.Machine.execSchedForward n s
  | .nakIssue n => Sys2Proof.Machine.execNakIssue n s
  | .replayStart n => Sys2Proof.Machine.execReplayStart n s
  | .replayTimeout n => Sys2Proof.Machine.execReplayTimeout n s
  | .probeExchange n t1 t2 t3 t4 => Sys2Proof.Machine.execProbeExchange n t1 t2 t3 t4 s
  | .identityResend n => Sys2Proof.Machine.execIdentityResend n s
  | .neighbourRecord n rec => Sys2Proof.Machine.execNeighbourRecord n rec s
  | .portLockLoss n => Sys2Proof.Machine.execPortLockLoss n s
  | .trainTimeout n => Sys2Proof.Machine.execTrainTimeout n s
  | .identTimeout n => Sys2Proof.Machine.execIdentTimeout n s
  | .portCtlEnable by_ n on => Sys2Proof.Machine.execPortCtlEnable by_ n on s
  | .portCtlReset by_ n => Sys2Proof.Machine.execPortCtlReset by_ n s
  | .portWinWrite by_ n value => Sys2Proof.Machine.execPortWinWrite by_ n value s
  | .frameArrive from_ f => Sys2Proof.Machine.execFrameArrive from_ f s
  | .requestInject r => Sys2Proof.Machine.execRequestInject r s
  | .rd => Sys2Proof.Machine.execRd s
  | .wr => Sys2Proof.Machine.execWr s
  | .msg => Sys2Proof.Machine.execMsg s
  | .replyArrive from_ f => Sys2Proof.Machine.execReplyArrive from_ f s
  | .requestTimeout tag => Sys2Proof.Machine.execRequestTimeout tag s
  | .retireExpiry tag => Sys2Proof.Machine.execRetireExpiry tag s
  | .drain nets => Sys2Proof.Machine.execDrain nets s
  | .swap nets => Sys2Proof.Machine.execSwap nets s
  | .resume nets => Sys2Proof.Machine.execResume nets s
  | .change nets => Sys2Proof.Machine.execChange nets s
  | .drained net => Sys2Proof.Machine.execDrained net s
  | .barrier q => Sys2Proof.Machine.execBarrier q s
  | .bcast q => Sys2Proof.Machine.execBcast q s
  | .snap q => Sys2Proof.Machine.execSnap q s
  | .reset q => Sys2Proof.Machine.execReset q s
  | .arrive n f => Sys2Proof.Machine.execArrive n f s
  | .release n f => Sys2Proof.Machine.execRelease n f s
  | .barrierRootTimeout q => Sys2Proof.Machine.execBarrierRootTimeout q s
  | .barrierTimeout q => Sys2Proof.Machine.execBarrierTimeout q s
  | .bcastReceive n f => Sys2Proof.Machine.execBcastReceive n f s
  | .snapReceive n f => Sys2Proof.Machine.execSnapReceive n f s
  | .resetReceive n f => Sys2Proof.Machine.execResetReceive n f s
  | .admitReceive n f => Sys2Proof.Machine.execAdmitReceive n f s
  | .stepReceive n f => Sys2Proof.Machine.execStepReceive n f s
  | .wakeReceive n f => Sys2Proof.Machine.execWakeReceive n f s
  | .beaconSend => Sys2Proof.Machine.execBeaconSend s
  | .beaconReceive n f => Sys2Proof.Machine.execBeaconReceive n f s
  | .beaconTimeout => Sys2Proof.Machine.execBeaconTimeout s
  | .slewStep => Sys2Proof.Machine.execSlewStep s
  | .eventTick wires => Sys2Proof.Machine.execEventTick wires s
  | .wirePulseLatch j => Sys2Proof.Machine.execWirePulseLatch j s
  | .refclkLoss => Sys2Proof.Machine.execRefclkLoss s
  | .refclkReturn => Sys2Proof.Machine.execRefclkReturn s
  | .timeBaseFailover => Sys2Proof.Machine.execTimeBaseFailover s
  | .ppsInEdge => Sys2Proof.Machine.execPpsInEdge s
  | .ppsOutEdge => Sys2Proof.Machine.execPpsOutEdge s
  | .ptpSync t => Sys2Proof.Machine.execPtpSync t s
  | .ptmRequest => Sys2Proof.Machine.execPtmRequest s
  | .holdover => Sys2Proof.Machine.execHoldover s
  | .timeSetWrite by_ value => Sys2Proof.Machine.execTimeSetWrite by_ value s
  | .timeAlarmFire => Sys2Proof.Machine.execTimeAlarmFire s
  | .pllLockLoss region => Sys2Proof.Machine.execPllLockLoss region s
  | .pwrStepcmd by_ q value => Sys2Proof.Machine.execPwrStepcmd by_ q value s
  | .pwrCapWrite by_ value => Sys2Proof.Machine.execPwrCapWrite by_ value s
  | .pwrPdeclWrite by_ q value => Sys2Proof.Machine.execPwrPdeclWrite by_ q value s
  | .powerMeasure watts => Sys2Proof.Machine.execPowerMeasure watts s
  | .statecmdRun by_ => Sys2Proof.Machine.execStatecmdRun by_ s
  | .statecmdRest by_ => Sys2Proof.Machine.execStatecmdRest by_ s
  | .statecmdDeep by_ => Sys2Proof.Machine.execStatecmdDeep by_ s
  | .statecmdDormant by_ => Sys2Proof.Machine.execStatecmdDormant by_ s
  | .powerStateEntered => Sys2Proof.Machine.execPowerStateEntered s
  | .wakePin => Sys2Proof.Machine.execWakePin s
  | .wakeFrame serial => Sys2Proof.Machine.execWakeFrame serial s
  | .wakeComplete => Sys2Proof.Machine.execWakeComplete s
  | .thermalAlert temp => Sys2Proof.Machine.execThermalAlert temp s
  | .thermalTrip temp => Sys2Proof.Machine.execThermalTrip temp s
  | .coldReset straps => Sys2Proof.Machine.execColdReset straps s
  | .powerLoss veg33 => Sys2Proof.Machine.execPowerLoss veg33 s
  | .perstAssert => Sys2Proof.Machine.execPerstAssert s
  | .rootResetWarm by_ => Sys2Proof.Machine.execRootResetWarm by_ s
  | .rootResetMgmt by_ => Sys2Proof.Machine.execRootResetMgmt by_ s
  | .pcieLinkDown => Sys2Proof.Machine.execPcieLinkDown s
  | .bar2Read off len => Sys2Proof.Machine.execBar2Read off len s
  | .bar2Write off data => Sys2Proof.Machine.execBar2Write off data s
  | .registerWrite by_ off size value => Sys2Proof.Machine.execRegisterWrite by_ off size value s
  | .lowHalfRead by_ a => Sys2Proof.Machine.execLowHalfRead by_ a s
  | .hqRhposWrite by_ ring value slots => Sys2Proof.Machine.execHqRhposWrite by_ ring value slots s
  | .h2d ch data err => Sys2Proof.Machine.execH2d ch data err s
  | .d2h ch err => Sys2Proof.Machine.execD2h ch err s
  | .h2l ch data err => Sys2Proof.Machine.execH2l ch data err s
  | .dmaComplete ch => Sys2Proof.Machine.execDmaComplete ch s
  | .digestSlice => Sys2Proof.Machine.execDigestSlice s
  | .submit ring input => Sys2Proof.Machine.execSubmit ring input s
  | .stagingComplete => Sys2Proof.Machine.execStagingComplete s
  | .serveAbortWrite by_ q reqid => Sys2Proof.Machine.execServeAbortWrite by_ q reqid s
  | .ethSlot port raw => Sys2Proof.Machine.execEthSlot port raw s
  | .ethAck port raw => Sys2Proof.Machine.execEthAck port raw s
  | .ethResend stream => Sys2Proof.Machine.execEthResend stream s
  | .parkd port raw => Sys2Proof.Machine.execParkd port raw s
  | .telem => Sys2Proof.Machine.execTelem s
  | .bypass => Sys2Proof.Machine.execBypass s
  | .idcode => Sys2Proof.Machine.execIdcode s
  | .samplePreload => Sys2Proof.Machine.execSamplePreload s
  | .extest => Sys2Proof.Machine.execExtest s
  | .clamp => Sys2Proof.Machine.execClamp s
  | .highz => Sys2Proof.Machine.execHighz s
  | .startAttempt cause => Sys2Proof.Machine.execStartAttempt cause s
  | .stageOverrun => Sys2Proof.Machine.execStageOverrun s
  | .solicit => Sys2Proof.Machine.execSolicit s
  | .offer server xid size => Sys2Proof.Machine.execOffer server xid size s
  | .data xid off data => Sys2Proof.Machine.execData xid off data s
  | .readResend => Sys2Proof.Machine.execReadResend s
  | .serverLost => Sys2Proof.Machine.execServerLost s
  | .bootOk => Sys2Proof.Machine.execBootOk s
  | .watchdogExpire m => Sys2Proof.Machine.execWatchdogExpire m s
  | .watchdogKick m period => Sys2Proof.Machine.execWatchdogKick m period s
  | .mcRunning m => Sys2Proof.Machine.execMcRunning m s
  | .psDataWrite by_ value => Sys2Proof.Machine.execPsDataWrite by_ value s
  | .psWriteComplete => Sys2Proof.Machine.execPsWriteComplete s
  | .mboxPost by_ => Sys2Proof.Machine.execMboxPost by_ s
  | .mgmtMessage from_ bytes => Sys2Proof.Machine.execMgmtMessage from_ bytes s
  | .getVersion ph => Sys2Proof.Machine.execGetVersion ph s
  | .negotiate ph => Sys2Proof.Machine.execNegotiate ph s
  | .getIdentity ph => Sys2Proof.Machine.execGetIdentity ph s
  | .getStatus ph => Sys2Proof.Machine.execGetStatus ph s
  | .getBootrec ph => Sys2Proof.Machine.execGetBootrec ph s
  | .partSet ph => Sys2Proof.Machine.execPartSet ph s
  | .partQuery ph => Sys2Proof.Machine.execPartQuery ph s
  | .partReset ph => Sys2Proof.Machine.execPartReset ph s
  | .partLedger ph => Sys2Proof.Machine.execPartLedger ph s
  | .setState ph => Sys2Proof.Machine.execSetState ph s
  | .setCap ph => Sys2Proof.Machine.execSetCap ph s
  | .setStep ph => Sys2Proof.Machine.execSetStep ph s
  | .setWakesel ph => Sys2Proof.Machine.execSetWakesel ph s
  | .setPdecl ph => Sys2Proof.Machine.execSetPdecl ph s
  | .portInfo ph => Sys2Proof.Machine.execPortInfo ph s
  | .nbrMap ph => Sys2Proof.Machine.execNbrMap ph s
  | .portEnable ph => Sys2Proof.Machine.execPortEnable ph s
  | .portReset ph => Sys2Proof.Machine.execPortReset ph s
  | .setRole ph => Sys2Proof.Machine.execSetRole ph s
  | .setDims ph => Sys2Proof.Machine.execSetDims ph s
  | .ethAddr ph => Sys2Proof.Machine.execEthAddr ph s
  | .ethEndpoint ph => Sys2Proof.Machine.execEthEndpoint ph s
  | .maintStatus ph => Sys2Proof.Machine.execMaintStatus ph s
  | .coreTest ph => Sys2Proof.Machine.execCoreTest ph s
  | .coreFence ph => Sys2Proof.Machine.execCoreFence ph s
  | .topiaryRemap ph => Sys2Proof.Machine.execTopiaryRemap ph s
  | .bankFail ph => Sys2Proof.Machine.execBankFail ph s
  | .portTest ph => Sys2Proof.Machine.execPortTest ph s
  | .sweep ph => Sys2Proof.Machine.execSweep ph s
  | .maintActivityEnd id ok => Sys2Proof.Machine.execMaintActivityEnd id ok s
  | .imgStatus ph => Sys2Proof.Machine.execImgStatus ph s
  | .fetchRetry ph => Sys2Proof.Machine.execFetchRetry ph s
  | .standbyFetch ph => Sys2Proof.Machine.execStandbyFetch ph s
  | .standbyBegin ph => Sys2Proof.Machine.execStandbyBegin ph s
  | .standbyData ph => Sys2Proof.Machine.execStandbyData ph s
  | .standbyEnd ph => Sys2Proof.Machine.execStandbyEnd ph s
  | .setBootcfg ph => Sys2Proof.Machine.execSetBootcfg ph s
  | .roleSwitch ph => Sys2Proof.Machine.execRoleSwitch ph s
  | .fuseKey ph => Sys2Proof.Machine.execFuseKey ph s
  | .fuseRevoke ph => Sys2Proof.Machine.execFuseRevoke ph s
  | .fuseSvn ph => Sys2Proof.Machine.execFuseSvn ph s
  | .psRead ph => Sys2Proof.Machine.execPsRead ph s
  | .psWrite ph => Sys2Proof.Machine.execPsWrite ph s
  | .psWear ph => Sys2Proof.Machine.execPsWear ph s
  | .timeStatus ph => Sys2Proof.Machine.execTimeStatus ph s
  | .setMaster ph => Sys2Proof.Machine.execSetMaster ph s
  | .timeSet ph => Sys2Proof.Machine.execTimeSet ph s
  | .setAlarm ph => Sys2Proof.Machine.execSetAlarm ph s
  | .setPps ph => Sys2Proof.Machine.execSetPps ph s
  | .setSlew ph => Sys2Proof.Machine.execSetSlew ph s
  | .setDeadline ph => Sys2Proof.Machine.execSetDeadline ph s
  | .serveStatus ph => Sys2Proof.Machine.execServeStatus ph s
  | .serveAbort ph => Sys2Proof.Machine.execServeAbort ph s
  | .evcClear ph => Sys2Proof.Machine.execEvcClear ph s
  | .evcSetmask ph => Sys2Proof.Machine.execEvcSetmask ph s
  | .regRead ph => Sys2Proof.Machine.execRegRead ph s
  | .regWrite ph => Sys2Proof.Machine.execRegWrite ph s
  | .echo ph => Sys2Proof.Machine.execEcho ph s
  | .laneLock n lanes => Sys2Proof.Machine.execLaneLock n lanes s
  | .pcieLinkUp => Sys2Proof.Machine.execPcieLinkUp s
  | .ethLinkUp port => Sys2Proof.Machine.execEthLinkUp port s
  | .ethLinkDown port => Sys2Proof.Machine.execEthLinkDown port s
  | .mgmtLinkUp => Sys2Proof.Machine.execMgmtLinkUp s
  | .mgmtLinkDown => Sys2Proof.Machine.execMgmtLinkDown s
  | .perstRelease => Sys2Proof.Machine.execPerstRelease s
  | .pllRelock region => Sys2Proof.Machine.execPllRelock region s
  | .thermalAlertClear temp => Sys2Proof.Machine.execThermalAlertClear temp s
  | .denianWakeBeacon n => Sys2Proof.Machine.execDenianWakeBeacon n s
  | .ptmResponse t => Sys2Proof.Machine.execPtmResponse t s
  | .evergreenPowerOn => Sys2Proof.Machine.execEvergreenPowerOn s
  | .mcRestartTimeout m => Sys2Proof.Machine.execMcRestartTimeout m s
  | .imageVerified slot => Sys2Proof.Machine.execImageVerified slot s

end Sys2Proof.Machine
end

