-- ==== Sys2Proof/Machine/Tick.lean ====
section
/-! DEFINITION. What the passing of time does by itself, when no command waits (14_time_clocks_power.md R459, R607, R611;
09_beat_determinism.md R294, R305, R309, R310). DESIGN CHOICE (log 2): a step on an empty queue passes to the next instant at
which a clock has an edge: a count edge of GTC, a cc edge of a partition, or the end of a clock stop. -/

namespace Sys2Proof.Machine

/-- R459, R464, R486: GTC counts at a count edge, but for a ns that a slew withholds, and but for DORMANT with TIMEKEEP 0. -/
def State.countGtc (s : State) : State :=
  if s.power = 3 ∧ s.fld F.PWR_WAKESEL_TIMEKEEP 0 = 0 then s
  else if 0 < s.tm.hold then s.modTm fun t => { t with hold := t.hold - 1 }
  else { s with gtc := s.gtc + 1 }

/-- A partition's clock runs: its job is launched, its clocks are not stopped. -/
def State.clockRuns (s : State) (q : Nat) : Bool := (s.part q).jobLive && (s.part q).stopUntil.isNone && s.clocked q

/-- The time to the next cc edge of a partition. -/
def State.toEdge (s : State) (q : Nat) : Nat := s.period q - s.phaseT % s.period q

/-- The time to what comes next on a partition's clock, at most `d`. -/
def State.toNext (s : State) (q d : Nat) : Nat :=
  let d := if s.clockRuns q then min d (s.toEdge q) else d
  match (s.part q).stopUntil with
  | some t => if s.now < t then min d (t - s.now) else d
  | none => d

/-- The time to the next instant at which a clock has an edge: at most to the next count edge. -/
def State.nextEdge (s : State) : Nat := (List.range 8).foldl (fun d q => s.toNext q d) (tu - s.sub)

/-- Every cc edge moves what is on the package mesh (R609), in a freeze as well. -/
def State.meshEdge (s : State) (q : Nat) : State :=
  let cls := s.partClusters q
  let s := cls.foldl (fun t cl => t.meshTick (t.part q) cl) s
  s.landAll q ((cls.map fun cl => (s.cluster cl).mesh.length).sum)

/-- One cc edge of a partition: a logical cycle ends, unless it waits at a gate or is frozen. -/
def State.ccEdge (s : State) (q : Nat) : State :=
  let s := (s.meshEdge q).scrubBacks fun c => s.inPart q (c / 8)
  if (s.part q).live then s.cycleEnd q
  else
    let s := s.dropNotes q
    if (s.part q).frozen then s.frozenEdge q else s

/-- TIME_LAG.MAX, and the arming of the LAG event (R310). -/
def State.lagTick (s : State) (q : Nat) : State :=
  let p := s.part q
  if !p.jobLive then s
  else
    let lag := min (2 ^ 32 - 1) (s.lagNs q)
    let s := if s.fld F.TIME_LAG_MAX q < lag then s.hwMax F.TIME_LAG_MAX q lag else s
    if s.lagU q = 0 ∧ !p.lagArm then s.modPart q fun p => { p with lagArm := true } else s

/-- R478: the clock stop of a step change is over. -/
def State.stopTick (s : State) (q : Nat) : State :=
  match (s.part q).stopUntil with
  | some t => if t ≤ s.now then s.stepDone q else s
  | none => s

/-- The instant as one partition sees it: `edge` at a cc edge of its clock. -/
def State.partTick (s : State) (edge : Bool) (q : Nat) : State :=
  let s := if edge then s.ccEdge q else s.settle q
  (s.stopTick q).lagTick q

/-- The time moves on by `d` units, at most to the next count edge. -/
def State.pass (s : State) (d : Nat) : State :=
  if s.sub + d < tu then { s with sub := s.sub + d } else { s.countGtc with refNs := s.refNs + 1, sub := 0 }

/-- The next instant. -/
def State.tick (s : State) : State :=
  let d := s.nextEdge
  let edges := (List.range 8).filter fun q => s.clockRuns q && s.toEdge q == d
  let ns := decide (tu ≤ s.sub + d)
  let idle := (List.range 8).filter fun q => !s.clockRuns q
  let s := (List.range 8).foldl (fun t q => t.partTick (edges.contains q) q) (s.pass d)
  if ns then
    let s := (idle.foldl State.dropNotes s).dropNotes 8
    let s := s.scrubBacks fun c => match s.partOf (c / 8) with | some q => idle.contains q | none => true
    s.portTick.bcastLeft.moveTick
  else s

end Sys2Proof.Machine
end

