-- ==== Sys2Proof/Safety.lean ====
section
/-! DEFINITION. What claims are stated in: a command that completes, and a safe step. -/

namespace Sys2Proof.Machine

/-- The command is carried out and the next state has a property. -/
def Completes (c : Instr) (s : State) (P : State → Prop) : Prop := ∃ t, exec c s = Host.Outcome.next t ∧ P t

/-- The command is carried out and its effect on everything but the queue and what assembly fixed is that of `u`. -/
def Gives (c : Instr) (s u : State) : Prop := exec c s = Host.Outcome.next { u with pending := s.pending, id := s.id }

/-- A run is safe where every step answers a next state: no fault, no refusal. -/
def Safe (s : State) : Prop := ∃ t, step s = Host.Outcome.next t

end Sys2Proof.Machine
end

