-- ==== Sys2Proof/Certificates/Slice0/Obligations.lean ====
section
/-! DEFINITION. The statements for the provers. A command completes where `exec` answers a next state (`Completes`, `Gives`); what a
command leaves unchanged is said by `t = { s with … := t.… }`: every component of the state but those named is as before, the queue
and the identity among them. -/

open Sys2Proof Sys2Proof.Machine

/-! ## A step -/

/-- A step runs the command at the front of the queue, with the queue's rest. -/
def Obligations.StepRunsFront : Prop :=
  ∀ (c : Instr) (rest : List Instr) (s : State), s.pending = c :: rest → step s = exec c { s with pending := rest }

/-! ## Control words (07_core_queues.md, 08_control_words.md) -/

/-- R241, R242: a word that issues stands in its queue, is a word of the opcode asked for, and finds its wait satisfied: the counter holds
at least WAITVAL. The issue takes WAITVAL from that counter and no other word of the queue may issue in the cycle; nothing else changes. -/
def Obligations.IssueConsumesWait : Prop :=
  ∀ (s : State) (c qc op : Nat) (i : Issue), s.issueOp c qc op = some i →
    i.e ∈ (s.core c).queue qc ∧ W.OPCODE i.e.lead = op ∧ i.e.issued ≤ W.REPEAT i.e.lead ∧ i.e.avail ≤ i.lc
    ∧ s.liveQ c = some i.q ∧ i.lc = (s.part i.q).lc
    ∧ (i.e.phase = 0 → W.WAITVAL i.e.lead ≤ SMap.get 0 (s.core c).sync (W.WAITCTR i.e.lead)
      ∧ SMap.get 0 (i.s.core c).sync (W.WAITCTR i.e.lead) = SMap.get 0 (s.core c).sync (W.WAITCTR i.e.lead) - W.WAITVAL i.e.lead)
    ∧ (∀ n, n ≠ W.WAITCTR i.e.lead → SMap.get 0 (i.s.core c).sync n = SMap.get 0 (s.core c).sync n)
    ∧ i.s.core c = { s.core c with sync := (i.s.core c).sync, lastIssue := SMap.put 0 (s.core c).lastIssue qc (i.lc + 1) }
    ∧ (∀ d, d ≠ c → i.s.core d = s.core d) ∧ i.s = { s with cores := i.s.cores }

/-- R233 to R237: NOP, LOOP, JUMP, BEATEND and HALT issue from the head of the SEQ queue once their checks pass: the wait is taken, the run
is counted, and it completes from the next cycle on. Only that core changes. R233: NOP issues in any of the other queues too, waits, and
does no other work. -/
def Obligations.SeqWordsIssue : Prop :=
  (∀ (c op : Nat) (w : Instr) (s : State) (i : Issue),
      (op, w) ∈ [(0, Instr.nop c 0), (1, Instr.loop c), (2, Instr.jump c), (3, Instr.beatend c), (4, Instr.halt c)] →
      s.issueOp c 0 op = some i → s.headReason i.q c i.e = 0 →
      Completes w s fun t =>
        t.core c = (i.s.core c).modEntry 0 i.e.id (fun x => { x with issued := x.issued + 1, phase := 0, runs := x.runs ++ [i.lc + 1] })
        ∧ (∀ d, d ≠ c → t.core d = s.core d) ∧ t = { s with cores := t.cores })
  ∧ (∀ (c qc : Nat) (s : State) (i : Issue), 1 ≤ qc → qc ≤ 4 → s.issueOp c qc 0 = some i →
      Completes (.nop c qc) s fun t =>
        t.core c = (i.s.core c).modEntry qc i.e.id (fun x => { x with issued := x.issued + 1, phase := 0, runs := x.runs ++ [i.lc + 1] })
        ∧ (∀ d, d ≠ c → t.core d = s.core d) ∧ t = { s with cores := t.cores })

/-- R231, R292: a word at the head of the SEQ queue that fails a check is not executed: the core's sequencer stops, every word behind it is
discarded, and the cause stands in CORECTL_ILLEGAL when it is the first since the launch. -/
def Obligations.SeqWordsRejected : Prop :=
  ∀ (c op q lc : Nat) (w : Instr) (s : State) (e : QEntry),
    (op, w) ∈ [(0, Instr.nop c 0), (1, Instr.loop c), (2, Instr.jump c), (3, Instr.beatend c), (4, Instr.halt c)] →
    s.seqLive c = some (q, lc) → s.seqHead c lc = some e → W.QUEUE e.lead = 0 → W.OPCODE e.lead = op → s.headReason q c e ≠ 0 →
    s.fld F.CORECTL_ILLEGAL_REASON c = 0 → c < 512 →
    Completes w s fun t =>
      (t.core c).stopped = true ∧ (t.core c).seq = [] ∧ (t.core c).inflight = [] ∧ (t.core c).fetchOn = false
      ∧ t.fld F.CORECTL_ILLEGAL_REASON c = s.headReason q c e % 2 ^ 8 ∧ t.fld F.CORECTL_ILLEGAL_OPCODE c = op
      ∧ (t.part q).fault.isSome = true ∧ t = { s with cores := t.cores, parts := t.parts, regs := t.regs }

/-- R112: SETK writes its immediates into the chain scalars FIRST to FIRST + COUNT, and no other scalar. -/
def Obligations.SetkWrites : Prop :=
  ∀ (c : Nat) (s : State) (i : Issue), s.issueOp c 2 0x21 = some i → W.SETK_FIRST i.e.lead + W.SETK_COUNT i.e.lead < 16 →
    Completes (.setk c) s fun t =>
      (∀ k, k ≤ W.SETK_COUNT i.e.lead →
        SMap.get 0 (t.core c).ks (W.SETK_FIRST i.e.lead + k) = BitVec.ofNat 32 (bits i.e.lead (32 * k + 31) (32 * k)))
      ∧ (∀ n, n < W.SETK_FIRST i.e.lead ∨ W.SETK_FIRST i.e.lead + W.SETK_COUNT i.e.lead < n →
        SMap.get 0 (t.core c).ks n = SMap.get 0 (s.core c).ks n)
      ∧ (∀ d, d ≠ c → t.core d = s.core d) ∧ t = { s with cores := t.cores }

/-- R86, R98, R275, R284, R289, R149: a word of the MAT, CHN, MOV or LNK queue that may issue is planned in its issue cycle: LOADW its
weight part, MMUL the row-passes of a weight-part phase, CHAIN its vectors, COPY its elements, PUSH and POP the reads of their ring, TSUB
the reads of its descriptor, SEND and PLEACH the words that enter their cluster's send buffer. R291, R281: where no late arrival has frozen
the partition in the cycle, RECV takes the bytes of its issue cycle from its channel, and a PLEACH whose halo is due takes it. -/
def Obligations.WordsRun : Prop :=
  (∀ (c : Nat) (s : State) (i : Issue),
      (s.issueOp c 1 0x10 = some i → Gives (.loadw c) s (i.s.loadw c i.lc i.e))
      ∧ (s.phaseDue c = none → s.issueOp c 1 0x11 = some i → Gives (.mmul c) s (i.s.mmulPhase i.q c i.lc i.e))
      ∧ (∀ q lc e, s.phaseDue c = some (q, lc, e) → Gives (.mmul c) s (s.mmulPhase q c lc e))
      ∧ (s.issueOp c 2 0x20 = some i → Gives (.chain c) s (i.s.chainRun i.q c i.lc i.e))
      ∧ (s.issueOp c 3 0x30 = some i → Gives (.copy c) s (i.s.copyRun i.q c i.lc i.e))
      ∧ (s.issueOp c 3 0x32 = some i → Gives (.push c) s (i.s.ringRun true c i.lc i.e))
      ∧ (s.issueOp c 3 0x33 = some i → Gives (.pop c) s (i.s.ringRun false c i.lc i.e))
      ∧ (s.issueOp c 3 0x34 = some i → Gives (.tsub c) s (i.s.tsubRun c i.lc i.e))
      ∧ (s.issueOp c 4 0x40 = some i → Gives (.send c) s (i.s.sendRun c i.lc i.e))
      ∧ (s.issueOp c 3 0x31 = some i → Gives (.pleach c) s (i.s.pleachRun c i.lc i.e)))
  ∧ (∀ (c : Nat) (s : State), s.frozenNow c = none →
      (∀ i, s.issueOp c 4 0x41 = some i → Gives (.recv c) s (s.recvRun i.s i.q c i.lc i.e))
      ∧ (∀ q lc e, s.seqLive c = some (q, lc) → s.pleachDue c lc = some e → Gives (.pleachReceive c) s (s.pleachRecv q c e)))

/-- R278, R305: a RECV in its cycle whose channel holds too few bytes freezes the partition and takes nothing: the freeze is counted once and
its cause and core stand in TIME_FRZLAST. R279: a cycle in which words find no room in their send buffer does not begin: the partition
freezes before it. Where that is the cycle's one late arrival, cause 4 and the sending core stand in TIME_FRZLAST, and nothing else changes
but the partition's own record. -/
def Obligations.LateWordsFreeze : Prop :=
  (∀ (c : Nat) (s : State) (i : Issue), s.frozenNow c = none → c < 512 → (s.part i.q).frzFrom ≠ some s.now →
      s.issueOp c 4 0x41 = some i → (s.chan c (W.RECV_CH i.e.lead)).bytes.length < recvNeed i.e →
      Completes (.recv c) s fun t =>
        (t.part i.q).frozen = true ∧ t.fld F.TIME_FRZLAST_CAUSE i.q = (s.chan c (W.RECV_CH i.e.lead)).medium.cause
        ∧ t.fld F.TIME_FRZLAST_CORE i.q = c
        ∧ t.fld F.TIME_FRZ_COUNT i.q = min (2 ^ F.TIME_FRZ_COUNT.width - 1) (s.fld F.TIME_FRZ_COUNT i.q + 1)
        ∧ (∀ p, p ≠ i.q → t.part p = s.part p) ∧ t = { s with parts := t.parts, regs := t.regs, hw := t.hw })
  ∧ (∀ (q lc : Nat) (s : State), q < 8 →
      let t := s.retireAll q lc
      let u := s.beginCycle q lc
      (∀ cl ∈ t.partClusters q, t.sendLate cl lc ≠ [] → (u.part q).frozen = true ∧ (u.part q).lc = (s.part q).lc
        ∧ (∀ p, p ≠ q → u.part p = s.part p) ∧ u = { s with parts := u.parts, regs := u.regs, hw := u.hw })
      ∧ (∀ c < 512, t.lateItems q lc = [⟨c, 4, 0⟩] → (s.part q).frzFrom ≠ some s.now →
        u.fld F.TIME_FRZLAST_CAUSE q = 4 ∧ u.fld F.TIME_FRZLAST_CORE q = c))

/-- R102, R123, R275, R281, R289, R291: the word at the front of its queue whose oldest run is due completes that run. -/
def Obligations.WordsComplete : Prop :=
  ∀ (c q lc : Nat) (s : State) (e : QEntry),
    (∀ op w, (op, w) ∈ [(0x10, Instr.loadwComplete c), (0x11, Instr.mmulComplete c)] →
      s.completeOp c 1 [op] = some (q, e, lc) → Gives w s ((s.completeRun c 1 lc).retire c lc))
    ∧ (s.completeOp c 2 [0x20] = some (q, e, lc) → Gives (.chainComplete c) s ((s.completeRun c 2 lc).retire c lc))
    ∧ (s.completeOp c 3 [0x30, 0x32, 0x33] = some (q, e, lc) → s.movDone c [0x30, 0x32, 0x33] = true →
      Gives (.copyComplete c) s ((s.completeRun c 3 lc).retire c lc))
    ∧ (s.completeOp c 3 [0x31] = some (q, e, lc) → Gives (.pleachComplete c) s ((s.completeRun c 3 lc).retire c lc))
    ∧ (∀ op w, (op, w) ∈ [(0x40, Instr.sendComplete c), (0x41, Instr.recvComplete c)] →
      s.completeOp c 4 [op] = some (q, e, lc) → Gives w s ((s.completeRun c 4 lc).retire c lc))

/-- R224, R244: a completion takes the oldest run from the front word of the queue; a word whose last run completes leaves it; the rest of
the queue stands; and a LOCAL signal adds SIGINC to its counter, which stops at 65,535. R243, R246: a PEER signal that is due adds to the
shared counter of the core it names, a CLUSTER signal to that of every enabled core of the cluster; a counter stops at 65,535. The signal is
delivered once. -/
def Obligations.Signals : Prop :=
  (∀ (s : State) (c qc lc : Nat) (e : QEntry) (rest : List QEntry),
      qc ≤ 4 → (s.core c).queue qc = e :: rest → (s.core c).remote = [] → W.SIGTGT e.lead = 0 →
      let t := s.completeRun c qc lc
      (t.core c).queue qc = (if e.runs.length ≤ 1 ∧ W.REPEAT e.lead < e.issued then rest else { e with runs := e.runs.tail } :: rest)
      ∧ SMap.get 0 (t.core c).sync (W.SIGCTR e.lead)
        = (if W.SIGINC e.lead = 0 then SMap.get 0 (s.core c).sync (W.SIGCTR e.lead)
           else min 65535 (SMap.get 0 (s.core c).sync (W.SIGCTR e.lead) + W.SIGINC e.lead))
      ∧ (∀ n, n ≠ W.SIGCTR e.lead → SMap.get 0 (t.core c).sync n = SMap.get 0 (s.core c).sync n)
      ∧ (∀ d, d ≠ c → t.core d = s.core d) ∧ t = { s with cores := t.cores, regs := t.regs, hw := t.hw, occ := t.occ })
  ∧ (∀ (c q : Nat) (s : State) (g : SigFlight), s.liveQ c = some q →
      (((s.core c).sigs.find? fun g => !g.toCluster && decide (g.due ≤ (s.part q).lc)) = some g →
        Completes (.peerSignal c) s fun t =>
          SMap.get 0 (t.core g.core).sync g.ctr = min 65535 (SMap.get 0 (s.core g.core).sync g.ctr + g.inc)
          ∧ (t.core c).sigs = (s.core c).sigs.erase g ∧ t = { s with cores := t.cores, regs := t.regs, hw := t.hw, occ := t.occ })
      ∧ (((s.core c).sigs.find? fun g => g.toCluster && decide (g.due ≤ (s.part q).lc)) = some g →
        Completes (.clusterSignal c) s fun t =>
          (∀ d ∈ s.clusterCores (c / 8), SMap.get 0 (t.core d).sync g.ctr = min 65535 (SMap.get 0 (s.core d).sync g.ctr + g.inc))
          ∧ (∀ d, d ∉ s.clusterCores (c / 8) → (t.core d).sync = (s.core d).sync)
          ∧ (t.core c).sigs = (s.core c).sigs.erase g ∧ t = { s with cores := t.cores, regs := t.regs, hw := t.hw, occ := t.occ }))

/-- R236, R237: BEATEND and HALT complete only with the MAT, CHN, MOV and LNK queues empty. While another core of the partition still works,
BEATEND marks the core's work of the beat done, and HALT marks the core halted in this beat; the partition goes on as it was. -/
def Obligations.EndWordsComplete : Prop :=
  ∀ (c q lc d : Nat) (s : State) (e : QEntry),
    d ≠ c → d ∈ s.partCores q → (s.core d).halted = false → (s.core d).beatDone = false →
    (s.endDue c 3 = some (q, e, lc) →
      (s.core c).idle lc = true ∧ Completes (.beatendComplete c) s fun t =>
        (t.core c).beatDone = true ∧ (t.core c).beats = (s.core c).beats + 1
        ∧ (t.core c).vtab = (if W.BEATEND_NEXT e.lead = 1 then some (W.BEATEND_VTAB e.lead, e.addr) else none)
        ∧ t.parts = s.parts ∧ t.mem = s.mem)
    ∧ (s.endDue c 4 = some (q, e, lc) →
      (s.core c).idle lc = true ∧ Completes (.haltComplete c) s fun t =>
        (t.core c).halted = true ∧ (t.core c).haltBeat = some (s.part q).beat ∧ t.parts = s.parts ∧ t.mem = s.mem)

/-- R226, R228: a fetch requests the word at the fetch address; the fetch address and the loop stack move on by one request. R227, R235: an
arrived word is inspected in request order and enters the SEQ queue behind the others, or is rejected by a check of R613; a word of another
queue leaves the fetch as it was, behind a JUMP the words requested are discarded and fetch goes to its TARGET. R229, R231, R258: the word at
the SEQ head waits for its extension and for places in its queue; then, passing its checks, it moves to its queue with its extension and may
issue from the next cycle, a long word one cycle later; failing one, it is rejected. Nothing else changes than the core, and of a rejection
its record. -/
def Obligations.FetchAndDispatch : Prop :=
  (∀ (c q lc : Nat) (s : State), s.seqLive c = some (q, lc) → (s.core c).mayFetch lc = true →
      Gives (.fetchRequest c) s (s.fetch c lc)
      ∧ Completes (.fetchRequest c) s fun t =>
        (t.core c).inflight.map (·.addr) = (s.core c).inflight.map (·.addr) ++ [(s.core c).fetchAddr] ∧ (t.core c).lastReq = lc + 1
        ∧ (t.core c).loops = (loopStep (s.core c).loops (s.core c).fetchAddr).1
        ∧ (t.core c).fetchAddr = (loopStep (s.core c).loops (s.core c).fetchAddr).2.1
        ∧ (t.core c).plan = (s.core c).plan ++ fetchReads c (s.core c).nextKey (s.core c).fetchAddr lc
        ∧ (∀ d, d ≠ c → t.core d = s.core d) ∧ t = { s with cores := t.cores })
  ∧ (∀ (c q lc : Nat) (s : State) (r : FetchReq) (rest : List FetchReq),
      s.seqLive c = some (q, lc) → (s.core c).inflight = r :: rest → r.arr ≤ lc →
      Gives (.fetchInspect c) s (s.inspect q c lc r)
      ∧ (∀ ck, r.checks.find? (checkFails ((s.core c).fetched r)) = some ck →
        Gives (.fetchInspect c) s (s.reject q c 7 0 (if ck.kind = 3 then 2 else 1) ck.owner))
      ∧ (r.checks.find? (checkFails ((s.core c).fetched r)) = none → Completes (.fetchInspect c) s fun t =>
        let w := (s.core c).fetched r
        ((t.core c).seq.map fun e => (e.id, e.lead, e.addr, e.avail))
          = ((s.core c).seq.map fun e => (e.id, e.lead, e.addr, e.avail)) ++ [((s.core c).nextId, w, r.addr, lc + 1)]
        ∧ (t.core c).nextId = (s.core c).nextId + 1
        ∧ (W.QUEUE w ≠ 0 → (t.core c).inflight = rest ∧ (t.core c).fetchAddr = (s.core c).fetchAddr ∧ (t.core c).loops = (s.core c).loops)
        ∧ (W.QUEUE w = 0 → W.OPCODE w = 2 → (t.core c).inflight = [] ∧ (t.core c).fetchAddr = W.JUMP_TARGET w)
        ∧ (∀ d, d ≠ c → t.core d = s.core d) ∧ t = { s with cores := t.cores }))
  ∧ (∀ (c q lc : Nat) (s : State) (e : QEntry), s.seqLive c = some (q, lc) → s.seqHead c lc = some e →
      (((s.core c).extWait e = true ∨ (s.core c).queueFull e lc = true) → exec (.dispatch c) s = .next s)
      ∧ ((s.core c).extWait e = false → (s.core c).queueFull e lc = false →
        (s.headReason q c e ≠ 0 → Gives (.dispatch c) s (s.rejectHead q c e (s.headReason q c e)))
        ∧ (s.headReason q c e = 0 → W.QUEUE e.lead ≠ 0 → Gives (.dispatch c) s (s.moveHead c lc e))
        ∧ (s.headReason q c e = 0 → 1 ≤ W.QUEUE e.lead → W.QUEUE e.lead ≤ 4 → Completes (.dispatch c) s fun t =>
          let x := if isLong e.lead then ((s.core c).behind e).toList else []
          (t.core c).queue (W.QUEUE e.lead) = (s.core c).queue (W.QUEUE e.lead) ++
            [{ e with ext := (x.map (·.lead)).headD 0, avail := lc + (if isLong e.lead then 2 else 1), issued := 0, phase := 0, runs := [] }]
          ∧ (t.core c).seq = (s.core c).seq.filter (fun y => !((e :: x).map (·.id)).contains y.id)
          ∧ (∀ d, d ≠ c → t.core d = s.core d) ∧ t = { s with cores := t.cores })))

/-- R277, R609: a group of the package mesh that has travelled lands behind the bytes its channel holds, when the channel has room. R326,
R339: the message of the send buffer that drains next gives its first flit, of at most 64 bytes, to its port's outbound queue, and leaves
the send buffer with its last one; one that its port discards (R357, R612) leaves without entering a queue. -/
def Obligations.ClusterLinks : Prop :=
  (∀ (cl i : Nat) (s : State) (g : MeshGrp), s.meshReady cl = some i → (s.cluster cl).mesh[i]? = some g →
      Gives (.landingArrival cl) s (s.meshArrive cl i)
      ∧ Completes (.landingArrival cl) s fun t =>
        g.left = 0 ∧ (t.chan g.dcore g.ch).bytes = (s.chan g.dcore g.ch).bytes ++ g.bytes ∧ (t.chan g.dcore g.ch).medium = .mesh
        ∧ (t.chan g.dcore g.ch).bytes.length ≤ 4096 ∧ (t.cluster cl).mesh = (s.cluster cl).mesh.eraseIdx i
        ∧ t = { s with cores := t.cores, clusters := t.clusters })
  ∧ (∀ (cl i : Nat) (s : State) (m : SendMsg), s.drainNext cl = some i → (s.cluster cl).send[i]? = some m →
      Gives (.sendBufferDrain cl) s (s.drainFlit cl i)
      ∧ (m.drop = false → s.fld F.PORT_STAT_STATE m.port = 3 → (m.drained = 0 ∨ (s.port m.port).isOpen m = true) →
        Completes (.sendBufferDrain cl) s fun t =>
          t.port m.port = (s.port m.port).takeFlit m (m.bytes.take 64) ∧ (∀ n, n ≠ m.port → t.port n = s.port n)
          ∧ (m.drained + (m.bytes.take 64).length = m.len → (t.cluster cl).send = (s.cluster cl).send.eraseIdx i)
          ∧ t = { s with clusters := t.clusters, ports := t.ports })
      ∧ (m.drop = true → Completes (.sendBufferDrain cl) s fun t => t.ports = s.ports))

/-! ## The thicket (05_thicket.md) -/

/-- R155, R162 to R172: the engine whose next descriptor is of the operation works on it. R157: an untimed descriptor does its next unit and
stays on the engine, marked as done with its last; at a beat gate it does a unit that needs no line of bulk memory (R204). A timed one does
all its units where the slots of its thicket suffice up to its finish, and its record takes the status, the units and the two auxiliary
counts of that work. The units are those of the operation: the rows, the pages, or the whole. -/
def Obligations.ThicketWorks : Prop :=
  ∀ (cl e kind mode q : Nat) (n : Nat → Nat) (w : Instr) (f : Nat → Nat → ThX → ThX) (s : State) (timed : Bool) (d : TDesc),
    (w, kind, mode, n, f) ∈
      [(Instr.gatherRow cl e, 0, 0, TD.COUNT, ThX.gatherRow), (Instr.gatherPage cl e, 0, 1, TD.COUNT, ThX.gatherPage),
       (Instr.scatterRow cl e, 1, 0, TD.COUNT, ThX.scatterRow), (Instr.kvappend cl e, 1, 1, TD.P, ThX.kvappend),
       (Instr.topk cl e, 2, 0, fun _ => 1, fun r _ => ThX.topk r), (Instr.pagescore cl e, 2, 1, fun _ => 1, fun r _ => ThX.pagescore r),
       (Instr.sample cl e, 2, 2, fun _ => 1, fun r _ => ThX.sampleBy (TD.TOPP r) r),
       (Instr.sampleall cl e, 2, 3, fun _ => 1, fun r _ => ThX.sampleBy 0x3F800000 r),
       (Instr.transpose cl e, 3, 0, fun _ => 1, fun r _ => ThX.transpose r), (Instr.relayout cl e, 3, 1, TD.ROWS, ThX.relayout),
       (Instr.requant cl e, 3, 2, TD.ROWS, ThX.requant), (Instr.compactFlags cl e, 4, 0, fun _ => 1, fun r _ => ThX.compactFlags r),
       (Instr.moe cl e, 4, 1, fun _ => 1, fun r _ => ThX.moe r), (Instr.digest cl e, 5, mode, fun _ => 1, fun r _ => ThX.digest r)] →
    s.thktLive cl = some q → s.thktNext cl e (s.part q).lc = some (timed, d) → TD.KIND d.raw = kind → TD.MODE d.raw = mode →
    (timed = true → (s.part q).gate = false) →
    let p := s.part q
    (timed = true →
      let x := (List.range (n d.raw)).foldl (fun x j => f d.raw j x) (d.begin_ s q cl e true)
      ∀ v, x.s.takeSlots cl (p.bc - (p.lc - d.start)) x.lines = some v → v.2 ≤ p.bc + (d.finish - p.lc) →
        v.1 = { x.s with cols := v.1.cols }
        ∧ Gives w s (v.1.thktPut cl e true d
          { d with ran := true, late := false, status := x.status, units := x.units, aux0 := x.aux0, aux1 := x.aux1 }))
    ∧ (timed = false →
      let x := f d.raw d.prog (d.begin_ s q cl e false)
      let last := x.stop || decide (n d.raw ≤ d.prog + 1)
      let y := if last then x.logMoe d.raw else x
      (p.gate = false ∨ y.lines = []) → ∀ v, y.s.takeSlots cl p.bc y.lines = some v →
        v.1 = { y.s with cols := v.1.cols }
        ∧ Completes w s fun t =>
          t.mem = y.s.mem ∧ t.regs = y.s.regs ∧ t.cores = y.s.cores
          ∧ (t.cluster cl).run e = some { d with
              ran := last, prog := d.prog + 1, start := p.lc + (v.2 - p.bc), finish := p.lc + (v.2 - p.bc), status := y.status,
              units := y.units, aux0 := y.aux0, aux1 := y.aux1 })

/-- R149, R150: the oldest TSUB of a core that may be accepted is taken from the TSUBs in hand. An illegal descriptor is an illegal word of
the MOV queue. A legal untimed descriptor joins its cluster's queue of its kind; a legal timed one joins its engine's queue, starts behind
the one before it and its yield allowance, and where its finish lies behind its DUE the job faults. R158, R159: an idle engine takes the
first descriptor that suits it, where no lower engine takes the same; the descriptor leaves the queue it stood in, and is marked as stolen
when that queue is a neighbour's. -/
def Obligations.ThicketQueues : Prop :=
  (∀ (c q lc : Nat) (s : State) (b : TSub), s.seqLive c = some (q, lc) → s.subReady q c lc = some b →
      (s.tdescBad q c b.raw = true → Gives (.tsubAccept c) s
        ((s.modCluster (c / 8) fun k => { k with subs := k.subs.erase b }).rejectWord q c 0x0F 3 0x34 b.addr))
      ∧ (s.tdescBad q c b.raw = false →
        Gives (.tsubAccept c) s (s.tsubAccept q lc b)
        ∧ (TD.TIMED b.raw ≠ 1 → Completes (.tsubAccept c) s fun t =>
          (t.cluster b.tcl).untimedQ (TD.KIND b.raw) = (s.cluster b.tcl).untimedQ (TD.KIND b.raw) ++ [TDesc.new b 0 0 0]
          ∧ (t.cluster (c / 8)).subs = (s.cluster (c / 8)).subs.erase b ∧ t.mem = s.mem ∧ t.parts = s.parts)
        ∧ (TD.TIMED b.raw = 1 →
          let start := max lc (SMap.get 0 (s.cluster b.tcl).tend (TD.ENGINE b.raw)) + tdYield b.raw
          let finish := start + tdLat b.tcl b.raw + TD.EXTRA b.raw
          let due := b.issue + TD.DUE b.raw
          Completes (.tsubAccept c) s fun t =>
            (t.cluster b.tcl).timedQ (TD.ENGINE b.raw) = (s.cluster b.tcl).timedQ (TD.ENGINE b.raw) ++ [TDesc.new b start finish due]
            ∧ SMap.get 0 (t.cluster b.tcl).tend (TD.ENGINE b.raw) = finish
            ∧ (t.cluster (c / 8)).subs = (s.cluster (c / 8)).subs.erase b ∧ t.mem = s.mem
            ∧ (finish ≤ due → t.parts = s.parts) ∧ (due < finish → (t.part q).fault.isSome = true))))
  ∧ (∀ (cl e q : Nat) (s : State) (p : Nat × TDesc),
      s.thktLive cl = some q → s.engineIdle cl e (s.part q).lc = true → s.pickFrom q cl e = some p →
      s.pickBefore q cl e (s.part q).lc p = false →
      Gives (.untimedPick cl e) s (s.pick q cl e p.1 p.2)
      ∧ Completes (.untimedPick cl e) s fun t =>
        (t.cluster cl).run e = some { p.2 with stolen := p.1 != cl }
        ∧ (t.cluster p.1).untimedQ (engineKind e) = ((s.cluster p.1).untimedQ (engineKind e)).erase p.2
        ∧ t = { s with clusters := t.clusters, regs := t.regs, hw := t.hw })

/-- R154, R160: a descriptor whose time has come leaves its engine with the effects of its completion: its signal, its record, its event.
R154, R178: a completion with STATEN 1 writes its 16-byte record of Table 5.10 at STATADDR of the submitting core's core store, and nothing
else in memory. -/
def Obligations.ThicketCompletes : Prop :=
  (∀ (cl e q : Nat) (s : State) (d : TDesc), s.thktLive cl = some q →
      (s.thktDue cl e (s.part q).lc = some d → (s.part q).gate = false →
        Gives (.thktComplete cl e) s (s.thktEnd q cl e d))
      ∧ ((s.cluster cl).run e = some d → d.ran = true → (d.finish < (s.part q).lc ∨ (s.part q).gate = true) →
        Gives (.untimedComplete cl e) s ((s.modCluster cl fun k => k.setRun e none).thktDone q cl d)))
  ∧ (∀ (q cl : Nat) (s : State) (d : TDesc), d.core < 512 → TD.KIND d.raw ≠ 4 → TD.STATEN d.raw = 1 → TD.STATADDR d.raw < 2 ^ 18 →
      let a := csAddr d.core (16 * TD.STATADDR d.raw)
      (s.thktDone q cl d).rdBytes a 16 = d.record
      ∧ ∀ c, c < a ∨ a + 16 ≤ c → (s.thktDone q cl d).rdByte c = s.rdByte c)

/-! ## Memories (06_memories.md) -/

/-- R200: the transfer whose slot has come is carried out; a queued write of RT0 uses that slot up (R439). R193, R200: a write that lands in
its slot puts its bytes into its line, leaves every byte outside the line alone, and is no longer pending. -/
def Obligations.SlotTransfers : Prop :=
  (∀ (tc slot : Nat) (s : State) (x : Xfer), s.slotXfer tc slot = some x →
      (x.slotted = true → Gives (.bulkSlotTransfer tc slot) s (s.runXfer tc x))
      ∧ (x.slotted = false →
        Gives (.bulkSlotTransfer tc slot) s ((s.runXfer tc x).setCol tc { (s.runXfer tc x).col tc with slot := slot + 1 })))
  ∧ (∀ (tc slot off : Nat) (bytes : List Byte) (s : State) (x : Xfer),
      s.slotXfer tc slot = some x → s.xferBytes x = some (off, bytes) → x.slot2 = none → tc < 256 → x.line < 2 ^ 20 →
      off + bytes.length ≤ 256 →
      Completes (.bulkSlotTransfer tc slot) s fun t =>
        let a := bulkAddr tc (x.line * 256)
        t.rdBytes (a + off) bytes.length = bytes ∧ (∀ c, c < a ∨ a + 256 ≤ c → t.rdByte c = s.rdByte c)
        ∧ (t.col tc).pend = (s.col tc).pend.filter fun z => z != x)

/-- R210: a free slot reads the line at the scrub pointer; over a line without an error the pointer advances by one, and at the end of the
tier-column it returns to 0 and the pass is counted. No byte changes. R211: the scrub of a word through an idle read port counts its
single-bit errors, and their correction is owed a write-back; a write-back that is made removes the errors corrected and no other mark. -/
def Obligations.Scrubs : Prop :=
  (∀ (tc slot : Nat) (s : State), s.scrubTurn tc slot = true → (s.col tc).scrubBack = false →
      (∀ p, p < 17 → SMap.get 0 s.bad (pieceUnit (bulkAddr tc (s.fld F.CAL_SCRUB_POINTER tc * 256)) p) = 0) →
      Completes (.scrubSlot tc slot) s fun t =>
        t.fld F.CAL_SCRUB_POINTER tc = (s.fld F.CAL_SCRUB_POINTER tc + 1) % 2 ^ 20
        ∧ t.fld F.CAL_SCRUB_PASSES tc
          = (if s.fld F.CAL_SCRUB_POINTER tc + 1 = 2 ^ 20 then min (2 ^ 32 - 1) (s.fld F.CAL_SCRUB_PASSES tc + 1) else s.fld F.CAL_SCRUB_PASSES tc)
        ∧ t = { s with regs := t.regs, hw := t.hw, cols := t.cols })
  ∧ (∀ (c unit word : Nat) (s : State), s.coreExists c = true → unit < 4 → word < unitWords unit → s.portIdle c unit word = true →
      let us := (wordUnits c unit word).filter fun u => SMap.get 0 s.bad u == 1
      Completes (.coreStoreScrub c unit word) s fun t =>
        t.scrubs = s.scrubs ++ (if us.isEmpty then [] else [⟨c, unit, word, wordUnits c unit word, us, false⟩])
        ∧ t.fld F.CORECTL_MEMSTAT_CECNT c = min (2 ^ F.CORECTL_MEMSTAT_CECNT.width - 1) (s.fld F.CORECTL_MEMSTAT_CECNT c + us.length)
        ∧ t = { s with scrubs := t.scrubs, regs := t.regs, hw := t.hw })
  ∧ (∀ (mine : Nat → Bool) (s : State),
      let due := s.scrubs.filter fun x => x.ripe && mine x.core && s.backFree x
      let t := s.scrubBacks mine
      (∀ u, SMap.get 0 t.bad u = if due.any (fun x => x.fix.contains u) then 0 else SMap.get 0 s.bad u)
      ∧ t = { s with bad := t.bad, scrubs := t.scrubs })

/-- R217: a write of ROOT_SWEEPCTL is refused with BUSY while an activity that is not compatible runs, and with NOT_PERMITTED where a
cluster named belongs to a partition; else the sweep starts: ACTIVE reads 1 and STATUS reads NOT_READY. R213, R215, R217: when a sweep has
had its time, every byte of the core stores and tier-columns of its clusters reads as the fill pattern it started with, every other byte is
as before, and source 10 is raised. -/
def Obligations.Sweeps : Prop :=
  (∀ (by_ : Requester) (m : Nat) (s : State), m % 2 ^ 64 ≠ 0 →
      (s.canAct (s.sweepAct (m % 2 ^ 64)) = false →
        Completes (.rootSweepctlWrite by_ m) s fun t => t.fld F.ROOT_SWEEPSTAT_STATUS 0 = stBUSY ∧ t = { s with regs := t.regs })
      ∧ (s.canAct (s.sweepAct (m % 2 ^ 64)) = true → ((clustersOf (m % 2 ^ 64)).any fun cl => (s.partOf cl).isSome) = true →
        Completes (.rootSweepctlWrite by_ m) s fun t => t.fld F.ROOT_SWEEPSTAT_STATUS 0 = stNOT_PERMITTED ∧ t = { s with regs := t.regs })
      ∧ (s.canAct (s.sweepAct (m % 2 ^ 64)) = true → ((clustersOf (m % 2 ^ 64)).any fun cl => (s.partOf cl).isSome) = false →
        Completes (.rootSweepctlWrite by_ m) s fun t =>
          t.fld F.ROOT_SWEEPSTAT_ACTIVE 0 = 1 ∧ t.fld F.ROOT_SWEEPSTAT_STATUS 0 = stNOT_READY
          ∧ t.acts = s.acts ++ [{ s.sweepAct (m % 2 ^ 64) with id := s.nextAct }]
          ∧ t = { s with regs := t.regs, acts := t.acts, nextAct := t.nextAct }))
  ∧ (∀ (s : State) (a : Act), s.sweepDue = some a →
      Completes .sweepComplete s fun t =>
        (∀ x cl, cl ∈ clustersOf a.clusters →
          ((∃ c ∈ s.clusterCores cl, fillKey x = 256 + c) ∨ fillKey x ∈ s.colsOf cl) → t.rdByte x = patByte a.pat x)
        ∧ (∀ x, (∀ cl ∈ clustersOf a.clusters, (∀ c ∈ s.clusterCores cl, fillKey x ≠ 256 + c) ∧ fillKey x ∉ s.colsOf cl) →
          t.rdByte x = s.rdByte x)
        ∧ t.occ.getLast? = some 10 ∧ t.acts = s.acts.filter fun b => b.id != a.id)

/-! ## Beats, jobs and launches (09_beat_determinism.md, 13_host_interfaces.md, 18_resets_faults_maintenance.md) -/

/-- R294: an awaited beat does not begin before its wall-grid instant; once it may begin, and nothing it needs is late, it begins; where its
beat-start step or an announced request is late, the partition freezes at its start with cause 5 or 6. -/
def Obligations.BeatsBegin : Prop :=
  ∀ (q : Nat) (s : State), q < 8 →
    (s.gtc < s.grid q (s.part q).beat → exec (.beatStart q) s = .next s)
    ∧ (s.beatReady q = true → s.startLate q = 0 → Gives (.beatStart q) s (s.beginBeat q))
    ∧ (s.beatReady q = true → s.startLate q ≠ 0 → (s.part q).frzFrom ≠ some s.now →
      Completes (.beatStart q) s fun t =>
        (t.part q).job = .run ∧ (t.part q).frozen = true ∧ (t.part q).bc = 0 ∧ (s.startLate q = 5 ∨ s.startLate q = 6)
        ∧ t.fld F.TIME_FRZLAST_CAUSE q = s.startLate q ∧ t = { s with parts := t.parts, regs := t.regs, hw := t.hw })

/-- R305: at a cc edge, in the cc after the last awaited item is present, a freeze ends: its time is added to TIME_FRZ.TOTAL, and the logical
cycle before which the partition froze begins, or the beat at whose start it froze; until then the freeze lasts. R12, R310: a job whose lag
is above the lag limit raises the partition's LAG event once, until the event is armed again; one whose lag is above the fault limit
faults. -/
def Obligations.FreezesAndLag : Prop :=
  (∀ (q : Nat) (s : State), (s.part q).job = .run → (s.part q).frozen = true → s.atEdge q = true →
      ((s.part q).thawOk = true → s.thawed q = true →
        ((s.part q).waiting = false → Gives (.freezeEnd q) s ((s.unfreeze q).beginCycle q (s.part q).lc))
        ∧ ((s.part q).waiting = true → Gives (.freezeEnd q) s ((s.unfreeze q).beginBeat q)))
      ∧ (((s.part q).thawOk = false ∨ s.thawed q = false) → exec (.freezeEnd q) s = .next s))
  ∧ (∀ (q : Nat) (s : State), q < 8 →
      let t := s.unfreeze q
      (t.part q).frozen = false ∧ (t.part q).lc = (s.part q).lc ∧ (t.part q).beat = (s.part q).beat
      ∧ t.fld F.TIME_FRZ_TOTAL q = min (2 ^ F.TIME_FRZ_TOTAL.width - 1) (s.fld F.TIME_FRZ_TOTAL q + s.frzTime q / tu)
      ∧ (∀ p, p ≠ q → t.part p = s.part p) ∧ t = { s with parts := t.parts, regs := t.regs, hw := t.hw })
  ∧ (∀ (q : Nat) (s : State), q < 8 → (s.part q).jobLive = true →
      ((s.part q).lagArm = true → s.lagAbove q (s.fld F.TIME_BEAT_CFG_LAGLIM q) = true →
        Completes (.lagEvent q) s fun t =>
          t.occ = s.occ ++ [960 + 6 * q] ∧ (t.part q).lagArm = false ∧ (t.part q).job = (s.part q).job
          ∧ t = { s with parts := t.parts, occ := t.occ })
      ∧ ((s.part q).lagArm = false → exec (.lagEvent q) s = .next s)
      ∧ (s.lagAbove q (s.fld F.TIME_BEAT_CFG_FAULTLIM q) = true →
        Completes (.lagFault q) s fun t => (t.part q).job = .faulted ∧ t.occ.getLast? = some (960 + 6 * q + 1)))

/-- R409: the beat-start step of the awaited beat runs once its notices are there and its moves are over, and then stands in SERVE_SEQ; the
next step is that of the next beat. R478: the clocks of a partition whose step change runs stop at a cc edge, for exactly 5,000 ns from that
instant. -/
def Obligations.BeatAndStepChange : Prop :=
  (∀ (q : Nat) (s : State), s.stepReady q = true →
      (s.srv q).next = (s.part q).beat ∧
      Completes (.beatStartStep q) s fun t =>
        t.fld F.SERVE_SEQ_BEAT q = (s.part q).beat % 2 ^ 32 ∧ (t.srv q).next = (s.part q).beat + 1 ∧ (t.srv q).late = false)
  ∧ (∀ (q : Nat) (s : State),
      (s.stepRuns q = true → s.atEdge q = true → Completes (.stepChangeRun q) s fun t =>
        (t.part q).stopUntil = some (s.now + 5000 * tu) ∧ (t.part q).live = false ∧ (∀ p, p ≠ q → t.part p = s.part p)
        ∧ t = { s with parts := t.parts })
      ∧ (s.atEdge q = false → exec (.stepChangeRun q) s = .next s))

/-- R442, R512: a LOAD that passes its checks takes the partition to ARMED and raises source 323; one that fails leaves the partition as it
is and gives its status; before BOOT_OK the status is NOT_READY, and of a partition that is neither IDLE nor ENDED NOT_PERMITTED. -/
def Obligations.Loads : Prop :=
  ∀ (q : Nat) (s : State), q < 8 →
    (s.loadStatus q = stOK → Completes (.load q) s fun t =>
      (t.part q).job = .armed ∧ t.fld F.HQ_JOB_STATUS q = stOK ∧ t.occ = s.occ ++ [323] ∧ (∀ p, p ≠ q → t.part p = s.part p)
      ∧ t = { s with parts := t.parts, regs := t.regs, occ := t.occ })
    ∧ (s.loadStatus q ≠ stOK → Completes (.load q) s fun t =>
      t.fld F.HQ_JOB_STATUS q = s.loadStatus q ∧ t = { s with regs := t.regs })
    ∧ (s.fld F.ROOT_BOOT_BOOT_OK 0 = 0 → s.loadStatus q = stNOT_READY)
    ∧ (s.fld F.ROOT_BOOT_BOOT_OK 0 ≠ 0 → (s.part q).job ≠ .idle → (s.part q).job ≠ .ended → s.loadStatus q = stNOT_PERMITTED)

/-- R298, R443: LAUNCH acts as a notice for the ARMED partition of its job id. A notice that fails a check leaves the partition ARMED,
records its status and raises the partition's launch event; one whose count lies less than 10,000 ns ahead fails with LATE. R298, R299: an
accepted LAUNCH takes the partition to LAUNCHED with beat number 0, its launch count set and its lag and fault registers cleared. -/
def Obligations.Launches : Prop :=
  (∀ (q p : Nat) (spread : Bool) (s : State), q < 8 → s.noticePart (s.fld F.TIME_JOB_CFG_JOBID q) = some p →
      let count := s.fld F.HQ_LAUNCHCNT_COUNT q
      let st := s.noticeStatus p count (s.fld F.TIME_JOB_CFG_MODE q) (s.fld F.TIME_BEAT_CFG_K q)
      st ≠ stOK →
      Completes (.launch q spread) s fun t =>
        t.fld F.TIME_JOB_STAT_LSTATUS p = st ∧ t.fld F.HQ_JOB_STATUS q = st ∧ t.occ = s.occ ++ [960 + 6 * p + 3] ∧ (t.part p).job = .armed
        ∧ t = { s with regs := t.regs, occ := t.occ })
  ∧ (∀ (q p : Nat) (s : State), q < 8 → s.noticePart (s.fld F.TIME_JOB_CFG_JOBID q) = some p →
      s.noticeStatus p (s.fld F.HQ_LAUNCHCNT_COUNT q) (s.fld F.TIME_JOB_CFG_MODE q) (s.fld F.TIME_BEAT_CFG_K q) = stOK →
      Completes (.launch q false) s fun t =>
        (t.part p).job = .launched ∧ (t.part p).beat = 0 ∧ (t.part p).lc = 0 ∧ (t.part p).mask = (s.part p).mask
        ∧ t.fld F.TIME_LAUNCH_COUNT p = s.fld F.HQ_LAUNCHCNT_COUNT q ∧ t.fld F.HQ_JOB_STATUS q = stOK
        ∧ t.fld F.TIME_FAULT_CAUSE p = 0 ∧ t.fld F.TIME_JOB_STAT_LAGF p = 0 ∧ t.mem = s.mem)

/-- R96: at an accepted launch notice, that of LAUNCH among them, every core of the partition has all-zero live and shadow tiles, EMPTY
shadows and all-zero accumulator entries. -/
def Obligations.LaunchClearsArrays : Prop :=
  ∀ (jobid count mode k p c a : Nat) (s : State), s.noticePart jobid = some p → s.noticeStatus p count mode k = stOK → c ∈ s.partCores p →
    let zero (t : State) : Prop :=
      let r := (t.core c).arr a
      r.live = Tile.init ∧ r.shadow = Tile.init ∧ r.sstate = .empty ∧ (∀ n, SMap.get 0 r.acc n = 0)
      ∧ (∀ n, SMap.get 0 Tile.init.data n = 0 ∧ SMap.get 0 Tile.init.scales n = 0)
    zero (s.notice jobid count mode k).1
    ∧ ∀ (q : Nat) (spread : Bool), q < 8 → s.fld F.TIME_JOB_CFG_JOBID q = jobid → s.fld F.HQ_LAUNCHCNT_COUNT q = count →
      s.fld F.TIME_JOB_CFG_MODE q = mode → s.fld F.TIME_BEAT_CFG_K q = k → Completes (.launch q spread) s zero

/-- R388: a job-scoped CTRL flit that names no partition of the part is discarded and counted, with source 12 raised; any other is forwarded
to the children of the tree and then acted on. R391: before the part enters a barrier, an ARRIVE for a barrier, the first or one of the same
BID, is kept with its node, once. -/
def Obligations.CtrlFlitsAct : Prop :=
  (∀ (n q : Nat) (f : CtrlFlit) (w : Instr) (act : State → Nat → State) (s : State),
      (w, act) ∈
        [(Instr.launchReceive n f, fun t (_ : Nat) => (t.notice f.jobid (byF f.body 0 8) (byF f.body 8 1) (byF f.body 9 1)).1),
         (Instr.release n f, fun t q => t.takeRelease q f), (Instr.bcastReceive n f, fun t q => t.takeBcast q f),
         (Instr.snapReceive n f, fun t q => t.takeSnap q f), (Instr.resetReceive n f, fun t q => t.partReset q),
         (Instr.admitReceive n f, fun t q => t.takeAdmit q f), (Instr.stepReceive n f, fun t q => t.stepFlit q f)] →
      (s.jobPart f.jobid = some q → Gives w s (act ((s.ctrlTake n f).toChildren q f.node f n) q))
      ∧ (s.jobPart f.jobid = none → Completes w s fun t =>
        t.fld F.ROUTE_ERR0_CTRLDISC 0 = min (2 ^ F.ROUTE_ERR0_CTRLDISC.width - 1) (s.fld F.ROUTE_ERR0_CTRLDISC 0 + 1)
        ∧ t.occ = s.occ ++ [12] ∧ t = { s with ports := t.ports, regs := t.regs, hw := t.hw, occ := t.occ }))
  ∧ (∀ (n q : Nat) (f : CtrlFlit) (s : State), s.jobPart f.jobid = some q → (s.gop q).op = 0 →
      ((s.gop q).keptBid = none ∨ (s.gop q).keptBid = some (byF f.body 0 2)) →
      Completes (.arrive n f) s fun t =>
        f.node ∈ (t.gop q).kept ∧ (∀ m ∈ (s.gop q).kept, m ∈ (t.gop q).kept) ∧ (t.gop q).keptBid = some (byF f.body 0 2)
        ∧ t = { s with fab := t.fab, ports := t.ports })

/-- R385, R395: a write of ROUTE_GOPCMD while the partition holds an operation completes with BUSY, and without a box with NOT_PERMITTED:
the status, the operation and the partition's event are all that it leaves. R391 to R394: with no operation held and a box, BARRIER enters
the barrier, BCAST sends the bytes, SNAP announces the snapshot and RESET sends its flit and resets the partition. A barrier entered 2 × TMO
ago on a part that is not the root completes with TIMEOUT; TMO after the root entered without a completed gather, the root originates
RELEASE with TIMEOUT. -/
def Obligations.GlobalOperations : Prop :=
  (∀ (q op : Nat) (w : Instr) (s : State), q < 8 →
      (op, w) ∈ [(1, Instr.barrier q), (2, Instr.bcast q), (3, Instr.snap q), (4, Instr.reset q)] →
      ((s.gop q).op ≠ 0 ∨ s.hasBox q = false) →
      Completes w s fun t =>
        t.fld F.ROUTE_GOPSTAT_STATUS q = (if (s.gop q).op ≠ 0 then stBUSY else stNOT_PERMITTED) ∧ t.fld F.ROUTE_GOPSTAT_OP q = op
        ∧ t.occ = s.occ ++ [16 + q] ∧ t = { s with regs := t.regs, occ := t.occ })
  ∧ (∀ (q : Nat) (s : State), q < 8 →
      ((s.gop q).op = 0 → s.hasBox q = true →
        Gives (.barrier q) s (s.enterBarrier q) ∧ Gives (.bcast q) s (s.originateBcast q) ∧ Gives (.snap q) s (s.originateSnap q)
        ∧ Gives (.reset q) s (s.gopReset q))
      ∧ (s.jobRoot q = s.node → s.barrierLate q 1 = true → Gives (.barrierRootTimeout q) s (s.originateRelease q stTIMEOUT))
      ∧ (s.jobRoot q ≠ s.node → s.barrierLate q 2 = true → Completes (.barrierTimeout q) s fun t =>
        (t.gop q).op = 0 ∧ (t.gop q).entered = false ∧ t.fld F.ROUTE_GOPSTAT_STATUS q = stTIMEOUT ∧ t.fld F.ROUTE_GOPSTAT_BUSY q = 0
        ∧ t.occ = s.occ ++ [16 + q] ∧ t = { s with fab := t.fab, regs := t.regs, occ := t.occ }))

/-- R559, R393: the PART reset of a RESET write leaves the partition's clusters with no job, every core of it with empty queues and
channels, and its tiles and accumulators as they were; the operation completes with the partition's event. -/
def Obligations.PartResets : Prop :=
  ∀ (q c : Nat) (s : State), q < 8 → (s.gop q).op = 0 → s.hasBox q = true → c ∈ s.partCores q →
    Completes (.reset q) s fun t =>
      (t.part q).job = .idle ∧ (t.part q).mask = (s.part q).mask ∧ (t.part q).beat = 0 ∧ t.occ.getLast? = some (16 + q)
      ∧ (∀ qc, (t.core c).queue qc = []) ∧ (t.core c).chans = [] ∧ (t.core c).arrs = (s.core c).arrs ∧ (t.core c).bufs = (s.core c).bufs

/-! ## Denian ports (10_denian_links.md) -/

/-- R322, R324, R344: a slot that is due goes out, one at a time. A group that fails, or is out of sequence, is refused with nothing of it
received, and the first since an accepted one asks for a NAK; a good group in sequence is accepted under its number, and a NAK asked for
before it stays asked for. R340, R357: the first flit of a message in a receive buffer that goes on next enters the outbound queue of the
port its hop byte names, with the rest of its hop bytes, or is discarded where that port has gone from under it. -/
def Obligations.SlotsAndGroups : Prop :=
  (∀ (n : Nat) (s : State),
      (s.slotDue n = true → Gives (.slotFill n) s (s.fillSlot n)
        ∧ Completes (.slotFill n) s fun t =>
          (t.port n).slots = (s.port n).slots + 1 ∧ (t.port n).rx = (s.port n).rx ∧ t.mem = s.mem ∧ t.cores = s.cores ∧ t.parts = s.parts)
      ∧ (s.slotDue n = false → exec (.slotFill n) s = .next s)
      ∧ (s.slotsRun n = true → ∀ raw corr uncorr,
        let w := byF raw 4224 2
        Gives (.groupReceive n raw corr uncorr) s (s.rxGroup n raw corr uncorr)
        ∧ (uncorr ≠ 0 ∨ groupGood raw = false ∨ (w / 4096 % 2 = 0 ∧ w % 4096 ≠ ((s.port n).ackSeq + 1) % 4096) →
          Completes (.groupReceive n raw corr uncorr) s fun t =>
            (t.port n).nakHeld = true
            ∧ (t.port n).nakWant = (if (s.port n).nakHeld then (s.port n).nakWant else some ((s.port n).nakWant.getD s.refNs))
            ∧ (t.port n).ackSeq = (s.port n).ackSeq ∧ (t.port n).rx = (s.port n).rx
            ∧ (t.port n).frames = (s.port n).frames ∧ (t.port n).ctrlIn = (s.port n).ctrlIn ∧ (t.port n).maintIn = (s.port n).maintIn
            ∧ t = { s with ports := t.ports, regs := t.regs, hw := t.hw })
        ∧ (uncorr = 0 → groupGood raw = true → w / 4096 % 2 = 0 → w % 4096 = ((s.port n).ackSeq + 1) % 4096 →
          Completes (.groupReceive n raw corr uncorr) s fun t =>
            (t.port n).ackSeq = w % 4096 ∧ (t.port n).nakHeld = false ∧ (t.port n).nakWant = (s.port n).nakWant
            ∧ t = { s with ports := t.ports, regs := t.regs, hw := t.hw, occ := t.occ })))
  ∧ (∀ (n h : Nat) (rest : List Nat) (m : RxMsg) (s : State), s.rxFwd n = some m → m.hops = h :: rest → m.passed = 0 →
      (s.fwdGone n h m = false → Completes (.schedForward n) s fun t =>
        (t.port h).sched = (s.port h).sched ++ [⟨none, rest, m.dcore, m.ch, 1024 + n, m.len, m.sig, [(m.flits.headD (0, [])).2], 1, false⟩]
        ∧ (∀ k, k ≠ n → k ≠ h → t.port k = s.port k) ∧ t = { s with ports := t.ports })
      ∧ (s.fwdGone n h m = true → Completes (.schedForward n) s fun t =>
        t.port n = (s.port n).popFlit m ∧ (∀ k, k ≠ n → t.port k = s.port k) ∧ t = { s with ports := t.ports }))

/-- R345 to R348: in a slice of the port that begins after it was asked for, a NAK is issued, and a replay asked for starts, or one whose
time is over: every group not yet acknowledged is to be sent again and the retry is counted; after the sixteenth in a row a port
that is UP goes DOWN, of which no more is said here than that the replay is carried out. Outside its slice the engine does nothing. -/
def Obligations.RetriesRun : Prop :=
  ∀ (n : Nat) (s : State),
    (∀ t0, (s.port n).nakWant = some t0 → s.sliceAfter n t0 = true → Completes (.nakIssue n) s fun t =>
      t.port n = { s.port n with nakWant := none, nakOut := true } ∧ (∀ m, m ≠ n → t.port m = s.port m) ∧ t = { s with ports := t.ports })
    ∧ (∀ t0, (s.port n).replayWant = some t0 → s.sliceAfter n t0 = true → Gives (.replayStart n) s (s.replay n)
      ∧ (s.pstate n ≠ 3 ∨ (s.port n).retryRun ≠ 15 → Completes (.replayStart n) s fun t =>
        (t.port n).resend = (s.port n).replay ∧ (t.port n).rep = none ∧ (t.port n).replayWant = none
        ∧ (t.port n).retryRun = (s.port n).retryRun + 1 ∧ (∀ m, m ≠ n → t.port m = s.port m)
        ∧ t = { s with ports := t.ports, regs := t.regs, hw := t.hw, occ := t.occ }))
    ∧ (s.replayLate n = true → Gives (.replayTimeout n) s ((s.addFld F.PORT_RETRY_RTO n 1).replay n)
      ∧ (s.pstate n ≠ 3 ∨ (s.port n).retryRun ≠ 15 → n < 48 → Completes (.replayTimeout n) s fun t =>
        (t.port n).resend = (s.port n).replay ∧ (t.port n).retryRun = (s.port n).retryRun + 1 ∧ (∀ m, m ≠ n → t.port m = s.port m)
        ∧ t = { s with ports := t.ports, regs := t.regs, hw := t.hw, occ := t.occ }))
    ∧ (s.inSlice n = false → ∀ c ∈ [Instr.nakIssue n, .replayStart n, .replayTimeout n], exec c s = .next s)

/-- R349 to R352: lanes placed begin step 3; a PROBE pair whose reply has come is taken, and the sixteenth gives the latency and begins
IDENT, or takes the port DOWN above 2,000,000 ps; until the neighbour's record has come the record is sent again 1 ms after the last; a
record that fails its checks changes nothing but the buffer it lay in, and a good one is taken. R349, R356: a port whose lock is lost, whose
training has lasted 1 s or whose IDENT has lasted 10 ms with no record goes DOWN with its cause: of a port that is not UP and has no
activity of RETRAIN, its state and cause, its own outbound queues and the port's event are all that change. -/
def Obligations.PortStates : Prop :=
  (∀ (n : Nat) (s : State), n < 48 →
      (s.pstate n = 1 → (s.port n).step = 1 → ∀ lanes, Completes (.laneLock n lanes) s fun t =>
        (t.port n).step = 3 ∧ (t.port n).slots = 0 ∧ (t.port n).epoch = s.refNs ∧ (t.port n).lanes = lanes
        ∧ t = { s with ports := t.ports, regs := t.regs })
      ∧ (∀ t1 t2 t3 t4 r, s.pstate n = 1 → (s.port n).step = 4 → (s.port n).pairs = (t1, t2, t3, t4) :: r →
        Gives (.probeExchange n t1 t2 t3 t4) s (s.probe n t1 t2 t3 t4)
        ∧ ((s.port n).probes.length < 15 → Completes (.probeExchange n t1 t2 t3 t4) s fun t =>
          (t.port n).probes = (s.port n).probes ++ [probePair t1 t2 t3 t4] ∧ (t.port n).pairs = r ∧ (t.port n).step = 4
          ∧ t = { s with ports := t.ports })
        ∧ ((s.port n).probes.length = 15 → leastInt ((s.port n).probes ++ [probePair t1 t2 t3 t4]) ≤ 4000 →
          Completes (.probeExchange n t1 t2 t3 t4) s fun t =>
            t.pstate n = 2 ∧ (t.port n).step = 6 ∧ (t.port n).maint = (s.port n).maint ++ [s.ownRec n]))
      ∧ (s.pstate n = 2 → (s.port n).heard = false → (s.port n).sentId + 1000000 ≤ s.refNs → Completes (.identityResend n) s fun t =>
        (t.port n).maint = (s.port n).maint ++ [s.ownRec n] ∧ (t.port n).sentId = s.refNs ∧ t = { s with ports := t.ports })
      ∧ (s.pstate n ∈ [2, 3, 4, 5, 6] → ∀ rec,
        (recGood rec = false → Completes (.neighbourRecord n rec) s fun t =>
          (t.port n).nbr = (s.port n).nbr ∧ t = { s with ports := t.ports })
        ∧ (recGood rec = true → Gives (.neighbourRecord n rec) s ((s.maintTake n rec).takeRecord n rec))))
  ∧ (∀ (n cause : Nat) (w : Instr) (s : State), n < 48 →
      (w = .portLockLoss n ∧ cause = 1 ∧ n < s.id.ports ∧ s.pstate n ≠ 0 ∧ s.pstate n ≠ 7
        ∨ w = .trainTimeout n ∧ cause = 3 ∧ s.trainLate n = true
        ∨ w = .identTimeout n ∧ cause = (if s.trainLate n then 3 else 5) ∧ s.pstate n = 2 ∧ (s.port n).heard = false
          ∧ (s.port n).ident + 10000000 ≤ s.refNs) →
      Gives w s (s.portDown n cause)
      ∧ (s.pstate n ≠ 3 → (∀ a ∈ s.acts, a.ports.contains n = false) → Completes w s fun t =>
        t.pstate n = 7 ∧ t.fld F.PORT_STAT_DOWNCAUSE n = cause
        ∧ t.port n = { (s.port n).discardOut with step := 0, stopped := some (s.refNs, s.fld F.PORT_STAT_DOWNCAUSE n) }
        ∧ (∀ m, m ≠ n → t.port m = s.port m) ∧ t = { s with ports := t.ports, regs := t.regs, occ := t.occ }))

/-- R349, R358, R360: writes of PORT_CTL and PORT_WIN. Enabling a port that is off trains it; disabling one takes it to DISABLED; RESET
trains an enabled port again; a PORT_WIN value is judged as a whole. What a job's use of the port forbids is refused, as is a port the part
lacks. -/
def Obligations.PortControl : Prop :=
  ∀ (r : Requester) (n v : Nat) (s : State), n < 48 →
    (n < s.id.ports →
      (s.fld F.PORT_CTL_ENABLE n = 0 → s.canAct (retrainAct n) = true →
        Gives (.portCtlEnable r n true) s (((s.setFld F.PORT_CTL_ENABLE n 1).startAct (retrainAct n)).startTraining n))
      ∧ (s.fld F.PORT_CTL_ENABLE n = 1 → exec (.portCtlEnable r n true) s = .next s)
      ∧ (s.schedBusy n = false → s.pstate n = 0 → Completes (.portCtlEnable r n false) s fun t =>
        t.fld F.PORT_CTL_ENABLE n = 0 ∧ t = { s with regs := t.regs })
      ∧ (s.schedBusy n = false → s.pstate n ≠ 0 → s.downNow n = false → Gives (.portCtlEnable r n false) s ((s.setFld F.PORT_CTL_ENABLE n 0).portStop n 0 0))
      ∧ (s.schedBusy n = false → s.canAct (retrainAct n) = true → s.fld F.PORT_CTL_ENABLE n ≠ 0 →
        (s.pstate n ≠ 3 → Gives (.portCtlReset r n) s ((s.startAct (retrainAct n)).startTraining n))
        ∧ (s.pstate n = 3 → Gives (.portCtlReset r n) s (((s.leaveUp n).startAct (retrainAct n)).startTraining n)))
      ∧ (∀ w, s.schedBusy n = false → winAfter (s.reg .PORT_WIN n).toNat v = some w → Completes (.portWinWrite r n v) s fun t =>
        t.reg .PORT_WIN n = BitVec.ofNat 64 w ∧ (∀ r' i, i < 2 ^ 24 → (r', i) ≠ (RegName.PORT_WIN, n) → t.reg r' i = s.reg r' i)
        ∧ t = { s with regs := t.regs }))
    ∧ (s.id.ports ≤ n ∨ s.schedBusy n = true →
      Gives (.portCtlReset r n) s (s.refuseWrite .PORT_CTL n) ∧ Gives (.portCtlEnable r n false) s (s.refuseWrite .PORT_CTL n)
      ∧ Gives (.portWinWrite r n v) s (s.refuseWrite .PORT_WIN n))

/-! ## Fabric (11_fabric.md, 17_mailbox.md) -/

/-- R381: a request made while no network drains takes the lowest FREE tag, adds 1 modulo 16 to its generation and carries it; where no tag
is FREE it completes at once with NO_RESOURCE and nothing is sent. (A request whose frame fits no window of its port is refused before it is
injected, R336; one made while a network drains is held, R376.) -/
def Obligations.RequestsTakeTags : Prop :=
  ∀ (r : ReqSpec) (s : State),
    (s.freeTag = none ↔ ∀ g < 4096, (s.tag g).state ≠ .free)
    ∧ (s.injecting = true →
      (s.freeTag = none → Completes (.requestInject r) s fun t =>
        (∃ d, t.fab.dones = s.fab.dones ++ [d] ∧ d.req = s.releaseAt r ∧ d.status = stNO_RESOURCE ∧ d.data = [])
        ∧ t.fab.tags = s.fab.tags ∧ t.ports = s.ports ∧ t.fab.inReq = s.fab.inReq ∧ t = { s with fab := t.fab, regs := t.regs, hw := t.hw })
      ∧ (∀ g, s.freeTag = some g →
        g < 4096 ∧ (s.tag g).state = .free ∧ (∀ k < g, (s.tag k).state ≠ .free) ∧
        let gen := ((s.tag g).gen + 1) % 16
        let f := s.reqFrame r g gen
        f.tag = g ∧ f.gen = gen
        ∧ (s.route f = .here → Completes (.requestInject r) s fun t =>
            (t.tag g).state = .out ∧ (t.tag g).gen = gen ∧ (t.tag g).req = some r ∧ t.fab.inReq = s.fab.inReq ++ [(none, false, f)]
            ∧ (∀ k, k ≠ g → t.tag k = s.tag k) ∧ t = { s with fab := t.fab })
        ∧ (s.route f = .discard → Completes (.requestInject r) s fun t =>
            (t.tag g).state = .out ∧ (t.tag g).gen = gen ∧ (t.tag g).req = some r ∧ t.occ = s.occ ++ [12] ∧ t.ports = s.ports
            ∧ (∀ k, k ≠ g → t.tag k = s.tag k) ∧ t = { s with fab := t.fab, regs := t.regs, hw := t.hw, occ := t.occ })
        ∧ (∀ n, s.route f = .port n → frameFlitCount f.bytes ≤ s.dynSlots n → Completes (.requestInject r) s fun t =>
            (t.tag g).state = .out ∧ (t.tag g).gen = gen ∧ (t.tag g).req = some r ∧ (t.tag g).port = some n
            ∧ t.port n = (s.port n).putFrame { f with cls := s.hopClass none 0 n } s.refNs 1024 ∧ (∀ k, k ≠ g → t.tag k = s.tag k)
            ∧ t = { s with fab := t.fab, ports := t.ports })))
    ∧ (s.injecting = false → Completes (.requestInject r) s fun t =>
      (t.net 0).held = (s.net 0).held ++ [r] ∧ t.fab.tags = s.fab.tags ∧ t = { s with fab := t.fab })

/-- R369, R372, R374: a frame for this part joins the delivered requests, or the delivered replies; one that has made 192 hops, and one that
no entry routes, is discarded and counted; one that goes on leaves by the port its route names, with a hop more. -/
def Obligations.FramesRouted : Prop :=
  ∀ (n : Nat) (f : Frame) (s : State), s.frameUp n = true → (s.port n).frames.contains f = false →
    (f.dst = s.node → opOk f.net f.op = true → Completes (.frameArrive (some n) f) s fun t =>
      (f.net = 0 → t.fab.inReq = s.fab.inReq ++ [(some n, false, f)] ∧ t.fab.inRsp = s.fab.inRsp)
      ∧ (f.net ≠ 0 → t.fab.inRsp = s.fab.inRsp ++ [f] ∧ t.fab.inReq = s.fab.inReq) ∧ t.fab.tags = s.fab.tags ∧ t = { s with fab := t.fab })
    ∧ (f.dst ≠ s.node → s.role n ≠ 0x10 →
      (192 ≤ f.hops → Completes (.frameArrive (some n) f) s fun t => t.occ = s.occ ++ [12] ∧ t = { s with regs := t.regs, hw := t.hw, occ := t.occ })
      ∧ (f.hops < 192 → s.route f = .discard → Completes (.frameArrive (some n) f) s fun t =>
        t.occ = s.occ ++ [12] ∧ t = { s with regs := t.regs, hw := t.hw, occ := t.occ })
      ∧ (∀ m, f.hops < 192 → s.route f = .port m → frameFlitCount f.bytes ≤ s.dynSlots m →
        Completes (.frameArrive (some n) f) s fun t =>
          t.port m = (s.port m).putFrame { f with hops := f.hops + 1, cls := s.hopClass (some n) f.cls m } s.refNs n
          ∧ (∀ k, k ≠ m → t.port k = s.port k) ∧ t = { s with ports := t.ports }))

/-- R380: the first delivered RD or WR is served. One that fails a check is answered with that status and no data, memory as it was; one
that passes them waits until the slots it needs have come; then a read is answered with the bytes at its address, and a write lands its
bytes there. An absent address is a BAD_ARG. R379, R534: a delivered MSG whose type is its request's COMMAND becomes the request of channel 2
where that channel is free. -/
def Obligations.RequestsServed : Prop :=
  (∀ (e : Option Nat × Bool × Frame) (s : State),
      let f := e.2.2
      (s.firstReq 1 = some e →
        let u (v : State) : State := { v with fab := { v.fab with rdGot := 0 } }.takeReq e
        let st := s.targetStatus f.addr (frameLen f) (frameJob f)
        (frameLen f = 0 ∨ 4064 < frameLen f → Gives .rd s ((u s).reply f stBAD_ARG 0 []))
        ∧ (1 ≤ frameLen f → frameLen f ≤ 4064 →
          (st ≠ stOK → Gives .rd s ((u s).reply f st 0 []))
          ∧ (st = stOK → s.frameSlots e.1 f.addr = false → Gives .rd s ((u s).reply f stNO_RESOURCE 0 []))
          ∧ (st = stOK → s.frameSlots e.1 f.addr = true →
            let need := s.slotNeed e.1 f.addr (frameLen f) false
            let v := s.takeUpTo need s.fab.rdGot
            (v.2 < need.length → Gives .rd s { v.1 with fab := { v.1.fab with rdGot := v.2 } })
            ∧ (need.length ≤ v.2 →
              let r := (u v.1).readMem .other f.addr (frameLen f)
              Gives .rd s (r.1.reply f (if r.2.2 then stFAULTED else stOK) 0 (if r.2.2 then [] else r.2.1))))))
      ∧ (s.firstReq 2 = some e →
        let u (v : State) : State := { v with fab := { v.fab with wrGot := 0 } }.takeReq e
        let st := s.targetStatus f.addr f.bytes (frameJob f)
        (st ≠ stOK → Gives .wr s ((u s).reply f st 0 []))
        ∧ (st = stOK → s.frameSlots e.1 f.addr = false → Gives .wr s ((u s).reply f stNO_RESOURCE 0 []))
        ∧ (st = stOK → s.frameSlots e.1 f.addr = true →
          let need := s.slotNeed e.1 f.addr f.bytes true
          let v := s.takeUpTo need s.fab.wrGot
          (v.2 < need.length → Gives .wr s { v.1 with fab := { v.1.fab with wrGot := v.2 } })
          ∧ (need.length ≤ v.2 →
            let r := (u v.1).writeMem .other f.addr (fitBytes f.bytes f.payload)
            Gives .wr s (r.1.reply f (if r.2 then stFAULTED else stOK) 0 []))))
      ∧ (s.absent f.addr = true → ∀ n j, s.targetStatus f.addr n j = stBAD_ARG)
      ∧ (∀ (st op : Nat) (d : List Byte) (v : State), (v.reply f st op d).mem = v.mem))
  ∧ (∀ (e : Option Nat × Bool × Frame) (s : State), s.firstReq 3 = some e → s.mbox.ch2 = none →
      (e.2.2.opspec % 2 ^ 16 = mqCmd e.2.2.payload → Completes .msg s fun t =>
        t.mbox.ch2 = some e ∧ t.mbox.posted = s.mbox.posted ++ [2] ∧ t.fab.inReq = s.fab.inReq.erase e
        ∧ t = { s with fab := t.fab, mbox := t.mbox, ports := t.ports })
      ∧ (e.2.2.opspec % 2 ^ 16 ≠ mqCmd e.2.2.payload → Gives .msg s (s.takeReq e)))

/-- Table 11.7: a reply that carries the generation of its tag in OUT frees the tag and completes its request with the reply's status; any
other is discarded and counted. A tag in OUT whose timer is over enters RETIRE with TIMEOUT, and a tag in RETIRE whose time is over is FREE,
its generation kept. -/
def Obligations.TagsMove : Prop :=
  ∀ (s : State),
    (∀ f, f.net = 1 → opOk 1 f.op = true → f.dst = s.node →
      (∀ r, (s.tag f.tag).state = .out → (s.tag f.tag).req = some r → (s.tag f.tag).gen = f.gen →
        Completes (.replyArrive none f) s fun t =>
          (t.tag f.tag).state = .free ∧ (t.tag f.tag).gen = f.gen ∧ t.fab.dones = s.fab.dones ++ [⟨s.releaseAt r, f.status, f.payload⟩]
          ∧ (∀ k, k ≠ f.tag → t.tag k = s.tag k))
      ∧ ((s.tag f.tag).state ≠ .out ∨ (s.tag f.tag).gen ≠ f.gen → Completes (.replyArrive none f) s fun t =>
        t.fab.dones = s.fab.dones ∧ t.fab.tags = s.fab.tags
        ∧ t.fld F.ROUTE_ERR0_LATE_COMPLETION 0
          = min (2 ^ F.ROUTE_ERR0_LATE_COMPLETION.width - 1) (s.fld F.ROUTE_ERR0_LATE_COMPLETION 0 + 1)
        ∧ t = { s with fab := t.fab, regs := t.regs, hw := t.hw }))
    ∧ (∀ g r, s.timerDue g = true → (s.tag g).req = some r → Completes (.requestTimeout g) s fun t =>
      (t.tag g).state = .retire ∧ t.fab.dones = s.fab.dones ++ [⟨s.releaseAt r, stTIMEOUT, []⟩] ∧ (t.tag g).until_ = s.gtc + s.reqNs r
      ∧ (∀ k, k ≠ g → t.tag k = s.tag k) ∧ t = { s with fab := t.fab, regs := t.regs, hw := t.hw })
    ∧ (∀ g, (s.tag g).state = .retire → (s.tag g).until_ ≤ s.gtc → Completes (.retireExpiry g) s fun t =>
      (t.tag g).state = .free ∧ (t.tag g).gen = (s.tag g).gen ∧ (∀ k, k ≠ g → t.tag k = s.tag k) ∧ t = { s with fab := t.fab })

/-- R376: DRAIN and CHANGE of an ACTIVE network begin its draining; DRAINED is reached when no tag is OUT; SWAP and RESUME act on a DRAINED
network. A command for a network in another state is NOT_PERMITTED, one during a CHANGE of either network is BUSY, and neither does more than give its status.
-/
def Obligations.RoutesChange : Prop :=
  ∀ (k : Nat) (s : State), k < 2 →
    ((s.net 0).change = true ∨ (s.net 1).change = true → ∀ c ∈ [Instr.change (2 ^ k), .drain (2 ^ k), .swap (2 ^ k), .resume (2 ^ k)], Completes c s fun t =>
      t.fld F.ROUTE_STAT_STATUS 0 = stBUSY ∧ t = { s with regs := t.regs })
    ∧ ((s.net 0).change = false → (s.net 1).change = false →
      (∀ c ∈ [false, true], (s.net k).state = 0 →
        Completes (if c then .change (2 ^ k) else .drain (2 ^ k)) s fun t =>
          (t.net k).state = 1 ∧ (t.net k).change = c ∧ (t.net k).held = (s.net k).held ∧ t.fld F.ROUTE_STAT_STATUS 0 = stOK
          ∧ (∀ j, j ≠ k → t.net j = s.net j) ∧ t = { s with fab := t.fab, regs := t.regs })
      ∧ ((s.net k).state = 2 →
        Gives (.swap (2 ^ k)) s ((s.swapNet k).setFld F.ROUTE_STAT_STATUS 0 stOK)
        ∧ Gives (.resume (2 ^ k)) s ((s.resumeNet k).setFld F.ROUTE_STAT_STATUS 0 stOK))
      ∧ ((s.net k).state ≠ 0 → ∀ c ∈ [Instr.change (2 ^ k), .drain (2 ^ k)], Completes c s fun t =>
        t.fld F.ROUTE_STAT_STATUS 0 = stNOT_PERMITTED ∧ t = { s with regs := t.regs })
      ∧ ((s.net k).state ≠ 2 → ∀ c ∈ [Instr.swap (2 ^ k), .resume (2 ^ k)], Completes c s fun t =>
        t.fld F.ROUTE_STAT_STATUS 0 = stNOT_PERMITTED ∧ t = { s with regs := t.regs })
      ∧ ((s.net k).state = 1 → s.tagsOut = [] → Completes (.drained k) s fun t =>
        (t.net k).state = 2 ∧ t.occ = s.occ ++ [11] ∧ t = { s with fab := t.fab, occ := t.occ })
      ∧ (s.tagsOut ≠ [] → exec (.drained k) s = .next s))

/-! ## Time and events (14_time_clocks_power.md, 15_events.md) -/

/-- R466 to R468: the time master sends a BEACON on every UP port of torus or express role when GTC is a multiple of 100,000 ns, once; it
discards every beacon it receives, one of another master with source 35; a beacon of another system changes nothing; without the parent's
beacons for 1 ms a part that follows clears SYNC. -/
def Obligations.BeaconsMove : Prop :=
  ∀ (n : Nat) (f : CtrlFlit) (s : State),
    (s.isMaster = true → s.gtc % 100000 = 0 → s.tm.sentAt ≠ some s.gtc → Completes .beaconSend s fun t =>
      (∀ k ∈ s.beaconPorts, ∃ b, b ∈ (t.port k).ctrl ∧ b.typ = 1 ∧ b.node = s.node ∧ b.sys = s.sysNo ∧ b.jobid = s.tm.beaconSeq % 2 ^ 32)
      ∧ t.tm.beaconSeq = s.tm.beaconSeq + 1 ∧ t.tm.sentAt = some s.gtc ∧ t = { s with ports := t.ports, tm := t.tm })
    ∧ (s.gtc % 100000 ≠ 0 → exec .beaconSend s = .next s)
    ∧ (s.isMaster = true → Completes (.beaconReceive n f) s fun t =>
      t.occ = s.occ ++ (if f.node = s.node ∧ f.sys = s.sysNo then [] else [35]) ∧ t = { s with ports := t.ports, occ := t.occ })
    ∧ (s.isMaster = false → f.sys ≠ s.sysNo → Gives (.beaconReceive n f) s (s.ctrlTake n f))
    ∧ (s.isMaster = false → f.sys = s.sysNo → Gives (.beaconReceive n f) s ((s.ctrlTake n f).beaconIn n f))
    ∧ (s.isMaster = false → s.tm.parent = true → s.tm.heardP + 1000000 ≤ s.gtc → Completes .beaconTimeout s fun t =>
      t.fld F.TIME_STAT_SYNC 0 = 0 ∧ t = { s with regs := t.regs, occ := t.occ })

/-- R471: a write of TIME_SET on the time master with SRC 0 is a correction with e equal to the written value minus GTC at the write; on any
other part, or under any other SRC, it is handled as a write to an offset that holds no register. -/
def Obligations.TimeSetCorrects : Prop :=
  ∀ (r : Requester) (v : Nat) (s : State), v < 2 ^ 64 →
    (s.isMaster = true → s.timeSrc = 0 → Gives (.timeSetWrite r v) s (s.correct (Int.ofNat v - Int.ofNat s.gtc) true))
    ∧ (s.isMaster = false ∨ s.timeSrc ≠ 0 → Gives (.timeSetWrite r v) s (s.accErr 2 0 true (regOffset .TIME_SET 0)))

/-- R463, Table 14.1: how a correction is handled. The first sets INIT; one of 0 changes no more than TIME_ERR; a first one forward is a
step; a negative one is a slew; one of more than 1 ms forward is a slew with the step refused; one forward while a job is launched is a
slew, and otherwise a step. R464: while a slew remains, each period adds 1 ns to GTC and takes it off a positive rest, or adds it to a
negative rest and has the next count edge withheld; GTC never decreases. -/
def Obligations.CorrectionsApply : Prop :=
  (∀ (e : Int) (own : Bool) (s : State),
      let t := s.correct e own
      s.gtc ≤ t.gtc
      ∧ (e = 0 → t = { s with regs := t.regs })
      ∧ (e ≠ 0 → t.fld F.TIME_STAT_INIT 0 = 1)
      ∧ (0 < e → s.fld F.TIME_STAT_INIT 0 = 0 → t.gtc = s.gtc + e.toNat ∧ t.tm = s.tm)
      ∧ (e < 0 → t.gtc = s.gtc ∧ t.tm.slew = e)
      ∧ (1000000 < e → s.fld F.TIME_STAT_INIT 0 = 1 → t.gtc = s.gtc ∧ t.tm.slew = e ∧ t.occ = s.occ ++ [32])
      ∧ (0 < e → e ≤ 1000000 → s.fld F.TIME_STAT_INIT 0 = 1 → (s.anyBusy = true → t.gtc = s.gtc ∧ t.tm.slew = e ∧ t.occ = s.occ)
        ∧ (s.anyBusy = false → t.gtc = s.gtc + e.toNat ∧ t.tm = s.tm ∧ t.occ = s.occ)))
  ∧ (∀ (s : State), s.tm.slew ≠ 0 → s.tm.slewAt + s.slewPeriod ≤ s.refNs → Completes .slewStep s fun t =>
      (0 < s.tm.slew → t.gtc = s.gtc + 1 ∧ t.tm.slew = s.tm.slew - 1 ∧ t.tm.hold = s.tm.hold)
      ∧ (s.tm.slew < 0 → t.gtc = s.gtc ∧ t.tm.slew = s.tm.slew + 1 ∧ t.tm.hold = s.tm.hold + 1)
      ∧ t.tm.slewAt = s.tm.slewAt + s.slewPeriod ∧ t = { s with gtc := t.gtc, tm := t.tm, regs := t.regs })

/-- R469, R470, Table 14.3: each source of the master corrects it: 1PPS by the nearest second (where two are equally near, by a free
choice), PTP by minus its offset, PTM by its master time less the GTC of the request. A PTM request goes out 10 ms after the last. A silent
source puts the master into holdover, with source 33. R459, R462, R472, R487: the reference's loss and return, the failover to the second
time base, the 1PPS output at the second and 100 ms later, and the alarm, which fires once when GTC reaches it. -/
def Obligations.SourcesAndClocks : Prop :=
  (∀ (x : Int) (s : State), s.isMaster = true →
      (s.timeSrc = 1 →
        let d := (s.fld F.TIME_PPS_OFFSET 0 + 1000000000 - s.gtc % 1000000000) % 1000000000
        (d < 500000000 → Gives .ppsInEdge s (s.srcHeard.correct (Int.ofNat d) true))
        ∧ (500000000 < d → Gives .ppsInEdge s (s.srcHeard.correct (Int.ofNat d - 1000000000) true))
        ∧ (d = 500000000 → Completes .ppsInEdge s fun t => t.free = s.free + 1 ∧
            t.fld F.TIME_ERR_LAST 0 = (if Config.freeValue s.free % 2 = 0 then sat32 500000000 else sat32 (-500000000))))
      ∧ (s.timeSrc = 2 → s.linkUp 3 = true → Gives (.ptpSync x) s (s.srcHeard.correct (-x) true))
      ∧ (s.timeSrc = 3 →
        (s.tm.ptmAt + 10000000 ≤ s.refNs → Completes .ptmRequest s fun t =>
          t.out = s.out ++ [.ptm] ∧ t.tm = { s.tm with ptmAt := s.refNs, ptmGtc := s.gtc, ptmOut := s.tm.ptmOut + 1 }
          ∧ t = { s with out := t.out, tm := t.tm })
        ∧ (0 < s.tm.ptmOut → Gives (.ptmResponse x) s (s.srcHeard.correct (x - Int.ofNat s.tm.ptmGtc) true)))
      ∧ (s.srcSilent = true → Completes .holdover s fun t =>
        t.fld F.TIME_STAT_HOLDOVER 0 = 1 ∧ t.fld F.TIME_STAT_SYNC 0 = 0
        ∧ (s.fld F.TIME_STAT_HOLDOVER 0 = 0 → (33 : Nat) ∈ t.occ) ∧ t = { s with regs := t.regs, occ := t.occ }))
  ∧ (∀ (s : State),
      (Completes .refclkLoss s fun t =>
        t.fld F.TIME_STAT_REFLOSS 0 = 1 ∧ t.tm.refLost = true ∧ t.fld F.TIME_STAT_SYNC 0 = 0 ∧ t.gtc = s.gtc
        ∧ t = { s with regs := t.regs, tm := t.tm, occ := t.occ })
      ∧ (s.tm.refLost = true → Completes .refclkReturn s fun t =>
        t.fld F.TIME_STAT_REFLOSS 0 = 0 ∧ t.tm.refLost = false ∧ t.gtc = s.gtc ∧ t = { s with regs := t.regs, tm := t.tm, occ := t.occ })
      ∧ (s.fld F.TIME_STAT_PRIMARY 0 = 0 → Completes .timeBaseFailover s fun t =>
        t.fld F.TIME_STAT_PRIMARY 0 = 1 ∧ t.occ = s.occ ++ [37] ∧ t.gtc = s.gtc ∧ t = { s with regs := t.regs, occ := t.occ })
      ∧ (s.gtc % 1000000000 = 0 → s.tm.ppsHigh = false → Completes .ppsOutEdge s fun t =>
        t.out = s.out ++ [.pps true] ∧ t.tm.ppsHigh = true ∧ t = { s with out := t.out, tm := t.tm })
      ∧ (100000000 ≤ s.gtc % 1000000000 → s.tm.ppsHigh = true → Completes .ppsOutEdge s fun t =>
        t.out = s.out ++ [.pps false] ∧ t.tm.ppsHigh = false ∧ t = { s with out := t.out, tm := t.tm })
      ∧ (s.tm.alarmed = false → s.fld F.TIME_ALARM_AT 0 ≤ s.gtc →
        Completes .timeAlarmFire s (fun t => t.tm.alarmed = true ∧ (36 : Nat) ∈ t.occ))
      ∧ (s.tm.alarmed = true → exec .timeAlarmFire s = .next s))

/-- R495 to R498: at an event tick every occurrence since the last takes effect: its source is pending; nothing then waits for the next
tick. A pulse of a wire with no filter is kept for the tick. -/
def Obligations.EventsTick : Prop :=
  ∀ (s : State),
    (s.tickDue = true → ∀ wires, Completes (.eventTick wires) s fun t =>
      t.occ = [] ∧ t.evc.writes = [] ∧ t.evc.stepped = false ∧ t.gtc = s.gtc
      ∧ ∀ n ∈ s.occ, t.evcSource n = true → (t.fld F.EVC_PEND_PEND (n / 64)).testBit (n % 64) = true)
    ∧ (s.tickDue = false → ∀ wires, exec (.eventTick wires) s = .next s)
    ∧ (∀ j < 12, s.fld F.EVC_WIRE_N j = 0 → Completes (.wirePulseLatch j) s fun t =>
      t.wire j = { s.wire j with pulse := true } ∧ (∀ k, k ≠ j → t.wire k = s.wire k) ∧ t = { s with evc := t.evc })

/-! ## Power, temperature and resets (14_time_clocks_power.md, 16_boot_firmware.md, 18_resets_faults_maintenance.md) -/

/-- R481, R482: a cap within its range takes effect where the budget does not exceed it, and is NOT_PERMITTED otherwise; a declaration that
would raise the budget above the cap is NOT_PERMITTED, and one of a launched partition is refused. An average power above the cap faults
every job, once. R475 to R477: a step change that fails its checks leaves its status; one of a partition with no launched job is made at
once, and one of a launched job is pending for its beat. A region PLL that loses lock is shown with source 356, until it locks again. -/
def Obligations.PowerRequests : Prop :=
  (∀ (r : Requester) (q v : Nat) (s : State), q < 8 →
      (let c := v % 2 ^ 11;
        (c < 250 ∨ 1200 < c → exec (.pwrCapWrite r v) s = .next s)
        ∧ (250 ≤ c → c ≤ 1200 → s.powerBudget ≤ c → SMap.get 0 s.psCount 0x12 + s.psWaiting 0x12 < psLimit → Completes (.pwrCapWrite r v) s fun t =>
          t.powerCap = c ∧ t.fld F.PWR_BUDGET_STATUS 0 = stOK ∧ t = { s with regs := t.regs, ps := t.ps, psQ := t.psQ })
        ∧ (250 ≤ c → c ≤ 1200 → s.powerBudget ≤ c → Gives (.pwrCapWrite r v) s ((s.setFld F.PWR_CAP_CAP 0 c).setFld F.PWR_BUDGET_STATUS 0 stOK))
        ∧ (250 ≤ c → c ≤ 1200 → c < s.powerBudget → Completes (.pwrCapWrite r v) s fun t =>
          t.powerCap = s.powerCap ∧ t.fld F.PWR_BUDGET_STATUS 0 = stNOT_PERMITTED ∧ t = { s with regs := t.regs }))
      ∧ ((s.part q).jobLive = true → Gives (.pwrPdeclWrite r q v) s (s.refuseWrite .PWR_PDECL q))
      ∧ ((s.part q).jobLive = false →
        let b := (s.setFld F.PWR_PDECL_W q (v % 2 ^ 11)).powerBudget
        (b ≤ s.powerCap ∨ b ≤ s.powerBudget → Completes (.pwrPdeclWrite r q v) s fun t =>
          t.fld F.PWR_PDECL_W q = v % 2 ^ 11 ∧ t.fld F.PWR_BUDGET_STATUS 0 = stOK ∧ t = { s with regs := t.regs })
        ∧ (s.powerCap < b → s.powerBudget < b → Completes (.pwrPdeclWrite r q v) s fun t =>
          t.fld F.PWR_PDECL_W q = s.fld F.PWR_PDECL_W q ∧ t.fld F.PWR_BUDGET_STATUS 0 = stNOT_PERMITTED ∧ t = { s with regs := t.regs }))
      ∧ (let l := (v :: s.pow.samples).take 10;
        Completes (.powerMeasure v) s fun t =>
          t.pow.samples = l ∧ t.fld F.PWR_BUDGET_NOW 0 = min 2047 (l.sum / l.length)
          ∧ (l.sum ≤ s.powerCap * l.length → t = { s with pow := t.pow, regs := t.regs })
          ∧ (s.powerCap * l.length < l.sum →
            t.fld F.PWR_BUDGET_TRIP 0 = 1 ∧ t.occ.getLast? = some 354 ∧ ∀ p < 8, (s.part p).jobLive = true → (t.part p).job = .faulted)))
  ∧ (∀ (r : Requester) (q v : Nat) (s : State), q < 8 →
      (let n := bits v 47 0;
        let step := bits v 50 48;
        (s.checkStep q step ≠ stOK → Completes (.pwrStepcmd r q v) s fun t =>
          t.fld F.PWR_STEP_STATUS q = s.checkStep q step ∧ t = { s with regs := t.regs })
        ∧ (s.checkStep q step = stOK → s.stepLate q n = true → Completes (.pwrStepcmd r q v) s fun t =>
          t.fld F.PWR_STEP_STATUS q = stLATE ∧ t = { s with regs := t.regs })
        ∧ (s.checkStep q step = stOK → s.stepLate q n = false →
          ((s.part q).jobLive = false → Completes (.pwrStepcmd r q v) s fun t =>
            (t.part q).step = step ∧ (t.part q).stepPend = none ∧ t.fld F.PWR_STEP_STATUS q = stOK ∧ t.occ.getLast? = some 353
            ∧ (∀ p, p ≠ q → t.part p = s.part p) ∧ t.mem = s.mem)
          ∧ ((s.part q).jobLive = true → v.testBit 63 = false → Completes (.pwrStepcmd r q v) s fun t =>
            (t.part q).step = (s.part q).step ∧ (t.part q).stepPend = some (n, step) ∧ t.fld F.PWR_STEP_STATUS q = stOK ∧ t.occ = s.occ
            ∧ (∀ p, p ≠ q → t.part p = s.part p) ∧ t.mem = s.mem)
          ∧ ((s.part q).jobLive = true → v.testBit 63 = true →
            Gives (.pwrStepcmd r q v) s (((s.takeStep q n step).sendStep q n step).setFld F.PWR_STEP_STATUS q stOK))))
      ∧ (∀ g < 32, Completes (.pllLockLoss g) s fun t =>
        (t.fld F.PWR_PLL_LOST 0).testBit g = true ∧ g ∈ t.pow.unlocked ∧ t.occ.getLast? = some 356
        ∧ ((∀ p < 8, (s.part p).jobLive = false) → t = { s with pow := t.pow, regs := t.regs, hw := t.hw, occ := t.occ }))
      ∧ (∀ g, s.tm.refLost = false → Completes (.pllRelock g) s fun t =>
        g ∉ t.pow.unlocked ∧ (∀ k ∈ s.pow.unlocked, k ≠ g → k ∈ t.pow.unlocked) ∧ t = { s with pow := t.pow }))

/-- R484 to R486: a request for REST, DEEP or DORMANT that passes its checks begins its transition, and one that fails gives its status
alone. A transition to REST that ends with no wake waiting and no launched job shows REST; a wake from REST that ends shows RUN. -/
def Obligations.PowerStates : Prop :=
  ∀ (r : Requester) (s : State),
    (∀ k c, (k, c) ∈ [(1, Instr.statecmdRest r), (2, .statecmdDeep r), (3, .statecmdDormant r)] →
      (s.power ≠ 3 → s.checkState k = stOK → Completes c s fun t =>
        t.pow.trans = some k ∧ t.fld F.PWR_STATE_BUSY 0 = 1 ∧ t.fld F.PWR_STATE_STATUS 0 = stOK ∧ t.power = s.power
        ∧ t = { s with pow := t.pow, regs := t.regs, acts := t.acts, nextAct := t.nextAct })
      ∧ (s.power ≠ 3 → s.checkState k ≠ stOK → Completes c s fun t =>
        t.fld F.PWR_STATE_STATUS 0 = s.checkState k ∧ t = { s with regs := t.regs })
      ∧ (s.power = 3 → exec c s = .next s))
    ∧ (∀ k, s.pow.trans = some k → k ≠ 0 → Gives .powerStateEntered s (s.entered k))
    ∧ (s.pow.trans = some 1 → s.pow.wakeNext = none → (∀ q < 8, (s.part q).job ≠ .launched) → Completes .powerStateEntered s fun t =>
      t.power = 1 ∧ t.pow.trans = none ∧ t.fld F.PWR_STATE_BUSY 0 = 0 ∧ t.occ.getLast? = some 352 ∧ t.mem = s.mem ∧ t.parts = s.parts)
    ∧ (s.pow.trans = some 0 → Gives .wakeComplete s s.woken)
    ∧ (s.pow.trans = some 0 → s.power = 1 → s.fld F.PWR_WAKESEL_PORTS 0 = 0 → s.pow.flood = false → Completes .wakeComplete s fun t =>
      t.power = 0 ∧ t.pow.trans = none ∧ t.fld F.PWR_STATE_BUSY 0 = 0 ∧ t.mem = s.mem ∧ t.parts = s.parts)

/-- R487, R488: a selected wake source of a part that is not in RUN and makes no transition begins a wake and is recorded; one that is not
selected does nothing. R487, R567, R591: a die temperature at the alert threshold is shown and raises source 355 when it is reached, one
below it releases the alert; at 125 °C the part asserts THERMTRIP# and every job faults. -/
def Obligations.WakesAndHeat : Prop :=
  (∀ (code n : Nat) (w : Instr) (s : State),
      (code = 0 ∧ w = .wakePin ∨ code = 1 ∧ (∃ r, w = .statecmdRun r) ∧ s.power ≠ 3 ∨ code = 5 ∧ w = .wakeFrame s.id.serial
        ∨ code = 2 ∧ w = .denianWakeBeacon n ∧ s.power = 3 ∧ s.wakePort n = true
        ∨ code = 2 ∧ (∃ f, w = .wakeReceive n f ∧ (s.port n).ctrlIn.contains f = false) ∧ s.power ≠ 3 ∧ s.wakePort n = true) →
      (s.wakeOn code = true → s.power ≠ 0 → s.pow.trans = none → Completes w s fun t =>
        t.pow.trans = some 0 ∧ t.fld F.PWR_STATE_WAKESRC 0 = code ∧ t.fld F.PWR_STATE_BUSY 0 = 1 ∧ t.power = s.power
        ∧ t = { s with pow := t.pow, regs := t.regs, acts := t.acts, nextAct := t.nextAct })
      ∧ (s.wakeOn code = false → Completes w s fun t =>
        t.pow = s.pow ∧ t.power = s.power ∧ t = { s with regs := t.regs })
      ∧ (∀ m, m ≠ s.id.serial → exec (.wakeFrame m) s = .next s))
  ∧ (∀ (x : Int) (s : State),
      (s.alertAt ≤ tempWord x → Completes (.thermalAlert x) s fun t =>
        t.fld F.PWR_THERM_TEMP 0 = tempWord x ∧ (s.fld F.PWR_THERM_TEMP 0 < s.alertAt → (355 : Nat) ∈ t.occ) ∧ t.mem = s.mem ∧ t.parts = s.parts)
      ∧ (tempWord x < s.alertAt → Completes (.thermalAlertClear x) s fun t =>
        t.fld F.PWR_THERM_TEMP 0 = tempWord x ∧ t = { s with regs := t.regs })
      ∧ (1250 ≤ tempWord x → s.pins.trip = false → Completes (.thermalTrip x) s fun t =>
        t.pins = { s.pins with trip := true } ∧ ∀ q < 8, (s.part q).jobLive = true → (t.part q).job = .faulted))

/-- R555 to R558, R599: what the resets leave. COLD and a loss of power lose memory, jobs and time and keep the persistent words; WARM ends
every job and keeps memory, tiles and accumulators; MGMT leaves cores, jobs, ports and memory as they were. The host's write of ROOT_RESET
is refused. -/
def Obligations.ResetsLeave : Prop :=
  ∀ (r : Requester) (straps : List (Option Nat)) (s : State),
    (s.power ≠ 3 → s.pins.green = true → Completes (.coldReset straps) s fun t =>
      t.mem = [] ∧ t.parts = [] ∧ t.cores = [] ∧ t.gtc = 0 ∧ t.boot.due = some 1 ∧ t.fld F.ROOT_RESET_LAST 0 = 1 ∧ t.ps = s.ps)
    ∧ (s.pins.green = false → Gives (.coldReset straps) s s)
    ∧ (s.power ≠ 3 → s.pins.held = false → Completes (.powerLoss false) s fun t =>
      t.mem = [] ∧ t.parts = [] ∧ t.cores = [] ∧ t.pins.held = true ∧ t.pins.trip = s.pins.trip ∧ t.pins.green = s.pins.green ∧ t.psQ = []
      ∧ t.boot.due = none)
    ∧ (s.pins.green = true → Completes (.powerLoss true) s fun t =>
      t.mem = [] ∧ t.parts = [] ∧ t.cores = [] ∧ t.pins.held = true ∧ t.pins.trip = false ∧ t.pins.green = false ∧ t.psQ = []
      ∧ t.boot.due = none)
    ∧ (r ≠ .host → s.asleep = false →
      (Completes (.rootResetWarm r) s fun t =>
        t.mem = s.mem ∧ t.parts = [] ∧ t.gtc = s.gtc ∧ t.boot.due = some 3 ∧ t.fld F.ROOT_RESET_LAST 0 = 2
        ∧ ∀ c, (t.core c).arrs = (s.core c).arrs ∧ (t.core c).bufs = (s.core c).bufs ∧ (t.core c).chans = [])
      ∧ (Completes (.rootResetMgmt r) s fun t =>
        t.mem = s.mem ∧ t.parts = s.parts ∧ t.cores = s.cores ∧ t.ports = s.ports ∧ t.gtc = s.gtc ∧ t.fld F.ROOT_RESET_LAST 0 = 3))
    ∧ (Gives (.rootResetWarm .host) s (s.refuseWrite .ROOT_RESET 0) ∧ Gives (.rootResetMgmt .host) s (s.refuseWrite .ROOT_RESET 0))
    ∧ (s.pins.perst = false → s.asleep = false → s.coldStage0 = false → Completes .perstAssert s fun t =>
      t.pins.perst = true ∧ t.boot.due = some 2 ∧ t.mem = s.mem ∧ t.parts = [])
    ∧ (s.pins.perst = false → s.asleep = true ∨ s.coldStage0 = true → Completes .perstAssert s fun t =>
      t.pins.perst = true ∧ t.boot = s.boot ∧ t.mem = s.mem ∧ t.parts = s.parts)
    ∧ (s.pins.perst = true → s.power ≠ 3 → Completes .perstRelease s fun t =>
      t.pins = { s.pins with perst := false, drive := 0 } ∧ t = { s with pins := t.pins })
    ∧ (Completes .evergreenPowerOn s fun t => t.pins = { s.pins with green := true } ∧ t = { s with pins := t.pins })

/-! ## Host interface and serving (12_serving.md, 13_host_interfaces.md, 00 R20, R21) -/

/-- R434: a host write of a ring's HPOS that would make its depth exceed NSLOT is an overrun of an in-ring and an underrun of an out-ring:
HPOS stays, OVR or UND is set, source 321 is raised, and no job faults. (Any other write takes effect.) -/
def Obligations.RingsGuarded : Prop :=
  ∀ (r : Requester) (k v : Nat) (l : List (List Byte)) (s : State), k < 64 → v < 2 ^ 32 →
    (s.ringIsOut k = false → s.ringSlots k < (v + 2 ^ 32 - s.dpos k) % 2 ^ 32 → Completes (.hqRhposWrite r k v l) s fun t =>
      t.hpos k = s.hpos k ∧ t.fld F.HQ_RSTAT_OVR k = 1 ∧ t.occ = s.occ ++ [321] ∧ t.parts = s.parts
      ∧ t = { s with regs := t.regs, hw := t.hw, occ := t.occ })
    ∧ (s.ringIsOut k = true → s.ringSlots k < (s.dpos k + 2 ^ 32 - v) % 2 ^ 32 → Completes (.hqRhposWrite r k v l) s fun t =>
      t.hpos k = s.hpos k ∧ t.fld F.HQ_RSTAT_UND k = 1 ∧ t.occ = s.occ ++ [321] ∧ t.parts = s.parts
      ∧ t = { s with regs := t.regs, hw := t.hw, occ := t.occ })
    ∧ (s.ringIsOut k = true → (s.dpos k + 2 ^ 32 - v) % 2 ^ 32 ≤ s.ringSlots k → Completes (.hqRhposWrite r k v l) s fun t =>
      t.hpos k = v ∧ t = { s with regs := t.regs })

/-- R20, R21, R430, R431: accesses of the host. A write of a wrong size or alignment, and one to an offset that holds no register, is
recorded and discarded; one to a plain register stores its open fields; R81: where the part itself has changed the register in the present
cycle, the write comes before that change. A read of a wrong size or alignment, and one of an offset that holds no register, is recorded and
answered with zeros; a read of 8 bytes returns a 64-bit register; a read of its low half latches its high half, which the read of the high
half returns. A BAR2 access that is refused is recorded, its read answered with zeros; any other acts on memory. A part that is held in
reset, or in DORMANT, answers no register access. -/
def Obligations.HostAccesses : Prop :=
  ∀ (r : Requester) (off size v : Nat) (s : State),
    (s.asleep = true → exec (.registerWrite r off size v) s = .next s ∧ exec (.lowHalfRead r ⟨off, size⟩) s = .next s)
    ∧ (s.asleep = false →
      ((size ≠ 4 ∧ size ≠ 8) ∨ off % size ≠ 0 → Gives (.registerWrite r off size v) s (s.accErr 1 0 true off)
        ∧ Gives (.lowHalfRead r ⟨off, size⟩) s ((s.accErr 1 0 false off).answer (toBytes size 0)))
      ∧ (off % 4 = 0 → inMsix off = false → inPba off = false → regAt off = none →
        Gives (.registerWrite r off 4 v) s (s.accErr 2 0 true off) ∧
        Gives (.lowHalfRead r ⟨off, 4⟩) s ((s.accErr 2 0 false off).answer (toBytes 4 0)))
      ∧ (∀ g i, off % 8 = 0 → regAt off = some (g, i, false) → (regInfo g).width = 64 → s.barServes g i = true →
        Completes (.lowHalfRead r ⟨off, 8⟩) s (fun t => t.out = s.out ++ [.cpl (toBytes 8 (s.view g i).toNat)] ∧ t = { s with out := t.out })
        ∧ (s.gated r g i (v % 2 ^ 64) (2 ^ 64 - 1) = true → Gives (.registerWrite r off 8 v) s (s.accErr 2 0 true off))
        ∧ (s.gated r g i (v % 2 ^ 64) (2 ^ 64 - 1) = false →
          let hw := s.hw.filter fun n => n.key == regKey g i
          Gives (.registerWrite r off 8 v) s
            (hw.foldl State.redoHw ((hw.foldl State.undoHw s).writeTo r g i (v % 2 ^ 64) (2 ^ 64 - 1)))
          ∧ (hw = [] → s.writeIo g i (v % 2 ^ 64) (2 ^ 64 - 1) = none → s.writeRoot r g i (v % 2 ^ 64) (2 ^ 64 - 1) = none →
            psReg g = none → Completes (.registerWrite r off 8 v) s fun t =>
              t.reg g i = writtenWord g (s.reg g i) (v % 2 ^ 64) (2 ^ 64 - 1) ∧ t = { s with regs := t.regs })))
      ∧ (∀ g i, off % 8 = 0 → inMsix off = false → inPba off = false → regAt off = some (g, i, false) → regAt (off + 4) = some (g, i, true) →
        inMsix (off + 4) = false → inPba (off + 4) = false → (regInfo g).width = 64 → s.barServes g i = true →
        Completes (.lowHalfRead r ⟨off, 4⟩) s fun t =>
          t.out = s.out ++ [.cpl (toBytes 4 ((s.view g i).toNat % 2 ^ 32))] ∧ t = { s with out := t.out, latch := t.latch }
          ∧ ∀ u, u.asleep = false → u.barServes g i = true → u.latch = t.latch → Completes (.lowHalfRead r ⟨off + 4, 4⟩) u fun w =>
            w.out = u.out ++ [.cpl (toBytes 4 ((s.view g i).toNat / 2 ^ 32))]))
    ∧ (let a := s.bar2Addr off
       let k := if s.minimal then 2 else s.bar2Refuse a size
       (k ≠ 0 → Gives (.bar2Read off size) s ((s.accErr k 1 false off).answer (List.replicate size 0)))
       ∧ (k = 0 → let x := s.readMem .other a size
          x.2.2 = false → Completes (.bar2Read off size) s fun t => t.out = x.1.out ++ [.cpl x.2.1] ∧ t.mem = x.1.mem))
    ∧ (∀ data : List Byte,
       let k := if s.minimal then 2 else s.bar2Refuse (s.bar2Addr off) data.length
       (k ≠ 0 → Completes (.bar2Write off data) s fun t => t.mem = s.mem ∧ t = { s with regs := t.regs, hw := t.hw, occ := t.occ })
       ∧ (k = 0 → let x := s.writeMem .other (s.bar2Addr off) data
          Gives (.bar2Write off data) s (if x.2 then x.1.accErr 5 1 true off else x.1)))

/-- R437 to R441: a descriptor that fails its checks has its status at once and moves nothing; H2D writes the host's bytes, D2H reads memory
for the host, H2L appends to its landing channel; a transfer that waits for slots, or for room, goes on from where it stands; one slice of
the digest takes 1,024 bytes of one channel; a descriptor whose bytes are digested and whose completion ring takes its record completes. -/
def Obligations.DmaRuns : Prop :=
  ∀ (c : Nat) (data : List Byte) (err : Bool) (s : State),
    (∀ d, s.dmaHead c = some d →
      (s.dmaCheck c d ≠ stOK → ∀ w, (dOP d ≠ 2 ∧ dOP d ≠ 3 ∧ w = .h2d c data err) ∨ (dOP d = 2 ∧ w = .d2h c err) ∨ (dOP d = 3 ∧ w = .h2l c data err) →
        Completes w s fun t =>
          (t.dma c).desc = some d ∧ (t.dma c).status = some (s.dmaCheck c d) ∧ (t.dma c).moved = 0 ∧ t.mem = s.mem ∧ t.cores = s.cores
          ∧ t = { s with host := t.host, regs := t.regs })
      ∧ (dOP d = 1 → Gives (.h2d c data err) s (s.h2d c d data err))
      ∧ (dOP d = 2 → Gives (.d2h c err) s (s.d2h c d err))
      ∧ (dOP d = 3 → Gives (.h2l c data err) s (s.h2l c d data err))
      ∧ (dOP d = 2 → s.dmaCheck c d = stOK → err = false → s.linkUp 0 = true →
        let x := (s.dmaTake c d none).dmaRead (dDEV d) (dLEN d)
        x.ue = false → x.waits = false → Completes (.d2h c err) s fun t =>
          t.out = x.s.out ++ [.host (dHOST d) x.got] ∧ (t.dma c).status = some stOK ∧ t.mem = x.s.mem))
    ∧ (∀ d, s.dmaAt c = some d →
      (dOP d = 1 → Gives (.h2d c data err) s (s.h2dMove c d (s.dma c).rest false))
      ∧ (dOP d = 2 → Gives (.d2h c err) s (s.d2hMove c d err))
      ∧ (dOP d = 3 → (s.dma c).rest ≠ [] → Gives (.h2l c data err) s (s.h2lMore c)))
    ∧ (∀ k, s.digNext = some k → Completes .digestSlice s fun t =>
      (s.dma k).unhashed ≠ [] ∧ (t.dma k).unhashed = (s.dma k).unhashed.drop 1024
      ∧ (t.dma k).dig = (s.dma k).dig.absorb ((s.dma k).unhashed.take 1024) ∧ (∀ j, j ≠ k → t.dma j = s.dma j) ∧ t = { s with host := t.host })
    ∧ (∀ d st, (s.dma c).desc = some d → (s.dma c).status = some st → (s.dma c).unhashed = [] → s.cplRoom c = true →
      c < 64 → Completes (.dmaComplete c) s fun t =>
        (t.dma c).desc = none ∧ (t.dma c).status = none ∧ t.fld F.HQ_DCFG_DONE c = (s.fld F.HQ_DCFG_DONE c + 1) % 2 ^ 32
        ∧ t.occ = s.occ ++ (if st = stOK then [] else [322]))

/-- R429, R450 to R454, R458: links come and go with their events, and a lost PCI Express link fails the descriptors in progress. A datagram
that is no message is discarded with source 327. A SLOT for a ring that cannot take it, and a message out of sequence, changes no ring; an
ACK ends the wait of its stream; what is not acknowledged in time is sent again, and after 8 times its stream is down; TELEM goes out at its
interval. -/
def Obligations.LinksAndStreams : Prop :=
  ∀ (p : Nat) (s : State),
    (s.linkUp 0 = true → Completes .pcieLinkDown s fun t =>
      t.linkUp 0 = false ∧ t.occ = s.occ ++ [324] ∧ t = { s with host := t.host, occ := t.occ })
    ∧ (s.linkUp 0 = false → s.pins.perst = false → Completes .pcieLinkUp s fun t =>
      t.linkUp 0 = true ∧ t.occ = s.occ ++ [324] ∧ t = { s with host := t.host, occ := t.occ, out := t.out })
    ∧ (p < 2 → s.linkUp (1 + p) = false → s.power < 2 → Completes (.ethLinkUp p) s fun t =>
      t.linkUp (1 + p) = true ∧ t.occ = s.occ ++ [325 + p] ∧ t = { s with host := t.host, occ := t.occ })
    ∧ (p < 2 → s.linkUp (1 + p) = true → Completes (.ethLinkDown p) s fun t =>
      t.linkUp (1 + p) = false ∧ t.occ = s.occ ++ [325 + p] ∧ t = { s with host := t.host, occ := t.occ })
    ∧ (∀ up : Bool, s.linkUp 3 = !up → Completes (if up then .mgmtLinkUp else .mgmtLinkDown) s fun t =>
      t.linkUp 3 = up ∧ t.occ = s.occ ++ [328] ∧ t = { s with host := t.host, occ := t.occ })
    ∧ (p < 2 → s.linkUp (1 + p) = true → ∀ raw,
      (ethParse raw = none → ∀ w ∈ [Instr.ethSlot p raw, .ethAck p raw, .parkd p raw], Completes w s fun t =>
        t.occ = s.occ ++ [327] ∧ t = { s with occ := t.occ })
      ∧ (∀ m, ethParse raw = some m →
        (m.typ = 1 → s.ringOn m.key = false ∨ s.ringMedium m.key ≠ p + 1 ∨ s.ringIsOut m.key = true ∨ s.ringFull m.key = true →
          Completes (.ethSlot p raw) s fun t => t.occ = s.occ ++ [327] ∧ t = { s with occ := t.occ })
        ∧ (m.typ = 1 → Gives (.ethSlot p raw) s (s.ethSlot p m))
        ∧ (m.typ = 2 → (s.ethStream m.key).unacked.any (fun x => x.seq == byF m.body 0 4) = true → Completes (.ethAck p raw) s fun t =>
          (t.ethStream m.key).unacked = ((s.ethStream m.key).unacked.dropWhile fun x => x.seq != byF m.body 0 4).drop 1
          ∧ (t.ethStream m.key).resends = 0 ∧ t = { s with host := t.host, regs := t.regs })
        ∧ (m.typ = 5 → m.key = 64 → Gives (.parkd p raw) s (s.parkd p m))
        ∧ (m.typ = 5 → m.key = 64 → m.seq ≠ (s.ethStream 64).rx → Completes (.parkd p raw) s fun t => t.mem = s.mem ∧ t.host = s.host)))
    ∧ (∀ k < 64, (s.ethStream k).unacked ≠ [] → (s.ethStream k).sent + 1000 * s.fld F.HQ_NETCFG_RTO 0 ≤ s.refNs →
      ((s.ethStream k).resends < 8 → Completes (.ethResend k) s fun t =>
        t.ethStream k = { s.ethStream k with resends := (s.ethStream k).resends + 1, sent := s.refNs } ∧ t = { s with host := t.host, out := t.out })
      ∧ (8 ≤ (s.ethStream k).resends → Completes (.ethResend k) s fun t =>
        (t.ethStream k).down = true ∧ (t.ethStream k).unacked = [] ∧ t.fld F.HQ_RCFG_EN k = 0 ∧ t.occ = s.occ ++ [327]))
    ∧ (let ms := s.fld F.HQ_NETCFG_TELEMMS 0
       ms ≠ 0 → s.host.telemAt + 1000000 * ms ≤ s.refNs → Completes .telem s fun t =>
        t.host.telemAt = s.refNs ∧ (∃ m, (t.ethStream 64).unacked = (s.ethStream 64).unacked ++ [m] ∧ m.typ = 6 ∧ m.body = s.telemBody)
        ∧ t = { s with host := t.host, out := t.out })

/-- R402, R404, R426, R444: a SUBMIT slot is taken from its ring: with a staging slot free its staging begins, and otherwise, or where it
breaks the rules, it is refused; once staged it joins the arrival queue or is refused. An abort takes a waiting submission from the queue,
marks a running request, and is a BAD_ARG where there is none. -/
def Obligations.RequestsSubmitted : Prop :=
  ∀ (s : State),
    (∀ r h input, s.ringHead r = some h → s.ringUse r = 1 →
      let bytes := if s.ringMedium r = 0 then input else h.2
      Gives (.submit r input) s (s.submit r h.1 bytes)
      ∧ (let q := s.fld F.HQ_RCFG_PART r
         ∀ k, s.ingress q = true → (s.ringTake r).freeStage q = some k → 1 ≤ byF h.1 40 4 → byF h.1 40 4 ≤ (s.ringTake r).stageSize q →
          (s.ringTake r).ingress q = true → Completes (.submit r input) s fun t =>
            (t.srv q).staging = (s.srv q).staging ++ [{ subOf h.1 bytes with slot := k }] ∧ (t.srv q).arrivals = (s.srv q).arrivals
            ∧ t = { s with host := t.host, regs := t.regs, serve := t.serve }))
    ∧ (∀ q v, s.stagingHead = some (q, v) → Gives .stagingComplete s (s.staged q v))
    ∧ (∀ r q n, q < 8 → n < 2 ^ 32 →
      (s.ingress q = false → Completes (.serveAbortWrite r q n) s fun t =>
        t.fld F.SERVE_ABORT_STATUS q = stNOT_PERMITTED ∧ t = { s with regs := t.regs })
      ∧ (s.ingress q = true → (∀ v ∈ (s.srv q).arrivals, v.reqid ≠ n) →
        ((s.table.any fun x => s.ownsEnt q x.1 && x.2.state != esFREE && x.2.reqid == n) = true → Completes (.serveAbortWrite r q n) s fun t =>
          n ∈ (t.srv q).aborts ∧ t.fld F.SERVE_ABORT_STATUS q = stOK ∧ t = { s with regs := t.regs, serve := t.serve })
        ∧ ((s.table.any fun x => s.ownsEnt q x.1 && x.2.state != esFREE && x.2.reqid == n) = false →
          Completes (.serveAbortWrite r q n) s fun t => t.fld F.SERVE_ABORT_STATUS q = stBAD_ARG ∧ t = { s with regs := t.regs })))

/-- R457: an instruction of the boundary-scan port stands in its instruction register. EXTEST, CLAMP and HIGHZ drive lands only while PERST#
is asserted, and otherwise drive none, as BYPASS does; SAMPLE/PRELOAD takes the levels of the lands; nothing else of the part changes. -/
def Obligations.BoundaryScan : Prop :=
  ∀ (s : State),
    (∀ c w, (c, w) ∈ [(0xFF, Instr.bypass), (0x01, .idcode)] → Completes w s fun t =>
      t.pins = { s.pins with ir := c, drive := 0 } ∧ t = { s with pins := t.pins })
    ∧ (Completes .samplePreload s fun t => t.pins = { s.pins with ir := 0x02, drive := 0, boundary := t.pins.boundary } ∧ t = { s with pins := t.pins }
      ∧ t.pins.boundary = s.pinLevels)
    ∧ (∀ c d w, (c, d, w) ∈ [(0x03, 1, Instr.extest), (0x04, 2, .clamp), (0x05, 3, .highz)] → Completes w s fun t =>
      t.pins.ir = c ∧ t.pins.drive = (if s.pins.perst then d else 0) ∧ t = { s with pins := t.pins })

/-! ## Boot and management (16_boot_firmware.md, 17_mailbox.md, 18_resets_faults_maintenance.md) -/

/-- R536 to R538, R541: the row of each mailbox command. In its first half the server takes the oldest posted request, where it serves none
and its COMMAND is the row's; in its second half it serves the request it has taken: one that fails a check of R538 is answered with that
status and detail, and any other with the answer of its command. Otherwise the row does nothing. -/
def Obligations.MailboxRows : Prop :=
  ∀ (code : Nat) (row : Phase → Instr) (serve : State → Nat → List Byte → Ans) (s : State),
    (code, row, serve) ∈
      [(0x100, Instr.getVersion, serveGetVersion), (0x101, Instr.negotiate, serveNegotiate), (0x102, Instr.getIdentity, serveGetIdentity),
       (0x103, Instr.getStatus, serveGetStatus), (0x104, Instr.getBootrec, serveGetBootrec), (0x200, Instr.partSet, servePartSet),
       (0x201, Instr.partQuery, servePartQuery), (0x202, Instr.partReset, servePartReset), (0x203, Instr.partLedger, servePartLedger),
       (0x300, Instr.setState, serveSetState), (0x301, Instr.setCap, serveSetCap), (0x302, Instr.setStep, serveSetStep),
       (0x303, Instr.setWakesel, serveSetWakesel), (0x304, Instr.setPdecl, serveSetPdecl), (0x400, Instr.portInfo, servePortInfo),
       (0x401, Instr.nbrMap, serveNbrMap), (0x402, Instr.portEnable, servePortEnable), (0x403, Instr.portReset, servePortReset),
       (0x404, Instr.setRole, serveSetRole), (0x405, Instr.setDims, serveSetDims), (0x406, Instr.ethAddr, serveEthAddr),
       (0x407, Instr.ethEndpoint, serveEthEndpoint), (0x500, Instr.maintStatus, serveMaintStatus), (0x501, Instr.coreTest, serveCoreTest),
       (0x502, Instr.coreFence, serveCoreFence), (0x503, Instr.topiaryRemap, serveTopiaryRemap), (0x504, Instr.bankFail, serveBankFail),
       (0x505, Instr.portTest, servePortTest), (0x506, Instr.sweep, serveSweep), (0x600, Instr.imgStatus, serveImgStatus),
       (0x601, Instr.fetchRetry, serveFetchRetry), (0x602, Instr.standbyFetch, serveStandbyFetch),
       (0x603, Instr.standbyBegin, serveStandbyBegin), (0x604, Instr.standbyData, serveStandbyData),
       (0x605, Instr.standbyEnd, serveStandbyEnd), (0x606, Instr.setBootcfg, serveSetBootcfg), (0x607, Instr.roleSwitch, serveRoleSwitch),
       (0x608, Instr.fuseKey, serveFuseKey), (0x609, Instr.fuseRevoke, serveFuseRevoke), (0x60A, Instr.fuseSvn, serveFuseSvn),
       (0x700, Instr.psRead, servePsRead), (0x701, Instr.psWrite, servePsWrite), (0x702, Instr.psWear, servePsWear),
       (0x800, Instr.timeStatus, serveTimeStatus), (0x801, Instr.setMaster, serveSetMaster), (0x802, Instr.timeSet, serveTimeSet),
       (0x803, Instr.setAlarm, serveSetAlarm), (0x804, Instr.setPps, serveSetPps), (0x805, Instr.setSlew, serveSetSlew),
       (0x900, Instr.setDeadline, serveSetDeadline), (0x901, Instr.serveStatus, serveServeStatus),
       (0x902, Instr.serveAbort, serveServeAbort), (0xA00, Instr.evcClear, serveEvcClear), (0xA01, Instr.evcSetmask, serveEvcSetmask),
       (0xA02, Instr.regRead, serveRegRead), (0xA03, Instr.regWrite, serveRegWrite), (0xA04, Instr.echo, serveEcho)] →
    (∀ ch, s.mboxNext = some ch → rowTakes code (s.mboxReq ch) = true → Completes (row .take) s fun t =>
      t.mbox.busy = some ch ∧ t.mbox.posted = s.mbox.posted.tail ∧ (ch = 0 → t.fld F.MBOX_STAT_STATE 0 = 2)
      ∧ t = { s with mbox := t.mbox, regs := t.regs })
    ∧ (s.mboxNext = none → exec (row .take) s = .next s)
    ∧ (s.mbox.busy = none → exec (row .serve) s = .next s)
    ∧ (∀ ch, s.mbox.busy = some ch → rowTakes code (s.mboxReq ch) = true → s.asleep = false →
      Gives (row .serve) s (s.mboxServe ch serve)
      ∧ (∀ st d, s.mboxCheck ch (s.mboxReq ch) = some (st, d) → Gives (row .serve) s (s.respond ch st d [])))

/-- R545: PART_SET of an IDLE partition gives it the clusters of its mask where they are free and its checks pass, and no other partition
changes; the request is answered. -/
def Obligations.PartitionsSet : Prop :=
  ∀ (ch : Nat) (s : State), s.mbox.busy = some ch → s.asleep = false →
    let b := s.mboxReq ch
    let q := mqArg b 0 1
    let mask := mqArg b 8 8
    mqCmd b = 0x200 → s.mboxCheck ch b = none → q ≤ 7 →
    (s.partSetStatus q mask = stOK → Completes (.partSet .serve) s fun t =>
      (t.part q).mask = mask ∧ (t.part q).job = (s.part q).job ∧ (∀ p, p ≠ q → t.part p = s.part p) ∧ t.mbox.busy = none
      ∧ t.mem = s.mem ∧ t.cores = s.cores)
    ∧ (s.partSetStatus q mask ≠ stOK → Completes (.partSet .serve) s fun t =>
      t.parts = s.parts ∧ t.mbox.busy = none ∧ t.mem = s.mem ∧ t.cores = s.cores)

/-- R509 to R512, R517, R520: a start attempt that is due runs stages 0 to 2; one whose stage has lasted too long fails with its reason;
with both cores RUNNING in stage 5 the part is BOOT_OK with FAILCNT 0. A fetch sends its SOLICIT, takes the OFFER and the blocks it asked
for, asks again after 100 ms and starts over when its server is silent; a slot whose verification ends is VALID or INVALID. -/
def Obligations.BootRuns : Prop :=
  ∀ (s : State),
    (∀ c, s.boot.due = some c → s.pins.held = false → Gives (.startAttempt c) s (s.attempt c))
    ∧ (∀ c, s.boot.due ≠ some c ∨ s.pins.held = true → exec (.startAttempt c) s = .next s)
    ∧ (∀ r, s.overrun = some r → Gives .stageOverrun s (s.failAttempt r))
    ∧ (s.fld F.ROOT_BOOT_STAGE 0 = 5 → s.mcState 0 = 3 → s.mcState 1 = 3 → Completes .bootOk s fun t =>
      t.fld F.ROOT_BOOT_BOOT_OK 0 = 1 ∧ t.fld F.ROOT_BOOT_STAGE 0 = 6 ∧ t.fld F.ROOT_BOOT_FAILCNT 0 = 0 ∧ t.occ.getLast? = some 5
      ∧ t = { s with regs := t.regs, ps := t.ps, psQ := t.psQ, occ := t.occ })
    ∧ (∀ i f, (s.fetchList.find? fun x => s.solicitDue x.2) = some (i, f) → s.linkUp 3 = true → Completes .solicit s fun t =>
      t.fwFetch i = some { f with solicit := some s.refNs } ∧ t.out.length = s.out.length + 1 ∧ t = { s with boot := t.boot, out := t.out })
    ∧ (∀ srv xid size i f, s.fetchOf xid = some (i, f) → f.offer = none → f.got = [] → 704 ≤ size → size ≤ 8388608 → s.linkUp 3 = true →
      Completes (.offer srv xid size) s fun t =>
        (t.fwFetch i).map (·.offer) = some (some (srv, size)) ∧ t = { s with boot := t.boot, out := t.out })
    ∧ (∀ xid b data i f srv size, s.fetchOf xid = some (i, f) → f.offer = some (srv, size) → (f.reads.any fun r => r.1 == b) = true →
      data.length = blockBytes size b → s.linkUp 3 = true → Gives (.data xid (1024 * b) data) s (s.takeData i size b f data))
    ∧ (∀ i f, (s.fetchList.find? fun x => !(s.readsLate x.2).isEmpty) = some (i, f) → Completes .readResend s fun t =>
      (t.fwFetch i).map (fun g => s.readsLate g) = some [] ∧ t = { s with boot := t.boot, out := t.out })
    ∧ (∀ i f, (s.fetchList.find? fun x => s.serverGone x.2) = some (i, f) → Completes .serverLost s fun t =>
      (t.fwFetch i).map (fun g => (g.offer, g.reads, g.got)) = some (none, [], []) ∧ t.free = s.free + 1
      ∧ t = { s with boot := t.boot, free := t.free })
    ∧ (∀ k a, (s.boot.verifs.find? fun v => v.1 == k) = some (k, a) → Gives (.imageVerified k) s (s.endVerify k a))
    ∧ (∀ k < 2, ∀ r, (s.slotVerified k r).slotState k = if r = 0 then 2 else 3)

/-- R521 to R525, R528, R531, R534, R536, R582: the management cores and what they serve. A kick sets a core's period and restarts its
count; a watchdog that runs out expires; a started core runs; a restart that lasts 120 s has failed. A persistent word that may be written
takes its value at once, and its write completes in order. A post makes the mailbox POSTED, one that finds it POSTED or BUSY is counted. An
activity of maintenance ends when its own end comes. -/
def Obligations.ManagementRuns : Prop :=
  ∀ (m : Nat) (r : Requester) (s : State),
    (m < 2 → s.mcState m = 2 ∨ s.mcState m = 3 → ∀ period, Completes (.watchdogKick m period) s fun t =>
      t.fld F.ROOT_WDOG_PERIOD m = period % 65536 ∧ t.mc m = { s.mc m with kickAt := some s.refNs }
      ∧ t = { s with boot := t.boot, regs := t.regs })
    ∧ (m < 2 → s.wdogOut m = true → Gives (.watchdogExpire m) s (s.expire m))
    ∧ (m < 2 → s.mcState m = 2 → s.boot.switchTo = none → Completes (.mcRunning m) s fun t =>
      t.mcState m = 3 ∧ t.mc m = { s.mc m with restartAt := none, fails := 0 } ∧ t = { s with boot := t.boot, regs := t.regs, mbox := t.mbox, occ := t.occ })
    ∧ (m < 2 → s.mcState m = 2 → Gives (.mcRunning m) s (s.runMc m))
    ∧ (∀ t0, m < 2 → (s.mc m).restartAt = some t0 → t0 + 120000000000 ≤ s.refNs → Gives (.mcRestartTimeout m) s (s.restartFailed m))
    ∧ (∀ v, let w := s.fld F.PS_INDEX_WORD 0
       (r = .host → psHost w = false → Gives (.psDataWrite r v) s (s.refuseWrite .PS_DATA 0))
       ∧ (psHost w = true → s.psQ.length < 64 → v < 2 ^ 32 → SMap.get 0 s.psCount w + s.psWaiting w < psLimit → Completes (.psDataWrite r v) s fun t =>
          t.psWord w = v ∧ (∀ k, k ≠ w → t.psWord k = s.psWord k)))
    ∧ (∀ w old v rest, s.psQ = (w, old, v) :: rest → Completes .psWriteComplete s fun t =>
      t.psQ = rest ∧ SMap.get 0 t.psCount w = min 1000000 (SMap.get 0 s.psCount w + 1) ∧ t.ps = s.ps
      ∧ t = { s with psQ := t.psQ, psCount := t.psCount, regs := t.regs, hw := t.hw, occ := t.occ })
    ∧ (s.asleep = false →
      (s.fld F.MBOX_STAT_STATE 0 = 1 ∨ s.fld F.MBOX_STAT_STATE 0 = 2 → Completes (.mboxPost r) s fun t =>
        t.fld F.MBOX_STAT_POSTERR 0 = min (2 ^ F.MBOX_STAT_POSTERR.width - 1) (s.fld F.MBOX_STAT_POSTERR 0 + 1) ∧ t = { s with regs := t.regs, hw := t.hw })
      ∧ (s.fld F.MBOX_STAT_STATE 0 ≠ 1 → s.fld F.MBOX_STAT_STATE 0 ≠ 2 → Completes (.mboxPost r) s fun t =>
        t.fld F.MBOX_STAT_STATE 0 = 1 ∧ t.mbox.posted = s.mbox.posted ++ [0] ∧ t.occ = s.occ ++ [3]
        ∧ t = { s with mbox := t.mbox, regs := t.regs, occ := t.occ })
      ∧ (∀ who bytes, s.mbox.ch1 = none → Completes (.mgmtMessage who bytes) s fun t =>
        t.mbox.ch1 = some (who, bytes) ∧ t.mbox.posted = s.mbox.posted ++ [1] ∧ t = { s with mbox := t.mbox }))
    ∧ (∀ id ok a, (s.acts.find? fun a => a.id == id) = some a → Gives (.maintActivityEnd id ok) s (s.endMaint a ok))

/-! ## The whole part -/

/-- Every command answers a next state, with the queue's rest behind it and what assembly fixed unchanged; on an empty queue the clock goes
on, and neither changes. No step of the machine faults or refuses. -/
def Obligations.StepsAnswer : Prop :=
  ∀ (s : State), ∃ t, step s = .next t ∧ t.pending = s.pending.tail ∧ t.id = s.id

/-- Every command completes where its rule lets it act (R149, R158, R160, R200, R210, R217, R226, R227, R229, R294, R305, R310, R322, R324,
R340, R345 to R351, R356, R358, R372, R380 to R383, R391 to R395, R409, R429, R434, R437 to R444, R450 to R454, R459 to R472, R475 to R488,
R495, R509 to R537, R555 to R558, R567, R582, R599, R604): in each row of the tables, under the row's condition on the state and the
operands alone, the command is carried out with the row's operation. The rows are the commands that take no control word and are no mailbox
command; what an operation leaves is said in the statement of its family. -/
def Obligations.CommandsTakeEffect : Prop :=
  ∀ (s : State) (r : Requester),
    (∀ (c q lc : Nat) (e : QEntry) (b : TSub) (x : FetchReq) (l : List FetchReq) (w : Instr) (g : Prop) (u : State), s.seqLive c = some (q, lc) →
      (w, g, u) ∈
        [(Instr.fetchRequest c, (s.core c).mayFetch lc = true, s.fetch c lc),
         (.fetchInspect c, (s.core c).inflight = x :: l ∧ x.arr ≤ lc, s.inspect q c lc x),
         (.dispatch c, s.seqHead c lc = some e ∧ (s.core c).extWait e = false ∧ (s.core c).queueFull e lc = false ∧ s.headReason q c e = 0
           ∧ W.QUEUE e.lead ≠ 0, s.moveHead c lc e),
         (.tsubAccept c, s.subReady q c lc = some b, s.tsubAccept q lc b)] → g → Gives w s u)
    ∧ (∀ (q cl k tc slot word : Nat) (d : TDesc) (p : Nat × TDesc) (x : Xfer) (a : Act) (w : Instr) (g : Prop) (u : State),
      (w, g, u) ∈
        [(Instr.untimedPick cl k, s.thktLive cl = some q ∧ s.engineIdle cl k (s.part q).lc = true ∧ s.pickFrom q cl k = some p
           ∧ s.pickBefore q cl k (s.part q).lc p = false, s.pick q cl k p.1 p.2),
         (.untimedComplete cl k, s.thktLive cl = some q ∧ (s.cluster cl).run k = some d ∧ d.ran = true
           ∧ (d.finish < (s.part q).lc ∨ (s.part q).gate = true), (s.modCluster cl fun v => v.setRun k none).thktDone q cl d),
         (.thktComplete cl k, s.thktLive cl = some q ∧ s.thktDue cl k (s.part q).lc = some d ∧ (s.part q).gate = false, s.thktEnd q cl k d),
         (.bulkSlotTransfer tc slot, s.slotXfer tc slot = some x ∧ x.slotted = true, s.runXfer tc x),
         (.scrubSlot tc slot, s.scrubTurn tc slot = true ∧ s.slotXfer tc slot = none,
           (s.scrub tc).setCol tc { (s.scrub tc).col tc with slot := max ((s.scrub tc).col tc).slot (slot + 1) }),
         (.coreStoreScrub cl k word, s.coreExists cl = true ∧ k < 4 ∧ word < unitWords k ∧ s.portIdle cl k word = true, s.scrubWord cl k word),
         (.rootSweepctlWrite r k, k % 2 ^ 64 ≠ 0 ∧ s.canAct (s.sweepAct (k % 2 ^ 64)) = true
           ∧ ((clustersOf (k % 2 ^ 64)).any fun a => (s.partOf a).isSome) = false, (s.askSweep k).1.setFld F.ROOT_SWEEPSTAT_STATUS 0 (s.askSweep k).2),
         (.sweepComplete, s.sweepDue = some a, s.endSweep a), (.maintActivityEnd k true, (s.acts.find? fun a => a.id == k) = some a, s.endMaint a true),
         (.maintActivityEnd k false, (s.acts.find? fun a => a.id == k) = some a, s.endMaint a false)] → g → Gives w s u)
    ∧ (∀ (q n : Nat) (f : CtrlFlit) (sp : Bool) (w : Instr) (g : Prop) (u : State), q < 8 →
      (w, g, u) ∈
        [(Instr.freezeEnd q, (s.part q).job = .run ∧ (s.part q).frozen = true ∧ s.atEdge q = true ∧ (s.part q).thawOk = true
           ∧ s.thawed q = true, s.thaw q),
         (.beatStart q, s.beatReady q = true ∧ s.startLate q = 0, s.beginBeat q), (.beatStartStep q, s.stepReady q = true, s.beatStep q (s.part q).beat),
         (.lagEvent q, (s.part q).jobLive = true ∧ (s.part q).lagArm = true ∧ s.lagAbove q (s.fld F.TIME_BEAT_CFG_LAGLIM q) = true,
           (s.modPart q fun p => { p with lagArm := false }).raise (960 + 6 * q)),
         (.lagFault q, (s.part q).jobLive = true ∧ s.lagAbove q (s.fld F.TIME_BEAT_CFG_FAULTLIM q) = true, s.jobFault q caLAG stTIMEOUT 0 0),
         (.stepChangeRun q, s.stepRuns q = true ∧ s.atEdge q = true, s.modPart q fun p => { p with stopUntil := some (s.now + 5000 * tu) }),
         (.launch q sp, s.noticePart (s.fld F.TIME_JOB_CFG_JOBID q) = some n ∧ s.noticeStatus n (s.fld F.HQ_LAUNCHCNT_COUNT q)
           (s.fld F.TIME_JOB_CFG_MODE q) (s.fld F.TIME_BEAT_CFG_K q) = stOK, s.launch q sp), (.load q, s.loadStatus q = stOK, s.load q),
         (.barrier q, (s.gop q).op = 0 ∧ s.hasBox q = true, s.enterBarrier q), (.bcast q, (s.gop q).op = 0 ∧ s.hasBox q = true, s.originateBcast q),
         (.snap q, (s.gop q).op = 0 ∧ s.hasBox q = true, s.originateSnap q), (.reset q, (s.gop q).op = 0 ∧ s.hasBox q = true, s.gopReset q),
         (.barrierRootTimeout q, s.jobRoot q = s.node ∧ s.barrierLate q 1 = true, s.originateRelease q stTIMEOUT),
         (.barrierTimeout q, s.jobRoot q ≠ s.node ∧ s.barrierLate q 2 = true, s.gopDone q stTIMEOUT),
         (.launchReceive n f, s.jobPart f.jobid = some q,
           (((s.ctrlTake n f).toChildren q f.node f n).notice f.jobid (byF f.body 0 8) (byF f.body 8 1) (byF f.body 9 1)).1),
         (.arrive n f, s.jobPart f.jobid = some q, (s.ctrlTake n f).takeArrive q f),
         (.release n f, s.jobPart f.jobid = some q, ((s.ctrlTake n f).toChildren q f.node f n).takeRelease q f),
         (.bcastReceive n f, s.jobPart f.jobid = some q, ((s.ctrlTake n f).toChildren q f.node f n).takeBcast q f),
         (.snapReceive n f, s.jobPart f.jobid = some q, ((s.ctrlTake n f).toChildren q f.node f n).takeSnap q f),
         (.resetReceive n f, s.jobPart f.jobid = some q, ((s.ctrlTake n f).toChildren q f.node f n).partReset q),
         (.admitReceive n f, s.jobPart f.jobid = some q, ((s.ctrlTake n f).toChildren q f.node f n).takeAdmit q f),
         (.stepReceive n f, s.jobPart f.jobid = some q, ((s.ctrlTake n f).toChildren q f.node f n).stepFlit q f),
         (.wakeReceive n f, s.wakePort n = true ∧ s.power ≠ 3 ∧ s.power ≠ 0 ∧ s.wakeOn 2 = true ∧ s.pow.trans = none, (s.ctrlTake n f).wakeBy 2 (f.flags.testBit 0))] → g → Gives w s u)
    ∧ (∀ (n t0 t1 t2 t3 t4 corr uncorr v : Nat) (raw rec : List Byte) (l : List (Nat × Nat × Nat × Nat)) (w : Instr) (g : Prop) (u : State),
      (w, g, u) ∈
        [(Instr.slotFill n, s.slotDue n = true, s.fillSlot n), (.groupReceive n raw corr uncorr, s.slotsRun n = true, s.rxGroup n raw corr uncorr),
         (.schedForward n, (s.rxFwd n).isSome = true, s.forwardFlit n),
         (.nakIssue n, (s.port n).nakWant = some t0 ∧ s.sliceAfter n t0 = true, s.modPort n fun p => { p with nakWant := none, nakOut := true }),
         (.replayStart n, (s.port n).replayWant = some t0 ∧ s.sliceAfter n t0 = true, s.replay n),
         (.replayTimeout n, s.replayLate n = true, (s.addFld F.PORT_RETRY_RTO n 1).replay n),
         (.probeExchange n t1 t2 t3 t4, (s.port n).pairs = (t1, t2, t3, t4) :: l ∧ s.pstate n = 1 ∧ (s.port n).step = 4, s.probe n t1 t2 t3 t4),
         (.identityResend n, s.pstate n = 2 ∧ (s.port n).heard = false ∧ (s.port n).sentId + 1000000 ≤ s.refNs, s.resendIdent n),
         (.neighbourRecord n rec, s.pstate n ∈ [2, 3, 4, 5, 6] ∧ recGood rec = true, (s.maintTake n rec).takeRecord n rec),
         (.laneLock n v, s.pstate n = 1 ∧ (s.port n).step = 1, s.lanesPlaced n v),
         (.portLockLoss n, n < s.id.ports ∧ s.pstate n ≠ 0 ∧ s.pstate n ≠ 7, s.portDown n 1), (.trainTimeout n, s.trainLate n = true, s.portDown n 3),
         (.identTimeout n, s.pstate n = 2 ∧ (s.port n).heard = false ∧ (s.port n).ident + 10000000 ≤ s.refNs,
           s.portDown n (if s.trainLate n then 3 else 5)),
         (.portCtlEnable r n true, n < s.id.ports ∧ s.fld F.PORT_CTL_ENABLE n = 0 ∧ s.canAct (retrainAct n) = true, s.enablePort n true),
         (.portCtlEnable r n false, n < s.id.ports ∧ s.schedBusy n = false, s.enablePort n false),
         (.portCtlReset r n, n < s.id.ports ∧ s.schedBusy n = false ∧ s.canAct (retrainAct n) = true ∧ s.fld F.PORT_CTL_ENABLE n ≠ 0, s.resetPort n),
         (.portWinWrite r n v, n < s.id.ports ∧ s.schedBusy n = false ∧ winAfter (s.reg .PORT_WIN n).toNat v = some t0,
           s.setReg .PORT_WIN n (BitVec.ofNat 64 t0))] → g → Gives w s u)
    ∧ (∀ (n k : Nat) (f : Frame) (q : ReqSpec) (e : Option Nat × Bool × Frame) (w : Instr) (g : Prop) (u : State),
      (w, g, u) ∈
        [(Instr.frameArrive (some n) f, s.frameUp n = true, s.frameArrive n f), (.requestInject q, s.injecting = true ∧ s.freeTag = some k, s.request q),
         (.rd, s.firstReq 1 = some e ∧ 0 < frameLen e.2.2 ∧ frameLen e.2.2 ≤ 4064 ∧ s.targetStatus e.2.2.addr (frameLen e.2.2) (frameJob e.2.2) = stOK
           ∧ s.frameSlots e.1 e.2.2.addr = true ∧ (s.slotNeed e.1 e.2.2.addr (frameLen e.2.2) false).length ≤ s.fab.rdGot,
           { s with fab := { s.fab with rdGot := 0 } }.serveRd e),
         (.wr, s.firstReq 2 = some e ∧ s.targetStatus e.2.2.addr e.2.2.bytes (frameJob e.2.2) = stOK ∧ s.frameSlots e.1 e.2.2.addr = true
           ∧ (s.slotNeed e.1 e.2.2.addr e.2.2.bytes true).length ≤ s.fab.wrGot, { s with fab := { s.fab with wrGot := 0 } }.serveWr e),
         (.msg, s.firstReq 3 = some e ∧ s.mbox.ch2 = none ∧ e.2.2.opspec % 2 ^ 16 = mqCmd e.2.2.payload, s.msgIn e),
         (.replyArrive none f, (s.tag f.tag).state = .out ∧ (s.tag f.tag).gen = f.gen ∧ f.net = 1 ∧ opOk 1 f.op = true ∧ (f.dst = s.node ∨ s.fab.inRsp.contains f = true), s.takeReply f),
         (.requestTimeout k, s.timerDue k = true, s.retireTag k stTIMEOUT),
         (.retireExpiry k, (s.tag k).state = .retire ∧ (s.tag k).until_ ≤ s.gtc,
           s.setTag k { s.tag k with state := .free, req := none, port := none, sent := none }),
         (.drain k, (s.net 0).change = false ∧ (s.net 1).change = false ∧ ∀ j ∈ netsOf k, (s.net j).state = 0,
           ((netsOf k).foldl (fun t j => t.setNet j { t.net j with state := 1 }) s).setFld F.ROUTE_STAT_STATUS 0 stOK),
         (.change k, (s.net 0).change = false ∧ (s.net 1).change = false ∧ ∀ j ∈ netsOf k, (s.net j).state = 0,
           ((netsOf k).foldl (fun t j => t.setNet j { t.net j with state := 1, change := true }) s).setFld F.ROUTE_STAT_STATUS 0 stOK),
         (.swap k, (s.net 0).change = false ∧ (s.net 1).change = false ∧ ∀ j ∈ netsOf k, (s.net j).state = 2,
           ((netsOf k).foldl State.swapNet s).setFld F.ROUTE_STAT_STATUS 0 stOK),
         (.resume k, (s.net 0).change = false ∧ (s.net 1).change = false ∧ ∀ j ∈ netsOf k, (s.net j).state = 2,
           ((netsOf k).foldl State.resumeNet s).setFld F.ROUTE_STAT_STATUS 0 stOK),
         (.drained k, k < 2 ∧ (s.net k).state = 1 ∧ s.tagsOut = [], s.drained k)] → g → Gives w s u)
    ∧ (∀ (n q k v : Nat) (x : Int) (f : CtrlFlit) (l : List (Option Nat)) (w : Instr) (g : Prop) (u : State), q < 8 →
      (w, g, u) ∈
        [(Instr.beaconSend, s.isMaster = true ∧ s.gtc % 100000 = 0 ∧ s.tm.sentAt ≠ some s.gtc, s.beacon),
         (.beaconReceive n f, s.isMaster = false ∧ f.sys = s.sysNo, (s.ctrlTake n f).takeBeacon n f),
         (.beaconTimeout, s.isMaster = false ∧ s.tm.parent = true ∧ s.tm.heardP + 1000000 ≤ s.gtc, s.setSync false),
         (.slewStep, s.tm.slew ≠ 0 ∧ s.tm.slewAt + s.slewPeriod ≤ s.refNs, s.slewNs), (.eventTick k, s.tickDue = true, s.eventTick k),
         (.wirePulseLatch k, k < 12 ∧ s.fld F.EVC_WIRE_N k = 0, s.latchPulse k),
         (.refclkLoss, True, ((s.setFld F.TIME_STAT_REFLOSS 0 1).modTm fun t => { t with refLost := true }).setSync false),
         (.refclkReturn, s.tm.refLost = true, s.refBack), (.timeBaseFailover, s.fld F.TIME_STAT_PRIMARY 0 = 0, (s.setFld F.TIME_STAT_PRIMARY 0 1).raise 37),
         (.ppsInEdge, s.isMaster = true ∧ s.timeSrc = 1, s.ppsIn), (.ppsOutEdge, s.gtc % 1000000000 = 0 ∧ s.tm.ppsHigh = false, s.setPps true),
         (.ppsOutEdge, 100000000 ≤ s.gtc % 1000000000 ∧ s.tm.ppsHigh = true, s.setPps false),
         (.ptpSync x, s.isMaster = true ∧ s.timeSrc = 2 ∧ s.linkUp 3 = true, s.srcHeard.correct (-x) true),
         (.ptmRequest, s.isMaster = true ∧ s.timeSrc = 3 ∧ s.tm.ptmAt + 10000000 ≤ s.refNs, s.ptmAsk),
         (.ptmResponse x, s.isMaster = true ∧ s.timeSrc = 3 ∧ 0 < s.tm.ptmOut, s.srcHeard.correct (x - Int.ofNat s.tm.ptmGtc) true),
         (.holdover, s.isMaster = true ∧ s.srcSilent = true, (s.setHoldover true).masterSync), 
         (.timeSetWrite r v, v < 2 ^ 64 ∧ s.isMaster = true ∧ s.timeSrc = 0, s.writeTimeSet v),
         (.timeAlarmFire, s.tm.alarmed = false ∧ s.fld F.TIME_ALARM_AT 0 ≤ s.gtc,
           ((s.modTm fun t => { t with alarmed := true }).raise 36).wakeBy 3 false),
         (.pllLockLoss k, k < 32, s.pllLost k), (.pllRelock k, s.tm.refLost = false, s.modPow fun p => { p with unlocked := p.unlocked.filter fun y => y != k }),
         (.pwrStepcmd r q v, s.checkStep q (bits v 50 48) = stOK ∧ s.stepLate q (bits v 47 0) = false, s.writeStepcmd q v),
         (.pwrCapWrite r v, 250 ≤ v % 2 ^ 11 ∧ v % 2 ^ 11 ≤ 1200 ∧ s.powerBudget ≤ v % 2 ^ 11,
           (s.setFld F.PWR_CAP_CAP 0 (v % 2 ^ 11)).setFld F.PWR_BUDGET_STATUS 0 stOK),
         (.pwrPdeclWrite r q v, (s.part q).jobLive = false ∧ (s.setFld F.PWR_PDECL_W q (v % 2 ^ 11)).powerBudget ≤ s.powerCap, s.writePdecl q v),
         (.powerMeasure v, True, s.measure v), (.statecmdRun r, s.power ≠ 3 ∧ s.checkState 0 = stOK, s.stateCmd 0),
         (.statecmdRest r, s.power ≠ 3 ∧ s.checkState 1 = stOK, s.stateCmd 1), (.statecmdDeep r, s.power ≠ 3 ∧ s.checkState 2 = stOK, s.stateCmd 2),
         (.statecmdDormant r, s.power ≠ 3 ∧ s.checkState 3 = stOK, s.stateCmd 3),
         (.powerStateEntered, s.pow.trans = some k ∧ k ≠ 0, s.entered k), (.wakeComplete, s.pow.trans = some 0, s.woken),
         (.wakePin, s.power ≠ 0 ∧ s.wakeOn 0 = true ∧ s.pow.trans = none, s.wakeBy 0 false),
         (.wakeFrame v, v = s.id.serial ∧ s.power ≠ 0 ∧ s.wakeOn 5 = true ∧ s.pow.trans = none, s.wakeBy 5 false),
         (.denianWakeBeacon n, s.power = 3 ∧ s.wakePort n = true ∧ s.wakeOn 2 = true ∧ s.pow.trans = none, s.wakeBy 2 false), (.thermalAlert x, s.alertAt ≤ tempWord x, s.heat x),
         (.thermalAlertClear x, tempWord x < s.alertAt, s.heat x), (.thermalTrip x, 1250 ≤ tempWord x ∧ s.pins.trip = false, s.thermTrip x),
         (.coldReset l, s.pins.green = true ∧ s.power ≠ 3, s.coldReset l),
         (.powerLoss true, s.pins.green = true, s.psLose.loseWork true),
         (.powerLoss false, s.power ≠ 3 ∧ s.pins.held = false, s.psLose.loseWork false), (.perstAssert, s.pins.perst = false, s.perst),
         (.perstRelease, s.pins.perst = true, s.perstOff), (.rootResetWarm r, r ≠ .host ∧ s.asleep = false, s.warmReset 3),
         (.rootResetMgmt r, r ≠ .host ∧ s.asleep = false, s.mgmtReset),
         (.evergreenPowerOn, True, s.modPins fun p => { p with green := true })] → g → Gives w s u)
    ∧ (∀ (k v off size : Nat) (data : List Byte) (err : Bool) (d : List Byte) (h : List Byte × List Byte) (m : EthIn) (w : Instr) (g : Prop) (u : State),
      (w, g, u) ∈
        [(Instr.bar2Read off size, s.minimal = false ∧ s.bar2Refuse (s.bar2Addr off) size = 0 ∧ (s.readMem .other (s.bar2Addr off) size).2.2 = false,
           (s.readMem .other (s.bar2Addr off) size).1.answer (s.readMem .other (s.bar2Addr off) size).2.1),
         (.bar2Write off data, s.minimal = false ∧ s.bar2Refuse (s.bar2Addr off) data.length = 0 ∧ (s.writeMem .other (s.bar2Addr off) data).2 = false,
           (s.writeMem .other (s.bar2Addr off) data).1),
         (.registerWrite r off size v, s.asleep = false ∧ (size = 4 ∨ size = 8) ∧ off % size = 0 ∧ (regAt off).isSome = true, s.bar0Write r off size v),
         (.lowHalfRead r ⟨off, size⟩, s.asleep = false ∧ (size = 4 ∨ size = 8) ∧ off % size = 0 ∧ (regAt off).isSome = true,
           (s.bar0Read r off size).1.answer (toBytes size (s.bar0Read r off size).2)),
         (.hqRhposWrite r k v [data], k < 64, s.writeHpos k v [data]), (.hqRhposWrite r k v [], k < 64, s.writeHpos k v []),
         (.h2d k data err, s.dmaHead k = some d ∧ s.dmaAt k = none ∧ dOP d = 1, s.h2d k d data err),
         (.d2h k err, s.dmaHead k = some d ∧ s.dmaAt k = none ∧ dOP d = 2, s.d2h k d err),
         (.h2l k data err, s.dmaHead k = some d ∧ dOP d = 3, s.h2l k d data err),
         (.dmaComplete k, (s.dma k).desc = some d ∧ (s.dma k).status = some v ∧ (s.dma k).unhashed = [] ∧ s.cplRoom k = true, s.dmaDone k (s.dma k) d v),
         (.digestSlice, s.digNext = some k, s.digSlice k),
         (.submit k data, s.ringHead k = some h ∧ s.ringUse k = 1, s.submit k h.1 (if s.ringMedium k = 0 then data else h.2)),
         (.serveAbortWrite r k v, k < 8 ∧ s.ingress k = true, s.writeAbort k v), (.pcieLinkDown, s.linkUp 0 = true, s.pcieDown),
         (.pcieLinkUp, s.linkUp 0 = false ∧ s.pins.perst = false, ((s.setLink 0 true).raise 324).sendPending),
         (.ethLinkUp k, k < 2 ∧ s.power < 2 ∧ s.linkUp (1 + k) = false, s.ethLink k true), (.ethLinkDown k, k < 2 ∧ s.linkUp (1 + k) = true, s.ethLink k false),
         (.mgmtLinkUp, s.linkUp 3 = false, s.mgmtLink true), (.mgmtLinkDown, s.linkUp 3 = true, s.mgmtLink false),
         (.ethSlot k data, k < 2 ∧ s.linkUp (1 + k) = true ∧ ethParse data = some m ∧ m.typ = 1, s.ethSlot k m),
         (.ethAck k data, k < 2 ∧ s.linkUp (1 + k) = true ∧ ethParse data = some m ∧ m.typ = 2, s.ethAcked m.key (byF m.body 0 4)),
         (.parkd k data, k < 2 ∧ s.linkUp (1 + k) = true ∧ ethParse data = some m ∧ m.typ = 5 ∧ m.key = 64, s.parkd k m),
         (.ethResend k, k ≤ 64 ∧ (s.ethStream k).unacked ≠ [] ∧ (s.ethStream k).sent + 1000 * s.fld F.HQ_NETCFG_RTO 0 ≤ s.refNs, s.ethResend k),
         (.telem, s.fld F.HQ_NETCFG_TELEMMS 0 ≠ 0 ∧ s.host.telemAt + 1000000 * s.fld F.HQ_NETCFG_TELEMMS 0 ≤ s.refNs,
           (s.modHost fun z => { z with telemAt := s.refNs }).ethSend 64 6 0 s.telemBody),
         (.bypass, True, s.scan 0xFF), (.idcode, True, s.scan 1), (.samplePreload, True, (s.scan 2).modPins fun p => { p with boundary := s.pinLevels }),
         (.extest, True, s.scanDrive 3 1), (.clamp, True, s.scanDrive 4 2), (.highz, True, s.scanDrive 5 3)] → g → Gives w s u)
    ∧ (∀ (k v b : Nat) (data : List Byte) (p : Nat × Sub) (x : Nat × Fetch) (y : Nat × Nat) (z : Nat × Nat × Nat) (a : Nat × Asker) (w : Instr) (g : Prop) (u : State),
      (w, g, u) ∈
        [(Instr.stagingComplete, s.stagingHead = some p, s.staged p.1 p.2),
         (.startAttempt k, s.boot.due = some k ∧ s.pins.held = false, s.attempt k), (.stageOverrun, s.overrun = some k, s.failAttempt k),
         (.solicit, (s.fetchList.find? fun a => s.solicitDue a.2) = some x ∧ s.linkUp 3 = true, s.sendSolicit x.1 x.2),
         (.offer k b v, s.fetchOf b = some x ∧ x.2.offer = none ∧ x.2.got = [] ∧ 704 ≤ v ∧ v ≤ 8388608 ∧ s.linkUp 3 = true, s.takeOffer x.1 k v x.2),
         (.data k (1024 * b) data, s.fetchOf k = some x ∧ x.2.offer = some y ∧ (x.2.reads.any fun a => a.1 == b) = true
           ∧ data.length = blockBytes y.2 b ∧ s.linkUp 3 = true, s.takeData x.1 y.2 b x.2 data),
         (.readResend, (s.fetchList.find? fun a => !(s.readsLate a.2).isEmpty) = some x, s.resendReads x.1 x.2),
         (.serverLost, (s.fetchList.find? fun a => s.serverGone a.2) = some x, s.refetch x.1 x.2),
         (.bootOk, s.fld F.ROOT_BOOT_STAGE 0 = 5 ∧ s.mcState 0 = 3 ∧ s.mcState 1 = 3, s.bootOk),
         (.watchdogExpire k, k < 2 ∧ s.wdogOut k = true, s.expire k),
         (.watchdogKick k v, k < 2 ∧ (s.mcState k = 2 ∨ s.mcState k = 3),
           (s.setFld F.ROOT_WDOG_PERIOD k (v % 65536)).setMc k { s.mc k with kickAt := some s.refNs }),
         (.mcRunning k, k < 2 ∧ s.mcState k = 2, s.runMc k),
         (.mcRestartTimeout k, k < 2 ∧ (s.mc k).restartAt = some v ∧ v + 120000000000 ≤ s.refNs, s.restartFailed k),
         (.psDataWrite r v, psHost (s.fld F.PS_INDEX_WORD 0) = true ∧ s.psQ.length < 64, s.psWrite (s.fld F.PS_INDEX_WORD 0) (v % 2 ^ 32)), (.psWriteComplete, s.psQ.head? = some z, s.psDone z.1),
         (.mboxPost r, s.asleep = false ∧ s.fld F.MBOX_STAT_STATE 0 ≠ 1 ∧ s.fld F.MBOX_STAT_STATE 0 ≠ 2, s.mboxPost true),
         (.mgmtMessage k data, s.asleep = false ∧ s.mbox.ch1 = none, s.mgmtIn k data),
         (.imageVerified k, (s.boot.verifs.find? fun a => a.1 == k) = some a, s.endVerify a.1 a.2)] → g → Gives w s u)

/-- Every step keeps the canonical form of memory. -/
def Obligations.MemoryStaysCanonical : Prop :=
  ∀ (s t : State), s.memWf = true → step s = .next t → t.memWf = true

/-- R555, R561 and the register tables: right after reset every register reads its default, but for those whose default is of the part; no
command waits, memory is in its canonical form and lists nothing, no partition holds a cluster, GTC is 0 and a COLD attempt is due. -/
def Obligations.ResetLeaves : Prop :=
  (∀ r i, i < 2 ^ 24 → psReg r = none → r ≠ .PORT_CTL → r ≠ .ROUTE_ROLE → r ≠ .ROOT_RESET → State.reset.reg r i = r.dflt)
  ∧ (∀ n < 24, State.reset.fld F.PORT_CTL_ENABLE n = 1) ∧ State.reset.fld F.ROOT_RESET_LAST 0 = 1
  ∧ State.reset.fld F.PWR_CAP_CAP 0 = 1200 ∧ State.reset.fld F.TIME_SLEW_MAXPPM 0 = 200 ∧ State.reset.fld F.ROUTE_TMO_US 0 = 50
  ∧ State.reset.memWf = true ∧ State.reset.mem = [] ∧ State.reset.pending = [] ∧ (∀ q, (State.reset.part q).mask = 0) ∧ State.reset.gtc = 0
  ∧ State.reset.boot.due = some 1

/-- R19: a write that places a reserved encoding in an RW or PS field leaves that field at its previous value; the other fields of the same
write take effect. -/
def Obligations.ReservedEncodingsKept : Prop :=
  ∀ (r : RegName) (f : Fld) (old : Word) (v : Nat), f ∈ fieldsOf r → f.acc = .rw ∨ f.acc = .ps →
    let new := f.get (BitVec.ofNat 64 v)
    let w := writtenWord r old v (2 ^ 64 - 1)
    (f.legal new = false → f.get w = f.get old) ∧ (f.legal new = true → f.get w = new)
    ∧ ∀ (by_ : Requester) (i off : Nat) (s : State), s.asleep = false → off % 8 = 0 → regAt off = some (r, i, false) → (regInfo r).width = 64 →
      s.barServes r i = true → s.gated by_ r i (v % 2 ^ 64) (2 ^ 64 - 1) = false → s.writeIo r i (v % 2 ^ 64) (2 ^ 64 - 1) = none →
      s.writeRoot by_ r i (v % 2 ^ 64) (2 ^ 64 - 1) = none → psReg r = none → (∀ n ∈ s.hw, n.key ≠ regKey r i) → Completes (.registerWrite by_ off 8 v) s fun t =>
        (f.legal new = false → t.fld f i = s.fld f i) ∧ (f.legal new = true → t.fld f i = new)
end

