-- ==== Sys2Proof/Laws/Regs.lean ====
section
/-! SUPPORT. The laws of register fields: a field reads what was written to it, cut to its width, and a write of one field leaves the
register's other fields alone. -/

namespace Sys2Proof.Machine

/-- The field lies within a register word. -/
def Fld.fits (f : Fld) : Bool := decide (f.lo ≤ f.hi) && decide (f.hi < 64)

/-- Two fields share no bit. -/
def Fld.apart (f g : Fld) : Bool := decide (f.hi < g.lo) || decide (g.hi < f.lo)

theorem Fld.fits_width {f : Fld} (h : f.fits = true) : f.lo + f.width ≤ 64 := by
  simp only [Fld.fits, Bool.and_eq_true, decide_eq_true_eq] at h
  simp only [Fld.width]
  omega

/-- The number that `Fld.put` stores, in parts: what lies above the field, the field, what lies below it. -/
theorem put_parts (n lo w v : Nat) :
    n - n / 2 ^ lo % 2 ^ w * 2 ^ lo + v % 2 ^ w * 2 ^ lo
      = 2 ^ lo * (2 ^ w * (n / 2 ^ lo / 2 ^ w) + v % 2 ^ w) + n % 2 ^ lo := by
  have h1 : 2 ^ lo * (n / 2 ^ lo) + n % 2 ^ lo = n := Nat.div_add_mod n _
  have h2 : 2 ^ w * (n / 2 ^ lo / 2 ^ w) + n / 2 ^ lo % 2 ^ w = n / 2 ^ lo := Nat.div_add_mod _ _
  generalize n / 2 ^ lo % 2 ^ w = g at *
  generalize n / 2 ^ lo / 2 ^ w = q at *
  generalize v % 2 ^ w = u
  generalize n % 2 ^ lo = r at *
  rw [← h2] at h1
  rw [← h1, Nat.mul_add, Nat.mul_add, Nat.mul_comm g, Nat.mul_comm u]
  omega

/-- The stored number fits a register word. -/
theorem put_lt (n lo w v : Nat) (hn : n < 2 ^ 64) (hw : lo + w ≤ 64) :
    n - n / 2 ^ lo % 2 ^ w * 2 ^ lo + v % 2 ^ w * 2 ^ lo < 2 ^ 64 := by
  rw [put_parts]
  obtain ⟨k, hk⟩ := Nat.exists_eq_add_of_le hw
  have hq : n / 2 ^ lo / 2 ^ w < 2 ^ k := by
    rw [Nat.div_div_eq_div_mul, ← Nat.pow_add]
    apply Nat.div_lt_of_lt_mul
    rw [← Nat.pow_add, ← hk]
    exact hn
  have hv : v % 2 ^ w < 2 ^ w := Nat.mod_lt _ (Nat.two_pow_pos w)
  have hr : n % 2 ^ lo < 2 ^ lo := Nat.mod_lt _ (Nat.two_pow_pos lo)
  have e : 2 ^ 64 = 2 ^ lo * (2 ^ w * 2 ^ k) := by rw [← Nat.pow_add, ← Nat.pow_add, ← Nat.add_assoc, ← hk]
  rw [e]
  have h1 : 2 ^ w * (n / 2 ^ lo / 2 ^ w) + v % 2 ^ w + 1 ≤ 2 ^ w * 2 ^ k := by
    have : 2 ^ w * (n / 2 ^ lo / 2 ^ w + 1) ≤ 2 ^ w * 2 ^ k := Nat.mul_le_mul_left _ hq
    rw [Nat.mul_add, Nat.mul_one] at this
    omega
  have h2 := Nat.mul_le_mul_left (2 ^ lo) h1
  rw [Nat.mul_add, Nat.mul_one] at h2
  omega

/-- The bits of a register word with one field replaced. -/
theorem Fld.put_testBit {f : Fld} (h : f.fits = true) (w : Word) (v i : Nat) :
    (f.put w v).toNat.testBit i
      = if i < f.lo then w.toNat.testBit i else if i < f.lo + f.width then v.testBit (i - f.lo) else w.toNat.testBit i := by
  have hw := Fld.fits_width h
  have hlt := put_lt w.toNat f.lo f.width v w.isLt hw
  rw [Fld.put, Fld.get, BitVec.toNat_ofNat, Nat.mod_eq_of_lt hlt, put_parts,
    Nat.testBit_two_pow_mul_add _ (Nat.mod_lt _ (Nat.two_pow_pos _)),
    Nat.testBit_two_pow_mul_add _ (Nat.mod_lt _ (Nat.two_pow_pos _))]
  by_cases h1 : i < f.lo
  · simp [h1, Nat.testBit_mod_two_pow]
  · rw [if_neg h1, if_neg h1]
    by_cases h2 : i < f.lo + f.width
    · have h3 : i - f.lo < f.width := by omega
      rw [if_pos h3, if_pos h2, Nat.testBit_mod_two_pow]
      simp [h3]
    · have h3 : ¬ i - f.lo < f.width := by omega
      rw [if_neg h3, if_neg h2, Nat.testBit_div_two_pow, Nat.testBit_div_two_pow]
      congr 1
      omega

/-- A field reads what was written to it. -/
theorem Fld.get_put {f : Fld} (h : f.fits = true) (w : Word) (v : Nat) : f.get (f.put w v) = v % 2 ^ f.width := by
  apply Nat.eq_of_testBit_eq
  intro i
  rw [Fld.get, Nat.testBit_mod_two_pow, Nat.testBit_mod_two_pow, Nat.testBit_div_two_pow, Fld.put_testBit h]
  by_cases hi : i < f.width
  · have h1 : ¬ i + f.lo < f.lo := by omega
    have h2 : i + f.lo < f.lo + f.width := by omega
    rw [if_neg h1, if_pos h2, Nat.add_sub_cancel]
  · simp [hi]

/-- A write of one field leaves another alone. -/
theorem Fld.get_put_apart {f g : Fld} (hf : f.fits = true) (hg : g.fits = true) (h : f.apart g = true) (w : Word) (v : Nat) :
    g.get (f.put w v) = g.get w := by
  simp only [Fld.apart, Bool.or_eq_true, decide_eq_true_eq] at h
  simp only [Fld.fits, Bool.and_eq_true, decide_eq_true_eq] at hf hg
  apply Nat.eq_of_testBit_eq
  intro i
  rw [Fld.get, Fld.get, Nat.testBit_mod_two_pow, Nat.testBit_mod_two_pow, Nat.testBit_div_two_pow, Nat.testBit_div_two_pow,
    Fld.put_testBit (by simp [Fld.fits, hf])]
  by_cases hi : i < g.width
  · have hi' : i < g.hi + 1 - g.lo := hi
    have hfw : f.lo + f.width = f.hi + 1 := by
      simp only [Fld.width]
      omega
    congr 1
    rcases h with h | h
    · rw [if_neg (show ¬ i + g.lo < f.lo by omega), if_neg (show ¬ i + g.lo < f.lo + f.width by omega)]
    · rw [if_pos (show i + g.lo < f.lo by omega)]
  · simp [hi]

/-- Numbers tell registers apart. -/
theorem RegName.num_inj {a b : RegName} (h : a.num = b.num) : a = b := by
  have ha := RegName.ofNat_ctorIdx a
  have hb := RegName.ofNat_ctorIdx b
  rw [← ha, ← hb]
  exact congrArg RegName.ofNat h

end Sys2Proof.Machine
end

