-- ==== Sys2Proof/Laws/SMap.lean ====
section
/-! SUPPORT. The laws of sparse maps: a read after a write, and the canonical form that every write keeps. -/

namespace Sys2Proof.Machine

theorem SMap.get_erase_self {α : Type} (d : α) (m : SMap α) (k : Nat) : SMap.get d (SMap.erase m k) k = d := by
  induction m with
  | nil => rfl
  | cons e r ih =>
    obtain ⟨j, w⟩ := e
    by_cases h : j = k
    · simpa [SMap.erase, h] using ih
    · simpa [SMap.erase, SMap.get, h] using ih

theorem SMap.get_erase_ne {α : Type} (d : α) (m : SMap α) {k a : Nat} (h : a ≠ k) :
    SMap.get d (SMap.erase m k) a = SMap.get d m a := by
  induction m with
  | nil => rfl
  | cons e r ih =>
    obtain ⟨j, w⟩ := e
    by_cases hj : j = k
    · subst hj
      simpa [SMap.erase, SMap.get, Ne.symm h] using ih
    · by_cases ha : j = a
      · simp [SMap.erase, SMap.get, ha, h]
      · simpa [SMap.erase, SMap.get, hj, ha] using ih

theorem SMap.get_insert_self {α : Type} (d : α) (m : SMap α) (k : Nat) (v : α) (h : ∀ e ∈ m, e.1 ≠ k) :
    SMap.get d (SMap.insert m k v) k = v := by
  induction m with
  | nil => simp [SMap.insert, SMap.get]
  | cons e r ih =>
    obtain ⟨j, w⟩ := e
    have hj : j ≠ k := h (j, w) (by simp)
    simp only [SMap.insert]
    split
    · simp [SMap.get]
    · simp only [SMap.get, if_neg hj]
      exact ih fun e he => h e (by simp [he])

theorem SMap.get_insert_ne {α : Type} (d : α) (m : SMap α) {k a : Nat} (v : α) (h : a ≠ k) :
    SMap.get d (SMap.insert m k v) a = SMap.get d m a := by
  induction m with
  | nil => simp [SMap.insert, SMap.get, Ne.symm h]
  | cons e r ih =>
    obtain ⟨j, w⟩ := e
    simp only [SMap.insert]
    split
    · simp [SMap.get, Ne.symm h]
    · simp [SMap.get, ih]

theorem SMap.mem_erase_ne {α : Type} (m : SMap α) (k : Nat) : ∀ e ∈ SMap.erase m k, e.1 ≠ k := by
  intro e he
  simpa [SMap.erase] using (List.mem_filter.mp he).2

/-- A read after a write to the same key gives the value written. -/
@[simp] theorem SMap.get_put_self {α : Type} [DecidableEq α] (d : α) (m : SMap α) (k : Nat) (v : α) :
    SMap.get d (SMap.put d m k v) k = v := by
  unfold SMap.put
  split
  · rename_i h
    rw [SMap.get_erase_self, h]
  · exact SMap.get_insert_self d _ k v (SMap.mem_erase_ne m k)

/-- A write leaves every other key alone. -/
@[simp] theorem SMap.get_put_ne {α : Type} [DecidableEq α] (d d' : α) (m : SMap α) {k a : Nat} (v : α) (h : a ≠ k) :
    SMap.get d' (SMap.put d m k v) a = SMap.get d' m a := by
  unfold SMap.put
  split
  · exact SMap.get_erase_ne d' m h
  · rw [SMap.get_insert_ne d' _ v h, SMap.get_erase_ne d' m h]

/-- What a read after a write gives, at any key. -/
theorem SMap.get_put {α : Type} [DecidableEq α] (d : α) (m : SMap α) (k a : Nat) (v : α) :
    SMap.get d (SMap.put d m k v) a = if a = k then v else SMap.get d m a := by
  split
  · rename_i h
    rw [h, SMap.get_put_self]
  · rename_i h
    exact SMap.get_put_ne d d m v h

theorem SMap.get_erase {α : Type} (d : α) (m : SMap α) (k a : Nat) :
    SMap.get d (SMap.erase m k) a = if a = k then d else SMap.get d m a := by
  split
  · rename_i h
    rw [h, SMap.get_erase_self]
  · rename_i h
    exact SMap.get_erase_ne d m h

theorem SMap.get_modify {α : Type} [DecidableEq α] (d : α) (m : SMap α) (k a : Nat) (f : α → α) :
    SMap.get d (SMap.modify d m k f) a = if a = k then f (SMap.get d m k) else SMap.get d m a :=
  SMap.get_put d m k a _

/-! ## The canonical form -/

theorem SMap.rising_filter {α : Type} (p : Nat × α → Bool) (m : SMap α) (h : SMap.rising m = true) :
    SMap.rising (List.filter p m) = true := by
  induction m with
  | nil => rfl
  | cons e r ih =>
    simp only [SMap.rising, Bool.and_eq_true, List.all_eq_true, decide_eq_true_eq] at h
    have ih' := ih h.2
    cases hp : p e with
    | false => rwa [List.filter_cons_of_neg (by simp [hp])]
    | true =>
      rw [List.filter_cons_of_pos hp]
      simp only [SMap.rising, Bool.and_eq_true, List.all_eq_true, decide_eq_true_eq]
      exact ⟨fun x hx => h.1 x (List.mem_filter.mp hx).1, ih'⟩

theorem SMap.rising_erase {α : Type} (m : SMap α) (k : Nat) (h : SMap.rising m = true) : SMap.rising (SMap.erase m k) = true :=
  SMap.rising_filter _ m h

theorem SMap.mem_insert {α : Type} {m : SMap α} {k : Nat} {v : α} {e : Nat × α} (h : e ∈ SMap.insert m k v) :
    e = (k, v) ∨ e ∈ m := by
  induction m with
  | nil => simpa [SMap.insert] using h
  | cons x r ih =>
    obtain ⟨j, w⟩ := x
    simp only [SMap.insert] at h
    split at h
    · simpa using h
    · rcases List.mem_cons.mp h with h | h
      · exact .inr (by simp [h])
      · rcases ih h with h | h
        · exact .inl h
        · exact .inr (by simp [h])

theorem SMap.rising_insert {α : Type} (m : SMap α) (k : Nat) (v : α) (hk : ∀ e ∈ m, e.1 ≠ k) (h : SMap.rising m = true) :
    SMap.rising (SMap.insert m k v) = true := by
  induction m with
  | nil => rfl
  | cons x r ih =>
    obtain ⟨j, w⟩ := x
    have h' := h
    simp only [SMap.rising, Bool.and_eq_true, List.all_eq_true, decide_eq_true_eq] at h'
    have hj : j ≠ k := hk (j, w) (by simp)
    simp only [SMap.insert]
    split
    · rename_i hlt
      rw [SMap.rising, h, Bool.and_true, List.all_eq_true]
      intro e he
      rcases List.mem_cons.mp he with rfl | he
      · simpa using hlt
      · have := h'.1 e he
        simp
        omega
    · rename_i hlt
      simp only [SMap.rising, Bool.and_eq_true, List.all_eq_true, decide_eq_true_eq]
      refine ⟨fun e he => ?_, ih (fun e he => hk e (by simp [he])) h'.2⟩
      rcases SMap.mem_insert he with rfl | he
      · simp
        omega
      · exact h'.1 e he

/-- Every write keeps the canonical form. -/
theorem SMap.wf_put {α : Type} [DecidableEq α] (d : Nat → α) (m : SMap α) (k : Nat) (v : α) (h : SMap.wf d m = true) :
    SMap.wf d (SMap.put (d k) m k v) = true := by
  simp only [SMap.wf, Bool.and_eq_true, List.all_eq_true, decide_eq_true_eq] at h ⊢
  unfold SMap.put
  split
  · exact ⟨SMap.rising_erase m k h.1, fun e he => h.2 e (List.mem_filter.mp he).1⟩
  · rename_i hv
    refine ⟨SMap.rising_insert _ k v (SMap.mem_erase_ne m k) (SMap.rising_erase m k h.1), fun e he => ?_⟩
    rcases SMap.mem_insert he with rfl | he
    · exact hv
    · exact h.2 e (List.mem_filter.mp he).1

/-- An erased entry keeps the canonical form. -/
theorem SMap.wf_erase {α : Type} [DecidableEq α] (d : Nat → α) (m : SMap α) (k : Nat) (h : SMap.wf d m = true) :
    SMap.wf d (SMap.erase m k) = true := by
  simp only [SMap.wf, Bool.and_eq_true, List.all_eq_true, decide_eq_true_eq] at h ⊢
  exact ⟨SMap.rising_erase m k h.1, fun e he => h.2 e (List.mem_filter.mp he).1⟩

end Sys2Proof.Machine
end

