-- ==== Sys2Proof/Laws/State.lean ====
section
/-! SUPPORT. One lemma per field and update of the state: what each named update leaves alone, and what a read after it gives. -/

namespace Sys2Proof.Machine

/-! ## Notes of hardware changes: they change the notes alone -/

@[simp] theorem State.note_pending (s : State) (g : Fld) (i kind k : Nat) : (s.note g i kind k).pending = s.pending := (rfl)
@[simp] theorem State.note_id (s : State) (g : Fld) (i kind k : Nat) : (s.note g i kind k).id = s.id := (rfl)
@[simp] theorem State.note_latch (s : State) (g : Fld) (i kind k : Nat) : (s.note g i kind k).latch = s.latch := (rfl)
@[simp] theorem State.note_mem (s : State) (g : Fld) (i kind k : Nat) : (s.note g i kind k).mem = s.mem := (rfl)
@[simp] theorem State.note_fill (s : State) (g : Fld) (i kind k : Nat) : (s.note g i kind k).fill = s.fill := (rfl)
@[simp] theorem State.note_bad (s : State) (g : Fld) (i kind k : Nat) : (s.note g i kind k).bad = s.bad := (rfl)
@[simp] theorem State.note_scrubs (s : State) (g : Fld) (i kind k : Nat) : (s.note g i kind k).scrubs = s.scrubs := (rfl)
@[simp] theorem State.note_poisonMem (s : State) (g : Fld) (i kind k : Nat) : (s.note g i kind k).poisonMem = s.poisonMem := (rfl)
@[simp] theorem State.note_poison (s : State) (g : Fld) (i kind k : Nat) : (s.note g i kind k).poison = s.poison := (rfl)
@[simp] theorem State.note_cores (s : State) (g : Fld) (i kind k : Nat) : (s.note g i kind k).cores = s.cores := (rfl)
@[simp] theorem State.note_clusters (s : State) (g : Fld) (i kind k : Nat) : (s.note g i kind k).clusters = s.clusters := (rfl)
@[simp] theorem State.note_cols (s : State) (g : Fld) (i kind k : Nat) : (s.note g i kind k).cols = s.cols := (rfl)
@[simp] theorem State.note_parts (s : State) (g : Fld) (i kind k : Nat) : (s.note g i kind k).parts = s.parts := (rfl)
@[simp] theorem State.note_ports (s : State) (g : Fld) (i kind k : Nat) : (s.note g i kind k).ports = s.ports := (rfl)
@[simp] theorem State.note_ps (s : State) (g : Fld) (i kind k : Nat) : (s.note g i kind k).ps = s.ps := (rfl)
@[simp] theorem State.note_psCount (s : State) (g : Fld) (i kind k : Nat) : (s.note g i kind k).psCount = s.psCount := (rfl)
@[simp] theorem State.note_psQ (s : State) (g : Fld) (i kind k : Nat) : (s.note g i kind k).psQ = s.psQ := (rfl)
@[simp] theorem State.note_topo (s : State) (g : Fld) (i kind k : Nat) : (s.note g i kind k).topo = s.topo := (rfl)
@[simp] theorem State.note_bankUse (s : State) (g : Fld) (i kind k : Nat) : (s.note g i kind k).bankUse = s.bankUse := (rfl)
@[simp] theorem State.note_fab (s : State) (g : Fld) (i kind k : Nat) : (s.note g i kind k).fab = s.fab := (rfl)
@[simp] theorem State.note_table (s : State) (g : Fld) (i kind k : Nat) : (s.note g i kind k).table = s.table := (rfl)
@[simp] theorem State.note_serve (s : State) (g : Fld) (i kind k : Nat) : (s.note g i kind k).serve = s.serve := (rfl)
@[simp] theorem State.note_host (s : State) (g : Fld) (i kind k : Nat) : (s.note g i kind k).host = s.host := (rfl)
@[simp] theorem State.note_tm (s : State) (g : Fld) (i kind k : Nat) : (s.note g i kind k).tm = s.tm := (rfl)
@[simp] theorem State.note_pow (s : State) (g : Fld) (i kind k : Nat) : (s.note g i kind k).pow = s.pow := (rfl)
@[simp] theorem State.note_boot (s : State) (g : Fld) (i kind k : Nat) : (s.note g i kind k).boot = s.boot := (rfl)
@[simp] theorem State.note_mbox (s : State) (g : Fld) (i kind k : Nat) : (s.note g i kind k).mbox = s.mbox := (rfl)
@[simp] theorem State.note_evc (s : State) (g : Fld) (i kind k : Nat) : (s.note g i kind k).evc = s.evc := (rfl)
@[simp] theorem State.note_pins (s : State) (g : Fld) (i kind k : Nat) : (s.note g i kind k).pins = s.pins := (rfl)
@[simp] theorem State.note_acts (s : State) (g : Fld) (i kind k : Nat) : (s.note g i kind k).acts = s.acts := (rfl)
@[simp] theorem State.note_nextAct (s : State) (g : Fld) (i kind k : Nat) : (s.note g i kind k).nextAct = s.nextAct := (rfl)
@[simp] theorem State.note_out (s : State) (g : Fld) (i kind k : Nat) : (s.note g i kind k).out = s.out := (rfl)
@[simp] theorem State.note_occ (s : State) (g : Fld) (i kind k : Nat) : (s.note g i kind k).occ = s.occ := (rfl)
@[simp] theorem State.note_gtc (s : State) (g : Fld) (i kind k : Nat) : (s.note g i kind k).gtc = s.gtc := (rfl)
@[simp] theorem State.note_refNs (s : State) (g : Fld) (i kind k : Nat) : (s.note g i kind k).refNs = s.refNs := (rfl)
@[simp] theorem State.note_sub (s : State) (g : Fld) (i kind k : Nat) : (s.note g i kind k).sub = s.sub := (rfl)
@[simp] theorem State.note_free (s : State) (g : Fld) (i kind k : Nat) : (s.note g i kind k).free = s.free := (rfl)
@[simp] theorem State.note_regs (s : State) (g : Fld) (i kind k : Nat) : (s.note g i kind k).regs = s.regs := (rfl)

@[simp] theorem State.dropNotes_pending (s : State) (clk : Nat) : (s.dropNotes clk).pending = s.pending := (rfl)
@[simp] theorem State.dropNotes_id (s : State) (clk : Nat) : (s.dropNotes clk).id = s.id := (rfl)
@[simp] theorem State.dropNotes_latch (s : State) (clk : Nat) : (s.dropNotes clk).latch = s.latch := (rfl)
@[simp] theorem State.dropNotes_mem (s : State) (clk : Nat) : (s.dropNotes clk).mem = s.mem := (rfl)
@[simp] theorem State.dropNotes_fill (s : State) (clk : Nat) : (s.dropNotes clk).fill = s.fill := (rfl)
@[simp] theorem State.dropNotes_bad (s : State) (clk : Nat) : (s.dropNotes clk).bad = s.bad := (rfl)
@[simp] theorem State.dropNotes_scrubs (s : State) (clk : Nat) : (s.dropNotes clk).scrubs = s.scrubs := (rfl)
@[simp] theorem State.dropNotes_poisonMem (s : State) (clk : Nat) : (s.dropNotes clk).poisonMem = s.poisonMem := (rfl)
@[simp] theorem State.dropNotes_poison (s : State) (clk : Nat) : (s.dropNotes clk).poison = s.poison := (rfl)
@[simp] theorem State.dropNotes_cores (s : State) (clk : Nat) : (s.dropNotes clk).cores = s.cores := (rfl)
@[simp] theorem State.dropNotes_clusters (s : State) (clk : Nat) : (s.dropNotes clk).clusters = s.clusters := (rfl)
@[simp] theorem State.dropNotes_cols (s : State) (clk : Nat) : (s.dropNotes clk).cols = s.cols := (rfl)
@[simp] theorem State.dropNotes_parts (s : State) (clk : Nat) : (s.dropNotes clk).parts = s.parts := (rfl)
@[simp] theorem State.dropNotes_ports (s : State) (clk : Nat) : (s.dropNotes clk).ports = s.ports := (rfl)
@[simp] theorem State.dropNotes_ps (s : State) (clk : Nat) : (s.dropNotes clk).ps = s.ps := (rfl)
@[simp] theorem State.dropNotes_psCount (s : State) (clk : Nat) : (s.dropNotes clk).psCount = s.psCount := (rfl)
@[simp] theorem State.dropNotes_psQ (s : State) (clk : Nat) : (s.dropNotes clk).psQ = s.psQ := (rfl)
@[simp] theorem State.dropNotes_topo (s : State) (clk : Nat) : (s.dropNotes clk).topo = s.topo := (rfl)
@[simp] theorem State.dropNotes_bankUse (s : State) (clk : Nat) : (s.dropNotes clk).bankUse = s.bankUse := (rfl)
@[simp] theorem State.dropNotes_fab (s : State) (clk : Nat) : (s.dropNotes clk).fab = s.fab := (rfl)
@[simp] theorem State.dropNotes_table (s : State) (clk : Nat) : (s.dropNotes clk).table = s.table := (rfl)
@[simp] theorem State.dropNotes_serve (s : State) (clk : Nat) : (s.dropNotes clk).serve = s.serve := (rfl)
@[simp] theorem State.dropNotes_host (s : State) (clk : Nat) : (s.dropNotes clk).host = s.host := (rfl)
@[simp] theorem State.dropNotes_tm (s : State) (clk : Nat) : (s.dropNotes clk).tm = s.tm := (rfl)
@[simp] theorem State.dropNotes_pow (s : State) (clk : Nat) : (s.dropNotes clk).pow = s.pow := (rfl)
@[simp] theorem State.dropNotes_boot (s : State) (clk : Nat) : (s.dropNotes clk).boot = s.boot := (rfl)
@[simp] theorem State.dropNotes_mbox (s : State) (clk : Nat) : (s.dropNotes clk).mbox = s.mbox := (rfl)
@[simp] theorem State.dropNotes_evc (s : State) (clk : Nat) : (s.dropNotes clk).evc = s.evc := (rfl)
@[simp] theorem State.dropNotes_pins (s : State) (clk : Nat) : (s.dropNotes clk).pins = s.pins := (rfl)
@[simp] theorem State.dropNotes_acts (s : State) (clk : Nat) : (s.dropNotes clk).acts = s.acts := (rfl)
@[simp] theorem State.dropNotes_nextAct (s : State) (clk : Nat) : (s.dropNotes clk).nextAct = s.nextAct := (rfl)
@[simp] theorem State.dropNotes_out (s : State) (clk : Nat) : (s.dropNotes clk).out = s.out := (rfl)
@[simp] theorem State.dropNotes_occ (s : State) (clk : Nat) : (s.dropNotes clk).occ = s.occ := (rfl)
@[simp] theorem State.dropNotes_gtc (s : State) (clk : Nat) : (s.dropNotes clk).gtc = s.gtc := (rfl)
@[simp] theorem State.dropNotes_refNs (s : State) (clk : Nat) : (s.dropNotes clk).refNs = s.refNs := (rfl)
@[simp] theorem State.dropNotes_sub (s : State) (clk : Nat) : (s.dropNotes clk).sub = s.sub := (rfl)
@[simp] theorem State.dropNotes_free (s : State) (clk : Nat) : (s.dropNotes clk).free = s.free := (rfl)
@[simp] theorem State.dropNotes_regs (s : State) (clk : Nat) : (s.dropNotes clk).regs = s.regs := (rfl)

theorem State.note_hw (s : State) (g : Fld) (i kind k : Nat) :
    (s.note g i kind k).hw = s.hw ++ [⟨regKey g.reg i, g, kind, k, i, s.clockOf g.reg i⟩] := (rfl)

/-! ## Updates of one field leave the others alone -/

@[simp] theorem State.setCore_pending (s : State) (c : Nat) (v : Core) : (s.setCore c v).pending = s.pending := (rfl)
@[simp] theorem State.setCore_id (s : State) (c : Nat) (v : Core) : (s.setCore c v).id = s.id := (rfl)
@[simp] theorem State.setCore_regs (s : State) (c : Nat) (v : Core) : (s.setCore c v).regs = s.regs := (rfl)
@[simp] theorem State.setCore_latch (s : State) (c : Nat) (v : Core) : (s.setCore c v).latch = s.latch := (rfl)
@[simp] theorem State.setCore_mem (s : State) (c : Nat) (v : Core) : (s.setCore c v).mem = s.mem := (rfl)
@[simp] theorem State.setCore_fill (s : State) (c : Nat) (v : Core) : (s.setCore c v).fill = s.fill := (rfl)
@[simp] theorem State.setCore_bad (s : State) (c : Nat) (v : Core) : (s.setCore c v).bad = s.bad := (rfl)
@[simp] theorem State.setCore_poisonMem (s : State) (c : Nat) (v : Core) : (s.setCore c v).poisonMem = s.poisonMem := (rfl)
@[simp] theorem State.setCore_poison (s : State) (c : Nat) (v : Core) : (s.setCore c v).poison = s.poison := (rfl)
@[simp] theorem State.setCore_clusters (s : State) (c : Nat) (v : Core) : (s.setCore c v).clusters = s.clusters := (rfl)
@[simp] theorem State.setCore_cols (s : State) (c : Nat) (v : Core) : (s.setCore c v).cols = s.cols := (rfl)
@[simp] theorem State.setCore_parts (s : State) (c : Nat) (v : Core) : (s.setCore c v).parts = s.parts := (rfl)
@[simp] theorem State.setCore_ports (s : State) (c : Nat) (v : Core) : (s.setCore c v).ports = s.ports := (rfl)
@[simp] theorem State.setCore_ps (s : State) (c : Nat) (v : Core) : (s.setCore c v).ps = s.ps := (rfl)
@[simp] theorem State.setCore_psCount (s : State) (c : Nat) (v : Core) : (s.setCore c v).psCount = s.psCount := (rfl)
@[simp] theorem State.setCore_psQ (s : State) (c : Nat) (v : Core) : (s.setCore c v).psQ = s.psQ := (rfl)
@[simp] theorem State.setCore_bankUse (s : State) (c : Nat) (v : Core) : (s.setCore c v).bankUse = s.bankUse := (rfl)
@[simp] theorem State.setCore_fab (s : State) (c : Nat) (v : Core) : (s.setCore c v).fab = s.fab := (rfl)
@[simp] theorem State.setCore_table (s : State) (c : Nat) (v : Core) : (s.setCore c v).table = s.table := (rfl)
@[simp] theorem State.setCore_serve (s : State) (c : Nat) (v : Core) : (s.setCore c v).serve = s.serve := (rfl)
@[simp] theorem State.setCore_host (s : State) (c : Nat) (v : Core) : (s.setCore c v).host = s.host := (rfl)
@[simp] theorem State.setCore_tm (s : State) (c : Nat) (v : Core) : (s.setCore c v).tm = s.tm := (rfl)
@[simp] theorem State.setCore_pow (s : State) (c : Nat) (v : Core) : (s.setCore c v).pow = s.pow := (rfl)
@[simp] theorem State.setCore_boot (s : State) (c : Nat) (v : Core) : (s.setCore c v).boot = s.boot := (rfl)
@[simp] theorem State.setCore_mbox (s : State) (c : Nat) (v : Core) : (s.setCore c v).mbox = s.mbox := (rfl)
@[simp] theorem State.setCore_evc (s : State) (c : Nat) (v : Core) : (s.setCore c v).evc = s.evc := (rfl)
@[simp] theorem State.setCore_pins (s : State) (c : Nat) (v : Core) : (s.setCore c v).pins = s.pins := (rfl)
@[simp] theorem State.setCore_acts (s : State) (c : Nat) (v : Core) : (s.setCore c v).acts = s.acts := (rfl)
@[simp] theorem State.setCore_nextAct (s : State) (c : Nat) (v : Core) : (s.setCore c v).nextAct = s.nextAct := (rfl)
@[simp] theorem State.setCore_out (s : State) (c : Nat) (v : Core) : (s.setCore c v).out = s.out := (rfl)
@[simp] theorem State.setCore_occ (s : State) (c : Nat) (v : Core) : (s.setCore c v).occ = s.occ := (rfl)
@[simp] theorem State.setCore_gtc (s : State) (c : Nat) (v : Core) : (s.setCore c v).gtc = s.gtc := (rfl)
@[simp] theorem State.setCore_refNs (s : State) (c : Nat) (v : Core) : (s.setCore c v).refNs = s.refNs := (rfl)
@[simp] theorem State.setCore_sub (s : State) (c : Nat) (v : Core) : (s.setCore c v).sub = s.sub := (rfl)
@[simp] theorem State.setCore_free (s : State) (c : Nat) (v : Core) : (s.setCore c v).free = s.free := (rfl)
@[simp] theorem State.setCore_hw (s : State) (c : Nat) (v : Core) : (s.setCore c v).hw = s.hw := (rfl)
@[simp] theorem State.setCore_scrubs (s : State) (c : Nat) (v : Core) : (s.setCore c v).scrubs = s.scrubs := (rfl)
@[simp] theorem State.setCore_topo (s : State) (c : Nat) (v : Core) : (s.setCore c v).topo = s.topo := (rfl)

@[simp] theorem State.modCore_pending (s : State) (c : Nat) (f : Core → Core) : (s.modCore c f).pending = s.pending := (rfl)
@[simp] theorem State.modCore_id (s : State) (c : Nat) (f : Core → Core) : (s.modCore c f).id = s.id := (rfl)
@[simp] theorem State.modCore_regs (s : State) (c : Nat) (f : Core → Core) : (s.modCore c f).regs = s.regs := (rfl)
@[simp] theorem State.modCore_latch (s : State) (c : Nat) (f : Core → Core) : (s.modCore c f).latch = s.latch := (rfl)
@[simp] theorem State.modCore_mem (s : State) (c : Nat) (f : Core → Core) : (s.modCore c f).mem = s.mem := (rfl)
@[simp] theorem State.modCore_fill (s : State) (c : Nat) (f : Core → Core) : (s.modCore c f).fill = s.fill := (rfl)
@[simp] theorem State.modCore_bad (s : State) (c : Nat) (f : Core → Core) : (s.modCore c f).bad = s.bad := (rfl)
@[simp] theorem State.modCore_poisonMem (s : State) (c : Nat) (f : Core → Core) : (s.modCore c f).poisonMem = s.poisonMem := (rfl)
@[simp] theorem State.modCore_poison (s : State) (c : Nat) (f : Core → Core) : (s.modCore c f).poison = s.poison := (rfl)
@[simp] theorem State.modCore_clusters (s : State) (c : Nat) (f : Core → Core) : (s.modCore c f).clusters = s.clusters := (rfl)
@[simp] theorem State.modCore_cols (s : State) (c : Nat) (f : Core → Core) : (s.modCore c f).cols = s.cols := (rfl)
@[simp] theorem State.modCore_parts (s : State) (c : Nat) (f : Core → Core) : (s.modCore c f).parts = s.parts := (rfl)
@[simp] theorem State.modCore_ports (s : State) (c : Nat) (f : Core → Core) : (s.modCore c f).ports = s.ports := (rfl)
@[simp] theorem State.modCore_ps (s : State) (c : Nat) (f : Core → Core) : (s.modCore c f).ps = s.ps := (rfl)
@[simp] theorem State.modCore_psCount (s : State) (c : Nat) (f : Core → Core) : (s.modCore c f).psCount = s.psCount := (rfl)
@[simp] theorem State.modCore_psQ (s : State) (c : Nat) (f : Core → Core) : (s.modCore c f).psQ = s.psQ := (rfl)
@[simp] theorem State.modCore_bankUse (s : State) (c : Nat) (f : Core → Core) : (s.modCore c f).bankUse = s.bankUse := (rfl)
@[simp] theorem State.modCore_fab (s : State) (c : Nat) (f : Core → Core) : (s.modCore c f).fab = s.fab := (rfl)
@[simp] theorem State.modCore_table (s : State) (c : Nat) (f : Core → Core) : (s.modCore c f).table = s.table := (rfl)
@[simp] theorem State.modCore_serve (s : State) (c : Nat) (f : Core → Core) : (s.modCore c f).serve = s.serve := (rfl)
@[simp] theorem State.modCore_host (s : State) (c : Nat) (f : Core → Core) : (s.modCore c f).host = s.host := (rfl)
@[simp] theorem State.modCore_tm (s : State) (c : Nat) (f : Core → Core) : (s.modCore c f).tm = s.tm := (rfl)
@[simp] theorem State.modCore_pow (s : State) (c : Nat) (f : Core → Core) : (s.modCore c f).pow = s.pow := (rfl)
@[simp] theorem State.modCore_boot (s : State) (c : Nat) (f : Core → Core) : (s.modCore c f).boot = s.boot := (rfl)
@[simp] theorem State.modCore_mbox (s : State) (c : Nat) (f : Core → Core) : (s.modCore c f).mbox = s.mbox := (rfl)
@[simp] theorem State.modCore_evc (s : State) (c : Nat) (f : Core → Core) : (s.modCore c f).evc = s.evc := (rfl)
@[simp] theorem State.modCore_pins (s : State) (c : Nat) (f : Core → Core) : (s.modCore c f).pins = s.pins := (rfl)
@[simp] theorem State.modCore_acts (s : State) (c : Nat) (f : Core → Core) : (s.modCore c f).acts = s.acts := (rfl)
@[simp] theorem State.modCore_nextAct (s : State) (c : Nat) (f : Core → Core) : (s.modCore c f).nextAct = s.nextAct := (rfl)
@[simp] theorem State.modCore_out (s : State) (c : Nat) (f : Core → Core) : (s.modCore c f).out = s.out := (rfl)
@[simp] theorem State.modCore_occ (s : State) (c : Nat) (f : Core → Core) : (s.modCore c f).occ = s.occ := (rfl)
@[simp] theorem State.modCore_gtc (s : State) (c : Nat) (f : Core → Core) : (s.modCore c f).gtc = s.gtc := (rfl)
@[simp] theorem State.modCore_refNs (s : State) (c : Nat) (f : Core → Core) : (s.modCore c f).refNs = s.refNs := (rfl)
@[simp] theorem State.modCore_sub (s : State) (c : Nat) (f : Core → Core) : (s.modCore c f).sub = s.sub := (rfl)
@[simp] theorem State.modCore_free (s : State) (c : Nat) (f : Core → Core) : (s.modCore c f).free = s.free := (rfl)
@[simp] theorem State.modCore_hw (s : State) (c : Nat) (f : Core → Core) : (s.modCore c f).hw = s.hw := (rfl)
@[simp] theorem State.modCore_scrubs (s : State) (c : Nat) (f : Core → Core) : (s.modCore c f).scrubs = s.scrubs := (rfl)
@[simp] theorem State.modCore_topo (s : State) (c : Nat) (f : Core → Core) : (s.modCore c f).topo = s.topo := (rfl)

@[simp] theorem State.setCluster_pending (s : State) (k : Nat) (v : Cluster) : (s.setCluster k v).pending = s.pending := (rfl)
@[simp] theorem State.setCluster_id (s : State) (k : Nat) (v : Cluster) : (s.setCluster k v).id = s.id := (rfl)
@[simp] theorem State.setCluster_regs (s : State) (k : Nat) (v : Cluster) : (s.setCluster k v).regs = s.regs := (rfl)
@[simp] theorem State.setCluster_latch (s : State) (k : Nat) (v : Cluster) : (s.setCluster k v).latch = s.latch := (rfl)
@[simp] theorem State.setCluster_mem (s : State) (k : Nat) (v : Cluster) : (s.setCluster k v).mem = s.mem := (rfl)
@[simp] theorem State.setCluster_fill (s : State) (k : Nat) (v : Cluster) : (s.setCluster k v).fill = s.fill := (rfl)
@[simp] theorem State.setCluster_bad (s : State) (k : Nat) (v : Cluster) : (s.setCluster k v).bad = s.bad := (rfl)
@[simp] theorem State.setCluster_poisonMem (s : State) (k : Nat) (v : Cluster) : (s.setCluster k v).poisonMem = s.poisonMem := (rfl)
@[simp] theorem State.setCluster_poison (s : State) (k : Nat) (v : Cluster) : (s.setCluster k v).poison = s.poison := (rfl)
@[simp] theorem State.setCluster_cores (s : State) (k : Nat) (v : Cluster) : (s.setCluster k v).cores = s.cores := (rfl)
@[simp] theorem State.setCluster_cols (s : State) (k : Nat) (v : Cluster) : (s.setCluster k v).cols = s.cols := (rfl)
@[simp] theorem State.setCluster_parts (s : State) (k : Nat) (v : Cluster) : (s.setCluster k v).parts = s.parts := (rfl)
@[simp] theorem State.setCluster_ports (s : State) (k : Nat) (v : Cluster) : (s.setCluster k v).ports = s.ports := (rfl)
@[simp] theorem State.setCluster_ps (s : State) (k : Nat) (v : Cluster) : (s.setCluster k v).ps = s.ps := (rfl)
@[simp] theorem State.setCluster_psCount (s : State) (k : Nat) (v : Cluster) : (s.setCluster k v).psCount = s.psCount := (rfl)
@[simp] theorem State.setCluster_psQ (s : State) (k : Nat) (v : Cluster) : (s.setCluster k v).psQ = s.psQ := (rfl)
@[simp] theorem State.setCluster_bankUse (s : State) (k : Nat) (v : Cluster) : (s.setCluster k v).bankUse = s.bankUse := (rfl)
@[simp] theorem State.setCluster_fab (s : State) (k : Nat) (v : Cluster) : (s.setCluster k v).fab = s.fab := (rfl)
@[simp] theorem State.setCluster_table (s : State) (k : Nat) (v : Cluster) : (s.setCluster k v).table = s.table := (rfl)
@[simp] theorem State.setCluster_serve (s : State) (k : Nat) (v : Cluster) : (s.setCluster k v).serve = s.serve := (rfl)
@[simp] theorem State.setCluster_host (s : State) (k : Nat) (v : Cluster) : (s.setCluster k v).host = s.host := (rfl)
@[simp] theorem State.setCluster_tm (s : State) (k : Nat) (v : Cluster) : (s.setCluster k v).tm = s.tm := (rfl)
@[simp] theorem State.setCluster_pow (s : State) (k : Nat) (v : Cluster) : (s.setCluster k v).pow = s.pow := (rfl)
@[simp] theorem State.setCluster_boot (s : State) (k : Nat) (v : Cluster) : (s.setCluster k v).boot = s.boot := (rfl)
@[simp] theorem State.setCluster_mbox (s : State) (k : Nat) (v : Cluster) : (s.setCluster k v).mbox = s.mbox := (rfl)
@[simp] theorem State.setCluster_evc (s : State) (k : Nat) (v : Cluster) : (s.setCluster k v).evc = s.evc := (rfl)
@[simp] theorem State.setCluster_pins (s : State) (k : Nat) (v : Cluster) : (s.setCluster k v).pins = s.pins := (rfl)
@[simp] theorem State.setCluster_acts (s : State) (k : Nat) (v : Cluster) : (s.setCluster k v).acts = s.acts := (rfl)
@[simp] theorem State.setCluster_nextAct (s : State) (k : Nat) (v : Cluster) : (s.setCluster k v).nextAct = s.nextAct := (rfl)
@[simp] theorem State.setCluster_out (s : State) (k : Nat) (v : Cluster) : (s.setCluster k v).out = s.out := (rfl)
@[simp] theorem State.setCluster_occ (s : State) (k : Nat) (v : Cluster) : (s.setCluster k v).occ = s.occ := (rfl)
@[simp] theorem State.setCluster_gtc (s : State) (k : Nat) (v : Cluster) : (s.setCluster k v).gtc = s.gtc := (rfl)
@[simp] theorem State.setCluster_refNs (s : State) (k : Nat) (v : Cluster) : (s.setCluster k v).refNs = s.refNs := (rfl)
@[simp] theorem State.setCluster_sub (s : State) (k : Nat) (v : Cluster) : (s.setCluster k v).sub = s.sub := (rfl)
@[simp] theorem State.setCluster_free (s : State) (k : Nat) (v : Cluster) : (s.setCluster k v).free = s.free := (rfl)
@[simp] theorem State.setCluster_hw (s : State) (k : Nat) (v : Cluster) : (s.setCluster k v).hw = s.hw := (rfl)
@[simp] theorem State.setCluster_scrubs (s : State) (k : Nat) (v : Cluster) : (s.setCluster k v).scrubs = s.scrubs := (rfl)
@[simp] theorem State.setCluster_topo (s : State) (k : Nat) (v : Cluster) : (s.setCluster k v).topo = s.topo := (rfl)

@[simp] theorem State.modCluster_pending (s : State) (k : Nat) (f : Cluster → Cluster) : (s.modCluster k f).pending = s.pending := (rfl)
@[simp] theorem State.modCluster_id (s : State) (k : Nat) (f : Cluster → Cluster) : (s.modCluster k f).id = s.id := (rfl)
@[simp] theorem State.modCluster_regs (s : State) (k : Nat) (f : Cluster → Cluster) : (s.modCluster k f).regs = s.regs := (rfl)
@[simp] theorem State.modCluster_latch (s : State) (k : Nat) (f : Cluster → Cluster) : (s.modCluster k f).latch = s.latch := (rfl)
@[simp] theorem State.modCluster_mem (s : State) (k : Nat) (f : Cluster → Cluster) : (s.modCluster k f).mem = s.mem := (rfl)
@[simp] theorem State.modCluster_fill (s : State) (k : Nat) (f : Cluster → Cluster) : (s.modCluster k f).fill = s.fill := (rfl)
@[simp] theorem State.modCluster_bad (s : State) (k : Nat) (f : Cluster → Cluster) : (s.modCluster k f).bad = s.bad := (rfl)
@[simp] theorem State.modCluster_poisonMem (s : State) (k : Nat) (f : Cluster → Cluster) : (s.modCluster k f).poisonMem = s.poisonMem := (rfl)
@[simp] theorem State.modCluster_poison (s : State) (k : Nat) (f : Cluster → Cluster) : (s.modCluster k f).poison = s.poison := (rfl)
@[simp] theorem State.modCluster_cores (s : State) (k : Nat) (f : Cluster → Cluster) : (s.modCluster k f).cores = s.cores := (rfl)
@[simp] theorem State.modCluster_cols (s : State) (k : Nat) (f : Cluster → Cluster) : (s.modCluster k f).cols = s.cols := (rfl)
@[simp] theorem State.modCluster_parts (s : State) (k : Nat) (f : Cluster → Cluster) : (s.modCluster k f).parts = s.parts := (rfl)
@[simp] theorem State.modCluster_ports (s : State) (k : Nat) (f : Cluster → Cluster) : (s.modCluster k f).ports = s.ports := (rfl)
@[simp] theorem State.modCluster_ps (s : State) (k : Nat) (f : Cluster → Cluster) : (s.modCluster k f).ps = s.ps := (rfl)
@[simp] theorem State.modCluster_psCount (s : State) (k : Nat) (f : Cluster → Cluster) : (s.modCluster k f).psCount = s.psCount := (rfl)
@[simp] theorem State.modCluster_psQ (s : State) (k : Nat) (f : Cluster → Cluster) : (s.modCluster k f).psQ = s.psQ := (rfl)
@[simp] theorem State.modCluster_bankUse (s : State) (k : Nat) (f : Cluster → Cluster) : (s.modCluster k f).bankUse = s.bankUse := (rfl)
@[simp] theorem State.modCluster_fab (s : State) (k : Nat) (f : Cluster → Cluster) : (s.modCluster k f).fab = s.fab := (rfl)
@[simp] theorem State.modCluster_table (s : State) (k : Nat) (f : Cluster → Cluster) : (s.modCluster k f).table = s.table := (rfl)
@[simp] theorem State.modCluster_serve (s : State) (k : Nat) (f : Cluster → Cluster) : (s.modCluster k f).serve = s.serve := (rfl)
@[simp] theorem State.modCluster_host (s : State) (k : Nat) (f : Cluster → Cluster) : (s.modCluster k f).host = s.host := (rfl)
@[simp] theorem State.modCluster_tm (s : State) (k : Nat) (f : Cluster → Cluster) : (s.modCluster k f).tm = s.tm := (rfl)
@[simp] theorem State.modCluster_pow (s : State) (k : Nat) (f : Cluster → Cluster) : (s.modCluster k f).pow = s.pow := (rfl)
@[simp] theorem State.modCluster_boot (s : State) (k : Nat) (f : Cluster → Cluster) : (s.modCluster k f).boot = s.boot := (rfl)
@[simp] theorem State.modCluster_mbox (s : State) (k : Nat) (f : Cluster → Cluster) : (s.modCluster k f).mbox = s.mbox := (rfl)
@[simp] theorem State.modCluster_evc (s : State) (k : Nat) (f : Cluster → Cluster) : (s.modCluster k f).evc = s.evc := (rfl)
@[simp] theorem State.modCluster_pins (s : State) (k : Nat) (f : Cluster → Cluster) : (s.modCluster k f).pins = s.pins := (rfl)
@[simp] theorem State.modCluster_acts (s : State) (k : Nat) (f : Cluster → Cluster) : (s.modCluster k f).acts = s.acts := (rfl)
@[simp] theorem State.modCluster_nextAct (s : State) (k : Nat) (f : Cluster → Cluster) : (s.modCluster k f).nextAct = s.nextAct := (rfl)
@[simp] theorem State.modCluster_out (s : State) (k : Nat) (f : Cluster → Cluster) : (s.modCluster k f).out = s.out := (rfl)
@[simp] theorem State.modCluster_occ (s : State) (k : Nat) (f : Cluster → Cluster) : (s.modCluster k f).occ = s.occ := (rfl)
@[simp] theorem State.modCluster_gtc (s : State) (k : Nat) (f : Cluster → Cluster) : (s.modCluster k f).gtc = s.gtc := (rfl)
@[simp] theorem State.modCluster_refNs (s : State) (k : Nat) (f : Cluster → Cluster) : (s.modCluster k f).refNs = s.refNs := (rfl)
@[simp] theorem State.modCluster_sub (s : State) (k : Nat) (f : Cluster → Cluster) : (s.modCluster k f).sub = s.sub := (rfl)
@[simp] theorem State.modCluster_free (s : State) (k : Nat) (f : Cluster → Cluster) : (s.modCluster k f).free = s.free := (rfl)
@[simp] theorem State.modCluster_hw (s : State) (k : Nat) (f : Cluster → Cluster) : (s.modCluster k f).hw = s.hw := (rfl)
@[simp] theorem State.modCluster_scrubs (s : State) (k : Nat) (f : Cluster → Cluster) : (s.modCluster k f).scrubs = s.scrubs := (rfl)
@[simp] theorem State.modCluster_topo (s : State) (k : Nat) (f : Cluster → Cluster) : (s.modCluster k f).topo = s.topo := (rfl)

@[simp] theorem State.setCol_pending (s : State) (k : Nat) (v : TierCol) : (s.setCol k v).pending = s.pending := (rfl)
@[simp] theorem State.setCol_id (s : State) (k : Nat) (v : TierCol) : (s.setCol k v).id = s.id := (rfl)
@[simp] theorem State.setCol_regs (s : State) (k : Nat) (v : TierCol) : (s.setCol k v).regs = s.regs := (rfl)
@[simp] theorem State.setCol_latch (s : State) (k : Nat) (v : TierCol) : (s.setCol k v).latch = s.latch := (rfl)
@[simp] theorem State.setCol_mem (s : State) (k : Nat) (v : TierCol) : (s.setCol k v).mem = s.mem := (rfl)
@[simp] theorem State.setCol_fill (s : State) (k : Nat) (v : TierCol) : (s.setCol k v).fill = s.fill := (rfl)
@[simp] theorem State.setCol_bad (s : State) (k : Nat) (v : TierCol) : (s.setCol k v).bad = s.bad := (rfl)
@[simp] theorem State.setCol_poisonMem (s : State) (k : Nat) (v : TierCol) : (s.setCol k v).poisonMem = s.poisonMem := (rfl)
@[simp] theorem State.setCol_poison (s : State) (k : Nat) (v : TierCol) : (s.setCol k v).poison = s.poison := (rfl)
@[simp] theorem State.setCol_cores (s : State) (k : Nat) (v : TierCol) : (s.setCol k v).cores = s.cores := (rfl)
@[simp] theorem State.setCol_clusters (s : State) (k : Nat) (v : TierCol) : (s.setCol k v).clusters = s.clusters := (rfl)
@[simp] theorem State.setCol_parts (s : State) (k : Nat) (v : TierCol) : (s.setCol k v).parts = s.parts := (rfl)
@[simp] theorem State.setCol_ports (s : State) (k : Nat) (v : TierCol) : (s.setCol k v).ports = s.ports := (rfl)
@[simp] theorem State.setCol_ps (s : State) (k : Nat) (v : TierCol) : (s.setCol k v).ps = s.ps := (rfl)
@[simp] theorem State.setCol_psCount (s : State) (k : Nat) (v : TierCol) : (s.setCol k v).psCount = s.psCount := (rfl)
@[simp] theorem State.setCol_psQ (s : State) (k : Nat) (v : TierCol) : (s.setCol k v).psQ = s.psQ := (rfl)
@[simp] theorem State.setCol_bankUse (s : State) (k : Nat) (v : TierCol) : (s.setCol k v).bankUse = s.bankUse := (rfl)
@[simp] theorem State.setCol_fab (s : State) (k : Nat) (v : TierCol) : (s.setCol k v).fab = s.fab := (rfl)
@[simp] theorem State.setCol_table (s : State) (k : Nat) (v : TierCol) : (s.setCol k v).table = s.table := (rfl)
@[simp] theorem State.setCol_serve (s : State) (k : Nat) (v : TierCol) : (s.setCol k v).serve = s.serve := (rfl)
@[simp] theorem State.setCol_host (s : State) (k : Nat) (v : TierCol) : (s.setCol k v).host = s.host := (rfl)
@[simp] theorem State.setCol_tm (s : State) (k : Nat) (v : TierCol) : (s.setCol k v).tm = s.tm := (rfl)
@[simp] theorem State.setCol_pow (s : State) (k : Nat) (v : TierCol) : (s.setCol k v).pow = s.pow := (rfl)
@[simp] theorem State.setCol_boot (s : State) (k : Nat) (v : TierCol) : (s.setCol k v).boot = s.boot := (rfl)
@[simp] theorem State.setCol_mbox (s : State) (k : Nat) (v : TierCol) : (s.setCol k v).mbox = s.mbox := (rfl)
@[simp] theorem State.setCol_evc (s : State) (k : Nat) (v : TierCol) : (s.setCol k v).evc = s.evc := (rfl)
@[simp] theorem State.setCol_pins (s : State) (k : Nat) (v : TierCol) : (s.setCol k v).pins = s.pins := (rfl)
@[simp] theorem State.setCol_acts (s : State) (k : Nat) (v : TierCol) : (s.setCol k v).acts = s.acts := (rfl)
@[simp] theorem State.setCol_nextAct (s : State) (k : Nat) (v : TierCol) : (s.setCol k v).nextAct = s.nextAct := (rfl)
@[simp] theorem State.setCol_out (s : State) (k : Nat) (v : TierCol) : (s.setCol k v).out = s.out := (rfl)
@[simp] theorem State.setCol_occ (s : State) (k : Nat) (v : TierCol) : (s.setCol k v).occ = s.occ := (rfl)
@[simp] theorem State.setCol_gtc (s : State) (k : Nat) (v : TierCol) : (s.setCol k v).gtc = s.gtc := (rfl)
@[simp] theorem State.setCol_refNs (s : State) (k : Nat) (v : TierCol) : (s.setCol k v).refNs = s.refNs := (rfl)
@[simp] theorem State.setCol_sub (s : State) (k : Nat) (v : TierCol) : (s.setCol k v).sub = s.sub := (rfl)
@[simp] theorem State.setCol_free (s : State) (k : Nat) (v : TierCol) : (s.setCol k v).free = s.free := (rfl)
@[simp] theorem State.setCol_hw (s : State) (k : Nat) (v : TierCol) : (s.setCol k v).hw = s.hw := (rfl)
@[simp] theorem State.setCol_scrubs (s : State) (k : Nat) (v : TierCol) : (s.setCol k v).scrubs = s.scrubs := (rfl)
@[simp] theorem State.setCol_topo (s : State) (k : Nat) (v : TierCol) : (s.setCol k v).topo = s.topo := (rfl)

@[simp] theorem State.setPart_pending (s : State) (q : Nat) (v : Part) : (s.setPart q v).pending = s.pending := (rfl)
@[simp] theorem State.setPart_id (s : State) (q : Nat) (v : Part) : (s.setPart q v).id = s.id := (rfl)
@[simp] theorem State.setPart_regs (s : State) (q : Nat) (v : Part) : (s.setPart q v).regs = s.regs := (rfl)
@[simp] theorem State.setPart_latch (s : State) (q : Nat) (v : Part) : (s.setPart q v).latch = s.latch := (rfl)
@[simp] theorem State.setPart_mem (s : State) (q : Nat) (v : Part) : (s.setPart q v).mem = s.mem := (rfl)
@[simp] theorem State.setPart_fill (s : State) (q : Nat) (v : Part) : (s.setPart q v).fill = s.fill := (rfl)
@[simp] theorem State.setPart_bad (s : State) (q : Nat) (v : Part) : (s.setPart q v).bad = s.bad := (rfl)
@[simp] theorem State.setPart_poisonMem (s : State) (q : Nat) (v : Part) : (s.setPart q v).poisonMem = s.poisonMem := (rfl)
@[simp] theorem State.setPart_poison (s : State) (q : Nat) (v : Part) : (s.setPart q v).poison = s.poison := (rfl)
@[simp] theorem State.setPart_cores (s : State) (q : Nat) (v : Part) : (s.setPart q v).cores = s.cores := (rfl)
@[simp] theorem State.setPart_clusters (s : State) (q : Nat) (v : Part) : (s.setPart q v).clusters = s.clusters := (rfl)
@[simp] theorem State.setPart_cols (s : State) (q : Nat) (v : Part) : (s.setPart q v).cols = s.cols := (rfl)
@[simp] theorem State.setPart_ports (s : State) (q : Nat) (v : Part) : (s.setPart q v).ports = s.ports := (rfl)
@[simp] theorem State.setPart_ps (s : State) (q : Nat) (v : Part) : (s.setPart q v).ps = s.ps := (rfl)
@[simp] theorem State.setPart_psCount (s : State) (q : Nat) (v : Part) : (s.setPart q v).psCount = s.psCount := (rfl)
@[simp] theorem State.setPart_psQ (s : State) (q : Nat) (v : Part) : (s.setPart q v).psQ = s.psQ := (rfl)
@[simp] theorem State.setPart_bankUse (s : State) (q : Nat) (v : Part) : (s.setPart q v).bankUse = s.bankUse := (rfl)
@[simp] theorem State.setPart_fab (s : State) (q : Nat) (v : Part) : (s.setPart q v).fab = s.fab := (rfl)
@[simp] theorem State.setPart_table (s : State) (q : Nat) (v : Part) : (s.setPart q v).table = s.table := (rfl)
@[simp] theorem State.setPart_serve (s : State) (q : Nat) (v : Part) : (s.setPart q v).serve = s.serve := (rfl)
@[simp] theorem State.setPart_host (s : State) (q : Nat) (v : Part) : (s.setPart q v).host = s.host := (rfl)
@[simp] theorem State.setPart_tm (s : State) (q : Nat) (v : Part) : (s.setPart q v).tm = s.tm := (rfl)
@[simp] theorem State.setPart_pow (s : State) (q : Nat) (v : Part) : (s.setPart q v).pow = s.pow := (rfl)
@[simp] theorem State.setPart_boot (s : State) (q : Nat) (v : Part) : (s.setPart q v).boot = s.boot := (rfl)
@[simp] theorem State.setPart_mbox (s : State) (q : Nat) (v : Part) : (s.setPart q v).mbox = s.mbox := (rfl)
@[simp] theorem State.setPart_evc (s : State) (q : Nat) (v : Part) : (s.setPart q v).evc = s.evc := (rfl)
@[simp] theorem State.setPart_pins (s : State) (q : Nat) (v : Part) : (s.setPart q v).pins = s.pins := (rfl)
@[simp] theorem State.setPart_acts (s : State) (q : Nat) (v : Part) : (s.setPart q v).acts = s.acts := (rfl)
@[simp] theorem State.setPart_nextAct (s : State) (q : Nat) (v : Part) : (s.setPart q v).nextAct = s.nextAct := (rfl)
@[simp] theorem State.setPart_out (s : State) (q : Nat) (v : Part) : (s.setPart q v).out = s.out := (rfl)
@[simp] theorem State.setPart_occ (s : State) (q : Nat) (v : Part) : (s.setPart q v).occ = s.occ := (rfl)
@[simp] theorem State.setPart_gtc (s : State) (q : Nat) (v : Part) : (s.setPart q v).gtc = s.gtc := (rfl)
@[simp] theorem State.setPart_refNs (s : State) (q : Nat) (v : Part) : (s.setPart q v).refNs = s.refNs := (rfl)
@[simp] theorem State.setPart_sub (s : State) (q : Nat) (v : Part) : (s.setPart q v).sub = s.sub := (rfl)
@[simp] theorem State.setPart_free (s : State) (q : Nat) (v : Part) : (s.setPart q v).free = s.free := (rfl)
@[simp] theorem State.setPart_hw (s : State) (q : Nat) (v : Part) : (s.setPart q v).hw = s.hw := (rfl)
@[simp] theorem State.setPart_scrubs (s : State) (q : Nat) (v : Part) : (s.setPart q v).scrubs = s.scrubs := (rfl)
@[simp] theorem State.setPart_topo (s : State) (q : Nat) (v : Part) : (s.setPart q v).topo = s.topo := (rfl)

@[simp] theorem State.modPart_pending (s : State) (q : Nat) (f : Part → Part) : (s.modPart q f).pending = s.pending := (rfl)
@[simp] theorem State.modPart_id (s : State) (q : Nat) (f : Part → Part) : (s.modPart q f).id = s.id := (rfl)
@[simp] theorem State.modPart_regs (s : State) (q : Nat) (f : Part → Part) : (s.modPart q f).regs = s.regs := (rfl)
@[simp] theorem State.modPart_latch (s : State) (q : Nat) (f : Part → Part) : (s.modPart q f).latch = s.latch := (rfl)
@[simp] theorem State.modPart_mem (s : State) (q : Nat) (f : Part → Part) : (s.modPart q f).mem = s.mem := (rfl)
@[simp] theorem State.modPart_fill (s : State) (q : Nat) (f : Part → Part) : (s.modPart q f).fill = s.fill := (rfl)
@[simp] theorem State.modPart_bad (s : State) (q : Nat) (f : Part → Part) : (s.modPart q f).bad = s.bad := (rfl)
@[simp] theorem State.modPart_poisonMem (s : State) (q : Nat) (f : Part → Part) : (s.modPart q f).poisonMem = s.poisonMem := (rfl)
@[simp] theorem State.modPart_poison (s : State) (q : Nat) (f : Part → Part) : (s.modPart q f).poison = s.poison := (rfl)
@[simp] theorem State.modPart_cores (s : State) (q : Nat) (f : Part → Part) : (s.modPart q f).cores = s.cores := (rfl)
@[simp] theorem State.modPart_clusters (s : State) (q : Nat) (f : Part → Part) : (s.modPart q f).clusters = s.clusters := (rfl)
@[simp] theorem State.modPart_cols (s : State) (q : Nat) (f : Part → Part) : (s.modPart q f).cols = s.cols := (rfl)
@[simp] theorem State.modPart_ports (s : State) (q : Nat) (f : Part → Part) : (s.modPart q f).ports = s.ports := (rfl)
@[simp] theorem State.modPart_ps (s : State) (q : Nat) (f : Part → Part) : (s.modPart q f).ps = s.ps := (rfl)
@[simp] theorem State.modPart_psCount (s : State) (q : Nat) (f : Part → Part) : (s.modPart q f).psCount = s.psCount := (rfl)
@[simp] theorem State.modPart_psQ (s : State) (q : Nat) (f : Part → Part) : (s.modPart q f).psQ = s.psQ := (rfl)
@[simp] theorem State.modPart_bankUse (s : State) (q : Nat) (f : Part → Part) : (s.modPart q f).bankUse = s.bankUse := (rfl)
@[simp] theorem State.modPart_fab (s : State) (q : Nat) (f : Part → Part) : (s.modPart q f).fab = s.fab := (rfl)
@[simp] theorem State.modPart_table (s : State) (q : Nat) (f : Part → Part) : (s.modPart q f).table = s.table := (rfl)
@[simp] theorem State.modPart_serve (s : State) (q : Nat) (f : Part → Part) : (s.modPart q f).serve = s.serve := (rfl)
@[simp] theorem State.modPart_host (s : State) (q : Nat) (f : Part → Part) : (s.modPart q f).host = s.host := (rfl)
@[simp] theorem State.modPart_tm (s : State) (q : Nat) (f : Part → Part) : (s.modPart q f).tm = s.tm := (rfl)
@[simp] theorem State.modPart_pow (s : State) (q : Nat) (f : Part → Part) : (s.modPart q f).pow = s.pow := (rfl)
@[simp] theorem State.modPart_boot (s : State) (q : Nat) (f : Part → Part) : (s.modPart q f).boot = s.boot := (rfl)
@[simp] theorem State.modPart_mbox (s : State) (q : Nat) (f : Part → Part) : (s.modPart q f).mbox = s.mbox := (rfl)
@[simp] theorem State.modPart_evc (s : State) (q : Nat) (f : Part → Part) : (s.modPart q f).evc = s.evc := (rfl)
@[simp] theorem State.modPart_pins (s : State) (q : Nat) (f : Part → Part) : (s.modPart q f).pins = s.pins := (rfl)
@[simp] theorem State.modPart_acts (s : State) (q : Nat) (f : Part → Part) : (s.modPart q f).acts = s.acts := (rfl)
@[simp] theorem State.modPart_nextAct (s : State) (q : Nat) (f : Part → Part) : (s.modPart q f).nextAct = s.nextAct := (rfl)
@[simp] theorem State.modPart_out (s : State) (q : Nat) (f : Part → Part) : (s.modPart q f).out = s.out := (rfl)
@[simp] theorem State.modPart_occ (s : State) (q : Nat) (f : Part → Part) : (s.modPart q f).occ = s.occ := (rfl)
@[simp] theorem State.modPart_gtc (s : State) (q : Nat) (f : Part → Part) : (s.modPart q f).gtc = s.gtc := (rfl)
@[simp] theorem State.modPart_refNs (s : State) (q : Nat) (f : Part → Part) : (s.modPart q f).refNs = s.refNs := (rfl)
@[simp] theorem State.modPart_sub (s : State) (q : Nat) (f : Part → Part) : (s.modPart q f).sub = s.sub := (rfl)
@[simp] theorem State.modPart_free (s : State) (q : Nat) (f : Part → Part) : (s.modPart q f).free = s.free := (rfl)
@[simp] theorem State.modPart_hw (s : State) (q : Nat) (f : Part → Part) : (s.modPart q f).hw = s.hw := (rfl)
@[simp] theorem State.modPart_scrubs (s : State) (q : Nat) (f : Part → Part) : (s.modPart q f).scrubs = s.scrubs := (rfl)
@[simp] theorem State.modPart_topo (s : State) (q : Nat) (f : Part → Part) : (s.modPart q f).topo = s.topo := (rfl)

@[simp] theorem State.setPort_pending (s : State) (n : Nat) (v : Port) : (s.setPort n v).pending = s.pending := (rfl)
@[simp] theorem State.setPort_id (s : State) (n : Nat) (v : Port) : (s.setPort n v).id = s.id := (rfl)
@[simp] theorem State.setPort_regs (s : State) (n : Nat) (v : Port) : (s.setPort n v).regs = s.regs := (rfl)
@[simp] theorem State.setPort_latch (s : State) (n : Nat) (v : Port) : (s.setPort n v).latch = s.latch := (rfl)
@[simp] theorem State.setPort_mem (s : State) (n : Nat) (v : Port) : (s.setPort n v).mem = s.mem := (rfl)
@[simp] theorem State.setPort_fill (s : State) (n : Nat) (v : Port) : (s.setPort n v).fill = s.fill := (rfl)
@[simp] theorem State.setPort_bad (s : State) (n : Nat) (v : Port) : (s.setPort n v).bad = s.bad := (rfl)
@[simp] theorem State.setPort_poisonMem (s : State) (n : Nat) (v : Port) : (s.setPort n v).poisonMem = s.poisonMem := (rfl)
@[simp] theorem State.setPort_poison (s : State) (n : Nat) (v : Port) : (s.setPort n v).poison = s.poison := (rfl)
@[simp] theorem State.setPort_cores (s : State) (n : Nat) (v : Port) : (s.setPort n v).cores = s.cores := (rfl)
@[simp] theorem State.setPort_clusters (s : State) (n : Nat) (v : Port) : (s.setPort n v).clusters = s.clusters := (rfl)
@[simp] theorem State.setPort_cols (s : State) (n : Nat) (v : Port) : (s.setPort n v).cols = s.cols := (rfl)
@[simp] theorem State.setPort_parts (s : State) (n : Nat) (v : Port) : (s.setPort n v).parts = s.parts := (rfl)
@[simp] theorem State.setPort_ps (s : State) (n : Nat) (v : Port) : (s.setPort n v).ps = s.ps := (rfl)
@[simp] theorem State.setPort_psCount (s : State) (n : Nat) (v : Port) : (s.setPort n v).psCount = s.psCount := (rfl)
@[simp] theorem State.setPort_psQ (s : State) (n : Nat) (v : Port) : (s.setPort n v).psQ = s.psQ := (rfl)
@[simp] theorem State.setPort_bankUse (s : State) (n : Nat) (v : Port) : (s.setPort n v).bankUse = s.bankUse := (rfl)
@[simp] theorem State.setPort_fab (s : State) (n : Nat) (v : Port) : (s.setPort n v).fab = s.fab := (rfl)
@[simp] theorem State.setPort_table (s : State) (n : Nat) (v : Port) : (s.setPort n v).table = s.table := (rfl)
@[simp] theorem State.setPort_serve (s : State) (n : Nat) (v : Port) : (s.setPort n v).serve = s.serve := (rfl)
@[simp] theorem State.setPort_host (s : State) (n : Nat) (v : Port) : (s.setPort n v).host = s.host := (rfl)
@[simp] theorem State.setPort_tm (s : State) (n : Nat) (v : Port) : (s.setPort n v).tm = s.tm := (rfl)
@[simp] theorem State.setPort_pow (s : State) (n : Nat) (v : Port) : (s.setPort n v).pow = s.pow := (rfl)
@[simp] theorem State.setPort_boot (s : State) (n : Nat) (v : Port) : (s.setPort n v).boot = s.boot := (rfl)
@[simp] theorem State.setPort_mbox (s : State) (n : Nat) (v : Port) : (s.setPort n v).mbox = s.mbox := (rfl)
@[simp] theorem State.setPort_evc (s : State) (n : Nat) (v : Port) : (s.setPort n v).evc = s.evc := (rfl)
@[simp] theorem State.setPort_pins (s : State) (n : Nat) (v : Port) : (s.setPort n v).pins = s.pins := (rfl)
@[simp] theorem State.setPort_acts (s : State) (n : Nat) (v : Port) : (s.setPort n v).acts = s.acts := (rfl)
@[simp] theorem State.setPort_nextAct (s : State) (n : Nat) (v : Port) : (s.setPort n v).nextAct = s.nextAct := (rfl)
@[simp] theorem State.setPort_out (s : State) (n : Nat) (v : Port) : (s.setPort n v).out = s.out := (rfl)
@[simp] theorem State.setPort_occ (s : State) (n : Nat) (v : Port) : (s.setPort n v).occ = s.occ := (rfl)
@[simp] theorem State.setPort_gtc (s : State) (n : Nat) (v : Port) : (s.setPort n v).gtc = s.gtc := (rfl)
@[simp] theorem State.setPort_refNs (s : State) (n : Nat) (v : Port) : (s.setPort n v).refNs = s.refNs := (rfl)
@[simp] theorem State.setPort_sub (s : State) (n : Nat) (v : Port) : (s.setPort n v).sub = s.sub := (rfl)
@[simp] theorem State.setPort_free (s : State) (n : Nat) (v : Port) : (s.setPort n v).free = s.free := (rfl)
@[simp] theorem State.setPort_hw (s : State) (n : Nat) (v : Port) : (s.setPort n v).hw = s.hw := (rfl)
@[simp] theorem State.setPort_scrubs (s : State) (n : Nat) (v : Port) : (s.setPort n v).scrubs = s.scrubs := (rfl)
@[simp] theorem State.setPort_topo (s : State) (n : Nat) (v : Port) : (s.setPort n v).topo = s.topo := (rfl)

@[simp] theorem State.modPort_pending (s : State) (n : Nat) (f : Port → Port) : (s.modPort n f).pending = s.pending := (rfl)
@[simp] theorem State.modPort_id (s : State) (n : Nat) (f : Port → Port) : (s.modPort n f).id = s.id := (rfl)
@[simp] theorem State.modPort_regs (s : State) (n : Nat) (f : Port → Port) : (s.modPort n f).regs = s.regs := (rfl)
@[simp] theorem State.modPort_latch (s : State) (n : Nat) (f : Port → Port) : (s.modPort n f).latch = s.latch := (rfl)
@[simp] theorem State.modPort_mem (s : State) (n : Nat) (f : Port → Port) : (s.modPort n f).mem = s.mem := (rfl)
@[simp] theorem State.modPort_fill (s : State) (n : Nat) (f : Port → Port) : (s.modPort n f).fill = s.fill := (rfl)
@[simp] theorem State.modPort_bad (s : State) (n : Nat) (f : Port → Port) : (s.modPort n f).bad = s.bad := (rfl)
@[simp] theorem State.modPort_poisonMem (s : State) (n : Nat) (f : Port → Port) : (s.modPort n f).poisonMem = s.poisonMem := (rfl)
@[simp] theorem State.modPort_poison (s : State) (n : Nat) (f : Port → Port) : (s.modPort n f).poison = s.poison := (rfl)
@[simp] theorem State.modPort_cores (s : State) (n : Nat) (f : Port → Port) : (s.modPort n f).cores = s.cores := (rfl)
@[simp] theorem State.modPort_clusters (s : State) (n : Nat) (f : Port → Port) : (s.modPort n f).clusters = s.clusters := (rfl)
@[simp] theorem State.modPort_cols (s : State) (n : Nat) (f : Port → Port) : (s.modPort n f).cols = s.cols := (rfl)
@[simp] theorem State.modPort_parts (s : State) (n : Nat) (f : Port → Port) : (s.modPort n f).parts = s.parts := (rfl)
@[simp] theorem State.modPort_ps (s : State) (n : Nat) (f : Port → Port) : (s.modPort n f).ps = s.ps := (rfl)
@[simp] theorem State.modPort_psCount (s : State) (n : Nat) (f : Port → Port) : (s.modPort n f).psCount = s.psCount := (rfl)
@[simp] theorem State.modPort_psQ (s : State) (n : Nat) (f : Port → Port) : (s.modPort n f).psQ = s.psQ := (rfl)
@[simp] theorem State.modPort_bankUse (s : State) (n : Nat) (f : Port → Port) : (s.modPort n f).bankUse = s.bankUse := (rfl)
@[simp] theorem State.modPort_fab (s : State) (n : Nat) (f : Port → Port) : (s.modPort n f).fab = s.fab := (rfl)
@[simp] theorem State.modPort_table (s : State) (n : Nat) (f : Port → Port) : (s.modPort n f).table = s.table := (rfl)
@[simp] theorem State.modPort_serve (s : State) (n : Nat) (f : Port → Port) : (s.modPort n f).serve = s.serve := (rfl)
@[simp] theorem State.modPort_host (s : State) (n : Nat) (f : Port → Port) : (s.modPort n f).host = s.host := (rfl)
@[simp] theorem State.modPort_tm (s : State) (n : Nat) (f : Port → Port) : (s.modPort n f).tm = s.tm := (rfl)
@[simp] theorem State.modPort_pow (s : State) (n : Nat) (f : Port → Port) : (s.modPort n f).pow = s.pow := (rfl)
@[simp] theorem State.modPort_boot (s : State) (n : Nat) (f : Port → Port) : (s.modPort n f).boot = s.boot := (rfl)
@[simp] theorem State.modPort_mbox (s : State) (n : Nat) (f : Port → Port) : (s.modPort n f).mbox = s.mbox := (rfl)
@[simp] theorem State.modPort_evc (s : State) (n : Nat) (f : Port → Port) : (s.modPort n f).evc = s.evc := (rfl)
@[simp] theorem State.modPort_pins (s : State) (n : Nat) (f : Port → Port) : (s.modPort n f).pins = s.pins := (rfl)
@[simp] theorem State.modPort_acts (s : State) (n : Nat) (f : Port → Port) : (s.modPort n f).acts = s.acts := (rfl)
@[simp] theorem State.modPort_nextAct (s : State) (n : Nat) (f : Port → Port) : (s.modPort n f).nextAct = s.nextAct := (rfl)
@[simp] theorem State.modPort_out (s : State) (n : Nat) (f : Port → Port) : (s.modPort n f).out = s.out := (rfl)
@[simp] theorem State.modPort_occ (s : State) (n : Nat) (f : Port → Port) : (s.modPort n f).occ = s.occ := (rfl)
@[simp] theorem State.modPort_gtc (s : State) (n : Nat) (f : Port → Port) : (s.modPort n f).gtc = s.gtc := (rfl)
@[simp] theorem State.modPort_refNs (s : State) (n : Nat) (f : Port → Port) : (s.modPort n f).refNs = s.refNs := (rfl)
@[simp] theorem State.modPort_sub (s : State) (n : Nat) (f : Port → Port) : (s.modPort n f).sub = s.sub := (rfl)
@[simp] theorem State.modPort_free (s : State) (n : Nat) (f : Port → Port) : (s.modPort n f).free = s.free := (rfl)
@[simp] theorem State.modPort_hw (s : State) (n : Nat) (f : Port → Port) : (s.modPort n f).hw = s.hw := (rfl)
@[simp] theorem State.modPort_scrubs (s : State) (n : Nat) (f : Port → Port) : (s.modPort n f).scrubs = s.scrubs := (rfl)
@[simp] theorem State.modPort_topo (s : State) (n : Nat) (f : Port → Port) : (s.modPort n f).topo = s.topo := (rfl)

@[simp] theorem State.raise_pending (s : State) (n : Nat) : (s.raise n).pending = s.pending := (rfl)
@[simp] theorem State.raise_id (s : State) (n : Nat) : (s.raise n).id = s.id := (rfl)
@[simp] theorem State.raise_regs (s : State) (n : Nat) : (s.raise n).regs = s.regs := (rfl)
@[simp] theorem State.raise_latch (s : State) (n : Nat) : (s.raise n).latch = s.latch := (rfl)
@[simp] theorem State.raise_mem (s : State) (n : Nat) : (s.raise n).mem = s.mem := (rfl)
@[simp] theorem State.raise_fill (s : State) (n : Nat) : (s.raise n).fill = s.fill := (rfl)
@[simp] theorem State.raise_bad (s : State) (n : Nat) : (s.raise n).bad = s.bad := (rfl)
@[simp] theorem State.raise_poisonMem (s : State) (n : Nat) : (s.raise n).poisonMem = s.poisonMem := (rfl)
@[simp] theorem State.raise_poison (s : State) (n : Nat) : (s.raise n).poison = s.poison := (rfl)
@[simp] theorem State.raise_cores (s : State) (n : Nat) : (s.raise n).cores = s.cores := (rfl)
@[simp] theorem State.raise_clusters (s : State) (n : Nat) : (s.raise n).clusters = s.clusters := (rfl)
@[simp] theorem State.raise_cols (s : State) (n : Nat) : (s.raise n).cols = s.cols := (rfl)
@[simp] theorem State.raise_parts (s : State) (n : Nat) : (s.raise n).parts = s.parts := (rfl)
@[simp] theorem State.raise_ports (s : State) (n : Nat) : (s.raise n).ports = s.ports := (rfl)
@[simp] theorem State.raise_ps (s : State) (n : Nat) : (s.raise n).ps = s.ps := (rfl)
@[simp] theorem State.raise_psCount (s : State) (n : Nat) : (s.raise n).psCount = s.psCount := (rfl)
@[simp] theorem State.raise_psQ (s : State) (n : Nat) : (s.raise n).psQ = s.psQ := (rfl)
@[simp] theorem State.raise_bankUse (s : State) (n : Nat) : (s.raise n).bankUse = s.bankUse := (rfl)
@[simp] theorem State.raise_fab (s : State) (n : Nat) : (s.raise n).fab = s.fab := (rfl)
@[simp] theorem State.raise_table (s : State) (n : Nat) : (s.raise n).table = s.table := (rfl)
@[simp] theorem State.raise_serve (s : State) (n : Nat) : (s.raise n).serve = s.serve := (rfl)
@[simp] theorem State.raise_host (s : State) (n : Nat) : (s.raise n).host = s.host := (rfl)
@[simp] theorem State.raise_tm (s : State) (n : Nat) : (s.raise n).tm = s.tm := (rfl)
@[simp] theorem State.raise_pow (s : State) (n : Nat) : (s.raise n).pow = s.pow := (rfl)
@[simp] theorem State.raise_boot (s : State) (n : Nat) : (s.raise n).boot = s.boot := (rfl)
@[simp] theorem State.raise_mbox (s : State) (n : Nat) : (s.raise n).mbox = s.mbox := (rfl)
@[simp] theorem State.raise_evc (s : State) (n : Nat) : (s.raise n).evc = s.evc := (rfl)
@[simp] theorem State.raise_pins (s : State) (n : Nat) : (s.raise n).pins = s.pins := (rfl)
@[simp] theorem State.raise_acts (s : State) (n : Nat) : (s.raise n).acts = s.acts := (rfl)
@[simp] theorem State.raise_nextAct (s : State) (n : Nat) : (s.raise n).nextAct = s.nextAct := (rfl)
@[simp] theorem State.raise_out (s : State) (n : Nat) : (s.raise n).out = s.out := (rfl)
@[simp] theorem State.raise_gtc (s : State) (n : Nat) : (s.raise n).gtc = s.gtc := (rfl)
@[simp] theorem State.raise_refNs (s : State) (n : Nat) : (s.raise n).refNs = s.refNs := (rfl)
@[simp] theorem State.raise_sub (s : State) (n : Nat) : (s.raise n).sub = s.sub := (rfl)
@[simp] theorem State.raise_free (s : State) (n : Nat) : (s.raise n).free = s.free := (rfl)
@[simp] theorem State.raise_hw (s : State) (n : Nat) : (s.raise n).hw = s.hw := (rfl)
@[simp] theorem State.raise_scrubs (s : State) (n : Nat) : (s.raise n).scrubs = s.scrubs := (rfl)
@[simp] theorem State.raise_topo (s : State) (n : Nat) : (s.raise n).topo = s.topo := (rfl)

@[simp] theorem State.wrByte_pending (s : State) (a : Nat) (b : Byte) : (s.wrByte a b).pending = s.pending := (rfl)
@[simp] theorem State.wrByte_id (s : State) (a : Nat) (b : Byte) : (s.wrByte a b).id = s.id := (rfl)
@[simp] theorem State.wrByte_regs (s : State) (a : Nat) (b : Byte) : (s.wrByte a b).regs = s.regs := (rfl)
@[simp] theorem State.wrByte_latch (s : State) (a : Nat) (b : Byte) : (s.wrByte a b).latch = s.latch := (rfl)
@[simp] theorem State.wrByte_fill (s : State) (a : Nat) (b : Byte) : (s.wrByte a b).fill = s.fill := (rfl)
@[simp] theorem State.wrByte_bad (s : State) (a : Nat) (b : Byte) : (s.wrByte a b).bad = s.bad := (rfl)
@[simp] theorem State.wrByte_poisonMem (s : State) (a : Nat) (b : Byte) : (s.wrByte a b).poisonMem = s.poisonMem := (rfl)
@[simp] theorem State.wrByte_poison (s : State) (a : Nat) (b : Byte) : (s.wrByte a b).poison = s.poison := (rfl)
@[simp] theorem State.wrByte_cores (s : State) (a : Nat) (b : Byte) : (s.wrByte a b).cores = s.cores := (rfl)
@[simp] theorem State.wrByte_clusters (s : State) (a : Nat) (b : Byte) : (s.wrByte a b).clusters = s.clusters := (rfl)
@[simp] theorem State.wrByte_cols (s : State) (a : Nat) (b : Byte) : (s.wrByte a b).cols = s.cols := (rfl)
@[simp] theorem State.wrByte_parts (s : State) (a : Nat) (b : Byte) : (s.wrByte a b).parts = s.parts := (rfl)
@[simp] theorem State.wrByte_ports (s : State) (a : Nat) (b : Byte) : (s.wrByte a b).ports = s.ports := (rfl)
@[simp] theorem State.wrByte_ps (s : State) (a : Nat) (b : Byte) : (s.wrByte a b).ps = s.ps := (rfl)
@[simp] theorem State.wrByte_psCount (s : State) (a : Nat) (b : Byte) : (s.wrByte a b).psCount = s.psCount := (rfl)
@[simp] theorem State.wrByte_psQ (s : State) (a : Nat) (b : Byte) : (s.wrByte a b).psQ = s.psQ := (rfl)
@[simp] theorem State.wrByte_bankUse (s : State) (a : Nat) (b : Byte) : (s.wrByte a b).bankUse = s.bankUse := (rfl)
@[simp] theorem State.wrByte_fab (s : State) (a : Nat) (b : Byte) : (s.wrByte a b).fab = s.fab := (rfl)
@[simp] theorem State.wrByte_table (s : State) (a : Nat) (b : Byte) : (s.wrByte a b).table = s.table := (rfl)
@[simp] theorem State.wrByte_serve (s : State) (a : Nat) (b : Byte) : (s.wrByte a b).serve = s.serve := (rfl)
@[simp] theorem State.wrByte_host (s : State) (a : Nat) (b : Byte) : (s.wrByte a b).host = s.host := (rfl)
@[simp] theorem State.wrByte_tm (s : State) (a : Nat) (b : Byte) : (s.wrByte a b).tm = s.tm := (rfl)
@[simp] theorem State.wrByte_pow (s : State) (a : Nat) (b : Byte) : (s.wrByte a b).pow = s.pow := (rfl)
@[simp] theorem State.wrByte_boot (s : State) (a : Nat) (b : Byte) : (s.wrByte a b).boot = s.boot := (rfl)
@[simp] theorem State.wrByte_mbox (s : State) (a : Nat) (b : Byte) : (s.wrByte a b).mbox = s.mbox := (rfl)
@[simp] theorem State.wrByte_evc (s : State) (a : Nat) (b : Byte) : (s.wrByte a b).evc = s.evc := (rfl)
@[simp] theorem State.wrByte_pins (s : State) (a : Nat) (b : Byte) : (s.wrByte a b).pins = s.pins := (rfl)
@[simp] theorem State.wrByte_acts (s : State) (a : Nat) (b : Byte) : (s.wrByte a b).acts = s.acts := (rfl)
@[simp] theorem State.wrByte_nextAct (s : State) (a : Nat) (b : Byte) : (s.wrByte a b).nextAct = s.nextAct := (rfl)
@[simp] theorem State.wrByte_out (s : State) (a : Nat) (b : Byte) : (s.wrByte a b).out = s.out := (rfl)
@[simp] theorem State.wrByte_occ (s : State) (a : Nat) (b : Byte) : (s.wrByte a b).occ = s.occ := (rfl)
@[simp] theorem State.wrByte_gtc (s : State) (a : Nat) (b : Byte) : (s.wrByte a b).gtc = s.gtc := (rfl)
@[simp] theorem State.wrByte_refNs (s : State) (a : Nat) (b : Byte) : (s.wrByte a b).refNs = s.refNs := (rfl)
@[simp] theorem State.wrByte_sub (s : State) (a : Nat) (b : Byte) : (s.wrByte a b).sub = s.sub := (rfl)
@[simp] theorem State.wrByte_free (s : State) (a : Nat) (b : Byte) : (s.wrByte a b).free = s.free := (rfl)
@[simp] theorem State.wrByte_hw (s : State) (a : Nat) (b : Byte) : (s.wrByte a b).hw = s.hw := (rfl)
@[simp] theorem State.wrByte_scrubs (s : State) (a : Nat) (b : Byte) : (s.wrByte a b).scrubs = s.scrubs := (rfl)
@[simp] theorem State.wrByte_topo (s : State) (a : Nat) (b : Byte) : (s.wrByte a b).topo = s.topo := (rfl)

@[simp] theorem State.clrReg_pending (s : State) (r : RegName) (i : Nat) : (s.clrReg r i).pending = s.pending := (rfl)
@[simp] theorem State.clrReg_id (s : State) (r : RegName) (i : Nat) : (s.clrReg r i).id = s.id := (rfl)
@[simp] theorem State.clrReg_latch (s : State) (r : RegName) (i : Nat) : (s.clrReg r i).latch = s.latch := (rfl)
@[simp] theorem State.clrReg_mem (s : State) (r : RegName) (i : Nat) : (s.clrReg r i).mem = s.mem := (rfl)
@[simp] theorem State.clrReg_fill (s : State) (r : RegName) (i : Nat) : (s.clrReg r i).fill = s.fill := (rfl)
@[simp] theorem State.clrReg_bad (s : State) (r : RegName) (i : Nat) : (s.clrReg r i).bad = s.bad := (rfl)
@[simp] theorem State.clrReg_poisonMem (s : State) (r : RegName) (i : Nat) : (s.clrReg r i).poisonMem = s.poisonMem := (rfl)
@[simp] theorem State.clrReg_poison (s : State) (r : RegName) (i : Nat) : (s.clrReg r i).poison = s.poison := (rfl)
@[simp] theorem State.clrReg_cores (s : State) (r : RegName) (i : Nat) : (s.clrReg r i).cores = s.cores := (rfl)
@[simp] theorem State.clrReg_clusters (s : State) (r : RegName) (i : Nat) : (s.clrReg r i).clusters = s.clusters := (rfl)
@[simp] theorem State.clrReg_cols (s : State) (r : RegName) (i : Nat) : (s.clrReg r i).cols = s.cols := (rfl)
@[simp] theorem State.clrReg_parts (s : State) (r : RegName) (i : Nat) : (s.clrReg r i).parts = s.parts := (rfl)
@[simp] theorem State.clrReg_ports (s : State) (r : RegName) (i : Nat) : (s.clrReg r i).ports = s.ports := (rfl)
@[simp] theorem State.clrReg_ps (s : State) (r : RegName) (i : Nat) : (s.clrReg r i).ps = s.ps := (rfl)
@[simp] theorem State.clrReg_psCount (s : State) (r : RegName) (i : Nat) : (s.clrReg r i).psCount = s.psCount := (rfl)
@[simp] theorem State.clrReg_psQ (s : State) (r : RegName) (i : Nat) : (s.clrReg r i).psQ = s.psQ := (rfl)
@[simp] theorem State.clrReg_bankUse (s : State) (r : RegName) (i : Nat) : (s.clrReg r i).bankUse = s.bankUse := (rfl)
@[simp] theorem State.clrReg_fab (s : State) (r : RegName) (i : Nat) : (s.clrReg r i).fab = s.fab := (rfl)
@[simp] theorem State.clrReg_table (s : State) (r : RegName) (i : Nat) : (s.clrReg r i).table = s.table := (rfl)
@[simp] theorem State.clrReg_serve (s : State) (r : RegName) (i : Nat) : (s.clrReg r i).serve = s.serve := (rfl)
@[simp] theorem State.clrReg_host (s : State) (r : RegName) (i : Nat) : (s.clrReg r i).host = s.host := (rfl)
@[simp] theorem State.clrReg_tm (s : State) (r : RegName) (i : Nat) : (s.clrReg r i).tm = s.tm := (rfl)
@[simp] theorem State.clrReg_pow (s : State) (r : RegName) (i : Nat) : (s.clrReg r i).pow = s.pow := (rfl)
@[simp] theorem State.clrReg_boot (s : State) (r : RegName) (i : Nat) : (s.clrReg r i).boot = s.boot := (rfl)
@[simp] theorem State.clrReg_mbox (s : State) (r : RegName) (i : Nat) : (s.clrReg r i).mbox = s.mbox := (rfl)
@[simp] theorem State.clrReg_evc (s : State) (r : RegName) (i : Nat) : (s.clrReg r i).evc = s.evc := (rfl)
@[simp] theorem State.clrReg_pins (s : State) (r : RegName) (i : Nat) : (s.clrReg r i).pins = s.pins := (rfl)
@[simp] theorem State.clrReg_acts (s : State) (r : RegName) (i : Nat) : (s.clrReg r i).acts = s.acts := (rfl)
@[simp] theorem State.clrReg_nextAct (s : State) (r : RegName) (i : Nat) : (s.clrReg r i).nextAct = s.nextAct := (rfl)
@[simp] theorem State.clrReg_out (s : State) (r : RegName) (i : Nat) : (s.clrReg r i).out = s.out := (rfl)
@[simp] theorem State.clrReg_occ (s : State) (r : RegName) (i : Nat) : (s.clrReg r i).occ = s.occ := (rfl)
@[simp] theorem State.clrReg_gtc (s : State) (r : RegName) (i : Nat) : (s.clrReg r i).gtc = s.gtc := (rfl)
@[simp] theorem State.clrReg_refNs (s : State) (r : RegName) (i : Nat) : (s.clrReg r i).refNs = s.refNs := (rfl)
@[simp] theorem State.clrReg_sub (s : State) (r : RegName) (i : Nat) : (s.clrReg r i).sub = s.sub := (rfl)
@[simp] theorem State.clrReg_free (s : State) (r : RegName) (i : Nat) : (s.clrReg r i).free = s.free := (rfl)
@[simp] theorem State.clrReg_scrubs (s : State) (r : RegName) (i : Nat) : (s.clrReg r i).scrubs = s.scrubs := (rfl)
@[simp] theorem State.clrReg_topo (s : State) (r : RegName) (i : Nat) : (s.clrReg r i).topo = s.topo := (rfl)

@[simp] theorem State.modTm_pending (s : State) (f : TimeSt → TimeSt) : (s.modTm f).pending = s.pending := (rfl)
@[simp] theorem State.modTm_id (s : State) (f : TimeSt → TimeSt) : (s.modTm f).id = s.id := (rfl)
@[simp] theorem State.modTm_regs (s : State) (f : TimeSt → TimeSt) : (s.modTm f).regs = s.regs := (rfl)
@[simp] theorem State.modTm_latch (s : State) (f : TimeSt → TimeSt) : (s.modTm f).latch = s.latch := (rfl)
@[simp] theorem State.modTm_mem (s : State) (f : TimeSt → TimeSt) : (s.modTm f).mem = s.mem := (rfl)
@[simp] theorem State.modTm_fill (s : State) (f : TimeSt → TimeSt) : (s.modTm f).fill = s.fill := (rfl)
@[simp] theorem State.modTm_bad (s : State) (f : TimeSt → TimeSt) : (s.modTm f).bad = s.bad := (rfl)
@[simp] theorem State.modTm_poisonMem (s : State) (f : TimeSt → TimeSt) : (s.modTm f).poisonMem = s.poisonMem := (rfl)
@[simp] theorem State.modTm_poison (s : State) (f : TimeSt → TimeSt) : (s.modTm f).poison = s.poison := (rfl)
@[simp] theorem State.modTm_cores (s : State) (f : TimeSt → TimeSt) : (s.modTm f).cores = s.cores := (rfl)
@[simp] theorem State.modTm_clusters (s : State) (f : TimeSt → TimeSt) : (s.modTm f).clusters = s.clusters := (rfl)
@[simp] theorem State.modTm_cols (s : State) (f : TimeSt → TimeSt) : (s.modTm f).cols = s.cols := (rfl)
@[simp] theorem State.modTm_parts (s : State) (f : TimeSt → TimeSt) : (s.modTm f).parts = s.parts := (rfl)
@[simp] theorem State.modTm_ports (s : State) (f : TimeSt → TimeSt) : (s.modTm f).ports = s.ports := (rfl)
@[simp] theorem State.modTm_ps (s : State) (f : TimeSt → TimeSt) : (s.modTm f).ps = s.ps := (rfl)
@[simp] theorem State.modTm_psCount (s : State) (f : TimeSt → TimeSt) : (s.modTm f).psCount = s.psCount := (rfl)
@[simp] theorem State.modTm_psQ (s : State) (f : TimeSt → TimeSt) : (s.modTm f).psQ = s.psQ := (rfl)
@[simp] theorem State.modTm_bankUse (s : State) (f : TimeSt → TimeSt) : (s.modTm f).bankUse = s.bankUse := (rfl)
@[simp] theorem State.modTm_fab (s : State) (f : TimeSt → TimeSt) : (s.modTm f).fab = s.fab := (rfl)
@[simp] theorem State.modTm_table (s : State) (f : TimeSt → TimeSt) : (s.modTm f).table = s.table := (rfl)
@[simp] theorem State.modTm_serve (s : State) (f : TimeSt → TimeSt) : (s.modTm f).serve = s.serve := (rfl)
@[simp] theorem State.modTm_host (s : State) (f : TimeSt → TimeSt) : (s.modTm f).host = s.host := (rfl)
@[simp] theorem State.modTm_pow (s : State) (f : TimeSt → TimeSt) : (s.modTm f).pow = s.pow := (rfl)
@[simp] theorem State.modTm_boot (s : State) (f : TimeSt → TimeSt) : (s.modTm f).boot = s.boot := (rfl)
@[simp] theorem State.modTm_mbox (s : State) (f : TimeSt → TimeSt) : (s.modTm f).mbox = s.mbox := (rfl)
@[simp] theorem State.modTm_evc (s : State) (f : TimeSt → TimeSt) : (s.modTm f).evc = s.evc := (rfl)
@[simp] theorem State.modTm_pins (s : State) (f : TimeSt → TimeSt) : (s.modTm f).pins = s.pins := (rfl)
@[simp] theorem State.modTm_acts (s : State) (f : TimeSt → TimeSt) : (s.modTm f).acts = s.acts := (rfl)
@[simp] theorem State.modTm_nextAct (s : State) (f : TimeSt → TimeSt) : (s.modTm f).nextAct = s.nextAct := (rfl)
@[simp] theorem State.modTm_out (s : State) (f : TimeSt → TimeSt) : (s.modTm f).out = s.out := (rfl)
@[simp] theorem State.modTm_occ (s : State) (f : TimeSt → TimeSt) : (s.modTm f).occ = s.occ := (rfl)
@[simp] theorem State.modTm_gtc (s : State) (f : TimeSt → TimeSt) : (s.modTm f).gtc = s.gtc := (rfl)
@[simp] theorem State.modTm_refNs (s : State) (f : TimeSt → TimeSt) : (s.modTm f).refNs = s.refNs := (rfl)
@[simp] theorem State.modTm_sub (s : State) (f : TimeSt → TimeSt) : (s.modTm f).sub = s.sub := (rfl)
@[simp] theorem State.modTm_free (s : State) (f : TimeSt → TimeSt) : (s.modTm f).free = s.free := (rfl)
@[simp] theorem State.modTm_hw (s : State) (f : TimeSt → TimeSt) : (s.modTm f).hw = s.hw := (rfl)
@[simp] theorem State.modTm_scrubs (s : State) (f : TimeSt → TimeSt) : (s.modTm f).scrubs = s.scrubs := (rfl)
@[simp] theorem State.modTm_topo (s : State) (f : TimeSt → TimeSt) : (s.modTm f).topo = s.topo := (rfl)

@[simp] theorem State.modPow_pending (s : State) (f : PowSt → PowSt) : (s.modPow f).pending = s.pending := (rfl)
@[simp] theorem State.modPow_id (s : State) (f : PowSt → PowSt) : (s.modPow f).id = s.id := (rfl)
@[simp] theorem State.modPow_regs (s : State) (f : PowSt → PowSt) : (s.modPow f).regs = s.regs := (rfl)
@[simp] theorem State.modPow_latch (s : State) (f : PowSt → PowSt) : (s.modPow f).latch = s.latch := (rfl)
@[simp] theorem State.modPow_mem (s : State) (f : PowSt → PowSt) : (s.modPow f).mem = s.mem := (rfl)
@[simp] theorem State.modPow_fill (s : State) (f : PowSt → PowSt) : (s.modPow f).fill = s.fill := (rfl)
@[simp] theorem State.modPow_bad (s : State) (f : PowSt → PowSt) : (s.modPow f).bad = s.bad := (rfl)
@[simp] theorem State.modPow_poisonMem (s : State) (f : PowSt → PowSt) : (s.modPow f).poisonMem = s.poisonMem := (rfl)
@[simp] theorem State.modPow_poison (s : State) (f : PowSt → PowSt) : (s.modPow f).poison = s.poison := (rfl)
@[simp] theorem State.modPow_cores (s : State) (f : PowSt → PowSt) : (s.modPow f).cores = s.cores := (rfl)
@[simp] theorem State.modPow_clusters (s : State) (f : PowSt → PowSt) : (s.modPow f).clusters = s.clusters := (rfl)
@[simp] theorem State.modPow_cols (s : State) (f : PowSt → PowSt) : (s.modPow f).cols = s.cols := (rfl)
@[simp] theorem State.modPow_parts (s : State) (f : PowSt → PowSt) : (s.modPow f).parts = s.parts := (rfl)
@[simp] theorem State.modPow_ports (s : State) (f : PowSt → PowSt) : (s.modPow f).ports = s.ports := (rfl)
@[simp] theorem State.modPow_ps (s : State) (f : PowSt → PowSt) : (s.modPow f).ps = s.ps := (rfl)
@[simp] theorem State.modPow_psCount (s : State) (f : PowSt → PowSt) : (s.modPow f).psCount = s.psCount := (rfl)
@[simp] theorem State.modPow_psQ (s : State) (f : PowSt → PowSt) : (s.modPow f).psQ = s.psQ := (rfl)
@[simp] theorem State.modPow_bankUse (s : State) (f : PowSt → PowSt) : (s.modPow f).bankUse = s.bankUse := (rfl)
@[simp] theorem State.modPow_fab (s : State) (f : PowSt → PowSt) : (s.modPow f).fab = s.fab := (rfl)
@[simp] theorem State.modPow_table (s : State) (f : PowSt → PowSt) : (s.modPow f).table = s.table := (rfl)
@[simp] theorem State.modPow_serve (s : State) (f : PowSt → PowSt) : (s.modPow f).serve = s.serve := (rfl)
@[simp] theorem State.modPow_host (s : State) (f : PowSt → PowSt) : (s.modPow f).host = s.host := (rfl)
@[simp] theorem State.modPow_tm (s : State) (f : PowSt → PowSt) : (s.modPow f).tm = s.tm := (rfl)
@[simp] theorem State.modPow_boot (s : State) (f : PowSt → PowSt) : (s.modPow f).boot = s.boot := (rfl)
@[simp] theorem State.modPow_mbox (s : State) (f : PowSt → PowSt) : (s.modPow f).mbox = s.mbox := (rfl)
@[simp] theorem State.modPow_evc (s : State) (f : PowSt → PowSt) : (s.modPow f).evc = s.evc := (rfl)
@[simp] theorem State.modPow_pins (s : State) (f : PowSt → PowSt) : (s.modPow f).pins = s.pins := (rfl)
@[simp] theorem State.modPow_acts (s : State) (f : PowSt → PowSt) : (s.modPow f).acts = s.acts := (rfl)
@[simp] theorem State.modPow_nextAct (s : State) (f : PowSt → PowSt) : (s.modPow f).nextAct = s.nextAct := (rfl)
@[simp] theorem State.modPow_out (s : State) (f : PowSt → PowSt) : (s.modPow f).out = s.out := (rfl)
@[simp] theorem State.modPow_occ (s : State) (f : PowSt → PowSt) : (s.modPow f).occ = s.occ := (rfl)
@[simp] theorem State.modPow_gtc (s : State) (f : PowSt → PowSt) : (s.modPow f).gtc = s.gtc := (rfl)
@[simp] theorem State.modPow_refNs (s : State) (f : PowSt → PowSt) : (s.modPow f).refNs = s.refNs := (rfl)
@[simp] theorem State.modPow_sub (s : State) (f : PowSt → PowSt) : (s.modPow f).sub = s.sub := (rfl)
@[simp] theorem State.modPow_free (s : State) (f : PowSt → PowSt) : (s.modPow f).free = s.free := (rfl)
@[simp] theorem State.modPow_hw (s : State) (f : PowSt → PowSt) : (s.modPow f).hw = s.hw := (rfl)
@[simp] theorem State.modPow_scrubs (s : State) (f : PowSt → PowSt) : (s.modPow f).scrubs = s.scrubs := (rfl)
@[simp] theorem State.modPow_topo (s : State) (f : PowSt → PowSt) : (s.modPow f).topo = s.topo := (rfl)

@[simp] theorem State.modPins_pending (s : State) (f : Pins → Pins) : (s.modPins f).pending = s.pending := (rfl)
@[simp] theorem State.modPins_id (s : State) (f : Pins → Pins) : (s.modPins f).id = s.id := (rfl)
@[simp] theorem State.modPins_regs (s : State) (f : Pins → Pins) : (s.modPins f).regs = s.regs := (rfl)
@[simp] theorem State.modPins_latch (s : State) (f : Pins → Pins) : (s.modPins f).latch = s.latch := (rfl)
@[simp] theorem State.modPins_mem (s : State) (f : Pins → Pins) : (s.modPins f).mem = s.mem := (rfl)
@[simp] theorem State.modPins_fill (s : State) (f : Pins → Pins) : (s.modPins f).fill = s.fill := (rfl)
@[simp] theorem State.modPins_bad (s : State) (f : Pins → Pins) : (s.modPins f).bad = s.bad := (rfl)
@[simp] theorem State.modPins_poisonMem (s : State) (f : Pins → Pins) : (s.modPins f).poisonMem = s.poisonMem := (rfl)
@[simp] theorem State.modPins_poison (s : State) (f : Pins → Pins) : (s.modPins f).poison = s.poison := (rfl)
@[simp] theorem State.modPins_cores (s : State) (f : Pins → Pins) : (s.modPins f).cores = s.cores := (rfl)
@[simp] theorem State.modPins_clusters (s : State) (f : Pins → Pins) : (s.modPins f).clusters = s.clusters := (rfl)
@[simp] theorem State.modPins_cols (s : State) (f : Pins → Pins) : (s.modPins f).cols = s.cols := (rfl)
@[simp] theorem State.modPins_parts (s : State) (f : Pins → Pins) : (s.modPins f).parts = s.parts := (rfl)
@[simp] theorem State.modPins_ports (s : State) (f : Pins → Pins) : (s.modPins f).ports = s.ports := (rfl)
@[simp] theorem State.modPins_ps (s : State) (f : Pins → Pins) : (s.modPins f).ps = s.ps := (rfl)
@[simp] theorem State.modPins_psCount (s : State) (f : Pins → Pins) : (s.modPins f).psCount = s.psCount := (rfl)
@[simp] theorem State.modPins_psQ (s : State) (f : Pins → Pins) : (s.modPins f).psQ = s.psQ := (rfl)
@[simp] theorem State.modPins_bankUse (s : State) (f : Pins → Pins) : (s.modPins f).bankUse = s.bankUse := (rfl)
@[simp] theorem State.modPins_fab (s : State) (f : Pins → Pins) : (s.modPins f).fab = s.fab := (rfl)
@[simp] theorem State.modPins_table (s : State) (f : Pins → Pins) : (s.modPins f).table = s.table := (rfl)
@[simp] theorem State.modPins_serve (s : State) (f : Pins → Pins) : (s.modPins f).serve = s.serve := (rfl)
@[simp] theorem State.modPins_host (s : State) (f : Pins → Pins) : (s.modPins f).host = s.host := (rfl)
@[simp] theorem State.modPins_tm (s : State) (f : Pins → Pins) : (s.modPins f).tm = s.tm := (rfl)
@[simp] theorem State.modPins_pow (s : State) (f : Pins → Pins) : (s.modPins f).pow = s.pow := (rfl)
@[simp] theorem State.modPins_boot (s : State) (f : Pins → Pins) : (s.modPins f).boot = s.boot := (rfl)
@[simp] theorem State.modPins_mbox (s : State) (f : Pins → Pins) : (s.modPins f).mbox = s.mbox := (rfl)
@[simp] theorem State.modPins_evc (s : State) (f : Pins → Pins) : (s.modPins f).evc = s.evc := (rfl)
@[simp] theorem State.modPins_acts (s : State) (f : Pins → Pins) : (s.modPins f).acts = s.acts := (rfl)
@[simp] theorem State.modPins_nextAct (s : State) (f : Pins → Pins) : (s.modPins f).nextAct = s.nextAct := (rfl)
@[simp] theorem State.modPins_out (s : State) (f : Pins → Pins) : (s.modPins f).out = s.out := (rfl)
@[simp] theorem State.modPins_occ (s : State) (f : Pins → Pins) : (s.modPins f).occ = s.occ := (rfl)
@[simp] theorem State.modPins_gtc (s : State) (f : Pins → Pins) : (s.modPins f).gtc = s.gtc := (rfl)
@[simp] theorem State.modPins_refNs (s : State) (f : Pins → Pins) : (s.modPins f).refNs = s.refNs := (rfl)
@[simp] theorem State.modPins_sub (s : State) (f : Pins → Pins) : (s.modPins f).sub = s.sub := (rfl)
@[simp] theorem State.modPins_free (s : State) (f : Pins → Pins) : (s.modPins f).free = s.free := (rfl)
@[simp] theorem State.modPins_hw (s : State) (f : Pins → Pins) : (s.modPins f).hw = s.hw := (rfl)
@[simp] theorem State.modPins_scrubs (s : State) (f : Pins → Pins) : (s.modPins f).scrubs = s.scrubs := (rfl)
@[simp] theorem State.modPins_topo (s : State) (f : Pins → Pins) : (s.modPins f).topo = s.topo := (rfl)

@[simp] theorem State.modHost_pending (s : State) (f : HostIf → HostIf) : (s.modHost f).pending = s.pending := (rfl)
@[simp] theorem State.modHost_id (s : State) (f : HostIf → HostIf) : (s.modHost f).id = s.id := (rfl)
@[simp] theorem State.modHost_regs (s : State) (f : HostIf → HostIf) : (s.modHost f).regs = s.regs := (rfl)
@[simp] theorem State.modHost_latch (s : State) (f : HostIf → HostIf) : (s.modHost f).latch = s.latch := (rfl)
@[simp] theorem State.modHost_mem (s : State) (f : HostIf → HostIf) : (s.modHost f).mem = s.mem := (rfl)
@[simp] theorem State.modHost_fill (s : State) (f : HostIf → HostIf) : (s.modHost f).fill = s.fill := (rfl)
@[simp] theorem State.modHost_bad (s : State) (f : HostIf → HostIf) : (s.modHost f).bad = s.bad := (rfl)
@[simp] theorem State.modHost_poisonMem (s : State) (f : HostIf → HostIf) : (s.modHost f).poisonMem = s.poisonMem := (rfl)
@[simp] theorem State.modHost_poison (s : State) (f : HostIf → HostIf) : (s.modHost f).poison = s.poison := (rfl)
@[simp] theorem State.modHost_cores (s : State) (f : HostIf → HostIf) : (s.modHost f).cores = s.cores := (rfl)
@[simp] theorem State.modHost_clusters (s : State) (f : HostIf → HostIf) : (s.modHost f).clusters = s.clusters := (rfl)
@[simp] theorem State.modHost_cols (s : State) (f : HostIf → HostIf) : (s.modHost f).cols = s.cols := (rfl)
@[simp] theorem State.modHost_parts (s : State) (f : HostIf → HostIf) : (s.modHost f).parts = s.parts := (rfl)
@[simp] theorem State.modHost_ports (s : State) (f : HostIf → HostIf) : (s.modHost f).ports = s.ports := (rfl)
@[simp] theorem State.modHost_ps (s : State) (f : HostIf → HostIf) : (s.modHost f).ps = s.ps := (rfl)
@[simp] theorem State.modHost_psCount (s : State) (f : HostIf → HostIf) : (s.modHost f).psCount = s.psCount := (rfl)
@[simp] theorem State.modHost_psQ (s : State) (f : HostIf → HostIf) : (s.modHost f).psQ = s.psQ := (rfl)
@[simp] theorem State.modHost_bankUse (s : State) (f : HostIf → HostIf) : (s.modHost f).bankUse = s.bankUse := (rfl)
@[simp] theorem State.modHost_fab (s : State) (f : HostIf → HostIf) : (s.modHost f).fab = s.fab := (rfl)
@[simp] theorem State.modHost_table (s : State) (f : HostIf → HostIf) : (s.modHost f).table = s.table := (rfl)
@[simp] theorem State.modHost_serve (s : State) (f : HostIf → HostIf) : (s.modHost f).serve = s.serve := (rfl)
@[simp] theorem State.modHost_tm (s : State) (f : HostIf → HostIf) : (s.modHost f).tm = s.tm := (rfl)
@[simp] theorem State.modHost_pow (s : State) (f : HostIf → HostIf) : (s.modHost f).pow = s.pow := (rfl)
@[simp] theorem State.modHost_boot (s : State) (f : HostIf → HostIf) : (s.modHost f).boot = s.boot := (rfl)
@[simp] theorem State.modHost_mbox (s : State) (f : HostIf → HostIf) : (s.modHost f).mbox = s.mbox := (rfl)
@[simp] theorem State.modHost_evc (s : State) (f : HostIf → HostIf) : (s.modHost f).evc = s.evc := (rfl)
@[simp] theorem State.modHost_pins (s : State) (f : HostIf → HostIf) : (s.modHost f).pins = s.pins := (rfl)
@[simp] theorem State.modHost_acts (s : State) (f : HostIf → HostIf) : (s.modHost f).acts = s.acts := (rfl)
@[simp] theorem State.modHost_nextAct (s : State) (f : HostIf → HostIf) : (s.modHost f).nextAct = s.nextAct := (rfl)
@[simp] theorem State.modHost_out (s : State) (f : HostIf → HostIf) : (s.modHost f).out = s.out := (rfl)
@[simp] theorem State.modHost_occ (s : State) (f : HostIf → HostIf) : (s.modHost f).occ = s.occ := (rfl)
@[simp] theorem State.modHost_gtc (s : State) (f : HostIf → HostIf) : (s.modHost f).gtc = s.gtc := (rfl)
@[simp] theorem State.modHost_refNs (s : State) (f : HostIf → HostIf) : (s.modHost f).refNs = s.refNs := (rfl)
@[simp] theorem State.modHost_sub (s : State) (f : HostIf → HostIf) : (s.modHost f).sub = s.sub := (rfl)
@[simp] theorem State.modHost_free (s : State) (f : HostIf → HostIf) : (s.modHost f).free = s.free := (rfl)
@[simp] theorem State.modHost_hw (s : State) (f : HostIf → HostIf) : (s.modHost f).hw = s.hw := (rfl)
@[simp] theorem State.modHost_scrubs (s : State) (f : HostIf → HostIf) : (s.modHost f).scrubs = s.scrubs := (rfl)
@[simp] theorem State.modHost_topo (s : State) (f : HostIf → HostIf) : (s.modHost f).topo = s.topo := (rfl)

/-! ## A register write leaves everything but registers, persistent words and their queue alone -/

@[simp] theorem State.setPlain_pending (s : State) (f : Fld) (v : Nat) : (s.setPlain f v).pending = s.pending := (rfl)
@[simp] theorem State.setPlain_id (s : State) (f : Fld) (v : Nat) : (s.setPlain f v).id = s.id := (rfl)
@[simp] theorem State.setPlain_latch (s : State) (f : Fld) (v : Nat) : (s.setPlain f v).latch = s.latch := (rfl)
@[simp] theorem State.setPlain_mem (s : State) (f : Fld) (v : Nat) : (s.setPlain f v).mem = s.mem := (rfl)
@[simp] theorem State.setPlain_fill (s : State) (f : Fld) (v : Nat) : (s.setPlain f v).fill = s.fill := (rfl)
@[simp] theorem State.setPlain_bad (s : State) (f : Fld) (v : Nat) : (s.setPlain f v).bad = s.bad := (rfl)
@[simp] theorem State.setPlain_poisonMem (s : State) (f : Fld) (v : Nat) : (s.setPlain f v).poisonMem = s.poisonMem := (rfl)
@[simp] theorem State.setPlain_poison (s : State) (f : Fld) (v : Nat) : (s.setPlain f v).poison = s.poison := (rfl)
@[simp] theorem State.setPlain_cores (s : State) (f : Fld) (v : Nat) : (s.setPlain f v).cores = s.cores := (rfl)
@[simp] theorem State.setPlain_clusters (s : State) (f : Fld) (v : Nat) : (s.setPlain f v).clusters = s.clusters := (rfl)
@[simp] theorem State.setPlain_cols (s : State) (f : Fld) (v : Nat) : (s.setPlain f v).cols = s.cols := (rfl)
@[simp] theorem State.setPlain_parts (s : State) (f : Fld) (v : Nat) : (s.setPlain f v).parts = s.parts := (rfl)
@[simp] theorem State.setPlain_ports (s : State) (f : Fld) (v : Nat) : (s.setPlain f v).ports = s.ports := (rfl)
@[simp] theorem State.setPlain_psCount (s : State) (f : Fld) (v : Nat) : (s.setPlain f v).psCount = s.psCount := (rfl)
@[simp] theorem State.setPlain_bankUse (s : State) (f : Fld) (v : Nat) : (s.setPlain f v).bankUse = s.bankUse := (rfl)
@[simp] theorem State.setPlain_fab (s : State) (f : Fld) (v : Nat) : (s.setPlain f v).fab = s.fab := (rfl)
@[simp] theorem State.setPlain_table (s : State) (f : Fld) (v : Nat) : (s.setPlain f v).table = s.table := (rfl)
@[simp] theorem State.setPlain_serve (s : State) (f : Fld) (v : Nat) : (s.setPlain f v).serve = s.serve := (rfl)
@[simp] theorem State.setPlain_host (s : State) (f : Fld) (v : Nat) : (s.setPlain f v).host = s.host := (rfl)
@[simp] theorem State.setPlain_tm (s : State) (f : Fld) (v : Nat) : (s.setPlain f v).tm = s.tm := (rfl)
@[simp] theorem State.setPlain_pow (s : State) (f : Fld) (v : Nat) : (s.setPlain f v).pow = s.pow := (rfl)
@[simp] theorem State.setPlain_boot (s : State) (f : Fld) (v : Nat) : (s.setPlain f v).boot = s.boot := (rfl)
@[simp] theorem State.setPlain_mbox (s : State) (f : Fld) (v : Nat) : (s.setPlain f v).mbox = s.mbox := (rfl)
@[simp] theorem State.setPlain_evc (s : State) (f : Fld) (v : Nat) : (s.setPlain f v).evc = s.evc := (rfl)
@[simp] theorem State.setPlain_pins (s : State) (f : Fld) (v : Nat) : (s.setPlain f v).pins = s.pins := (rfl)
@[simp] theorem State.setPlain_acts (s : State) (f : Fld) (v : Nat) : (s.setPlain f v).acts = s.acts := (rfl)
@[simp] theorem State.setPlain_nextAct (s : State) (f : Fld) (v : Nat) : (s.setPlain f v).nextAct = s.nextAct := (rfl)
@[simp] theorem State.setPlain_out (s : State) (f : Fld) (v : Nat) : (s.setPlain f v).out = s.out := (rfl)
@[simp] theorem State.setPlain_gtc (s : State) (f : Fld) (v : Nat) : (s.setPlain f v).gtc = s.gtc := (rfl)
@[simp] theorem State.setPlain_refNs (s : State) (f : Fld) (v : Nat) : (s.setPlain f v).refNs = s.refNs := (rfl)
@[simp] theorem State.setPlain_sub (s : State) (f : Fld) (v : Nat) : (s.setPlain f v).sub = s.sub := (rfl)
@[simp] theorem State.setPlain_free (s : State) (f : Fld) (v : Nat) : (s.setPlain f v).free = s.free := (rfl)
@[simp] theorem State.setPlain_hw (s : State) (f : Fld) (v : Nat) : (s.setPlain f v).hw = s.hw := (rfl)
@[simp] theorem State.setPlain_scrubs (s : State) (f : Fld) (v : Nat) : (s.setPlain f v).scrubs = s.scrubs := (rfl)
@[simp] theorem State.setPlain_topo (s : State) (f : Fld) (v : Nat) : (s.setPlain f v).topo = s.topo := (rfl)

theorem State.setPlain_form (s : State) (f : Fld) (v : Nat) : s.setPlain f v = { s with regs := (s.setPlain f v).regs } := (rfl)

theorem State.setPlain2_form (s : State) (f g : Fld) (v u : Nat) :
    (s.setPlain f v).setPlain g u = { s with regs := ((s.setPlain f v).setPlain g u).regs } := (rfl)

/-- A persistent write changes registers, persistent words, their queue and occurrences alone. -/
theorem State.psSet_form (s : State) (w v : Nat) :
    ∃ rg p pq oc, s.psSet w v = { s with regs := rg, ps := p, psQ := pq, occ := oc } := by
  unfold State.psSet
  by_cases h : v % 2 ^ 32 = s.psWord w
  · exact ⟨s.regs, s.ps, s.psQ, s.occ, if_pos h⟩
  · by_cases h2 : psLimit ≤ SMap.get 0 s.psCount w + s.psWaiting w
    · refine ⟨((s.setPlain F.PS_STAT_REFWORD w).setPlain F.PS_STAT_STATUS 3).regs, s.ps, s.psQ, s.occ ++ [7], ?_⟩
      refine (if_neg h).trans ((if_pos h2).trans ?_)
      show State.mk .. = State.mk ..
      rw [State.setPlain2_form]
    · refine ⟨({ s with ps := SMap.put (psDflt s.id w) s.ps w (v % 2 ^ 32), psQ := s.psQ ++ [(w, s.psWord w, v % 2 ^ 32)] }.setPlain
        F.PS_STAT_STATUS 0).regs, SMap.put (psDflt s.id w) s.ps w (v % 2 ^ 32), s.psQ ++ [(w, s.psWord w, v % 2 ^ 32)], s.occ, ?_⟩
      exact (if_neg h).trans ((if_neg h2).trans (State.setPlain_form ..))

/-- So does a write of any register. -/
theorem State.setReg_form (s : State) (r : RegName) (i : Nat) (w : Word) :
    ∃ rg p pq oc, s.setReg r i w = { s with regs := rg, ps := p, psQ := pq, occ := oc } := by
  cases h : psReg r with
  | none => exact ⟨_, _, _, _, by simp only [State.setReg, h]; rfl⟩
  | some p =>
    obtain ⟨a, b, c, d, e⟩ := State.psSet_form s p (w.toNat % 2 ^ 32)
    simp only [State.setReg, h, e]
    split
    · obtain ⟨a', b', c', d', e'⟩ := State.psSet_form { s with regs := a, ps := b, psQ := c, occ := d } (p + 1) (w.toNat / 2 ^ 32)
      exact ⟨_, _, _, _, e'⟩
    · exact ⟨_, _, _, _, rfl⟩

@[simp] theorem State.psSet_pending (s : State) (w v : Nat) : (s.psSet w v).pending = s.pending := by obtain ⟨_, _, _, _, e⟩ := State.psSet_form s w v; rw [e]
@[simp] theorem State.setReg_pending (s : State) (r : RegName) (i : Nat) (w : Word) : (s.setReg r i w).pending = s.pending := by obtain ⟨_, _, _, _, e⟩ := State.setReg_form s r i w; rw [e]
@[simp] theorem State.setFld_pending (s : State) (f : Fld) (i v : Nat) : (s.setFld f i v).pending = s.pending := State.setReg_pending ..
@[simp] theorem State.addFld_pending (s : State) (f : Fld) (i k : Nat) : (s.addFld f i k).pending = s.pending := State.setFld_pending ..
@[simp] theorem State.psSet_id (s : State) (w v : Nat) : (s.psSet w v).id = s.id := by obtain ⟨_, _, _, _, e⟩ := State.psSet_form s w v; rw [e]
@[simp] theorem State.setReg_id (s : State) (r : RegName) (i : Nat) (w : Word) : (s.setReg r i w).id = s.id := by obtain ⟨_, _, _, _, e⟩ := State.setReg_form s r i w; rw [e]
@[simp] theorem State.setFld_id (s : State) (f : Fld) (i v : Nat) : (s.setFld f i v).id = s.id := State.setReg_id ..
@[simp] theorem State.addFld_id (s : State) (f : Fld) (i k : Nat) : (s.addFld f i k).id = s.id := State.setFld_id ..
@[simp] theorem State.psSet_latch (s : State) (w v : Nat) : (s.psSet w v).latch = s.latch := by obtain ⟨_, _, _, _, e⟩ := State.psSet_form s w v; rw [e]
@[simp] theorem State.setReg_latch (s : State) (r : RegName) (i : Nat) (w : Word) : (s.setReg r i w).latch = s.latch := by obtain ⟨_, _, _, _, e⟩ := State.setReg_form s r i w; rw [e]
@[simp] theorem State.setFld_latch (s : State) (f : Fld) (i v : Nat) : (s.setFld f i v).latch = s.latch := State.setReg_latch ..
@[simp] theorem State.addFld_latch (s : State) (f : Fld) (i k : Nat) : (s.addFld f i k).latch = s.latch := State.setFld_latch ..
@[simp] theorem State.psSet_mem (s : State) (w v : Nat) : (s.psSet w v).mem = s.mem := by obtain ⟨_, _, _, _, e⟩ := State.psSet_form s w v; rw [e]
@[simp] theorem State.setReg_mem (s : State) (r : RegName) (i : Nat) (w : Word) : (s.setReg r i w).mem = s.mem := by obtain ⟨_, _, _, _, e⟩ := State.setReg_form s r i w; rw [e]
@[simp] theorem State.setFld_mem (s : State) (f : Fld) (i v : Nat) : (s.setFld f i v).mem = s.mem := State.setReg_mem ..
@[simp] theorem State.addFld_mem (s : State) (f : Fld) (i k : Nat) : (s.addFld f i k).mem = s.mem := State.setFld_mem ..
@[simp] theorem State.psSet_fill (s : State) (w v : Nat) : (s.psSet w v).fill = s.fill := by obtain ⟨_, _, _, _, e⟩ := State.psSet_form s w v; rw [e]
@[simp] theorem State.setReg_fill (s : State) (r : RegName) (i : Nat) (w : Word) : (s.setReg r i w).fill = s.fill := by obtain ⟨_, _, _, _, e⟩ := State.setReg_form s r i w; rw [e]
@[simp] theorem State.setFld_fill (s : State) (f : Fld) (i v : Nat) : (s.setFld f i v).fill = s.fill := State.setReg_fill ..
@[simp] theorem State.addFld_fill (s : State) (f : Fld) (i k : Nat) : (s.addFld f i k).fill = s.fill := State.setFld_fill ..
@[simp] theorem State.psSet_bad (s : State) (w v : Nat) : (s.psSet w v).bad = s.bad := by obtain ⟨_, _, _, _, e⟩ := State.psSet_form s w v; rw [e]
@[simp] theorem State.setReg_bad (s : State) (r : RegName) (i : Nat) (w : Word) : (s.setReg r i w).bad = s.bad := by obtain ⟨_, _, _, _, e⟩ := State.setReg_form s r i w; rw [e]
@[simp] theorem State.setFld_bad (s : State) (f : Fld) (i v : Nat) : (s.setFld f i v).bad = s.bad := State.setReg_bad ..
@[simp] theorem State.addFld_bad (s : State) (f : Fld) (i k : Nat) : (s.addFld f i k).bad = s.bad := State.setFld_bad ..
@[simp] theorem State.psSet_poisonMem (s : State) (w v : Nat) : (s.psSet w v).poisonMem = s.poisonMem := by obtain ⟨_, _, _, _, e⟩ := State.psSet_form s w v; rw [e]
@[simp] theorem State.setReg_poisonMem (s : State) (r : RegName) (i : Nat) (w : Word) : (s.setReg r i w).poisonMem = s.poisonMem := by obtain ⟨_, _, _, _, e⟩ := State.setReg_form s r i w; rw [e]
@[simp] theorem State.setFld_poisonMem (s : State) (f : Fld) (i v : Nat) : (s.setFld f i v).poisonMem = s.poisonMem := State.setReg_poisonMem ..
@[simp] theorem State.addFld_poisonMem (s : State) (f : Fld) (i k : Nat) : (s.addFld f i k).poisonMem = s.poisonMem := State.setFld_poisonMem ..
@[simp] theorem State.psSet_poison (s : State) (w v : Nat) : (s.psSet w v).poison = s.poison := by obtain ⟨_, _, _, _, e⟩ := State.psSet_form s w v; rw [e]
@[simp] theorem State.setReg_poison (s : State) (r : RegName) (i : Nat) (w : Word) : (s.setReg r i w).poison = s.poison := by obtain ⟨_, _, _, _, e⟩ := State.setReg_form s r i w; rw [e]
@[simp] theorem State.setFld_poison (s : State) (f : Fld) (i v : Nat) : (s.setFld f i v).poison = s.poison := State.setReg_poison ..
@[simp] theorem State.addFld_poison (s : State) (f : Fld) (i k : Nat) : (s.addFld f i k).poison = s.poison := State.setFld_poison ..
@[simp] theorem State.psSet_cores (s : State) (w v : Nat) : (s.psSet w v).cores = s.cores := by obtain ⟨_, _, _, _, e⟩ := State.psSet_form s w v; rw [e]
@[simp] theorem State.setReg_cores (s : State) (r : RegName) (i : Nat) (w : Word) : (s.setReg r i w).cores = s.cores := by obtain ⟨_, _, _, _, e⟩ := State.setReg_form s r i w; rw [e]
@[simp] theorem State.setFld_cores (s : State) (f : Fld) (i v : Nat) : (s.setFld f i v).cores = s.cores := State.setReg_cores ..
@[simp] theorem State.addFld_cores (s : State) (f : Fld) (i k : Nat) : (s.addFld f i k).cores = s.cores := State.setFld_cores ..
@[simp] theorem State.psSet_clusters (s : State) (w v : Nat) : (s.psSet w v).clusters = s.clusters := by obtain ⟨_, _, _, _, e⟩ := State.psSet_form s w v; rw [e]
@[simp] theorem State.setReg_clusters (s : State) (r : RegName) (i : Nat) (w : Word) : (s.setReg r i w).clusters = s.clusters := by obtain ⟨_, _, _, _, e⟩ := State.setReg_form s r i w; rw [e]
@[simp] theorem State.setFld_clusters (s : State) (f : Fld) (i v : Nat) : (s.setFld f i v).clusters = s.clusters := State.setReg_clusters ..
@[simp] theorem State.addFld_clusters (s : State) (f : Fld) (i k : Nat) : (s.addFld f i k).clusters = s.clusters := State.setFld_clusters ..
@[simp] theorem State.psSet_cols (s : State) (w v : Nat) : (s.psSet w v).cols = s.cols := by obtain ⟨_, _, _, _, e⟩ := State.psSet_form s w v; rw [e]
@[simp] theorem State.setReg_cols (s : State) (r : RegName) (i : Nat) (w : Word) : (s.setReg r i w).cols = s.cols := by obtain ⟨_, _, _, _, e⟩ := State.setReg_form s r i w; rw [e]
@[simp] theorem State.setFld_cols (s : State) (f : Fld) (i v : Nat) : (s.setFld f i v).cols = s.cols := State.setReg_cols ..
@[simp] theorem State.addFld_cols (s : State) (f : Fld) (i k : Nat) : (s.addFld f i k).cols = s.cols := State.setFld_cols ..
@[simp] theorem State.psSet_parts (s : State) (w v : Nat) : (s.psSet w v).parts = s.parts := by obtain ⟨_, _, _, _, e⟩ := State.psSet_form s w v; rw [e]
@[simp] theorem State.setReg_parts (s : State) (r : RegName) (i : Nat) (w : Word) : (s.setReg r i w).parts = s.parts := by obtain ⟨_, _, _, _, e⟩ := State.setReg_form s r i w; rw [e]
@[simp] theorem State.setFld_parts (s : State) (f : Fld) (i v : Nat) : (s.setFld f i v).parts = s.parts := State.setReg_parts ..
@[simp] theorem State.addFld_parts (s : State) (f : Fld) (i k : Nat) : (s.addFld f i k).parts = s.parts := State.setFld_parts ..
@[simp] theorem State.psSet_ports (s : State) (w v : Nat) : (s.psSet w v).ports = s.ports := by obtain ⟨_, _, _, _, e⟩ := State.psSet_form s w v; rw [e]
@[simp] theorem State.setReg_ports (s : State) (r : RegName) (i : Nat) (w : Word) : (s.setReg r i w).ports = s.ports := by obtain ⟨_, _, _, _, e⟩ := State.setReg_form s r i w; rw [e]
@[simp] theorem State.setFld_ports (s : State) (f : Fld) (i v : Nat) : (s.setFld f i v).ports = s.ports := State.setReg_ports ..
@[simp] theorem State.addFld_ports (s : State) (f : Fld) (i k : Nat) : (s.addFld f i k).ports = s.ports := State.setFld_ports ..
@[simp] theorem State.psSet_psCount (s : State) (w v : Nat) : (s.psSet w v).psCount = s.psCount := by obtain ⟨_, _, _, _, e⟩ := State.psSet_form s w v; rw [e]
@[simp] theorem State.setReg_psCount (s : State) (r : RegName) (i : Nat) (w : Word) : (s.setReg r i w).psCount = s.psCount := by obtain ⟨_, _, _, _, e⟩ := State.setReg_form s r i w; rw [e]
@[simp] theorem State.setFld_psCount (s : State) (f : Fld) (i v : Nat) : (s.setFld f i v).psCount = s.psCount := State.setReg_psCount ..
@[simp] theorem State.addFld_psCount (s : State) (f : Fld) (i k : Nat) : (s.addFld f i k).psCount = s.psCount := State.setFld_psCount ..
@[simp] theorem State.psSet_bankUse (s : State) (w v : Nat) : (s.psSet w v).bankUse = s.bankUse := by obtain ⟨_, _, _, _, e⟩ := State.psSet_form s w v; rw [e]
@[simp] theorem State.setReg_bankUse (s : State) (r : RegName) (i : Nat) (w : Word) : (s.setReg r i w).bankUse = s.bankUse := by obtain ⟨_, _, _, _, e⟩ := State.setReg_form s r i w; rw [e]
@[simp] theorem State.setFld_bankUse (s : State) (f : Fld) (i v : Nat) : (s.setFld f i v).bankUse = s.bankUse := State.setReg_bankUse ..
@[simp] theorem State.addFld_bankUse (s : State) (f : Fld) (i k : Nat) : (s.addFld f i k).bankUse = s.bankUse := State.setFld_bankUse ..
@[simp] theorem State.psSet_fab (s : State) (w v : Nat) : (s.psSet w v).fab = s.fab := by obtain ⟨_, _, _, _, e⟩ := State.psSet_form s w v; rw [e]
@[simp] theorem State.setReg_fab (s : State) (r : RegName) (i : Nat) (w : Word) : (s.setReg r i w).fab = s.fab := by obtain ⟨_, _, _, _, e⟩ := State.setReg_form s r i w; rw [e]
@[simp] theorem State.setFld_fab (s : State) (f : Fld) (i v : Nat) : (s.setFld f i v).fab = s.fab := State.setReg_fab ..
@[simp] theorem State.addFld_fab (s : State) (f : Fld) (i k : Nat) : (s.addFld f i k).fab = s.fab := State.setFld_fab ..
@[simp] theorem State.psSet_table (s : State) (w v : Nat) : (s.psSet w v).table = s.table := by obtain ⟨_, _, _, _, e⟩ := State.psSet_form s w v; rw [e]
@[simp] theorem State.setReg_table (s : State) (r : RegName) (i : Nat) (w : Word) : (s.setReg r i w).table = s.table := by obtain ⟨_, _, _, _, e⟩ := State.setReg_form s r i w; rw [e]
@[simp] theorem State.setFld_table (s : State) (f : Fld) (i v : Nat) : (s.setFld f i v).table = s.table := State.setReg_table ..
@[simp] theorem State.addFld_table (s : State) (f : Fld) (i k : Nat) : (s.addFld f i k).table = s.table := State.setFld_table ..
@[simp] theorem State.psSet_serve (s : State) (w v : Nat) : (s.psSet w v).serve = s.serve := by obtain ⟨_, _, _, _, e⟩ := State.psSet_form s w v; rw [e]
@[simp] theorem State.setReg_serve (s : State) (r : RegName) (i : Nat) (w : Word) : (s.setReg r i w).serve = s.serve := by obtain ⟨_, _, _, _, e⟩ := State.setReg_form s r i w; rw [e]
@[simp] theorem State.setFld_serve (s : State) (f : Fld) (i v : Nat) : (s.setFld f i v).serve = s.serve := State.setReg_serve ..
@[simp] theorem State.addFld_serve (s : State) (f : Fld) (i k : Nat) : (s.addFld f i k).serve = s.serve := State.setFld_serve ..
@[simp] theorem State.psSet_host (s : State) (w v : Nat) : (s.psSet w v).host = s.host := by obtain ⟨_, _, _, _, e⟩ := State.psSet_form s w v; rw [e]
@[simp] theorem State.setReg_host (s : State) (r : RegName) (i : Nat) (w : Word) : (s.setReg r i w).host = s.host := by obtain ⟨_, _, _, _, e⟩ := State.setReg_form s r i w; rw [e]
@[simp] theorem State.setFld_host (s : State) (f : Fld) (i v : Nat) : (s.setFld f i v).host = s.host := State.setReg_host ..
@[simp] theorem State.addFld_host (s : State) (f : Fld) (i k : Nat) : (s.addFld f i k).host = s.host := State.setFld_host ..
@[simp] theorem State.psSet_tm (s : State) (w v : Nat) : (s.psSet w v).tm = s.tm := by obtain ⟨_, _, _, _, e⟩ := State.psSet_form s w v; rw [e]
@[simp] theorem State.setReg_tm (s : State) (r : RegName) (i : Nat) (w : Word) : (s.setReg r i w).tm = s.tm := by obtain ⟨_, _, _, _, e⟩ := State.setReg_form s r i w; rw [e]
@[simp] theorem State.setFld_tm (s : State) (f : Fld) (i v : Nat) : (s.setFld f i v).tm = s.tm := State.setReg_tm ..
@[simp] theorem State.addFld_tm (s : State) (f : Fld) (i k : Nat) : (s.addFld f i k).tm = s.tm := State.setFld_tm ..
@[simp] theorem State.psSet_pow (s : State) (w v : Nat) : (s.psSet w v).pow = s.pow := by obtain ⟨_, _, _, _, e⟩ := State.psSet_form s w v; rw [e]
@[simp] theorem State.setReg_pow (s : State) (r : RegName) (i : Nat) (w : Word) : (s.setReg r i w).pow = s.pow := by obtain ⟨_, _, _, _, e⟩ := State.setReg_form s r i w; rw [e]
@[simp] theorem State.setFld_pow (s : State) (f : Fld) (i v : Nat) : (s.setFld f i v).pow = s.pow := State.setReg_pow ..
@[simp] theorem State.addFld_pow (s : State) (f : Fld) (i k : Nat) : (s.addFld f i k).pow = s.pow := State.setFld_pow ..
@[simp] theorem State.psSet_boot (s : State) (w v : Nat) : (s.psSet w v).boot = s.boot := by obtain ⟨_, _, _, _, e⟩ := State.psSet_form s w v; rw [e]
@[simp] theorem State.setReg_boot (s : State) (r : RegName) (i : Nat) (w : Word) : (s.setReg r i w).boot = s.boot := by obtain ⟨_, _, _, _, e⟩ := State.setReg_form s r i w; rw [e]
@[simp] theorem State.setFld_boot (s : State) (f : Fld) (i v : Nat) : (s.setFld f i v).boot = s.boot := State.setReg_boot ..
@[simp] theorem State.addFld_boot (s : State) (f : Fld) (i k : Nat) : (s.addFld f i k).boot = s.boot := State.setFld_boot ..
@[simp] theorem State.psSet_mbox (s : State) (w v : Nat) : (s.psSet w v).mbox = s.mbox := by obtain ⟨_, _, _, _, e⟩ := State.psSet_form s w v; rw [e]
@[simp] theorem State.setReg_mbox (s : State) (r : RegName) (i : Nat) (w : Word) : (s.setReg r i w).mbox = s.mbox := by obtain ⟨_, _, _, _, e⟩ := State.setReg_form s r i w; rw [e]
@[simp] theorem State.setFld_mbox (s : State) (f : Fld) (i v : Nat) : (s.setFld f i v).mbox = s.mbox := State.setReg_mbox ..
@[simp] theorem State.addFld_mbox (s : State) (f : Fld) (i k : Nat) : (s.addFld f i k).mbox = s.mbox := State.setFld_mbox ..
@[simp] theorem State.psSet_evc (s : State) (w v : Nat) : (s.psSet w v).evc = s.evc := by obtain ⟨_, _, _, _, e⟩ := State.psSet_form s w v; rw [e]
@[simp] theorem State.setReg_evc (s : State) (r : RegName) (i : Nat) (w : Word) : (s.setReg r i w).evc = s.evc := by obtain ⟨_, _, _, _, e⟩ := State.setReg_form s r i w; rw [e]
@[simp] theorem State.setFld_evc (s : State) (f : Fld) (i v : Nat) : (s.setFld f i v).evc = s.evc := State.setReg_evc ..
@[simp] theorem State.addFld_evc (s : State) (f : Fld) (i k : Nat) : (s.addFld f i k).evc = s.evc := State.setFld_evc ..
@[simp] theorem State.psSet_pins (s : State) (w v : Nat) : (s.psSet w v).pins = s.pins := by obtain ⟨_, _, _, _, e⟩ := State.psSet_form s w v; rw [e]
@[simp] theorem State.setReg_pins (s : State) (r : RegName) (i : Nat) (w : Word) : (s.setReg r i w).pins = s.pins := by obtain ⟨_, _, _, _, e⟩ := State.setReg_form s r i w; rw [e]
@[simp] theorem State.setFld_pins (s : State) (f : Fld) (i v : Nat) : (s.setFld f i v).pins = s.pins := State.setReg_pins ..
@[simp] theorem State.addFld_pins (s : State) (f : Fld) (i k : Nat) : (s.addFld f i k).pins = s.pins := State.setFld_pins ..
@[simp] theorem State.psSet_acts (s : State) (w v : Nat) : (s.psSet w v).acts = s.acts := by obtain ⟨_, _, _, _, e⟩ := State.psSet_form s w v; rw [e]
@[simp] theorem State.setReg_acts (s : State) (r : RegName) (i : Nat) (w : Word) : (s.setReg r i w).acts = s.acts := by obtain ⟨_, _, _, _, e⟩ := State.setReg_form s r i w; rw [e]
@[simp] theorem State.setFld_acts (s : State) (f : Fld) (i v : Nat) : (s.setFld f i v).acts = s.acts := State.setReg_acts ..
@[simp] theorem State.addFld_acts (s : State) (f : Fld) (i k : Nat) : (s.addFld f i k).acts = s.acts := State.setFld_acts ..
@[simp] theorem State.psSet_nextAct (s : State) (w v : Nat) : (s.psSet w v).nextAct = s.nextAct := by obtain ⟨_, _, _, _, e⟩ := State.psSet_form s w v; rw [e]
@[simp] theorem State.setReg_nextAct (s : State) (r : RegName) (i : Nat) (w : Word) : (s.setReg r i w).nextAct = s.nextAct := by obtain ⟨_, _, _, _, e⟩ := State.setReg_form s r i w; rw [e]
@[simp] theorem State.setFld_nextAct (s : State) (f : Fld) (i v : Nat) : (s.setFld f i v).nextAct = s.nextAct := State.setReg_nextAct ..
@[simp] theorem State.addFld_nextAct (s : State) (f : Fld) (i k : Nat) : (s.addFld f i k).nextAct = s.nextAct := State.setFld_nextAct ..
@[simp] theorem State.psSet_out (s : State) (w v : Nat) : (s.psSet w v).out = s.out := by obtain ⟨_, _, _, _, e⟩ := State.psSet_form s w v; rw [e]
@[simp] theorem State.setReg_out (s : State) (r : RegName) (i : Nat) (w : Word) : (s.setReg r i w).out = s.out := by obtain ⟨_, _, _, _, e⟩ := State.setReg_form s r i w; rw [e]
@[simp] theorem State.setFld_out (s : State) (f : Fld) (i v : Nat) : (s.setFld f i v).out = s.out := State.setReg_out ..
@[simp] theorem State.addFld_out (s : State) (f : Fld) (i k : Nat) : (s.addFld f i k).out = s.out := State.setFld_out ..
@[simp] theorem State.psSet_gtc (s : State) (w v : Nat) : (s.psSet w v).gtc = s.gtc := by obtain ⟨_, _, _, _, e⟩ := State.psSet_form s w v; rw [e]
@[simp] theorem State.setReg_gtc (s : State) (r : RegName) (i : Nat) (w : Word) : (s.setReg r i w).gtc = s.gtc := by obtain ⟨_, _, _, _, e⟩ := State.setReg_form s r i w; rw [e]
@[simp] theorem State.setFld_gtc (s : State) (f : Fld) (i v : Nat) : (s.setFld f i v).gtc = s.gtc := State.setReg_gtc ..
@[simp] theorem State.addFld_gtc (s : State) (f : Fld) (i k : Nat) : (s.addFld f i k).gtc = s.gtc := State.setFld_gtc ..
@[simp] theorem State.psSet_refNs (s : State) (w v : Nat) : (s.psSet w v).refNs = s.refNs := by obtain ⟨_, _, _, _, e⟩ := State.psSet_form s w v; rw [e]
@[simp] theorem State.setReg_refNs (s : State) (r : RegName) (i : Nat) (w : Word) : (s.setReg r i w).refNs = s.refNs := by obtain ⟨_, _, _, _, e⟩ := State.setReg_form s r i w; rw [e]
@[simp] theorem State.setFld_refNs (s : State) (f : Fld) (i v : Nat) : (s.setFld f i v).refNs = s.refNs := State.setReg_refNs ..
@[simp] theorem State.addFld_refNs (s : State) (f : Fld) (i k : Nat) : (s.addFld f i k).refNs = s.refNs := State.setFld_refNs ..
@[simp] theorem State.psSet_sub (s : State) (w v : Nat) : (s.psSet w v).sub = s.sub := by obtain ⟨_, _, _, _, e⟩ := State.psSet_form s w v; rw [e]
@[simp] theorem State.setReg_sub (s : State) (r : RegName) (i : Nat) (w : Word) : (s.setReg r i w).sub = s.sub := by obtain ⟨_, _, _, _, e⟩ := State.setReg_form s r i w; rw [e]
@[simp] theorem State.setFld_sub (s : State) (f : Fld) (i v : Nat) : (s.setFld f i v).sub = s.sub := State.setReg_sub ..
@[simp] theorem State.addFld_sub (s : State) (f : Fld) (i k : Nat) : (s.addFld f i k).sub = s.sub := State.setFld_sub ..
@[simp] theorem State.psSet_free (s : State) (w v : Nat) : (s.psSet w v).free = s.free := by obtain ⟨_, _, _, _, e⟩ := State.psSet_form s w v; rw [e]
@[simp] theorem State.psSet_hw (s : State) (w v : Nat) : (s.psSet w v).hw = s.hw := by obtain ⟨_, _, _, _, e⟩ := State.psSet_form s w v; rw [e]
@[simp] theorem State.psSet_scrubs (s : State) (w v : Nat) : (s.psSet w v).scrubs = s.scrubs := by obtain ⟨_, _, _, _, e⟩ := State.psSet_form s w v; rw [e]
@[simp] theorem State.psSet_topo (s : State) (w v : Nat) : (s.psSet w v).topo = s.topo := by obtain ⟨_, _, _, _, e⟩ := State.psSet_form s w v; rw [e]
@[simp] theorem State.setReg_free (s : State) (r : RegName) (i : Nat) (w : Word) : (s.setReg r i w).free = s.free := by obtain ⟨_, _, _, _, e⟩ := State.setReg_form s r i w; rw [e]
@[simp] theorem State.setReg_hw (s : State) (r : RegName) (i : Nat) (w : Word) : (s.setReg r i w).hw = s.hw := by obtain ⟨_, _, _, _, e⟩ := State.setReg_form s r i w; rw [e]
@[simp] theorem State.setReg_scrubs (s : State) (r : RegName) (i : Nat) (w : Word) : (s.setReg r i w).scrubs = s.scrubs := by obtain ⟨_, _, _, _, e⟩ := State.setReg_form s r i w; rw [e]
@[simp] theorem State.setReg_topo (s : State) (r : RegName) (i : Nat) (w : Word) : (s.setReg r i w).topo = s.topo := by obtain ⟨_, _, _, _, e⟩ := State.setReg_form s r i w; rw [e]
@[simp] theorem State.setFld_free (s : State) (f : Fld) (i v : Nat) : (s.setFld f i v).free = s.free := State.setReg_free ..
@[simp] theorem State.setFld_hw (s : State) (f : Fld) (i v : Nat) : (s.setFld f i v).hw = s.hw := State.setReg_hw ..
@[simp] theorem State.setFld_scrubs (s : State) (f : Fld) (i v : Nat) : (s.setFld f i v).scrubs = s.scrubs := State.setReg_scrubs ..
@[simp] theorem State.setFld_topo (s : State) (f : Fld) (i v : Nat) : (s.setFld f i v).topo = s.topo := State.setReg_topo ..
@[simp] theorem State.addFld_free (s : State) (f : Fld) (i k : Nat) : (s.addFld f i k).free = s.free := State.setFld_free ..
@[simp] theorem State.addFld_scrubs (s : State) (f : Fld) (i k : Nat) : (s.addFld f i k).scrubs = s.scrubs := State.setFld_scrubs ..
@[simp] theorem State.addFld_topo (s : State) (f : Fld) (i k : Nat) : (s.addFld f i k).topo = s.topo := State.setFld_topo ..

@[simp] theorem State.hwSet_pending (s : State) (g : Fld) (i v : Nat) : (s.hwSet g i v).pending = s.pending := State.setFld_pending ..
@[simp] theorem State.hwSet_id (s : State) (g : Fld) (i v : Nat) : (s.hwSet g i v).id = s.id := State.setFld_id ..
@[simp] theorem State.hwSet_latch (s : State) (g : Fld) (i v : Nat) : (s.hwSet g i v).latch = s.latch := State.setFld_latch ..
@[simp] theorem State.hwSet_mem (s : State) (g : Fld) (i v : Nat) : (s.hwSet g i v).mem = s.mem := State.setFld_mem ..
@[simp] theorem State.hwSet_fill (s : State) (g : Fld) (i v : Nat) : (s.hwSet g i v).fill = s.fill := State.setFld_fill ..
@[simp] theorem State.hwSet_bad (s : State) (g : Fld) (i v : Nat) : (s.hwSet g i v).bad = s.bad := State.setFld_bad ..
@[simp] theorem State.hwSet_scrubs (s : State) (g : Fld) (i v : Nat) : (s.hwSet g i v).scrubs = s.scrubs := State.setFld_scrubs ..
@[simp] theorem State.hwSet_poisonMem (s : State) (g : Fld) (i v : Nat) : (s.hwSet g i v).poisonMem = s.poisonMem := State.setFld_poisonMem ..
@[simp] theorem State.hwSet_poison (s : State) (g : Fld) (i v : Nat) : (s.hwSet g i v).poison = s.poison := State.setFld_poison ..
@[simp] theorem State.hwSet_cores (s : State) (g : Fld) (i v : Nat) : (s.hwSet g i v).cores = s.cores := State.setFld_cores ..
@[simp] theorem State.hwSet_clusters (s : State) (g : Fld) (i v : Nat) : (s.hwSet g i v).clusters = s.clusters := State.setFld_clusters ..
@[simp] theorem State.hwSet_cols (s : State) (g : Fld) (i v : Nat) : (s.hwSet g i v).cols = s.cols := State.setFld_cols ..
@[simp] theorem State.hwSet_parts (s : State) (g : Fld) (i v : Nat) : (s.hwSet g i v).parts = s.parts := State.setFld_parts ..
@[simp] theorem State.hwSet_ports (s : State) (g : Fld) (i v : Nat) : (s.hwSet g i v).ports = s.ports := State.setFld_ports ..
@[simp] theorem State.hwSet_psCount (s : State) (g : Fld) (i v : Nat) : (s.hwSet g i v).psCount = s.psCount := State.setFld_psCount ..
@[simp] theorem State.hwSet_topo (s : State) (g : Fld) (i v : Nat) : (s.hwSet g i v).topo = s.topo := State.setFld_topo ..
@[simp] theorem State.hwSet_bankUse (s : State) (g : Fld) (i v : Nat) : (s.hwSet g i v).bankUse = s.bankUse := State.setFld_bankUse ..
@[simp] theorem State.hwSet_fab (s : State) (g : Fld) (i v : Nat) : (s.hwSet g i v).fab = s.fab := State.setFld_fab ..
@[simp] theorem State.hwSet_table (s : State) (g : Fld) (i v : Nat) : (s.hwSet g i v).table = s.table := State.setFld_table ..
@[simp] theorem State.hwSet_serve (s : State) (g : Fld) (i v : Nat) : (s.hwSet g i v).serve = s.serve := State.setFld_serve ..
@[simp] theorem State.hwSet_host (s : State) (g : Fld) (i v : Nat) : (s.hwSet g i v).host = s.host := State.setFld_host ..
@[simp] theorem State.hwSet_tm (s : State) (g : Fld) (i v : Nat) : (s.hwSet g i v).tm = s.tm := State.setFld_tm ..
@[simp] theorem State.hwSet_pow (s : State) (g : Fld) (i v : Nat) : (s.hwSet g i v).pow = s.pow := State.setFld_pow ..
@[simp] theorem State.hwSet_boot (s : State) (g : Fld) (i v : Nat) : (s.hwSet g i v).boot = s.boot := State.setFld_boot ..
@[simp] theorem State.hwSet_mbox (s : State) (g : Fld) (i v : Nat) : (s.hwSet g i v).mbox = s.mbox := State.setFld_mbox ..
@[simp] theorem State.hwSet_evc (s : State) (g : Fld) (i v : Nat) : (s.hwSet g i v).evc = s.evc := State.setFld_evc ..
@[simp] theorem State.hwSet_pins (s : State) (g : Fld) (i v : Nat) : (s.hwSet g i v).pins = s.pins := State.setFld_pins ..
@[simp] theorem State.hwSet_acts (s : State) (g : Fld) (i v : Nat) : (s.hwSet g i v).acts = s.acts := State.setFld_acts ..
@[simp] theorem State.hwSet_nextAct (s : State) (g : Fld) (i v : Nat) : (s.hwSet g i v).nextAct = s.nextAct := State.setFld_nextAct ..
@[simp] theorem State.hwSet_out (s : State) (g : Fld) (i v : Nat) : (s.hwSet g i v).out = s.out := State.setFld_out ..
@[simp] theorem State.hwSet_gtc (s : State) (g : Fld) (i v : Nat) : (s.hwSet g i v).gtc = s.gtc := State.setFld_gtc ..
@[simp] theorem State.hwSet_refNs (s : State) (g : Fld) (i v : Nat) : (s.hwSet g i v).refNs = s.refNs := State.setFld_refNs ..
@[simp] theorem State.hwSet_sub (s : State) (g : Fld) (i v : Nat) : (s.hwSet g i v).sub = s.sub := State.setFld_sub ..
@[simp] theorem State.hwSet_free (s : State) (g : Fld) (i v : Nat) : (s.hwSet g i v).free = s.free := State.setFld_free ..

@[simp] theorem State.hwMax_pending (s : State) (g : Fld) (i v : Nat) : (s.hwMax g i v).pending = s.pending := State.setFld_pending ..
@[simp] theorem State.hwMax_id (s : State) (g : Fld) (i v : Nat) : (s.hwMax g i v).id = s.id := State.setFld_id ..
@[simp] theorem State.hwMax_latch (s : State) (g : Fld) (i v : Nat) : (s.hwMax g i v).latch = s.latch := State.setFld_latch ..
@[simp] theorem State.hwMax_mem (s : State) (g : Fld) (i v : Nat) : (s.hwMax g i v).mem = s.mem := State.setFld_mem ..
@[simp] theorem State.hwMax_fill (s : State) (g : Fld) (i v : Nat) : (s.hwMax g i v).fill = s.fill := State.setFld_fill ..
@[simp] theorem State.hwMax_bad (s : State) (g : Fld) (i v : Nat) : (s.hwMax g i v).bad = s.bad := State.setFld_bad ..
@[simp] theorem State.hwMax_scrubs (s : State) (g : Fld) (i v : Nat) : (s.hwMax g i v).scrubs = s.scrubs := State.setFld_scrubs ..
@[simp] theorem State.hwMax_poisonMem (s : State) (g : Fld) (i v : Nat) : (s.hwMax g i v).poisonMem = s.poisonMem := State.setFld_poisonMem ..
@[simp] theorem State.hwMax_poison (s : State) (g : Fld) (i v : Nat) : (s.hwMax g i v).poison = s.poison := State.setFld_poison ..
@[simp] theorem State.hwMax_cores (s : State) (g : Fld) (i v : Nat) : (s.hwMax g i v).cores = s.cores := State.setFld_cores ..
@[simp] theorem State.hwMax_clusters (s : State) (g : Fld) (i v : Nat) : (s.hwMax g i v).clusters = s.clusters := State.setFld_clusters ..
@[simp] theorem State.hwMax_cols (s : State) (g : Fld) (i v : Nat) : (s.hwMax g i v).cols = s.cols := State.setFld_cols ..
@[simp] theorem State.hwMax_parts (s : State) (g : Fld) (i v : Nat) : (s.hwMax g i v).parts = s.parts := State.setFld_parts ..
@[simp] theorem State.hwMax_ports (s : State) (g : Fld) (i v : Nat) : (s.hwMax g i v).ports = s.ports := State.setFld_ports ..
@[simp] theorem State.hwMax_psCount (s : State) (g : Fld) (i v : Nat) : (s.hwMax g i v).psCount = s.psCount := State.setFld_psCount ..
@[simp] theorem State.hwMax_topo (s : State) (g : Fld) (i v : Nat) : (s.hwMax g i v).topo = s.topo := State.setFld_topo ..
@[simp] theorem State.hwMax_bankUse (s : State) (g : Fld) (i v : Nat) : (s.hwMax g i v).bankUse = s.bankUse := State.setFld_bankUse ..
@[simp] theorem State.hwMax_fab (s : State) (g : Fld) (i v : Nat) : (s.hwMax g i v).fab = s.fab := State.setFld_fab ..
@[simp] theorem State.hwMax_table (s : State) (g : Fld) (i v : Nat) : (s.hwMax g i v).table = s.table := State.setFld_table ..
@[simp] theorem State.hwMax_serve (s : State) (g : Fld) (i v : Nat) : (s.hwMax g i v).serve = s.serve := State.setFld_serve ..
@[simp] theorem State.hwMax_host (s : State) (g : Fld) (i v : Nat) : (s.hwMax g i v).host = s.host := State.setFld_host ..
@[simp] theorem State.hwMax_tm (s : State) (g : Fld) (i v : Nat) : (s.hwMax g i v).tm = s.tm := State.setFld_tm ..
@[simp] theorem State.hwMax_pow (s : State) (g : Fld) (i v : Nat) : (s.hwMax g i v).pow = s.pow := State.setFld_pow ..
@[simp] theorem State.hwMax_boot (s : State) (g : Fld) (i v : Nat) : (s.hwMax g i v).boot = s.boot := State.setFld_boot ..
@[simp] theorem State.hwMax_mbox (s : State) (g : Fld) (i v : Nat) : (s.hwMax g i v).mbox = s.mbox := State.setFld_mbox ..
@[simp] theorem State.hwMax_evc (s : State) (g : Fld) (i v : Nat) : (s.hwMax g i v).evc = s.evc := State.setFld_evc ..
@[simp] theorem State.hwMax_pins (s : State) (g : Fld) (i v : Nat) : (s.hwMax g i v).pins = s.pins := State.setFld_pins ..
@[simp] theorem State.hwMax_acts (s : State) (g : Fld) (i v : Nat) : (s.hwMax g i v).acts = s.acts := State.setFld_acts ..
@[simp] theorem State.hwMax_nextAct (s : State) (g : Fld) (i v : Nat) : (s.hwMax g i v).nextAct = s.nextAct := State.setFld_nextAct ..
@[simp] theorem State.hwMax_out (s : State) (g : Fld) (i v : Nat) : (s.hwMax g i v).out = s.out := State.setFld_out ..
@[simp] theorem State.hwMax_gtc (s : State) (g : Fld) (i v : Nat) : (s.hwMax g i v).gtc = s.gtc := State.setFld_gtc ..
@[simp] theorem State.hwMax_refNs (s : State) (g : Fld) (i v : Nat) : (s.hwMax g i v).refNs = s.refNs := State.setFld_refNs ..
@[simp] theorem State.hwMax_sub (s : State) (g : Fld) (i v : Nat) : (s.hwMax g i v).sub = s.sub := State.setFld_sub ..
@[simp] theorem State.hwMax_free (s : State) (g : Fld) (i v : Nat) : (s.hwMax g i v).free = s.free := State.setFld_free ..


/-! ## Units: a read after an update -/

@[simp] theorem State.core_setCore (s : State) (c : Nat) (v : Core) : (s.setCore c v).core c = v := SMap.get_put_self ..
@[simp] theorem State.core_modCore (s : State) (c : Nat) (f : Core → Core) : (s.modCore c f).core c = f (s.core c) := SMap.get_put_self ..
theorem State.core_modCore_ne (s : State) {c k : Nat} (f : Core → Core) (h : k ≠ c) : (s.modCore c f).core k = s.core k :=
  SMap.get_put_ne _ _ _ _ h
@[simp] theorem State.cluster_setCluster (s : State) (k : Nat) (v : Cluster) : (s.setCluster k v).cluster k = v := SMap.get_put_self ..
@[simp] theorem State.cluster_modCluster (s : State) (k : Nat) (f : Cluster → Cluster) :
    (s.modCluster k f).cluster k = f (s.cluster k) := SMap.get_put_self ..
theorem State.cluster_modCluster_ne (s : State) {k j : Nat} (f : Cluster → Cluster) (h : j ≠ k) :
    (s.modCluster k f).cluster j = s.cluster j := SMap.get_put_ne _ _ _ _ h
@[simp] theorem State.col_setCol (s : State) (k : Nat) (v : TierCol) : (s.setCol k v).col k = v := SMap.get_put_self ..
@[simp] theorem State.part_setPart (s : State) (q : Nat) (v : Part) : (s.setPart q v).part q = v := SMap.get_put_self ..
@[simp] theorem State.part_modPart (s : State) (q : Nat) (f : Part → Part) : (s.modPart q f).part q = f (s.part q) := SMap.get_put_self ..
theorem State.part_setPart_ne (s : State) {q p : Nat} (v : Part) (h : p ≠ q) : (s.setPart q v).part p = s.part p :=
  SMap.get_put_ne _ _ _ _ h
theorem State.part_modPart_ne (s : State) {q p : Nat} (f : Part → Part) (h : p ≠ q) : (s.modPart q f).part p = s.part p :=
  SMap.get_put_ne _ _ _ _ h
@[simp] theorem State.port_setPort (s : State) (n : Nat) (v : Port) : (s.setPort n v).port n = v := SMap.get_put_self ..
@[simp] theorem State.port_modPort (s : State) (n : Nat) (f : Port → Port) : (s.modPort n f).port n = f (s.port n) := SMap.get_put_self ..
theorem State.port_modPort_ne (s : State) {n m : Nat} (f : Port → Port) (h : m ≠ n) : (s.modPort n f).port m = s.port m :=
  SMap.get_put_ne _ _ _ _ h

theorem State.core_of_cores {s t : State} (h : t.cores = s.cores) (c : Nat) : t.core c = s.core c := by
  simp only [State.core, h]
theorem State.part_of_parts {s t : State} (h : t.parts = s.parts) (q : Nat) : t.part q = s.part q := by
  simp only [State.part, h]
theorem State.port_of_ports {s t : State} (h : t.ports = s.ports) (n : Nat) : t.port n = s.port n := by
  simp only [State.port, h]
theorem State.cluster_of_clusters {s t : State} (h : t.clusters = s.clusters) (k : Nat) : t.cluster k = s.cluster k := by
  simp only [State.cluster, h]

/-! ## Registers: a read after a write -/

theorem regKey_inj {r r' : RegName} {i i' : Nat} (h : i < 2 ^ 24) (h' : i' < 2 ^ 24) (e : regKey r i = regKey r' i') : r = r' ∧ i = i' := by
  simp only [regKey] at e
  have : r.num = r'.num := by omega
  exact ⟨RegName.num_inj this, by omega⟩

theorem State.psWord_congr {s t : State} (hp : t.ps = s.ps) (hi : t.id = s.id) (w : Nat) : t.psWord w = s.psWord w := by
  unfold State.psWord
  rw [hp, hi]

theorem State.reg_congr {s t : State} {r : RegName} {i : Nat} (hp : t.ps = s.ps) (hi : t.id = s.id)
    (h : psReg r = none → SMap.get r.dflt t.regs (regKey r i) = SMap.get r.dflt s.regs (regKey r i)) : t.reg r i = s.reg r i := by
  unfold State.reg
  cases e : psReg r with
  | none => exact h e
  | some p =>
    dsimp only
    rw [State.psWord_congr hp hi, State.psWord_congr hp hi]

theorem State.setReg_plain {r : RegName} (h : psReg r = none) (s : State) (i : Nat) (w : Word) :
    s.setReg r i w = { s with regs := SMap.put r.dflt s.regs (regKey r i) w } := by
  simp only [State.setReg, h]

theorem State.reg_plain {r : RegName} (h : psReg r = none) (s : State) (i : Nat) : s.reg r i = SMap.get r.dflt s.regs (regKey r i) := by
  simp only [State.reg, h]

/-- A register reads what was written to it. -/
theorem State.reg_setReg {r : RegName} (h : psReg r = none) (s : State) (i : Nat) (w : Word) : (s.setReg r i w).reg r i = w := by
  rw [State.setReg_plain h, State.reg_plain h]
  exact SMap.get_put_self ..

/-- A write of one register leaves another alone. -/
theorem State.reg_setReg_ne {r r' : RegName} (h : psReg r = none) (s : State) {i i' : Nat} (w : Word)
    (hi : i < 2 ^ 24) (hi' : i' < 2 ^ 24) (hne : r' ≠ r ∨ i' ≠ i) : (s.setReg r i w).reg r' i' = s.reg r' i' := by
  rw [State.setReg_plain h]
  refine State.reg_congr rfl rfl fun _ => SMap.get_put_ne _ _ _ _ fun e => ?_
  have := regKey_inj hi' hi e
  rcases hne with hne | hne
  · exact hne this.1
  · exact hne this.2

/-- A field reads what was written to it. -/
theorem State.fld_setFld {f : Fld} (h : psReg f.reg = none) (hf : f.fits = true) (s : State) (i v : Nat) :
    (s.setFld f i v).fld f i = v % 2 ^ f.width := by
  rw [State.fld, State.setFld, State.reg_setReg h, Fld.get_put hf]

/-- A write of one field leaves the register's other fields alone. -/
theorem State.fld_setFld_apart {f g : Fld} (h : psReg f.reg = none) (hr : g.reg = f.reg) (hf : f.fits = true) (hg : g.fits = true)
    (ha : f.apart g = true) (s : State) (i v : Nat) : (s.setFld f i v).fld g i = s.fld g i := by
  rw [State.fld, State.setFld, hr, State.reg_setReg h, Fld.get_put_apart hf hg ha, State.fld, hr]

/-- A write of a field leaves other registers alone. -/
theorem State.fld_setFld_ne {f g : Fld} (h : psReg f.reg = none) (s : State) {i j : Nat} (v : Nat)
    (hi : i < 2 ^ 24) (hj : j < 2 ^ 24) (hne : g.reg ≠ f.reg ∨ j ≠ i) : (s.setFld f i v).fld g j = s.fld g j := by
  rw [State.fld, State.setFld, State.reg_setReg_ne h s _ hi hj hne, State.fld]

theorem State.setFld_occ {f : Fld} (h : psReg f.reg = none) (s : State) (i v : Nat) : (s.setFld f i v).occ = s.occ := by
  rw [State.setFld, State.setReg_plain h]
theorem State.setFld_ps {f : Fld} (h : psReg f.reg = none) (s : State) (i v : Nat) : (s.setFld f i v).ps = s.ps := by
  rw [State.setFld, State.setReg_plain h]
theorem State.setFld_psQ {f : Fld} (h : psReg f.reg = none) (s : State) (i v : Nat) : (s.setFld f i v).psQ = s.psQ := by
  rw [State.setFld, State.setReg_plain h]

/-- Registers read alike in states with the same register file, persistent words and identity. -/
theorem State.fld_congr {s t : State} (h : t.regs = s.regs) (hp : t.ps = s.ps) (hi : t.id = s.id) (f : Fld) (i : Nat) : t.fld f i = s.fld f i := by
  rw [State.fld, State.fld, State.reg_congr hp hi fun _ => by rw [h]]

/-- A note of a hardware change leaves every register as it reads. -/
@[simp] theorem State.fld_note (s : State) (g : Fld) (j kind k : Nat) (f : Fld) (i : Nat) : (s.note g j kind k).fld f i = s.fld f i :=
  State.fld_congr (by simp) (by simp) (by simp) f i

/-- A counter field after an addition: it stops at its largest value. -/
theorem State.fld_addFld {f : Fld} (h : psReg f.reg = none) (hf : f.fits = true) (s : State) (i k : Nat) :
    (s.addFld f i k).fld f i = min (2 ^ f.width - 1) (s.fld f i + k) := by
  rw [State.addFld, State.fld_note, State.fld_setFld h hf, Nat.mod_eq_of_lt]
  have := Nat.two_pow_pos f.width
  omega

/-! ## Memory -/

theorem State.rdByte_wrByte (s : State) (a : Nat) (b : Byte) : (s.wrByte a b).rdByte a = b := SMap.get_put_self ..

theorem State.rdByte_wrByte_ne (s : State) {a c : Nat} (b : Byte) (h : c ≠ a) : (s.wrByte a b).rdByte c = s.rdByte c :=
  SMap.get_put_ne _ _ _ _ h

/-- A write of one byte keeps the canonical form of the memory. -/
theorem State.memWf_wrByte (s : State) (a : Nat) (b : Byte) (h : s.memWf = true) : (s.wrByte a b).memWf = true :=
  SMap.wf_put s.fillByte s.mem a b h

/-- A write of bytes keeps the canonical form of the memory. -/
theorem State.memWf_wrBytes (s : State) (a : Nat) (bs : List Byte) (h : s.memWf = true) : (s.wrBytes a bs).memWf = true := by
  induction bs generalizing s a with
  | nil => exact h
  | cons b r ih => exact ih _ _ (State.memWf_wrByte s a b h)

/-- A write of bytes leaves every other address alone. -/
theorem State.rdByte_wrBytes_ne (s : State) (a : Nat) (bs : List Byte) {c : Nat} (h : c < a ∨ a + bs.length ≤ c) :
    (s.wrBytes a bs).rdByte c = s.rdByte c := by
  induction bs generalizing s a with
  | nil => rfl
  | cons b r ih =>
    simp only [List.length_cons] at h
    rw [State.wrBytes, ih _ _ (by omega), State.rdByte_wrByte_ne _ _ (by omega)]

/-- States with the same memory and fill patterns have it in canonical form alike. -/
theorem State.memWf_congr {s t : State} (h : t.mem = s.mem) (hf : t.fill = s.fill) : t.memWf = s.memWf := by
  have : t.fillByte = s.fillByte := by
    funext a
    simp only [State.fillByte, hf]
  simp only [State.memWf, h, this]

/-! ## What a command answers -/

/-- Every meaning ends in `done`: a next state whose queue and identity are those before. -/
theorem done_next (s t u : State) (h : done s t = .next u) : u.pending = s.pending ∧ u.id = s.id := by
  have : { t with pending := s.pending, id := s.id } = u := by
    simpa [done] using h
  rw [← this]
  exact ⟨rfl, rfl⟩

end Sys2Proof.Machine
end

