-- ==== Sys2Proof/Laws/Memory.lean ====
section
/-! SUPPORT. What the operations over device memory and operand buffers can do: a read and an error record leave device memory as it is;
a write and a sweep keep its canonical form. -/

namespace Sys2Proof.Machine

/-- A step through a list keeps what each of its steps keeps. -/
theorem foldl_keeps {α β : Type} (P : β → Prop) (f : β → α → β) (hf : ∀ b a, P b → P (f b a)) (l : List α) (b : β) (h : P b) :
    P (l.foldl f b) := by
  induction l generalizing b with
  | nil => exact h
  | cons a r ih => exact ih _ (hf b a h)

/-- The state `t` has the device memory and the fill patterns of `s`. -/
abbrev State.memSame (s t : State) : Prop := t.mem = s.mem ∧ t.fill = s.fill

theorem State.memSame.memWf {s t : State} (h : s.memSame t) (w : s.memWf = true) : t.memWf = true := by
  rw [State.memWf_congr h.1 h.2]; exact w

theorem State.memSame.rdByte {s t : State} (h : s.memSame t) (a : Nat) : t.rdByte a = s.rdByte a := by
  simp only [State.rdByte, State.fillByte, h.1, h.2]

/-! ## Records of errors and reads leave device memory alone -/

theorem State.memSame_poisonEvent (s : State) (w : Who) : s.memSame (s.poisonEvent w) := by
  cases w <;> exact ⟨by simp [State.poisonEvent], by simp [State.poisonEvent]⟩

theorem State.memSame_unpoison (s : State) (u : Nat) : s.memSame (s.unpoison u) := ⟨rfl, rfl⟩

theorem State.memSame_clearBad (s : State) (ks : List Nat) : s.memSame (s.clearBad ks) := ⟨rfl, rfl⟩

theorem State.memSame_memLog (s : State) (c kind unit addr : Nat) : s.memSame (s.memLog c kind unit addr) := by
  unfold State.memLog
  split <;> exact ⟨by simp, by simp⟩

theorem State.memSame_trans {s t u : State} (h : s.memSame t) (k : t.memSame u) : s.memSame u := ⟨k.1.trans h.1, k.2.trans h.2⟩

theorem State.memSame_health (s : State) (f : Fld) (ci : Nat) : s.memSame (s.health f ci) := by
  unfold State.health
  split <;> exact ⟨by simp, by simp⟩

theorem State.memSame_failBank (s : State) (ci bank : Nat) : s.memSame (s.failBank ci bank) := by
  unfold State.failBank
  exact ⟨by simp, by simp⟩

theorem State.memSame_noteBadPiece (s : State) (tc line bank : Nat) : s.memSame (s.noteBadPiece tc line bank) := by
  unfold State.noteBadPiece
  dsimp only
  split
  · exact ⟨rfl, rfl⟩
  · split
    · exact State.memSame_trans ⟨by simp, by simp⟩ (State.memSame_failBank ..)
    · exact ⟨by simp, by simp⟩

/-- Reading the pieces of a bulk line changes no byte (R207 to R209). -/
theorem State.memSame_readLine (s : State) (a : Nat) : s.memSame (s.readLine a).1 := by
  have key : ∀ (l : List Nat) (tc line : Nat) (u : State), s.memSame u →
      s.memSame (l.foldl (fun t p => t.noteBadPiece tc line (pieceBank line p)) u) := fun l tc line u hu =>
    foldl_keeps (fun t => s.memSame t) _ (fun b p hb => State.memSame_trans hb (State.memSame_noteBadPiece b _ _ _)) l u hu
  have h0 : ∀ ce ci : Nat, s.memSame (if ce = 0 then s else s.addFld F.CAL_COLSTAT_CECNT ci ce) := fun ce ci => by
    split <;> exact ⟨by simp, by simp⟩
  unfold State.readLine
  dsimp only
  split
  · exact State.memSame_trans (key _ _ _ _ (h0 _ _)) (State.memSame_health ..)
  · split
    · exact State.memSame_trans (key _ _ _ _ (h0 _ _)) (State.memSame_health ..)
    · exact key _ _ _ _ (h0 _ _)

/-- The scrub pointer's advance changes no byte. -/
theorem State.memSame_scrubNext (s : State) (tc : Nat) : s.memSame (s.scrubNext tc) := by
  unfold State.scrubNext
  dsimp only
  split <;> exact ⟨by simp, by simp⟩

/-- A dropped write-back of patrol scrub changes no byte. -/
theorem State.memSame_dropBack (s : State) (line : Nat) : s.memSame (s.dropBack line) := by
  unfold State.dropBack
  dsimp only
  split
  · exact State.memSame_trans ⟨by simp, by simp⟩ (State.memSame_scrubNext ..)
  · exact ⟨rfl, rfl⟩

/-- Reading a word of a core store changes no byte. -/
theorem State.memSame_readCsWord (s : State) (who : Who) (a n : Nat) : s.memSame (s.readCsWord who a n).1 := by
  unfold State.readCsWord
  dsimp only
  have h1 : ∀ ce : Nat, s.memSame (if ce = 0 then s else s.addFld F.CORECTL_MEMSTAT_CECNT (daCore a) ce) := fun ce => by
    split <;> exact ⟨by simp, by simp⟩
  split
  · refine State.memSame_trans ?_ (State.memSame_memLog ..)
    split
    · exact State.memSame_trans (h1 _) (State.memSame_poisonEvent ..)
    · exact h1 _
  · split
    · exact State.memSame_trans (h1 _) (State.memSame_poisonEvent ..)
    · exact h1 _

/-- Reading bytes of a bulk line changes no byte. -/
theorem State.memSame_readBulk (s : State) (who : Who) (a n : Nat) : s.memSame (s.readBulk who a n).1 := by
  unfold State.readBulk
  dsimp only
  split
  · exact State.memSame_trans (State.memSame_readLine s a) (State.memSame_poisonEvent ..)
  · exact State.memSame_readLine s a

/-- A read of device memory changes no byte of it. -/
theorem State.memSame_readMem (s : State) (who : Who) (a n : Nat) : s.memSame (s.readMem who a n).1 := by
  unfold State.readMem
  dsimp only
  refine foldl_keeps (fun (x : State × List Byte × Bool) => s.memSame x.1) _ (fun x u hx => ?_) _ _ ⟨rfl, rfl⟩
  dsimp only
  split
  · exact State.memSame_trans hx (State.memSame_readCsWord ..)
  · exact State.memSame_trans hx (State.memSame_readBulk ..)

/-- A read of an operand buffer changes no byte of device memory. -/
theorem State.memSame_readBuf (s : State) (c b i n : Nat) : s.memSame (s.readBuf c b i n).1 := by
  unfold State.readBuf
  refine foldl_keeps (fun (x : State × List Byte × Bool) => s.memSame x.1) _ (fun x u hx => ?_) _ _ ⟨rfl, rfl⟩
  dsimp only
  refine State.memSame_trans hx ?_
  have h1 : ∀ p : Prop, ∀ _ : Decidable p, x.1.memSame (if p then x.1.addFld F.CORECTL_MEMSTAT_CECNT c 1 else x.1) := fun p _ => by
    split <;> exact ⟨by simp, by simp⟩
  have h2 : ∀ (t : State) (p : Prop) (_ : Decidable p), t.memSame (if p then t.poisonEvent (.core c) else t) := fun t p _ => by
    split
    · exact State.memSame_poisonEvent ..
    · exact ⟨rfl, rfl⟩
  have h3 : ∀ (t : State) (p : Prop) (_ : Decidable p) (k u a : Nat), t.memSame (if p then t.memLog c k u a else t) := fun t p _ k u a => by
    split
    · exact State.memSame_memLog ..
    · exact ⟨rfl, rfl⟩
  exact State.memSame_trans (State.memSame_trans (h1 _ _) (h2 _ _ _)) (h3 _ _ _ _ _ _)

/-- A write of an operand buffer changes no byte of device memory. -/
theorem State.memSame_writeBuf (s : State) (c b i : Nat) (bs : List Byte) : s.memSame (s.writeBuf c b i bs) := by
  unfold State.writeBuf
  dsimp only
  unfold State.memSame
  rw [State.modCore_mem, State.modCore_fill]
  refine foldl_keeps (fun t => s.memSame t) _ (fun t u ht => State.memSame_trans ht ?_) _ s ⟨rfl, rfl⟩
  split
  · exact State.memSame_poisonEvent ..
  · exact ⟨rfl, rfl⟩

/-! ## Writes and sweeps keep the canonical form -/

/-- A write of bits of a core-store word keeps the canonical form. -/
theorem State.memWf_writeCsMask (s : State) (who : Who) (a val mask : Nat) (h : s.memWf = true) :
    (s.writeCsMask who a val mask).1.memWf = true := by
  unfold State.writeCsMask
  dsimp only
  apply State.memWf_wrBytes
  apply State.memSame.memWf (State.memSame_unpoison ..)
  apply State.memSame.memWf (State.memSame_clearBad ..)
  apply foldl_keeps (fun t => State.memWf t = true)
  · intro t u ht
    exact State.memWf_wrBytes _ _ _ ht
  · have h1 : ∀ ce : Nat, (if ce = 0 then s else s.addFld F.CORECTL_MEMSTAT_CECNT (daCore a) ce).memWf = true := fun ce => by
      split
      · exact h
      · exact State.memSame.memWf ⟨by simp, by simp⟩ h
    have h2 : ∀ (t : State) (p : Prop) (_ : Decidable p), t.memWf = true → (if p then t.poisonEvent who else t).memWf = true :=
      fun t p _ ht => by
        split
        · exact State.memSame.memWf (State.memSame_poisonEvent ..) ht
        · exact ht
    split
    · exact h2 _ _ _ (h1 _)
    · exact State.memSame.memWf (State.memSame_memLog ..) (h2 _ _ _ (h1 _))

/-- A write of bytes of a core-store word keeps the canonical form. -/
theorem State.memWf_writeCsWord (s : State) (who : Who) (a : Nat) (bs : List Byte) (h : s.memWf = true) :
    (s.writeCsWord who a bs).1.memWf = true := by
  unfold State.writeCsWord
  dsimp only
  apply State.memWf_wrBytes
  apply State.memSame.memWf (State.memSame_unpoison ..)
  apply State.memSame.memWf (State.memSame_clearBad ..)
  apply foldl_keeps (fun t => State.memWf t = true)
  · intro t u ht
    split
    · exact State.memWf_wrBytes _ _ _ ht
    · exact ht
  · have h1 : ∀ ce : Nat, (if ce = 0 then s else s.addFld F.CORECTL_MEMSTAT_CECNT (daCore a) ce).memWf = true := fun ce => by
      split
      · exact h
      · exact State.memSame.memWf ⟨by simp, by simp⟩ h
    have h2 : ∀ (t : State) (p : Prop) (_ : Decidable p), t.memWf = true → (if p then t.poisonEvent who else t).memWf = true :=
      fun t p _ ht => by
        split
        · exact State.memSame.memWf (State.memSame_poisonEvent ..) ht
        · exact ht
    split
    · exact State.memSame.memWf (State.memSame_memLog ..) (h2 _ _ _ (h1 _))
    · exact h2 _ _ _ (h1 _)

/-- A write of bytes of a bulk line keeps the canonical form. -/
theorem State.memWf_writeBulk (s : State) (who : Who) (a : Nat) (bs : List Byte) (h : s.memWf = true) :
    (s.writeBulk who a bs).1.memWf = true := by
  unfold State.writeBulk
  dsimp only
  apply State.memWf_wrBytes
  apply State.memSame.memWf (State.memSame_unpoison ..)
  apply State.memSame.memWf (State.memSame_dropBack ..)
  apply State.memSame.memWf (State.memSame_clearBad ..)
  have h2 : ∀ (t : State) (p : Prop) (_ : Decidable p), t.memWf = true → (if p then t.poisonEvent who else t).memWf = true :=
    fun t p _ ht => by
      split
      · exact State.memSame.memWf (State.memSame_poisonEvent ..) ht
      · exact ht
  have h1 : ∀ x : State × Bool, x.1.memWf = true → ∀ (p : Prop) (_ : Decidable p) (l n : Nat),
      (if x.2 then (if p then x.1.poisonEvent who else x.1).wrBytes l ((if p then x.1.poisonEvent who else x.1).fillBytes l n)
        else if p then x.1.poisonEvent who else x.1).memWf = true := fun x hx p _ l n => by
    split
    · exact State.memWf_wrBytes _ _ _ (h2 _ _ _ hx)
    · exact h2 _ _ _ hx
  apply h1
  split
  · exact h
  · exact State.memSame.memWf (State.memSame_readLine ..) h

/-- A write of device memory keeps its canonical form. -/
theorem State.memWf_writeMem (s : State) (who : Who) (a : Nat) (bs : List Byte) (h : s.memWf = true) :
    (s.writeMem who a bs).1.memWf = true := by
  unfold State.writeMem
  dsimp only
  refine foldl_keeps (fun (x : (State × Bool) × List Byte) => x.1.1.memWf = true) _ (fun x u hx => ?_) _ _ h
  dsimp only
  split
  · exact State.memWf_writeCsWord _ _ _ _ hx
  · exact State.memWf_writeBulk _ _ _ _ hx

/-- A sweep of a memory keeps the canonical form: what it lists no more reads as the new fill pattern. -/
theorem State.memWf_sweepMem (s : State) (key pat : Nat) (psn : Bool) (h : s.memWf = true) : (s.sweepMem key pat psn).memWf = true := by
  unfold State.memWf SMap.wf at *
  simp only [Bool.and_eq_true, List.all_eq_true, decide_eq_true_eq] at h ⊢
  refine ⟨SMap.rising_filter _ _ h.1, fun e he => ?_⟩
  obtain ⟨hm, hk⟩ := List.mem_filter.mp he
  have hk : fillKey e.1 ≠ key := by simpa using hk
  have hg : SMap.get 0 (SMap.put 0 s.fill key pat) (fillKey e.1) = SMap.get 0 s.fill (fillKey e.1) := SMap.get_put_ne _ _ _ _ hk
  simpa only [State.fillByte, State.sweepMem, hg] using h.2 e hm

theorem State.memSame_sweepBufs (s : State) (c pat : Nat) (psn : Bool) : s.memSame (s.sweepBufs c pat psn) := by
  unfold State.sweepBufs
  exact ⟨by simp, by simp⟩

end Sys2Proof.Machine
end

