-- ==== Sys2Proof/Laws/Words.lean ====
section
/-! SUPPORT. What the shared operations over core queues can do: a word that issues, the sequencer, sync counters, rejections and
faults of a logical cycle. -/

namespace Sys2Proof.Machine

/-- Reading any core after one was changed. -/
theorem State.core_modCore_if (s : State) (c d : Nat) (f : Core → Core) : (s.modCore c f).core d = if d = c then f (s.core c) else s.core d := by
  unfold State.modCore State.core State.setCore; simp only [SMap.get_put]

/-- R224, R241: what a word that issues was: the head of its queue, ready, with its wait satisfied; and the state from which it works. -/
theorem State.issueOp_some {s : State} {c qc op : Nat} {i : Issue} (h : s.issueOp c qc op = some i) :
  s.liveQ c = some i.q ∧ i.lc = (s.part i.q).lc ∧ s.headReady c qc i.lc = some i.e ∧ W.OPCODE i.e.lead = op ∧ s.waitOk c qc i.lc i.e = true
  ∧ i.s = s.modCore c fun k => { k with
            sync := SMap.modify 0 k.sync (W.WAITCTR i.e.lead) (fun x => x - (if i.e.phase = 0 then W.WAITVAL i.e.lead else 0))
            lastIssue := SMap.put 0 k.lastIssue qc (i.lc + 1) } := by
  unfold State.issueOp at h
  split at h; · simp at h
  rename_i q hq
  simp only at h
  split at h; · simp at h
  rename_i e he
  split at h
  · rename_i hc
    simp at h; subst h
    exact ⟨hq, rfl, he, hc.1, hc.2, rfl⟩
  · simp at h

/-- R224: a head that is ready. -/
theorem State.headReady_some {s : State} {c qc lc : Nat} {e : QEntry} (h : s.headReady c qc lc = some e) :
  (s.core c).head qc = some e ∧ e.avail ≤ lc ∧ SMap.get 0 (s.core c).lastIssue qc ≤ lc ∧ e.forQueue qc = true ∧ s.unitReady c qc e lc = true ∧ e.pre = 0 := by
  unfold State.headReady at h
  simp only at h
  split at h; · simp at h
  rename_i e' he
  split at h
  · rename_i hc; simp at h; subst h; exact ⟨he, hc⟩
  · simp at h

/-- A fold whose steps only lower a number ends at most at its start. -/
theorem foldl_le_start {α} (f : Nat → α → Nat) (hf : ∀ v a, f v a ≤ v) (l : List α) (v : Nat) : l.foldl f v ≤ v := by
  induction l generalizing v with
  | nil => simp
  | cons a l ih => exact le_trans (ih _) (hf _ _)

/-- R241: the increments left of a counter are at most the counter. -/
theorem State.leftFor_le (s : State) (c qc ctr lc) : s.leftFor c qc ctr lc ≤ SMap.get 0 (s.core c).sync ctr := by
  unfold State.leftFor
  apply foldl_le_start
  intro v a; split
  · split <;> omega
  · omega

/-- A ready SEQ head is the head that the sequencer acts on. -/
theorem State.seqHead_of_ready {s : State} {c lc : Nat} {e : QEntry} (h : s.headReady c 0 lc = some e) : s.seqHead c lc = some e := by
  obtain ⟨g1,g2,g3,_⟩ := State.headReady_some h
  simp [State.seqHead, g1, g2, g3]

/-- R229, R231: a SEQ word that issues and fails no check ends in the next cycle. -/
theorem State.execSeqWord_ok {s : State} {c op : Nat} {i : Issue} (h : s.issueOp c 0 op = some i) (hr : s.headReason i.q c i.e = 0) :
   s.execSeqWord c op = i.s.endRun c 0 i.e (i.lc + 1) := by
  obtain ⟨h1,h2,h3,h4,h5,h6⟩ := State.issueOp_some h
  obtain ⟨g1,g2,g3,g4,g5,g6⟩ := State.headReady_some h3
  have hl : s.seqLive c = some (i.q, i.lc) := by simp [State.seqLive, h1, h2]
  have hq : W.QUEUE i.e.lead = 0 := by simpa [QEntry.forQueue] using g4
  simp [State.execSeqWord, hl, State.seqHead_of_ready h3, hq, h4, hr, h]

/-- A live partition is in RUN. -/
theorem Part.job_of_live {p : Part} (h : p.live = true) : p.job = .run := by
  simp [Part.live] at h; exact h.1.1.1

/-- The partition of a core whose clocks run. -/
theorem State.liveQ_some {s : State} {c q} (h : s.liveQ c = some q) : s.partOf (c/8) = some q ∧ (s.part q).live = true ∧ s.coreExists c = true := by
  unfold State.liveQ at h
  split at h
  · rename_i q' hq
    split at h
    · rename_i hc; simp at h; subst h; simp at hc; exact ⟨hq, hc.1, hc.2⟩
    · simp at h
  · simp at h

/-- R229: the partition and the logical cycle of a sequencer that acts. -/
theorem State.seqLive_some {s : State} {c q lc} (hl : s.seqLive c = some (q, lc)) : s.liveQ c = some q ∧ lc = (s.part q).lc := by
    unfold State.seqLive at hl; split at hl
    · rename_i q' hq'; simp at hl; rw [hq', hl.1]; exact ⟨rfl, by rw [← hl.1]; exact hl.2.symm⟩
    · simp at hl

/-- R292: the first rejection since the launch is recorded. -/
theorem State.recordIllegal_first {s : State} {c r qu op a} (h0 : s.fld F.CORECTL_ILLEGAL_REASON c = 0) : s.recordIllegal c r qu op a = ((((s.setFld F.CORECTL_ILLEGAL_REASON c r).setFld F.CORECTL_ILLEGAL_QUEUE c qu).setFld
      F.CORECTL_ILLEGAL_OPCODE c op).setFld F.CORECTL_ILLEGAL_ADDR c a) := by
  unfold State.recordIllegal
  simp only [h0, if_true]

/-- R563: a fault of the causes that stop a job at the end of the cycle is kept until then. -/
theorem State.jobFault_cycle {u : State} {q cause st core port} (h : (u.part q).live = true) (hc : cause ≤ 4) :
   u.jobFault q cause st core port = u.modPart q fun p => {p with fault := some (CycleFault.or ⟨cause, st, core, port, u.gtc⟩ p.fault)} := by
  have hj := Part.job_of_live h
  unfold State.jobFault
  simp [hj, Part.jobLive, h, State.modPart, hc]

/-- A register reads the same after `done`. -/
theorem State.fld_done (u s : State) (h : u.id = s.id) (f i) : State.fld { u with pending := s.pending, id := s.id } f i = u.fld f i :=
  State.fld_congr (s := u) (t := { u with pending := s.pending, id := s.id }) rfl rfl h.symm f i

/-- R247: a saturation changes the core's mark of it, the registers, the notes of hardware changes and the occurrences alone. -/
theorem State.noteSyncSat_form (s : State) (c n : Nat) : s.noteSyncSat c n =
    { s with cores := (s.noteSyncSat c n).cores, regs := (s.noteSyncSat c n).regs, hw := (s.noteSyncSat c n).hw,
             occ := (s.noteSyncSat c n).occ } := by
  have h1 : psReg F.CORECTL_QSTAT_SAT.reg = none := rfl
  have h2 : psReg F.CORECTL_QSTAT_SATCTR.reg = none := rfl
  unfold State.noteSyncSat
  dsimp only
  split <;> split <;>
    first
      | (split <;> (apply State.ext <;> simp [State.setFld_ps h2, State.setFld_psQ h2]))
      | (apply State.ext <;> simp [State.hwSet, State.setFld_ps h1, State.setFld_ps h2, State.setFld_psQ h1, State.setFld_psQ h2])

/-- R247: a saturation leaves the sync counters, and every other core, as they are. -/
theorem State.core_noteSyncSat (s : State) (c n d : Nat) : (s.noteSyncSat c n).core d =
    if d = c then { s.core c with satAt := ((s.noteSyncSat c n).core c).satAt, satNew := ((s.noteSyncSat c n).core c).satNew }
    else s.core d := by
  have key : ∀ (v : Core) (e : Nat), (s.setCore c v).core e = if e = c then v else s.core e := by
    intro v e; unfold State.core State.setCore; simp only [SMap.get_put]
  have hc : ∃ v : Core, (s.noteSyncSat c n).cores = (s.setCore c v).cores ∧ v = { s.core c with satAt := v.satAt, satNew := v.satNew } := by
    refine ⟨{ s.core c with
      satAt := s.cycleOf c
      satNew := s.fld F.CORECTL_QSTAT_SAT c == 0 || ((s.core c).satAt == s.cycleOf c && (s.core c).satNew) }, ?_, rfl⟩
    unfold State.noteSyncSat
    dsimp only
    split <;> split <;> first | (split <;> simp) | simp
  obtain ⟨v, hv, he⟩ := hc
  rw [State.core_of_cores (s := s.setCore c v) hv d, State.core_of_cores (s := s.setCore c v) hv c, key, key]
  simp only [if_true]
  split
  · exact he
  · rfl

/-- R244 to R247: the counters after an increment: it stops at 65,535; of the core only the mark of its saturations changes besides. -/
theorem State.core_syncAdd (s : State) (c n inc d) : (s.syncAdd c n inc).core d =
    if d = c then { s.core c with sync := SMap.put 0 (s.core c).sync n (min 65535 (SMap.get 0 (s.core c).sync n + inc)),
                                  satAt := ((s.syncAdd c n inc).core c).satAt, satNew := ((s.syncAdd c n inc).core c).satNew }
    else s.core d := by
  have key : ∀ (v : Core) (e : Nat), (s.setCore c v).core e = if e = c then v else s.core e := by
    intro v e; unfold State.core State.setCore; simp only [SMap.get_put]
  unfold State.syncAdd
  dsimp only
  split
  · rw [key, key]; simp only [if_true]
  · rw [State.core_noteSyncSat, key, key]
    simp only [if_true]
    split <;> rfl

/-- An increment of a sync counter changes the core, the registers, the notes of hardware changes and the occurrences alone. -/
theorem State.syncAdd_form (s : State) (c n inc) : s.syncAdd c n inc =
    { s with cores := (s.syncAdd c n inc).cores, regs := (s.syncAdd c n inc).regs, hw := (s.syncAdd c n inc).hw,
             occ := (s.syncAdd c n inc).occ } := by
  unfold State.syncAdd
  dsimp only
  split
  · rfl
  · rw [State.noteSyncSat_form]
    rfl

end Sys2Proof.Machine
end

