-- ==== Sys2Proof/Machine/Pins.lean ====
section
/-! DEFINITION. What the part shows outside its commands, computed from the state: core-voltage requests, the SMBus window, IDCODE
(13_host_interfaces.md R456, R457; 14_time_clocks_power.md R473; 19_package_electrical.md R591, R601). No command of the table reads them. -/

namespace Sys2Proof.Machine

/-- A sweep covers memory of a compute die (R214). -/
def State.sweepsDie (s : State) (d : Nat) : Bool :=
  (List.range 8).any fun k => s.swept (8 * d + k)

/-- R473, R601: CORE_VID of a compute die, the step its core rail serves. The lands read 0 until the part drives them. -/
def State.coreVid (s : State) (d : Nat) : Nat :=
  let steps := (List.range 8).filterMap fun k => (s.partOf (8 * d + k)).map fun q => (s.part q).step
  if s.pins.green = false ∨ s.pins.held then 0
  else if steps.isEmpty then (if s.sweepsDie d then 7 else 0)
  else steps.foldl max 0

/-- R456: the 7-bit address at which the SMBus target answers. -/
def State.smbusAddr (s : State) : Nat := s.psShown 6

/-- Table 13.9, offset 0x02: the state of the part. -/
def State.smbusState (s : State) : Nat :=
  if s.power ≠ 0 then 2 + s.power
  else if s.minimal then 2
  else if s.fld F.ROOT_BOOT_BOOT_OK 0 = 1 then 1 else 0

/-- Table 13.9, offset 0x08: the sideband as driven. -/
def State.smbusSideband (s : State) : Nat := s.pinLevels % 16

/-- R456, Table 13.9: a byte of the SMBus window; an unlisted offset reads 0. -/
def State.smbusByte (s : State) (off : Nat) : Byte :=
  let temp := if s.power = 3 then 0 else min 255 (s.fld F.PWR_THERM_TEMP 0 / 10)
  let window := toBytes 1 s.id.codeNum ++ toBytes 1 0xB0 ++ toBytes 1 s.smbusState ++ toBytes 1 temp ++ toBytes 2 (s.fld F.PWR_BUDGET_NOW 0)
    ++ toBytes 2 s.powerCap ++ toBytes 1 s.smbusSideband ++ toBytes 1 0 ++ toBytes 3 (s.fld F.ROUTE_NODE_NODE 0) ++ toBytes 3 0
    ++ toBytes 16 s.id.serial
  window.getD off 0

/-- R456: a write of the SMBus window is acknowledged and discarded. -/
def State.smbusWrite (s : State) (off : Nat) (v : Byte) : State :=
  let _ := off
  let _ := v
  s

/-- R427: the PCI Express device ID. -/
def PartId.deviceId (p : PartId) : Nat := match p.code with | .a40 => 0xA040 | .m48 => 0xA048 | .n46 => 0xA046

/-- R457: the identification register that IDCODE selects. -/
def State.idcode (s : State) : Nat := 0xB * 2 ^ 28 + s.id.deviceId * 2 ^ 12 + Config.jedecId % 2 ^ 11 * 2 + 1

end Sys2Proof.Machine
end

