-- ==== Sys2Proof/WellFormed.lean ====
section
/-! DEFINITION. Well-formed commands: each operand that names a unit names one the spec numbers, and each value has its width. An
ill-formed command names nothing of the part. -/

namespace Sys2Proof

/-- Table 11.8: a CTRL flit as 64 bytes carry it. -/
def ctrlWf (f : CtrlFlit) : Bool :=
  decide (f.typ < 256) && decide (f.flags < 256) && decide (f.seq < 2 ^ 16) && decide (f.jobid < 2 ^ 32) && decide (f.node < 2 ^ 20)
    && decide (f.sys < 256) && decide (f.dst < 2 ^ 32) && decide (f.body.length ≤ 48)

/-- Table 10.6: a frame of the request or reply network. -/
def frameWf (f : Frame) : Bool :=
  decide (f.net < 2) && decide (f.dst < 2 ^ 20) && decide (f.src < 2 ^ 20) && decide (f.tag < 4096) && decide (f.gen < 16)
    && decide (f.addr < 2 ^ 48) && decide (f.payload.length ≤ 4064)

/-- R381: a request of the part. -/
def reqWf (r : ReqSpec) : Bool := decide (r.node < 2 ^ 20) && decide (r.addr < 2 ^ 48)

/-- A port, or none for the part itself. -/
def portWf : Option Nat → Bool
  | some n => decide (n < 48)
  | none => true

/-- A well-formed command. -/
def Instr.wf : Instr → Bool
  | .nop core queue => decide (core < 512) && decide (queue < 5)
  | .loop core => decide (core < 512)
  | .jump core => decide (core < 512)
  | .beatend core => decide (core < 512)
  | .beatendComplete core => decide (core < 512)
  | .halt core => decide (core < 512)
  | .haltComplete core => decide (core < 512)
  | .loadw core => decide (core < 512)
  | .loadwComplete core => decide (core < 512)
  | .mmul core => decide (core < 512)
  | .mmulComplete core => decide (core < 512)
  | .chain core => decide (core < 512)
  | .chainComplete core => decide (core < 512)
  | .setk core => decide (core < 512)
  | .copy core => decide (core < 512)
  | .copyComplete core => decide (core < 512)
  | .pleach core => decide (core < 512)
  | .pleachReceive core => decide (core < 512)
  | .pleachComplete core => decide (core < 512)
  | .push core => decide (core < 512)
  | .pop core => decide (core < 512)
  | .tsub core => decide (core < 512)
  | .tsubAccept core => decide (core < 512)
  | .send core => decide (core < 512)
  | .sendComplete core => decide (core < 512)
  | .recv core => decide (core < 512)
  | .recvComplete core => decide (core < 512)
  | .fetchRequest core => decide (core < 512)
  | .fetchInspect core => decide (core < 512)
  | .dispatch core => decide (core < 512)
  | .peerSignal core => decide (core < 512)
  | .clusterSignal core => decide (core < 512)
  | .landingArrival cl => decide (cl < 64)
  | .sendBufferDrain cl => decide (cl < 64)
  | .freezeEnd q => decide (q < 8)
  | .gatherRow cl e => decide (cl < 64) && decide (e < 16)
  | .gatherPage cl e => decide (cl < 64) && decide (e < 16)
  | .scatterRow cl e => decide (cl < 64) && decide (e < 16)
  | .kvappend cl e => decide (cl < 64) && decide (e < 16)
  | .topk cl e => decide (cl < 64) && decide (e < 16)
  | .pagescore cl e => decide (cl < 64) && decide (e < 16)
  | .sample cl e => decide (cl < 64) && decide (e < 16)
  | .sampleall cl e => decide (cl < 64) && decide (e < 16)
  | .transpose cl e => decide (cl < 64) && decide (e < 16)
  | .relayout cl e => decide (cl < 64) && decide (e < 16)
  | .requant cl e => decide (cl < 64) && decide (e < 16)
  | .compactFlags cl e => decide (cl < 64) && decide (e < 16)
  | .moe cl e => decide (cl < 64) && decide (e < 16)
  | .digest cl e => decide (cl < 64) && decide (e < 16)
  | .thktComplete cl e => decide (cl < 64) && decide (e < 16)
  | .untimedPick cl e => decide (cl < 64) && decide (e < 16)
  | .untimedComplete cl e => decide (cl < 64) && decide (e < 16)
  | .bulkSlotTransfer tc _ => decide (tc < 256)
  | .scrubSlot tc _ => decide (tc < 256)
  | .coreStoreScrub core unit word => decide (core < 512) && decide (unit < 4) && decide (word < 262144)
  | .rootSweepctlWrite _ mask => decide (mask < 2 ^ 64)
  | .sweepComplete => true
  | .beatStart q => decide (q < 8)
  | .lagEvent q => decide (q < 8)
  | .lagFault q => decide (q < 8)
  | .beatStartStep q => decide (q < 8)
  | .stepChangeRun q => decide (q < 8)
  | .launch q _ => decide (q < 8)
  | .launchReceive n f => decide (n < 48) && ctrlWf f
  | .load q => decide (q < 8)
  | .slotFill n => decide (n < 48)
  | .groupReceive n _ _ _ => decide (n < 48)
  | .schedForward n => decide (n < 48)
  | .nakIssue n => decide (n < 48)
  | .replayStart n => decide (n < 48)
  | .replayTimeout n => decide (n < 48)
  | .probeExchange n t1 t2 t3 t4 => decide (n < 48) && [t1, t2, t3, t4].all fun t => decide (t < 2 ^ 64)
  | .identityResend n => decide (n < 48)
  | .neighbourRecord n rec => decide (n < 48) && (rec.length == 64)
  | .portLockLoss n => decide (n < 48)
  | .trainTimeout n => decide (n < 48)
  | .identTimeout n => decide (n < 48)
  | .portCtlEnable _ n _ => decide (n < 48)
  | .portCtlReset _ n => decide (n < 48)
  | .portWinWrite _ n value => decide (n < 48) && decide (value < 2 ^ 64)
  | .frameArrive from_ f => portWf from_ && frameWf f
  | .requestInject r => reqWf r
  | .rd => true
  | .wr => true
  | .msg => true
  | .replyArrive from_ f => portWf from_ && frameWf f
  | .requestTimeout tag => decide (tag < 4096)
  | .retireExpiry tag => decide (tag < 4096)
  | .drain nets => decide (nets < 4)
  | .swap nets => decide (nets < 4)
  | .resume nets => decide (nets < 4)
  | .change nets => decide (nets < 4)
  | .drained net => decide (net < 2)
  | .barrier q => decide (q < 8)
  | .bcast q => decide (q < 8)
  | .snap q => decide (q < 8)
  | .reset q => decide (q < 8)
  | .arrive n f => decide (n < 48) && ctrlWf f
  | .release n f => decide (n < 48) && ctrlWf f
  | .barrierRootTimeout q => decide (q < 8)
  | .barrierTimeout q => decide (q < 8)
  | .bcastReceive n f => decide (n < 48) && ctrlWf f
  | .snapReceive n f => decide (n < 48) && ctrlWf f
  | .resetReceive n f => decide (n < 48) && ctrlWf f
  | .admitReceive n f => decide (n < 48) && ctrlWf f
  | .stepReceive n f => decide (n < 48) && ctrlWf f
  | .wakeReceive n f => decide (n < 48) && ctrlWf f
  | .beaconSend => true
  | .beaconReceive n f => decide (n < 48) && ctrlWf f
  | .beaconTimeout => true
  | .slewStep => true
  | .eventTick wires => decide (wires < 2 ^ 12)
  | .wirePulseLatch j => decide (j < 12)
  | .refclkLoss => true
  | .refclkReturn => true
  | .timeBaseFailover => true
  | .ppsInEdge => true
  | .ppsOutEdge => true
  | .ptpSync _ => true
  | .ptmRequest => true
  | .holdover => true
  | .timeSetWrite _ value => decide (value < 2 ^ 64)
  | .timeAlarmFire => true
  | .pllLockLoss region => decide (region < 32)
  | .pwrStepcmd _ q value => decide (q < 8) && decide (value < 2 ^ 64)
  | .pwrCapWrite _ value => decide (value < 2 ^ 64)
  | .pwrPdeclWrite _ q value => decide (q < 8) && decide (value < 2 ^ 64)
  | .powerMeasure _ => true
  | .statecmdRun _ => true
  | .statecmdRest _ => true
  | .statecmdDeep _ => true
  | .statecmdDormant _ => true
  | .powerStateEntered => true
  | .wakePin => true
  | .wakeFrame _ => true
  | .wakeComplete => true
  | .thermalAlert _ => true
  | .thermalTrip _ => true
  | .coldReset straps => (straps.length == 10)
  | .powerLoss _ => true
  | .perstAssert => true
  | .rootResetWarm _ => true
  | .rootResetMgmt _ => true
  | .pcieLinkDown => true
  | .bar2Read off _ => decide (off < 2 ^ 36)
  | .bar2Write off _ => decide (off < 2 ^ 36)
  | .registerWrite _ off size value => decide (off < 2 ^ 28) && decide (0 < size) && decide (value < 2 ^ 64)
  | .lowHalfRead _ a => decide (a.off < 2 ^ 28) && decide (0 < a.size)
  | .hqRhposWrite _ ring value _ => decide (ring < 64) && decide (value < 2 ^ 64)
  | .h2d ch _ _ => decide (ch < 64)
  | .d2h ch _ => decide (ch < 64)
  | .h2l ch _ _ => decide (ch < 64)
  | .dmaComplete ch => decide (ch < 64)
  | .digestSlice => true
  | .submit ring _ => decide (ring < 64)
  | .stagingComplete => true
  | .serveAbortWrite _ q reqid => decide (q < 8) && decide (reqid < 2 ^ 32)
  | .ethSlot port _ => decide (port < 2)
  | .ethAck port _ => decide (port < 2)
  | .ethResend stream => (decide (stream < 64) || stream == 0xFFFF)
  | .parkd port _ => decide (port < 2)
  | .telem => true
  | .bypass => true
  | .idcode => true
  | .samplePreload => true
  | .extest => true
  | .clamp => true
  | .highz => true
  | .startAttempt cause => decide (cause < 16)
  | .stageOverrun => true
  | .solicit => true
  | .offer _ xid size => decide (xid < 2 ^ 32) && decide (size < 2 ^ 32)
  | .data xid off _ => decide (xid < 2 ^ 32) && decide (off < 2 ^ 32)
  | .readResend => true
  | .serverLost => true
  | .bootOk => true
  | .watchdogExpire m => decide (m < 2)
  | .watchdogKick m period => decide (m < 2) && decide (period < 2 ^ 16)
  | .mcRunning m => decide (m < 2)
  | .psDataWrite _ value => decide (value < 2 ^ 64)
  | .psWriteComplete => true
  | .mboxPost _ => true
  | .mgmtMessage _ _ => true
  | .getVersion _ => true
  | .negotiate _ => true
  | .getIdentity _ => true
  | .getStatus _ => true
  | .getBootrec _ => true
  | .partSet _ => true
  | .partQuery _ => true
  | .partReset _ => true
  | .partLedger _ => true
  | .setState _ => true
  | .setCap _ => true
  | .setStep _ => true
  | .setWakesel _ => true
  | .setPdecl _ => true
  | .portInfo _ => true
  | .nbrMap _ => true
  | .portEnable _ => true
  | .portReset _ => true
  | .setRole _ => true
  | .setDims _ => true
  | .ethAddr _ => true
  | .ethEndpoint _ => true
  | .maintStatus _ => true
  | .coreTest _ => true
  | .coreFence _ => true
  | .topiaryRemap _ => true
  | .bankFail _ => true
  | .portTest _ => true
  | .sweep _ => true
  | .maintActivityEnd _ _ => true
  | .imgStatus _ => true
  | .fetchRetry _ => true
  | .standbyFetch _ => true
  | .standbyBegin _ => true
  | .standbyData _ => true
  | .standbyEnd _ => true
  | .setBootcfg _ => true
  | .roleSwitch _ => true
  | .fuseKey _ => true
  | .fuseRevoke _ => true
  | .fuseSvn _ => true
  | .psRead _ => true
  | .psWrite _ => true
  | .psWear _ => true
  | .timeStatus _ => true
  | .setMaster _ => true
  | .timeSet _ => true
  | .setAlarm _ => true
  | .setPps _ => true
  | .setSlew _ => true
  | .setDeadline _ => true
  | .serveStatus _ => true
  | .serveAbort _ => true
  | .evcClear _ => true
  | .evcSetmask _ => true
  | .regRead _ => true
  | .regWrite _ => true
  | .echo _ => true
  | .laneLock n lanes => decide (n < 48) && decide (lanes < 2 ^ 8)
  | .pcieLinkUp => true
  | .ethLinkUp port => decide (port < 2)
  | .ethLinkDown port => decide (port < 2)
  | .mgmtLinkUp => true
  | .mgmtLinkDown => true
  | .perstRelease => true
  | .pllRelock region => decide (region < 32)
  | .thermalAlertClear _ => true
  | .denianWakeBeacon n => decide (n < 48)
  | .ptmResponse _ => true
  | .evergreenPowerOn => true
  | .mcRestartTimeout m => decide (m < 2)
  | .imageVerified slot => decide (slot < 2)

end Sys2Proof
end

