-- ==== Sys2Proof/Tests/Slice0.lean ====
section
/-! SUPPORT. Tests of the model on small states: the well-formedness checks, single steps, and for each statement with hypotheses a
concrete state and operands that meet them. -/

open Sys2Proof Sys2Proof.Machine

namespace Sys2Proof.Tests

/-! ## Operands and states of the tests -/

def okFlit : CtrlFlit := ⟨1, 0, 0, 0, 0, 0, 0, []⟩
def badFlit : CtrlFlit := ⟨256, 0, 0, 0, 0, 0, 0, []⟩
def okFrame : Frame := ⟨0, 0, 0, 1, 0, 0, 0, 0, 0, 0, 0, 0, []⟩
def badFrame : Frame := ⟨2, 0, 0, 1, 0, 0, 0, 0, 0, 0, 0, 0, []⟩
def okReq : ReqSpec := ⟨0, none, 0, 1, 0, 4, [], 0, 0, none, 0⟩
def badReq : ReqSpec := ⟨0, none, 2 ^ 20, 1, 0, 4, [], 0, 0, none, 0⟩

/-- What an option holds. -/
theorem held {α : Type} {o : Option α} {p : α → Bool} (h : o.any p = true) : ∃ i, o = some i ∧ p i = true := by
  cases o with
  | none => simp at h
  | some a => exact ⟨a, rfl, by simpa using h⟩

/-- A part whose partition 0 holds cluster 0, its job in RUN in logical cycle 20 of beat 0. -/
def stRun : State := State.reset.setPart 0 { Part.init with mask := 1, job := .run, lc := 20, bc := 20 }

/-- Core 0 of that part with some content. -/
def withCore (k : Core) : State := stRun.setCore 0 k

/-- A queue entry that may issue: a control word with some runs in flight. -/
def ent (w : Nat) (runs : List Nat) (issued : Nat) : QEntry := ⟨0, w, 0, 8, 0, issued, 0, runs, 0, 0, 0⟩

/-- The header of a control word: queue, opcode, the rest of its bits. -/
def word (qc op rest : Nat) : Nat := qc * 2 ^ 252 + op * 2 ^ 244 + rest

/-- Core 0 with a word at the head of a queue. -/
def withWord (qc op rest : Nat) : State := withCore (Core.init.setQueue qc [ent (word qc op rest) [] 0])

/-- Core 0 with a word whose run is over. -/
def withRun (qc op rest : Nat) : State := withCore (Core.init.setQueue qc [ent (word qc op rest) [20] 1])


theorem test_ill_formed_refused_0 :
  ([.nop 512 0, .nop 0 5, .loop 512, .jump 512, .beatend 512, .beatendComplete 512, .halt 512, .haltComplete 512, .loadw 512,
    .loadwComplete 512, .mmul 512, .mmulComplete 512, .chain 512, .chainComplete 512, .setk 512, .copy 512, .copyComplete 512,
    .pleach 512, .pleachReceive 512, .pleachComplete 512, .push 512, .pop 512, .tsub 512, .tsubAccept 512, .send 512, .sendComplete 512,
    .recv 512, .recvComplete 512, .fetchRequest 512, .fetchInspect 512, .dispatch 512, .peerSignal 512, .clusterSignal 512,
    .landingArrival 64, .sendBufferDrain 64, .freezeEnd 8, .gatherRow 64 0, .gatherRow 0 16, .gatherPage 64 0,
    .gatherPage 0 16] : List Instr).all (fun i => !i.wf) = true := by decide

theorem test_ill_formed_refused_1 :
  ([.scatterRow 64 0, .scatterRow 0 16, .kvappend 64 0, .kvappend 0 16, .topk 64 0, .topk 0 16, .pagescore 64 0, .pagescore 0 16,
    .sample 64 0, .sample 0 16, .sampleall 64 0, .sampleall 0 16, .transpose 64 0, .transpose 0 16, .relayout 64 0, .relayout 0 16,
    .requant 64 0, .requant 0 16, .compactFlags 64 0, .compactFlags 0 16, .moe 64 0, .moe 0 16, .digest 64 0, .digest 0 16,
    .thktComplete 64 0, .thktComplete 0 16, .untimedPick 64 0, .untimedPick 0 16, .untimedComplete 64 0, .untimedComplete 0 16,
    .bulkSlotTransfer 256 0, .scrubSlot 256 0, .coreStoreScrub 512 0 0, .coreStoreScrub 0 4 0, .coreStoreScrub 0 0 262144,
    .rootSweepctlWrite .host (2 ^ 64), .beatStart 8, .lagEvent 8, .lagFault 8, .beatStartStep 8] : List Instr).all (fun i => !i.wf) = true := by decide

theorem test_ill_formed_refused_2 :
  ([.stepChangeRun 8, .launch 8 false, .launchReceive 48 okFlit, .launchReceive 0 badFlit, .load 8, .slotFill 48,
    .groupReceive 48 [] 0 0, .schedForward 48, .nakIssue 48, .replayStart 48, .replayTimeout 48, .probeExchange 48 0 0 0 0, .probeExchange 0 (2 ^ 64) 0 0 0,
    .identityResend 48, .neighbourRecord 48 (List.replicate 64 0), .neighbourRecord 0 [], .portLockLoss 48, .trainTimeout 48,
    .identTimeout 48, .portCtlEnable .host 48 false, .portCtlReset .host 48, .portWinWrite .host 48 0, .portWinWrite .host 0 (2 ^ 64),
    .frameArrive (some 48) okFrame, .frameArrive none badFrame, .requestInject badReq, .replyArrive (some 48) okFrame,
    .replyArrive none badFrame, .requestTimeout 4096, .retireExpiry 4096, .drain 4, .swap 4, .resume 4, .change 4, .drained 2,
    .barrier 8, .bcast 8, .snap 8, .reset 8, .arrive 48 okFlit, .arrive 0 badFlit] : List Instr).all (fun i => !i.wf) = true := by decide

theorem test_ill_formed_refused_3 :
  ([.release 48 okFlit, .release 0 badFlit, .barrierRootTimeout 8, .barrierTimeout 8, .bcastReceive 48 okFlit, .bcastReceive 0 badFlit,
    .snapReceive 48 okFlit, .snapReceive 0 badFlit, .resetReceive 48 okFlit, .resetReceive 0 badFlit, .admitReceive 48 okFlit,
    .admitReceive 0 badFlit, .stepReceive 48 okFlit, .stepReceive 0 badFlit, .wakeReceive 48 okFlit, .wakeReceive 0 badFlit,
    .beaconReceive 48 okFlit, .beaconReceive 0 badFlit, .eventTick (2 ^ 12), .wirePulseLatch 12, .timeSetWrite .host (2 ^ 64),
    .pllLockLoss 32, .pwrStepcmd .host 8 0, .pwrStepcmd .host 0 (2 ^ 64), .pwrCapWrite .host (2 ^ 64), .pwrPdeclWrite .host 8 0,
    .pwrPdeclWrite .host 0 (2 ^ 64), .coldReset [], .bar2Read (2 ^ 36) 0, .bar2Write (2 ^ 36) [], .registerWrite .host (2 ^ 28) 4 0,
    .registerWrite .host 0 0 0, .registerWrite .host 0 4 (2 ^ 64), .lowHalfRead .host ⟨2 ^ 28, 4⟩, .lowHalfRead .host ⟨0, 0⟩, .hqRhposWrite .host 64 0 [],
    .hqRhposWrite .host 0 (2 ^ 64) [], .h2d 64 [] false, .d2h 64 false, .h2l 64 [] false, .dmaComplete 64] : List Instr).all (fun i => !i.wf) = true := by decide

theorem test_ill_formed_refused_4 :
  ([.submit 64 [], .serveAbortWrite .host 8 0, .serveAbortWrite .host 0 (2 ^ 32), .ethSlot 2 [], .ethAck 2 [], .ethResend 64,
    .parkd 2 [], .startAttempt 16, .offer 0 (2 ^ 32) 0, .offer 0 0 (2 ^ 32), .data (2 ^ 32) 0 [], .data 0 (2 ^ 32) [], .watchdogExpire 2,
    .watchdogKick 2 0, .watchdogKick 0 (2 ^ 16), .mcRunning 2, .psDataWrite .host (2 ^ 64), .laneLock 48 0, .laneLock 0 (2 ^ 8),
    .ethLinkUp 2, .ethLinkDown 2, .pllRelock 32, .denianWakeBeacon 48, .mcRestartTimeout 2, .imageVerified 2] : List Instr).all (fun i => !i.wf) = true := by decide

theorem test_well_formed_taken_0 :
  ([.nop 0 0, .loop 0, .jump 0, .beatend 0, .beatendComplete 0, .halt 0, .haltComplete 0, .loadw 0, .loadwComplete 0, .mmul 0,
    .mmulComplete 0, .chain 0, .chainComplete 0, .setk 0, .copy 0, .copyComplete 0, .pleach 0, .pleachReceive 0, .pleachComplete 0,
    .push 0, .pop 0, .tsub 0, .tsubAccept 0, .send 0, .sendComplete 0, .recv 0, .recvComplete 0, .fetchRequest 0, .fetchInspect 0,
    .dispatch 0, .peerSignal 0, .clusterSignal 0, .landingArrival 0, .sendBufferDrain 0, .freezeEnd 0, .gatherRow 0 0, .gatherPage 0 0,
    .scatterRow 0 0, .kvappend 0 0, .topk 0 0] : List Instr).all Instr.wf = true := by decide

theorem test_well_formed_taken_1 :
  ([.pagescore 0 0, .sample 0 0, .sampleall 0 0, .transpose 0 0, .relayout 0 0, .requant 0 0, .compactFlags 0 0, .moe 0 0, .digest 0 0,
    .thktComplete 0 0, .untimedPick 0 0, .untimedComplete 0 0, .bulkSlotTransfer 0 0, .scrubSlot 0 0, .coreStoreScrub 0 0 0,
    .rootSweepctlWrite .host 0, .beatStart 0, .lagEvent 0, .lagFault 0, .beatStartStep 0, .stepChangeRun 0, .launch 0 false,
    .launchReceive 0 okFlit, .load 0, .slotFill 0, .groupReceive 0 [] 0 0, .schedForward 0, .nakIssue 0, .replayStart 0,
    .replayTimeout 0, .probeExchange 0 0 0 0 0, .identityResend 0, .neighbourRecord 0 (List.replicate 64 0), .portLockLoss 0,
    .trainTimeout 0, .identTimeout 0, .portCtlEnable .host 0 false, .portCtlReset .host 0, .portWinWrite .host 0 0,
    .frameArrive none okFrame] : List Instr).all Instr.wf = true := by decide

theorem test_well_formed_taken_2 :
  ([.requestInject okReq, .replyArrive none okFrame, .requestTimeout 0, .retireExpiry 0, .drain 0, .swap 0, .resume 0, .change 0,
    .drained 0, .barrier 0, .bcast 0, .snap 0, .reset 0, .arrive 0 okFlit, .release 0 okFlit, .barrierRootTimeout 0, .barrierTimeout 0,
    .bcastReceive 0 okFlit, .snapReceive 0 okFlit, .resetReceive 0 okFlit, .admitReceive 0 okFlit, .stepReceive 0 okFlit,
    .wakeReceive 0 okFlit, .beaconReceive 0 okFlit, .eventTick 0, .wirePulseLatch 0, .timeSetWrite .host 0, .pllLockLoss 0,
    .pwrStepcmd .host 0 0, .pwrCapWrite .host 0, .pwrPdeclWrite .host 0 0, .coldReset (List.replicate 10 none), .bar2Read 0 0,
    .bar2Write 0 [], .registerWrite .host 0 4 0, .lowHalfRead .host ⟨0, 4⟩, .hqRhposWrite .host 0 0 [], .h2d 0 [] false, .d2h 0 false,
    .h2l 0 [] false] : List Instr).all Instr.wf = true := by decide

theorem test_well_formed_taken_3 :
  ([.dmaComplete 0, .submit 0 [], .serveAbortWrite .host 0 0, .ethSlot 0 [], .ethAck 0 [], .ethResend 0, .parkd 0 [], .startAttempt 0,
    .offer 0 0 0, .data 0 0 [], .watchdogExpire 0, .watchdogKick 0 0, .mcRunning 0, .psDataWrite .host 0, .laneLock 0 0, .ethLinkUp 0,
    .ethLinkDown 0, .pllRelock 0, .denianWakeBeacon 0, .mcRestartTimeout 0, .imageVerified 0] : List Instr).all Instr.wf = true := by decide


/-! ## Hypotheses of the statements about control words -/

theorem hyp_IssueConsumesWait : ∃ i, (withWord 1 0x10 (2 ^ 184)).issueOp 0 1 0x10 = some i ∧ true = true := held (by decide)

theorem hyp_SeqWordsIssue :
    (∃ i, (withWord 0 0 0).issueOp 0 0 0 = some i ∧ ((withWord 0 0 0).headReason i.q 0 i.e == 0) = true)
    ∧ (∃ i, (withWord 3 0 0).issueOp 0 3 0 = some i ∧ true = true) := ⟨held (by decide), held (by decide)⟩

theorem hyp_SeqWordsRejected :
    let s := withWord 0 3 1
    s.seqLive 0 = some (0, 20) ∧ s.seqHead 0 20 = some (ent (word 0 3 1) [] 0) ∧ s.headReason 0 0 (ent (word 0 3 1) [] 0) ≠ 0
    ∧ s.fld F.CORECTL_ILLEGAL_REASON 0 = 0 := by decide

theorem hyp_SetkWrites : ∃ i, (withWord 2 0x21 (12 * 2 ^ 188 + 3 * 2 ^ 186)).issueOp 0 2 0x21 = some i
    ∧ decide (W.SETK_FIRST i.e.lead + W.SETK_COUNT i.e.lead < 16) = true := held (by decide)

theorem hyp_WordsRun :
    (∃ i, (withWord 1 0x10 (2 ^ 184)).issueOp 0 1 0x10 = some i ∧ true = true)
    ∧ (∃ i, (withWord 1 0x11 (2 ^ 180)).issueOp 0 1 0x11 = some i ∧ ((withWord 1 0x11 (2 ^ 180)).phaseDue 0).isNone = true)
    ∧ (∃ x, (withCore { Core.init with mat := [{ ent (word 1 0x11 (2 ^ 180)) [notYet] 1 with phase := 1 }] }).phaseDue 0 = some x ∧ true = true)
    ∧ (∃ i, (withWord 2 0x20 0).issueOp 0 2 0x20 = some i ∧ true = true) ∧ (∃ i, (withWord 3 0x30 0).issueOp 0 3 0x30 = some i ∧ true = true)
    ∧ (∃ i, (withWord 3 0x32 0).issueOp 0 3 0x32 = some i ∧ true = true) ∧ (∃ i, (withWord 3 0x33 0).issueOp 0 3 0x33 = some i ∧ true = true)
    ∧ (∃ i, (withWord 3 0x34 0).issueOp 0 3 0x34 = some i ∧ true = true) ∧ (∃ i, (withWord 4 0x40 0).issueOp 0 4 0x40 = some i ∧ true = true)
    ∧ (∃ i, (withWord 3 0x31 0).issueOp 0 3 0x31 = some i ∧ true = true)
    ∧ ((withWord 4 0x41 0).frozenNow 0 = none ∧ (∃ i, (withWord 4 0x41 0).issueOp 0 4 0x41 = some i ∧ true = true))
    ∧ (let s := withCore { Core.init with mov := [{ ent (word 3 0x31 0) [notYet] 1 with aux := 1 }] }
       s.frozenNow 0 = none ∧ s.seqLive 0 = some (0, 20) ∧ (∃ e, s.pleachDue 0 20 = some e ∧ true = true)) :=
  ⟨held (by decide), held (by decide), held (by decide), held (by decide), held (by decide), held (by decide), held (by decide), held (by decide),
   held (by decide), held (by decide), ⟨by decide, held (by decide)⟩, by decide, by decide, held (by decide)⟩

/-- Core 0 of cluster 0 with more words to enter its send buffer in cycle 20 than the buffer takes. -/
def overSend : State := withCore { Core.init with sends := List.replicate 65 ⟨none, 0, 0, none, 0, 0, 0, List.replicate 64 (20, 0)⟩ }

theorem hyp_LateWordsFreeze :
    (let s := withWord 4 0x41 0
     s.frozenNow 0 = none ∧ (∃ i, s.issueOp 0 4 0x41 = some i
      ∧ ((s.part i.q).frzFrom != some s.now && decide ((s.chan 0 (W.RECV_CH i.e.lead)).bytes.length < recvNeed i.e)) = true))
    ∧ (0 ∈ (overSend.retireAll 0 20).partClusters 0 ∧ (overSend.retireAll 0 20).sendLate 0 20 ≠ []
      ∧ (overSend.retireAll 0 20).lateItems 0 20 = [⟨0, 4, 0⟩] ∧ (overSend.part 0).frzFrom ≠ some overSend.now) :=
  ⟨⟨by decide, held (by decide)⟩, by decide +kernel⟩

theorem hyp_WordsComplete :
    (∃ x, (withRun 1 0x10 0).completeOp 0 1 [0x10] = some x ∧ true = true) ∧ (∃ x, (withRun 1 0x11 0).completeOp 0 1 [0x11] = some x ∧ true = true)
    ∧ (∃ x, (withRun 2 0x20 0).completeOp 0 2 [0x20] = some x ∧ true = true)
    ∧ (∃ x, (withRun 3 0x30 0).completeOp 0 3 [0x30, 0x32, 0x33] = some x ∧ (withRun 3 0x30 0).movDone 0 [0x30, 0x32, 0x33] = true)
    ∧ (∃ x, (withRun 3 0x31 0).completeOp 0 3 [0x31] = some x ∧ true = true) ∧ (∃ x, (withRun 4 0x40 0).completeOp 0 4 [0x40] = some x ∧ true = true)
    ∧ (∃ x, (withRun 4 0x41 0).completeOp 0 4 [0x41] = some x ∧ true = true) :=
  ⟨held (by decide), held (by decide), held (by decide), held (by decide), held (by decide), held (by decide), held (by decide)⟩

/-- Core 1 of the part at work. -/
def withSig (g : SigFlight) : State := withCore { Core.init with sigs := [g] }

theorem hyp_Signals :
    (((withRun 1 0x10 0).core 0).queue 1 = [ent (word 1 0x10 0) [20] 1] ∧ ((withRun 1 0x10 0).core 0).remote = []
      ∧ W.SIGTGT (word 1 0x10 0) = 0)
    ∧ (withSig ⟨20, false, 1, 28, 1⟩).liveQ 0 = some 0
    ∧ (((withSig ⟨20, false, 1, 28, 1⟩).core 0).sigs.find? fun g => !g.toCluster && decide (g.due ≤ 20)) = some ⟨20, false, 1, 28, 1⟩
    ∧ (((withSig ⟨20, true, 0, 31, 255⟩).core 0).sigs.find? fun g => g.toCluster && decide (g.due ≤ 20)) = some ⟨20, true, 0, 31, 255⟩ := by
  decide

theorem hyp_EndWordsComplete :
    (1 : Nat) ∈ (withRun 0 3 0).partCores 0 ∧ ((withRun 0 3 0).core 1).halted = false ∧ ((withRun 0 3 0).core 1).beatDone = false
    ∧ (∃ x, (withRun 0 3 0).endDue 0 3 = some x ∧ true = true) ∧ (∃ x, (withRun 0 4 0).endDue 0 4 = some x ∧ true = true) :=
  ⟨by decide, by decide, by decide, held (by decide), held (by decide)⟩

/-- A request that has arrived, its word captured; the check it meets fails or not. -/
def arrived (w : Nat) (cks : List FetchCheck) : State :=
  withCore { Core.init with inflight := [⟨6, 1, 20, [], cks⟩], caps := [(groupKey 1 0, w % 2 ^ 128), (groupKey 1 1, w / 2 ^ 128)] }
def atHead (w : Nat) (seq : List QEntry) : State := withCore { Core.init with seq := ent w [] 0 :: seq }

theorem hyp_FetchAndDispatch :
    ((withCore { Core.init with fetchOn := true }).seqLive 0 = some (0, 20) ∧ ((withCore { Core.init with fetchOn := true }).core 0).mayFetch 20 = true)
    ∧ (∀ w, w ∈ [word 0 2 0, word 2 0 0] → let s := arrived w []
       s.seqLive 0 = some (0, 20) ∧ (s.core 0).inflight = [⟨6, 1, 20, [], []⟩] ∧ (s.core 0).fetched ⟨6, 1, 20, [], []⟩ = w
       ∧ ([] : List FetchCheck).find? (checkFails w) = none)
    ∧ W.QUEUE (word 0 2 0) = 0 ∧ W.OPCODE (word 0 2 0) = 2 ∧ W.QUEUE (word 2 0 0) ≠ 0
    ∧ (let s := arrived (word 2 0xFF 0) [⟨1, 0⟩]
       ((s.core 0).inflight.map fun r => r.checks.find? (checkFails ((s.core 0).fetched r))) = [some ⟨1, 0⟩])
    ∧ (let s := atHead (word 2 0 0) []
       let e := ent (word 2 0 0) [] 0
       s.seqLive 0 = some (0, 20) ∧ s.seqHead 0 20 = some e ∧ (s.core 0).extWait e = false ∧ (s.core 0).queueFull e 20 = false
       ∧ s.headReason 0 0 e = 0 ∧ W.QUEUE e.lead = 2)
    ∧ (let s := atHead (word 2 0x20 0) []
       s.seqHead 0 20 = some (ent (word 2 0x20 0) [] 0) ∧ (s.core 0).extWait (ent (word 2 0x20 0) [] 0) = true)
    ∧ (let s := withCore { Core.init with seq := [ent (word 2 0 0) [] 0], chn := List.replicate 32 (ent (word 2 0 0) [] 0) }
       s.seqHead 0 20 = some (ent (word 2 0 0) [] 0) ∧ (s.core 0).queueFull (ent (word 2 0 0) [] 0) 20 = true)
    ∧ (let s := atHead (word 9 0 0) []
       let e := ent (word 9 0 0) [] 0
       s.seqHead 0 20 = some e ∧ (s.core 0).extWait e = false ∧ (s.core 0).queueFull e 20 = false ∧ s.headReason 0 0 e ≠ 0) := by
  refine ⟨by decide, fun w h => ?_, by decide, by decide, by decide, by decide, by decide, by decide, by decide, by decide⟩
  fin_cases h <;> decide

/-- A part with a group that has travelled, and one with bytes for an UP port. -/
def withMesh : State := stRun.modCluster 0 fun k => { k with mesh := [⟨8, 0, 3, [1, 2], none, 4, 0, 0⟩] }
def withSend (drop : Bool) : State :=
  ((stRun.setFld F.PORT_STAT_STATE 2 3).setPort 2 { Port.init with credits := [(0, 2048)] }).modCluster 0 fun k =>
    { k with send := [⟨0, 0, 0, 2, [], 5, 1, 4, [1, 2, 3, 4], 0, drop, none, none⟩] }

theorem hyp_ClusterLinks :
    (∃ i, withMesh.meshReady 0 = some i ∧ ((withMesh.cluster 0).mesh[i]?).isSome = true)
    ∧ (∃ i, (withSend false).drainNext 0 = some i ∧ (((withSend false).cluster 0).send[i]?).any (fun m => m.drop == false && m.drained == 0
        && (withSend false).fld F.PORT_STAT_STATE m.port == 3) = true)
    ∧ (∃ i, (withSend true).drainNext 0 = some i ∧ (((withSend true).cluster 0).send[i]?).any (fun m => m.drop) = true) :=
  ⟨held (by decide), held (by decide), held (by decide)⟩


/-! ## Hypotheses of the statements about the thicket and the memories -/

/-- A descriptor of a kind and mode, the rest of its header as given. -/
def tdRaw (kind mode rest : Nat) : Nat := kind * 2 ^ 125 + mode * 2 ^ 117 + rest
def tdesc (raw : Nat) (ran : Bool) : TDesc := ⟨raw, 0, 0, 0, 20, 20, false, ran, false, 0, 0, 0, 0, 0⟩

/-- Cluster 0 with an untimed descriptor on an engine; with a timed one in its queue. -/
def untimedOn (e : Nat) (d : TDesc) : State := stRun.modCluster 0 fun k => k.setRun e (some d)
def timedOn (e : Nat) (d : TDesc) : State := stRun.modCluster 0 fun k => k.setTimed e [d]

theorem hyp_ThicketWorks :
    (∀ kind mode e, (kind, mode, e) ∈ [(0, 0, 0), (1, 1, 4), (2, 3, 7), (3, 2, 10), (4, 0, 14), (4, 1, 14), (5, 0, 15)] →
      let d := tdesc (tdRaw kind mode 0) false
      (untimedOn e d).thktLive 0 = some 0 ∧ (untimedOn e d).thktNext 0 e 20 = some (false, d) ∧ TD.KIND d.raw = kind ∧ TD.MODE d.raw = mode
      ∧ ((untimedOn e d).part 0).gate = false ∧ (timedOn e d).thktNext 0 e 20 = some (true, d) ∧ ((timedOn e d).part 0).gate = false)
    ∧ (let d := tdesc (tdRaw 0 0 0) false
       let x := ThX.gatherRow d.raw d.prog (d.begin_ (untimedOn 0 d) 0 0 0 false)
       let y := d.begin_ (timedOn 0 d) 0 0 0 true
       TD.COUNT d.raw = 0 ∧ (x.s.takeSlots 0 20 x.lines).isSome = true ∧ ((y.s.takeSlots 0 0 y.lines).any fun v => decide (v.2 ≤ 20)) = true) := by
  refine ⟨fun kind mode e h => ?_, by decide +kernel⟩
  fin_cases h <;> decide

def subOf (raw : Nat) : TSub := ⟨0, 0, 0, raw, 0, 12, 20, false, false, 0⟩
def subState (raw : Nat) : State := stRun.modCluster 0 fun k => { k with subs := [subOf raw] }

/-- A GATHER of one row of 16 bytes from the bulk memory of tier 0, cluster 0: untimed, and timed on engine 0. -/
def gatherRaw (rest : Nat) : Nat := rest + 0x10000100000001000000100000001000000000010000000000000010000000000000000000000000000000000000000000

/-- A TSUB that may be accepted now: its descriptor is legal or not. -/
def subOk (raw : Nat) (bad : Bool) : Bool :=
  (subState raw).seqLive 0 == some (0, 20) && (subState raw).subReady 0 0 20 == some (subOf raw) && (subState raw).tdescBad 0 0 raw == bad

theorem hyp_ThicketQueues :
    subOk (gatherRaw (15 * 2 ^ 121)) false = true ∧ TD.TIMED (gatherRaw (15 * 2 ^ 121)) ≠ 1
    ∧ (∀ due, due ∈ [1, 1000000] → subOk (gatherRaw (2 ^ 120 + due * 2 ^ 97)) false = true ∧ TD.TIMED (gatherRaw (2 ^ 120 + due * 2 ^ 97)) = 1)
    ∧ subOk (7 * 2 ^ 125) true = true
    ∧ (let d := tdesc (gatherRaw (15 * 2 ^ 121)) false
       let s := stRun.modCluster 0 fun k => k.setUntimed 0 [d]
       s.thktLive 0 = some 0 ∧ s.engineIdle 0 0 20 = true ∧ s.pickFrom 0 0 0 = some (0, d) ∧ s.pickBefore 0 0 0 20 (0, d) = false) := by
  refine ⟨by decide +kernel, by decide +kernel, fun due h => ?_, by decide +kernel, by decide +kernel⟩
  fin_cases h <;> decide +kernel

theorem hyp_ThicketCompletes :
    (let d := tdesc (tdRaw 0 0 0) true
     (timedOn 0 d).thktLive 0 = some 0 ∧ (timedOn 0 d).thktDue 0 0 20 = some d ∧ ((timedOn 0 d).part 0).gate = false)
    ∧ (let d := { tdesc (tdRaw 0 0 0) true with finish := 19 }
       ((untimedOn 0 d).cluster 0).run 0 = some d ∧ d.ran = true ∧ d.finish < ((untimedOn 0 d).part 0).lc)
    ∧ (let d := tdesc (tdRaw 0 0 (2 ^ 59 + (2 ^ 18 - 1) * 2 ^ 60)) true
       TD.KIND d.raw ≠ 4 ∧ TD.STATEN d.raw = 1 ∧ TD.STATADDR d.raw < 2 ^ 18) := by decide

/-- Tier-column 0 with a pending transfer. -/
def withXfer (act : XferAct) : State :=
  (stRun.setPart 0 { stRun.part 0 with bc := 1000, lc := 1000 }).setCol 0 { TierCol.init with pend := [⟨0, 0, 0, 0, 2 ^ 20 - 1, 0, none, act⟩] }

theorem hyp_SlotTransfers :
    (∃ x, (withXfer (.write 255 [7])).slotXfer 0 0 = some x ∧ (x.slotted && decide ((withXfer (.write 255 [7])).xferBytes x = some (255, [7]))
        && x.slot2.isNone && decide (x.line < 2 ^ 20)) = true)
    ∧ (∃ x, (((withXfer (.root 0 0 true 0 [1])).setPart 0 { stRun.part 0 with job := .ended }).slotXfer 0 0) = some x ∧ (!x.slotted) = true) :=
  ⟨held (by decide), held (by decide)⟩

theorem hyp_Scrubs :
    (let s := { State.reset with refNs := 600000 }
     s.scrubTurn 0 0 = true ∧ (s.col 0).scrubBack = false ∧ s.bad = [])
    ∧ State.reset.coreExists 511 = true ∧ State.reset.portIdle 511 3 2047 = true ∧ 2047 < unitWords 3 ∧ State.reset.portIdle 511 0 262143 = true
    ∧ 262143 < unitWords 0
    ∧ (let s := { State.reset with scrubs := [⟨0, 0, 0, [5], [5], true⟩], bad := [(5, 1)] }
       (s.scrubs.filter fun x => x.ripe && decide (x.core < 8) && s.backFree x) = s.scrubs) := by decide

theorem hyp_Sweeps :
    State.reset.canAct (State.reset.sweepAct 1) = true ∧ ((clustersOf 1).any fun cl => (State.reset.partOf cl).isSome) = false
    ∧ stRun.canAct (stRun.sweepAct 1) = true ∧ ((clustersOf 1).any fun cl => (stRun.partOf cl).isSome) = true
    ∧ ({ State.reset with acts := [Act.mk0 actState tokAll] } : State).canAct (State.reset.sweepAct 1) = false
    ∧ ({ State.reset with acts := [{ Act.mk0 actSweep 1 with clusters := 1 }] } : State).sweepDue = some { Act.mk0 actSweep 1 with clusters := 1 } := by
  decide


/-! ## Hypotheses of the statements about beats, jobs, launches and global operations -/

def withPart (p : Part) : State := State.reset.setPart 0 p
/-- Partition 0 at the gate of beat 0; with a step change due there; with a serving job; with a request announced for the beat. -/
def atGate : State := withPart { Part.init with mask := 1, job := .launched }
def announced : State :=
  { atGate with fab := { atGate.fab with nets := [(0, ⟨0, false, [⟨0, some 0, 0, 1, 0, 4, [], 0, 0, some 0, 0⟩]⟩)] } }

theorem hyp_BeatsBegin :
    (atGate.setFld F.TIME_LAUNCH_COUNT 0 1).gtc < (atGate.setFld F.TIME_LAUNCH_COUNT 0 1).grid 0 0
    ∧ atGate.beatReady 0 = true ∧ atGate.startLate 0 = 0
    ∧ (atGate.setFld F.SERVE_PCFG_EN 0 1).beatReady 0 = true ∧ (atGate.setFld F.SERVE_PCFG_EN 0 1).startLate 0 = 5
    ∧ ((atGate.setFld F.SERVE_PCFG_EN 0 1).part 0).frzFrom ≠ some (atGate.setFld F.SERVE_PCFG_EN 0 1).now
    ∧ announced.beatReady 0 = true ∧ announced.startLate 0 = 6 ∧ (announced.part 0).frzFrom ≠ some announced.now := by decide

/-- Partition 7 in RUN with a lag. -/
def lagging (arm : Bool) : State :=
  ({ State.reset with gtc := 2 ^ 20 + 1 }).setPart 7 { Part.init with mask := 1, job := .run, lagArm := arm }

theorem hyp_FreezesAndLag :
    (let s := stRun.setPart 0 { stRun.part 0 with frozen := true, frzCause := 4, frzFrom := some 0, thawOk := true }
     (s.part 0).job = .run ∧ (s.part 0).frozen = true ∧ s.atEdge 0 = true ∧ (s.part 0).thawOk = true ∧ s.thawed 0 = true ∧ (s.part 0).waiting = false)
    ∧ (let s := stRun.setPart 0 { stRun.part 0 with frozen := true, frzCause := 4, frzFrom := some 0 }
       (s.part 0).frozen = true ∧ s.atEdge 0 = true ∧ (s.part 0).thawOk = false)
    ∧ (let s := stRun.setPart 0 { stRun.part 0 with frozen := true, frzCause := 5, bc := 0, frzFrom := some 0, thawOk := true }
       (s.part 0).job = .run ∧ (s.part 0).frozen = true ∧ s.atEdge 0 = true ∧ (s.part 0).thawOk = true ∧ s.thawed 0 = true ∧ (s.part 0).waiting = true)
    ∧ ((lagging true).part 7).jobLive = true ∧ ((lagging true).part 7).lagArm = true
    ∧ (lagging true).lagAbove 7 ((lagging true).fld F.TIME_BEAT_CFG_LAGLIM 7) = true
    ∧ ((lagging false).part 7).jobLive = true ∧ ((lagging false).part 7).lagArm = false
    ∧ (lagging true).lagAbove 7 ((lagging true).fld F.TIME_BEAT_CFG_FAULTLIM 7) = true := by decide +kernel

theorem hyp_BeatAndStepChange :
    ((atGate.setFld F.SERVE_PCFG_EN 0 1).setFld F.SERVE_PCFG_ALAG 0 2).stepReady 0 = true
    ∧ (withPart { Part.init with mask := 1, job := .launched, stepPend := some (0, 3) }).stepRuns 0 = true
    ∧ (withPart { Part.init with mask := 1, job := .launched, stepPend := some (0, 3) }).atEdge 0 = true
    ∧ ({ State.reset with sub := 1 } : State).atEdge 0 = false := by decide

/-- A booted part whose partition 7 holds cluster 0 and may be loaded. -/
def loadable (j : Job) (m : Nat) : State :=
  ({ State.reset with refNs := 600000 }.setFld F.ROOT_BOOT_BOOT_OK 0 1).setPart 7 { Part.init with mask := m, job := j }

theorem hyp_Loads :
    (loadable .idle 1).loadStatus 7 = stOK ∧ (loadable .idle 0).loadStatus 7 = stBAD_ARG
    ∧ State.reset.fld F.ROOT_BOOT_BOOT_OK 0 = 0 ∧ (loadable .run 1).fld F.ROOT_BOOT_BOOT_OK 0 ≠ 0
    ∧ ((loadable .run 1).part 7).job ≠ .idle ∧ ((loadable .run 1).part 7).job ≠ .ended := by decide

/-- Partition 7 ARMED for job 0, and a launch count exactly 10,000 ns ahead, or less. -/
def launchable (count : Nat) : State := (loadable .armed 1).setFld F.HQ_LAUNCHCNT_COUNT 7 count

theorem hyp_Launches :
    ∀ count st, (count, st) ∈ [(10000, stOK), (9999, stLATE)] →
      let s := launchable count
      s.noticePart (s.fld F.TIME_JOB_CFG_JOBID 7) = some 7
      ∧ s.noticeStatus 7 (s.fld F.HQ_LAUNCHCNT_COUNT 7) (s.fld F.TIME_JOB_CFG_MODE 7) (s.fld F.TIME_BEAT_CFG_K 7) = st := by
  intro count st h
  fin_cases h <;> decide

theorem hyp_LaunchClearsArrays :
    (launchable 10000).noticePart 0 = some 7 ∧ (launchable 10000).noticeStatus 7 10000 0 14 = stOK ∧ 7 ∈ (launchable 10000).partCores 7
    ∧ (launchable 10000).fld F.TIME_JOB_CFG_JOBID 7 = 0 ∧ (launchable 10000).fld F.HQ_LAUNCHCNT_COUNT 7 = 10000
    ∧ (launchable 10000).fld F.TIME_JOB_CFG_MODE 7 = 0 ∧ (launchable 10000).fld F.TIME_BEAT_CFG_K 7 = 14 := by
  decide

theorem hyp_CtrlFlitsAct :
    (withPart { Part.init with mask := 1 }).jobPart 0 = some 0 ∧ ((withPart { Part.init with mask := 1 }).gop 0).op = 0
    ∧ ((withPart { Part.init with mask := 1 }).gop 0).keptBid = none ∧ State.reset.jobPart 0 = none
    ∧ (let s := (withPart { Part.init with mask := 1 }).setGop 0 { Gop.init with keptBid := some 0, kept := [3] }
       s.jobPart 0 = some 0 ∧ (s.gop 0).op = 0 ∧ (s.gop 0).keptBid = some (byF [] 0 2)) := by decide

/-- A partition with a box of one part, in a barrier that is late. -/
def boxed (q : Nat) : State :=
  ((State.reset.setFld F.ROUTE_JOBBOX_XN q 1).setFld F.ROUTE_JOBBOX_YN q 1).setFld F.ROUTE_JOBBOX_ZN q 1
def lateBarrier (q root : Nat) : State :=
  ({ (boxed q) with gtc := 2 ^ 40 }.setFld F.ROUTE_JOBROOT_ROOT q root).setGop q { Gop.init with op := 1, entered := true }

theorem hyp_GlobalOperations :
    ((boxed 7).setGop 7 { Gop.init with op := 2 }).gop 7 ≠ Gop.init ∧ (((boxed 7).setGop 7 { Gop.init with op := 2 }).gop 7).op ≠ 0
    ∧ State.reset.hasBox 7 = false ∧ ((boxed 7).gop 7).op = 0 ∧ (boxed 7).hasBox 7 = true
    ∧ (lateBarrier 7 0).jobRoot 7 = (lateBarrier 7 0).node ∧ (lateBarrier 7 0).barrierLate 7 1 = true
    ∧ (lateBarrier 7 1).jobRoot 7 ≠ (lateBarrier 7 1).node ∧ (lateBarrier 7 1).barrierLate 7 2 = true := by decide

theorem hyp_PartResets :
    let s := (boxed 7).setPart 7 { Part.init with mask := 1, job := .run }
    (s.gop 7).op = 0 ∧ s.hasBox 7 = true ∧ 0 ∈ s.partCores 7 := by decide

/-! ## Hypotheses of the statements about ports -/

/-- Port `n` in a state, its own record given. -/
def withPort (n st : Nat) (p : Port) : State := (State.reset.setFld F.PORT_STAT_STATE n st).setPort n p

/-- Four bytes FF, `n` bytes 0, four bytes FF: the first four take the CRC's shift register to zero, where the zeros keep it. -/
def padGroup (n : Nat) : List Byte := [255, 255, 255, 255] ++ (List.replicate n 0 ++ [255, 255, 255, 255])
def zeroGroup : List Byte := padGroup 4248

theorem crc_zeros (n : Nat) : (List.replicate n (0 : Byte)).foldl crcByte 0 = 0 := by
  induction n with
  | zero => rfl
  | succ n ih => rw [List.replicate_succ, List.foldl_cons, show crcByte 0 0 = 0 by decide, ih]

theorem padGroup_length (n : Nat) : (padGroup n).length = n + 8 := by
  simp only [padGroup, List.length_append, List.length_replicate, List.length_cons, List.length_nil]; omega

theorem padGroup_crc (n : Nat) : crc32 ((padGroup n).take (n + 4)) = 0xFFFFFFFF := by
  have h : (padGroup n).take (n + 4) = [255, 255, 255, 255] ++ List.replicate n 0 := by
    rw [padGroup, ← List.append_assoc]
    exact List.take_left' (by simp only [List.length_append, List.length_replicate, List.length_cons, List.length_nil]; omega)
  rw [h, crc32, List.foldl_append, show ([255, 255, 255, 255] : List Byte).foldl crcByte 0xFFFFFFFF = 0 by decide, crc_zeros]

theorem padGroup_last (n : Nat) : byF (padGroup n) (n + 4) 4 = 0xFFFFFFFF := by
  have h : (padGroup n).drop (n + 4) = [255, 255, 255, 255] := by
    rw [padGroup, ← List.append_assoc]
    exact List.drop_left' (by simp only [List.length_append, List.length_replicate, List.length_cons, List.length_nil]; omega)
  rw [byF, h]; decide

theorem padGroup_zero (n i k : Nat) (hi : 4 ≤ i) (h : i + k ≤ n + 4) : byF (padGroup n) i k = ofBytes (List.replicate k 0) := by
  have h : ((padGroup n).drop i).take k = List.replicate k 0 := by
    obtain ⟨j, rfl⟩ : ∃ j, i = 4 + j := ⟨i - 4, by omega⟩
    rw [padGroup, ← List.drop_drop]
    show ((List.replicate n (0 : Byte) ++ [255, 255, 255, 255]).drop j).take k = _
    rw [List.drop_append_of_le_length (by rw [List.length_replicate]; omega), List.drop_replicate,
      List.take_append_of_le_length (by rw [List.length_replicate]; omega), List.take_replicate, Nat.min_eq_left (by omega)]
  rw [byF, h]

theorem zeroGroup_gseq : byF zeroGroup 4224 2 = 0 := by rw [zeroGroup, padGroup_zero _ _ _ (by decide) (by decide)]; decide

theorem zeroGroup_good : groupGood zeroGroup = true := by
  have ht : ∀ j ∈ List.range 64, byF zeroGroup (4096 + j) 1 = 0 := fun j hj => by
    have hj := List.mem_range.1 hj
    rw [zeroGroup, padGroup_zero _ _ _ (by omega) (by omega)]; decide
  rw [groupGood, Bool.and_eq_true, Bool.and_eq_true, List.all_eq_true]
  refine ⟨⟨?_, ?_⟩, fun j hj => ?_⟩
  · rw [zeroGroup, padGroup_length]; decide
  · rw [zeroGroup, padGroup_crc 4248, padGroup_last 4248]; decide
  · simp only [ht j hj]; decide

theorem hyp_SlotsAndGroups :
    ((withPort 23 3 Port.init).slotDue 23 = true ∧ State.reset.slotDue 23 = false ∧ (withPort 23 3 Port.init).slotsRun 23 = true
      ∧ groupGood [] = false)
    ∧ ((withPort 23 3 { Port.init with ackSeq := 5 }).slotsRun 23 = true ∧ groupGood zeroGroup = true
      ∧ byF zeroGroup 4224 2 / 4096 % 2 = 0
      ∧ byF zeroGroup 4224 2 % 4096 ≠ (((withPort 23 3 { Port.init with ackSeq := 5 }).port 23).ackSeq + 1) % 4096)
    ∧ ((withPort 23 3 { Port.init with ackSeq := 4095 }).slotsRun 23 = true
      ∧ byF zeroGroup 4224 2 % 4096 = (((withPort 23 3 { Port.init with ackSeq := 4095 }).port 23).ackSeq + 1) % 4096)
    ∧ (let m : RxMsg := ⟨[1], 0, 0, 64, none, 1, [(0, [])], 0, false⟩
       let s := (withPort 1 3 Port.init).setPort 0 { Port.init with rx := [m] }
       s.rxFwd 0 = some m ∧ m.hops = 1 :: [] ∧ m.passed = 0 ∧ s.fwdGone 0 1 m = false)
    ∧ (let m : RxMsg := ⟨[1], 0, 0, 64, none, 1, [(0, [])], 0, false⟩
       let s := State.reset.setPort 0 { Port.init with rx := [m] }
       s.rxFwd 0 = some m ∧ m.passed = 0 ∧ s.fwdGone 0 1 m = true) := by
  rw [zeroGroup_gseq]
  exact ⟨by decide, ⟨by decide, zeroGroup_good, by decide⟩, by decide, by decide, by decide⟩

/-- A sequenced group sent at the beginning. -/
def oldGroup : Group := ⟨1, 0, [], []⟩

theorem hyp_RetriesRun :
    (let s := { withPort 4 3 { Port.init with nakWant := some 5 } with refNs := 480 }
     (s.port 4).nakWant = some 5 ∧ s.sliceAfter 4 5 = true)
    ∧ (let s := { withPort 4 3 { Port.init with replay := [oldGroup], replayWant := some 5, retryRun := 14 } with refNs := 480 }
       s.sliceAfter 4 5 = true ∧ (s.port 4).retryRun ≠ 15 ∧ (s.port 4).replayWant = some 5)
    ∧ (let s := { withPort 4 3 { Port.init with replay := [oldGroup] } with refNs := 480 }
       (s.port 4).retryRun ≠ 15 ∧ s.replayLate 4 = true)
    ∧ State.reset.inSlice 1 = false := by decide

theorem hyp_PortStates :
    (let s := withPort 47 1 { Port.init with step := 1 }
     s.pstate 47 = 1 ∧ (s.port 47).step = 1)
    ∧ (let s := withPort 47 1 { Port.init with step := 4, pairs := [(0, 0, 4000, 4000)] }
       s.pstate 47 = 1 ∧ (s.port 47).step = 4 ∧ (s.port 47).pairs = (0, 0, 4000, 4000) :: [] ∧ (s.port 47).probes.length < 15)
    ∧ (let s := withPort 47 1 { Port.init with step := 4, pairs := [(0, 0, 4000, 4000)], probes := List.replicate 15 3999 }
       (s.port 47).pairs = (0, 0, 4000, 4000) :: [] ∧ (s.port 47).probes.length = 15
       ∧ leastInt ((s.port 47).probes ++ [probePair 0 0 4000 4000]) ≤ 4000)
    ∧ (let s := { withPort 47 2 { Port.init with sentId := 0 } with refNs := 1000000 }
       s.pstate 47 = 2 ∧ (s.port 47).heard = false ∧ (s.port 47).sentId + 1000000 ≤ s.refNs)
    ∧ (withPort 47 6 Port.init).pstate 47 ∈ [2, 3, 4, 5, 6] ∧ recGood [] = false
    ∧ recGood ([1, 0x44, 0x4E, 0x49] ++ List.replicate 56 0 ++ toBytes 4 550122942) = true
    ∧ (23 < (withPort 23 2 Port.init).id.ports ∧ (withPort 23 2 Port.init).pstate 23 ≠ 0 ∧ (withPort 23 2 Port.init).pstate 23 ≠ 7)
    ∧ ({ withPort 47 1 Port.init with refNs := 1000000000 } : State).trainLate 47 = true
    ∧ (let s := { withPort 47 2 { Port.init with since := 1 } with refNs := 10000000 }
       s.pstate 47 = 2 ∧ (s.port 47).heard = false ∧ (s.port 47).ident + 10000000 ≤ s.refNs ∧ s.trainLate 47 = false)
    ∧ (let s := { withPort 47 2 Port.init with refNs := 1000000000 }
       s.pstate 47 = 2 ∧ (s.port 47).heard = false ∧ (s.port 47).ident + 10000000 ≤ s.refNs ∧ s.trainLate 47 = true
       ∧ ∀ a ∈ s.acts, a.ports.contains 47 = false) := by
  decide +kernel

/-- A port that the job of partition 0 uses. -/
def usedPort : State := (stRun.setFld F.PORT_CFG_SCHEDMASK 23 1)

theorem hyp_PortControl :
    (let s := State.reset.setFld F.PORT_CTL_ENABLE 23 0
     23 < s.id.ports ∧ s.fld F.PORT_CTL_ENABLE 23 = 0 ∧ s.canAct (retrainAct 23) = true)
    ∧ State.reset.fld F.PORT_CTL_ENABLE 23 = 1 ∧ State.reset.schedBusy 23 = false ∧ State.reset.pstate 23 = 0
    ∧ (withPort 23 1 Port.init).schedBusy 23 = false ∧ (withPort 23 1 Port.init).pstate 23 ≠ 0
    ∧ (withPort 23 1 Port.init).canAct (retrainAct 23) = true ∧ (withPort 23 1 Port.init).fld F.PORT_CTL_ENABLE 23 ≠ 0
    ∧ (withPort 23 1 Port.init).pstate 23 ≠ 3
    ∧ winAfter (State.reset.reg .PORT_WIN 23).toNat (12 + 100 * 2 ^ 15 + 4095 * 2 ^ 44) = some (12 + 100 * 2 ^ 15 + 4095 * 2 ^ 44)
    ∧ State.reset.id.ports ≤ 24 ∧ usedPort.schedBusy 23 = true := by decide

/-! ## Hypotheses of the statements about the fabric -/

/-- Port 0 UP, and a route to node 1 by it for requests; port 6 UP as well; frames that pass. -/
def fabUp : State := (State.reset.setFld F.PORT_STAT_STATE 0 3).setFld F.PORT_STAT_STATE 6 3
def routed : State := fabUp.setReg .ROUTE_ENTRY 0 (BitVec.ofNat 64 (2 ^ 63 + 2 * 2 ^ 58 + 2 ^ 20 + 1))
def reqTo (node : Nat) : ReqSpec := ⟨0, none, node, 1, 0, 4, [], 0, 0, none, 0⟩

/-- A state in which every tag is OUT. -/
def outTo (n : Nat) : State := { State.reset with fab := { Fabric.init with tags := (List.range n).map fun g => (g, { Tag.init with state := .out }) } }
def allOut : State := outTo 4096

theorem get_const {α : Type} (d v : α) (l : List Nat) (g : Nat) (h : g ∈ l) : SMap.get d (l.map fun k => (k, v)) g = v := by
  induction l with
  | nil => cases h
  | cons k l ih =>
    rw [List.map_cons, SMap.get]
    split
    · rfl
    · exact ih ((List.mem_cons.1 h).resolve_left fun e => absurd e.symm ‹_›)

theorem outTo_tag (n g : Nat) (h : g ∈ List.range n) : (outTo n).tag g = { Tag.init with state := .out } := get_const _ _ _ g h

theorem allOut_full : allOut.freeTag = none := by
  rw [State.freeTag, List.find?_eq_none]
  intro g hg
  rw [allOut, outTo_tag 4096 g hg]
  decide

theorem hyp_RequestsTakeTags :
    allOut.freeTag = none ∧ allOut.injecting = true ∧ State.reset.freeTag = some 0
    ∧ ((State.reset.setTag 0 { Tag.init with state := .retire }).freeTag = some 1)
    ∧ State.reset.injecting = true ∧ State.reset.route (State.reset.reqFrame (reqTo 0) 0 1) = .here
    ∧ State.reset.route (State.reset.reqFrame (reqTo 1) 0 1) = .discard
    ∧ routed.freeTag = some 0 ∧ routed.injecting = true ∧ routed.route (routed.reqFrame (reqTo 1) 0 1) = .port 0
    ∧ frameFlitCount (routed.reqFrame (reqTo 1) 0 1).bytes ≤ routed.dynSlots 0
    ∧ (State.reset.setNet 1 ⟨1, false, []⟩).injecting = false :=
  ⟨allOut_full, rfl, by decide +kernel⟩

/-- A frame by its network, destination, opcode and hops. -/
def fr (net dst op hops : Nat) : Frame := { okFrame with net := net, dst := dst, op := op, hops := hops, opspec := 4 }

theorem hyp_FramesRouted :
    fabUp.frameUp 6 = true ∧ (fabUp.port 6).frames.contains (fr 0 0 1 0) = false ∧ (fr 0 0 1 0).dst = fabUp.node ∧ opOk 0 1 = true
    ∧ (fr 1 0 0x81 0).dst = fabUp.node ∧ opOk 1 0x81 = true
    ∧ (fr 0 1 1 192).dst ≠ fabUp.node ∧ fabUp.role 6 ≠ 0x10 ∧ (fabUp.port 6).frames.contains (fr 0 1 1 192) = false
    ∧ (fabUp.port 6).frames.contains (fr 0 1 1 191) = false ∧ fabUp.route (fr 0 1 1 191) = .discard
    ∧ routed.frameUp 6 = true ∧ (routed.port 6).frames.contains (fr 0 1 1 191) = false ∧ (fr 0 1 1 191).dst ≠ routed.node ∧ routed.role 6 ≠ 0x10
    ∧ routed.route (fr 0 1 1 191) = .port 0 ∧ frameFlitCount (fr 0 1 1 191).bytes ≤ routed.dynSlots 0 := by decide +kernel

/-- A delivered request. -/
def given (f : Frame) : State := { State.reset with fab := { Fabric.init with inReq := [(none, false, f)] }, refNs := 600000 }
def msgOf (cmd : Nat) : Frame := { okFrame with op := 3, opspec := cmd, payload := [1, 0], bytes := 2 }

/-- A request of 64 bytes at the bulk memory of a running job, from port 3; entry 99 of the tier-column's calendar has an owner. -/
def waiting (op own : Nat) : State :=
  let f := { okFrame with op := op, opspec := 64 }
  { (stRun.setFld F.CAL_LEN_LEN 0 100).setFld F.CAL_ENTRY_ODD 49 own with fab := { Fabric.init with inReq := [(some 3, false, f)] }, refNs := 600000 }

/-- Its slot has not come, or there is none for it. -/
theorem hyp_RequestsServed_slots : ∀ op, op ∈ [1, 2] →
    let f := { okFrame with op := op, opspec := 64 }
    let s := waiting op (ownIo 0)
    s.firstReq op = some (some 3, false, f) ∧ s.targetStatus f.addr 64 0 = stOK ∧ s.frameSlots (some 3) f.addr = true
    ∧ (s.takeUpTo (s.slotNeed (some 3) f.addr 64 (op == 2)) 0).2 < (s.slotNeed (some 3) f.addr 64 (op == 2)).length
    ∧ (waiting op 0).targetStatus f.addr 64 0 = stOK ∧ (waiting op 0).frameSlots (some 3) f.addr = false := by
  intro op h
  fin_cases h <;> decide +kernel

theorem hyp_RequestsServed :
    (∀ n, n ∈ [0, 4065] → let f := { okFrame with opspec := n }
      (given f).firstReq 1 = some (none, false, f) ∧ (frameLen f = 0 ∨ 4064 < frameLen f))
    ∧ (∀ n a st, (n, a, st) ∈ [(1, 2 ^ 47, stBAD_ARG), (4064, 0, stOK)] → let f := { okFrame with opspec := n, addr := a }
      (given f).firstReq 1 = some (none, false, f) ∧ 1 ≤ frameLen f ∧ frameLen f ≤ 4064
      ∧ (given f).targetStatus f.addr (frameLen f) (frameJob f) = st ∧ (given f).frameSlots none f.addr = true
      ∧ ((given f).slotNeed none f.addr (frameLen f) false).length ≤ ((given f).takeUpTo ((given f).slotNeed none f.addr (frameLen f) false) 0).2)
    ∧ (∀ a st, (a, st) ∈ [(2 ^ 47, stBAD_ARG), (0, stOK)] → let f := { okFrame with op := 2, addr := a }
      (given f).firstReq 2 = some (none, false, f) ∧ (given f).targetStatus f.addr f.bytes (frameJob f) = st ∧ (given f).frameSlots none f.addr = true
      ∧ ((given f).slotNeed none f.addr f.bytes true).length ≤ ((given f).takeUpTo ((given f).slotNeed none f.addr f.bytes true) 0).2)
    ∧ State.reset.absent (2 ^ 47) = true
    ∧ ((given (msgOf 1)).firstReq 3 = some (none, false, msgOf 1) ∧ (given (msgOf 1)).mbox.ch2 = none
      ∧ (msgOf 1).opspec % 2 ^ 16 = mqCmd (msgOf 1).payload)
    ∧ ((given (msgOf 2)).firstReq 3 = some (none, false, msgOf 2) ∧ (given (msgOf 2)).mbox.ch2 = none
      ∧ (msgOf 2).opspec % 2 ^ 16 ≠ mqCmd (msgOf 2).payload) := by
  refine ⟨fun n h => ?_, fun n a st h => ?_, fun a st h => ?_, ?_⟩
  · fin_cases h <;> decide
  · fin_cases h <;> decide
  · fin_cases h <;> decide
  · decide

/-- Tag 4095 with a request. -/
def tagged (st : TagState) : State := State.reset.setTag 4095 ⟨st, 15, some (reqTo 0), none, some 0, 0, 0⟩
def replyOf (gen : Nat) : Frame := { okFrame with net := 1, op := 0x81, tag := 4095, gen := gen }

theorem hyp_TagsMove :
    ((replyOf 15).net = 1 ∧ opOk 1 (replyOf 15).op = true ∧ (replyOf 15).dst = State.reset.node)
    ∧ ((tagged .out).tag (replyOf 15).tag).state = .out ∧ ((tagged .out).tag (replyOf 15).tag).req = some (reqTo 0)
    ∧ ((tagged .out).tag (replyOf 15).tag).gen = (replyOf 15).gen
    ∧ ((tagged .retire).tag (replyOf 15).tag).state ≠ .out ∧ ((tagged .out).tag (replyOf 14).tag).gen ≠ (replyOf 14).gen
    ∧ (tagged .out).timerDue 4095 = true ∧ ((tagged .out).tag 4095).req = some (reqTo 0)
    ∧ ((tagged .retire).tag 4095).state = .retire ∧ ((tagged .retire).tag 4095).until_ ≤ (tagged .retire).gtc := by decide

theorem hyp_RoutesChange :
    ((State.reset.setNet 1 ⟨0, true, []⟩).net 1).change = true ∧ (State.reset.net 1).change = false ∧ (State.reset.net 1).state = 0
    ∧ ((State.reset.setNet 1 ⟨2, false, []⟩).net 1).change = false ∧ ((State.reset.setNet 1 ⟨2, false, []⟩).net 1).state = 2
    ∧ ((State.reset.setNet 1 ⟨1, false, []⟩).net 1).change = false ∧ ((State.reset.setNet 1 ⟨1, false, []⟩).net 1).state = 1
    ∧ (State.reset.setNet 1 ⟨1, false, []⟩).tagsOut = [] ∧ (tagged .out).tagsOut ≠ [] := by decide

/-! ## Hypotheses of the statements about time and events -/

/-- The time master with a source; a master with an UP torus port. -/
def master (src : Nat) : State := (State.reset.setFld F.TIME_MASTER_MASTER 0 1).setFld F.TIME_MASTER_SRC 0 src
def masterUp : State := (master 0).setFld F.PORT_STAT_STATE 0 3

theorem hyp_BeaconsMove :
    masterUp.isMaster = true ∧ masterUp.gtc % 100000 = 0 ∧ masterUp.tm.sentAt ≠ some masterUp.gtc ∧ masterUp.beaconPorts = [0]
    ∧ ({ masterUp with gtc := 99999 } : State).gtc % 100000 ≠ 0
    ∧ State.reset.isMaster = false ∧ ({ okFlit with sys := 7 } : CtrlFlit).sys ≠ State.reset.sysNo ∧ okFlit.sys = State.reset.sysNo
    ∧ (let s := { State.reset with gtc := 1000000, tm := { TimeSt.init with parent := true } }
       s.isMaster = false ∧ s.tm.parent = true ∧ s.tm.heardP + 1000000 ≤ s.gtc) := by decide

theorem hyp_TimeSetCorrects :
    (2 ^ 64 - 1 < 2 ^ 64) ∧ (master 0).isMaster = true ∧ (master 0).timeSrc = 0 ∧ State.reset.isMaster = false ∧ (master 3).timeSrc ≠ 0 := by decide

/-- A part whose time is initialised; one with a launched job. -/
def timed : State := State.reset.setFld F.TIME_STAT_INIT 0 1

theorem hyp_CorrectionsApply :
    State.reset.fld F.TIME_STAT_INIT 0 = 0 ∧ timed.fld F.TIME_STAT_INIT 0 = 1 ∧ timed.anyBusy = false
    ∧ (timed.setPart 7 { Part.init with mask := 1, job := .launched }).anyBusy = true
    ∧ (timed.setPart 7 { Part.init with mask := 1, job := .launched }).fld F.TIME_STAT_INIT 0 = 1
    ∧ ∀ e ∈ [(1 : Int), -1], let s := { State.reset with refNs := 5000, tm := { TimeSt.init with slew := e } }
      s.tm.slew ≠ 0 ∧ s.tm.slewAt + s.slewPeriod ≤ s.refNs := by decide

theorem hyp_SourcesAndClocks :
    (∀ off d, (off, d) ∈ [(499999999, 499999999), (500000001, 500000001), (500000000, 500000000)] →
      let s := (master 1).setFld F.TIME_PPS_OFFSET 0 off
      s.isMaster = true ∧ s.timeSrc = 1 ∧ (s.fld F.TIME_PPS_OFFSET 0 + 1000000000 - s.gtc % 1000000000) % 1000000000 = d)
    ∧ ((master 2).setLink 3 true).isMaster = true ∧ ((master 2).setLink 3 true).timeSrc = 2 ∧ ((master 2).setLink 3 true).linkUp 3 = true
    ∧ ({ master 3 with refNs := 10000000 } : State).isMaster = true ∧ ({ master 3 with refNs := 10000000 } : State).timeSrc = 3
    ∧ ({ master 3 with refNs := 10000000 } : State).tm.ptmAt + 10000000 ≤ ({ master 3 with refNs := 10000000 } : State).refNs
    ∧ (let s := (master 3).modTm fun t => { t with ptmOut := 3 }
       s.isMaster = true ∧ s.timeSrc = 3 ∧ 0 < s.tm.ptmOut ∧ s.srcSilent = true ∧ s.fld F.TIME_STAT_HOLDOVER 0 = 0)
    ∧ (State.reset.modTm fun t => { t with refLost := true }).tm.refLost = true ∧ State.reset.fld F.TIME_STAT_PRIMARY 0 = 0
    ∧ State.reset.gtc % 1000000000 = 0 ∧ State.reset.tm.ppsHigh = false
    ∧ (let s := { State.reset with gtc := 1100000000 }.modTm fun t => { t with ppsHigh := true }
       100000000 ≤ s.gtc % 1000000000 ∧ s.tm.ppsHigh = true)
    ∧ (let s := { State.reset with gtc := 7 }.setFld F.TIME_ALARM_AT 0 7
       s.tm.alarmed = false ∧ s.fld F.TIME_ALARM_AT 0 ≤ s.gtc)
    ∧ (State.reset.modTm fun t => { t with alarmed := true }).tm.alarmed = true := by
  refine ⟨fun off d h => ?_, by decide⟩
  fin_cases h <;> decide

theorem hyp_EventsTick :
    ({ State.reset with gtc := 64, occ := [0, 1019] } : State).tickDue = true
    ∧ ({ State.reset with gtc := 64, occ := [0, 1019] } : State).evcSource 1019 = true
    ∧ ({ State.reset with gtc := 63 } : State).tickDue = false ∧ (State.reset.setFld F.EVC_WIRE_N 11 0).fld F.EVC_WIRE_N 11 = 0 := by decide

/-! ## Hypotheses of the statements about power and resets -/

/-- A part with a power cap, and declarations and jobs of partition 7. -/
def capped (cap w : Nat) (j : Job) : State :=
  ((State.reset.setFld F.PWR_CAP_CAP 0 cap).setFld F.PWR_PDECL_W 7 w).setPart 7 { Part.init with mask := 1, job := j }

theorem hyp_PowerRequests :
    (249 % 2 ^ 11 < 250 ∧ 1200 < 1201 % 2 ^ 11)
    ∧ (State.reset.powerBudget ≤ 1200 ∧ SMap.get 0 State.reset.psCount 0x12 + State.reset.psWaiting 0x12 < psLimit)
    ∧ 250 < (capped 1200 1000 .armed).powerBudget
    ∧ ((capped 1200 0 .launched).part 7).jobLive = true
    ∧ (((capped 1200 0 .idle).part 7).jobLive = false
      ∧ ((capped 1200 0 .idle).setFld F.PWR_PDECL_W 7 (2047 % 2 ^ 11)).powerBudget ≤ (capped 1200 0 .idle).powerCap)
    ∧ (((capped 250 0 .armed).part 7).jobLive = false
      ∧ (capped 250 0 .armed).powerCap < ((capped 250 0 .armed).setFld F.PWR_PDECL_W 7 (2047 % 2 ^ 11)).powerBudget
      ∧ (capped 250 0 .armed).powerBudget < ((capped 250 0 .armed).setFld F.PWR_PDECL_W 7 (2047 % 2 ^ 11)).powerBudget)
    ∧ (((1201 :: State.reset.pow.samples).take 10).sum > State.reset.powerCap * ((1201 :: State.reset.pow.samples).take 10).length
      ∧ State.reset.fld F.PWR_BUDGET_TRIP 0 = 0 ∧ ((1200 :: State.reset.pow.samples).take 10).sum ≤ State.reset.powerCap * 1)
    ∧ (∀ j, j ∈ [Job.idle, .run] → let s := capped 1200 0 j
      s.checkStep 7 7 = stOK ∧ s.stepLate 7 (2 ^ 47) = false)
    ∧ ((capped 1200 0 .idle).setPart 7 { Part.init with mask := 1, stepPend := some (1, 1) }).checkStep 7 7 ≠ stOK
    ∧ ((let s := { capped 1200 0 .run with gtc := 1 }
       s.checkStep 7 7 = stOK ∧ s.stepLate 7 0 = true))
    ∧ State.reset.tm.refLost = false ∧ ∀ p < 8, (State.reset.part p).jobLive = false := by decide

theorem hyp_PowerStates :
    State.reset.power ≠ 3 ∧ (∀ k ∈ [1, 2, 3], State.reset.checkState k = stOK ∧ stRun.checkState k ≠ stOK) ∧ stRun.power ≠ 3
    ∧ (State.reset.setFld F.PWR_STATE_CUR 0 3).power = 3
    ∧ (let s := State.reset.modPow fun p => { p with trans := some 1 }
       s.pow.trans = some 1 ∧ s.pow.wakeNext = none ∧ ∀ q < 8, (s.part q).job ≠ .launched)
    ∧ (let s := (State.reset.setFld F.PWR_STATE_CUR 0 1).modPow fun p => { p with trans := some 0 }
       s.pow.trans = some 0 ∧ s.power = 1 ∧ s.fld F.PWR_WAKESEL_PORTS 0 = 0 ∧ s.pow.flood = false) := by decide

/-- A part in a power state with wake sources and wake ports selected. -/
def sleeping (st srcs ports : Nat) : State :=
  ((State.reset.setFld F.PWR_STATE_CUR 0 st).setFld F.PWR_WAKESEL_SOURCES 0 srcs).setFld F.PWR_WAKESEL_PORTS 0 ports

theorem hyp_WakesAndHeat :
    (∀ st, st ∈ [1, 2, 3] → ∀ code, code ∈ [0, 1, 2, 5] →
      (sleeping st 63 (2 ^ 23)).wakeOn code = true ∧ (sleeping st 63 (2 ^ 23)).power ≠ 0 ∧ (sleeping st 63 (2 ^ 23)).pow.trans = none
      ∧ (sleeping st 0 (2 ^ 23)).wakeOn code = false)
    ∧ (sleeping 1 63 0).power ≠ 3 ∧ (sleeping 3 63 (2 ^ 23)).power = 3 ∧ (sleeping 3 63 (2 ^ 23)).wakePort 23 = true
    ∧ (sleeping 2 63 (2 ^ 23)).wakePort 23 = true ∧ (sleeping 2 63 (2 ^ 23)).power ≠ 3 ∧ ((sleeping 2 63 (2 ^ 23)).port 23).ctrlIn.contains okFlit = false
    ∧ (1 : Nat) ≠ State.reset.id.serial
    ∧ State.reset.alertAt ≤ tempWord 1200 ∧ State.reset.fld F.PWR_THERM_TEMP 0 < State.reset.alertAt ∧ tempWord (-400) < State.reset.alertAt
    ∧ 1250 ≤ tempWord 1250 ∧ State.reset.pins.trip = false := by decide

theorem hyp_ResetsLeave :
    State.reset.power ≠ 3 ∧ State.reset.pins.held = false ∧ State.reset.pins.green = true
    ∧ (State.reset.modPins fun p => { p with green := false }).pins.green = false ∧ Requester.mc0 ≠ .host ∧ State.reset.asleep = false
    ∧ (let s := State.reset.modBoot fun b => { b with due := none }
       s.pins.perst = false ∧ s.asleep = false ∧ s.coldStage0 = false)
    ∧ State.reset.pins.perst = false ∧ State.reset.coldStage0 = true ∧ (sleeping 3 0 0).asleep = true ∧ (sleeping 3 0 0).pins.perst = false
    ∧ (let s := State.reset.modPins fun p => { p with perst := true }
       s.pins.perst = true ∧ s.power ≠ 3) := by decide

/-! ## Hypotheses of the statements about the host interface -/

/-- Ring 63 enabled with a use and a medium, its HPOS and DPOS given. -/
def withRing (use medium hpos dpos : Nat) : State :=
  ((((State.reset.setFld F.HQ_RCFG_EN 63 1).setFld F.HQ_RCFG_USE 63 use).setFld F.HQ_RCFG_MEDIUM 63 medium).setFld F.HQ_RHPOS_HPOS 63 hpos).setFld
    F.HQ_RSTAT_DPOS 63 dpos

theorem hyp_RingsGuarded :
    ((withRing 1 0 0 0).ringIsOut 63 = false ∧ (withRing 1 0 0 0).ringSlots 63 < (17 + 2 ^ 32 - (withRing 1 0 0 0).dpos 63) % 2 ^ 32)
    ∧ ((withRing 2 0 0 0).ringIsOut 63 = true ∧ (withRing 2 0 0 0).ringSlots 63 < ((withRing 2 0 0 0).dpos 63 + 2 ^ 32 - 1) % 2 ^ 32)
    ∧ ((withRing 2 0 0 16).ringIsOut 63 = true ∧ ((withRing 2 0 0 16).dpos 63 + 2 ^ 32 - 0) % 2 ^ 32 ≤ (withRing 2 0 0 16).ringSlots 63) := by decide

/-- BAR0 0x100008 is PORT_CFG of port 0; 0x83000000 is no register. -/
theorem hyp_HostAccesses :
    (sleeping 3 0 0).asleep = true ∧ State.reset.asleep = false ∧ ((1 : Nat) ≠ 4 ∧ (1 : Nat) ≠ 8) ∧ 4 % 8 ≠ 0
    ∧ (0x83000000 % 4 = 0 ∧ inMsix 0x83000000 = false ∧ inPba 0x83000000 = false ∧ regAt 0x83000000 = none)
    ∧ (1048584 % 8 = 0 ∧ inMsix 1048584 = false ∧ inPba 1048584 = false ∧ regAt 1048584 = some (.PORT_CFG, 0, false)
      ∧ regAt 1048588 = some (.PORT_CFG, 0, true) ∧ inMsix 1048588 = false ∧ inPba 1048588 = false
      ∧ (regInfo .PORT_CFG).width = 64 ∧ State.reset.barServes .PORT_CFG 0 = true
      ∧ State.reset.gated .host .PORT_CFG 0 ((2 ^ 64 - 1) % 2 ^ 64) (2 ^ 64 - 1) = false
      ∧ (State.reset.writeIo .PORT_CFG 0 ((2 ^ 64 - 1) % 2 ^ 64) (2 ^ 64 - 1)).isNone = true
      ∧ (State.reset.writeRoot .host .PORT_CFG 0 ((2 ^ 64 - 1) % 2 ^ 64) (2 ^ 64 - 1)).isNone = true ∧ psReg .PORT_CFG = none)
    ∧ (let s := { stRun with refNs := 600000 }
       (if s.minimal then 2 else s.bar2Refuse (s.bar2Addr 0) 8) = 6)
    ∧ (let s := { State.reset with refNs := 600000 }
       (if s.minimal then 2 else s.bar2Refuse (s.bar2Addr 0) 8) = 0 ∧ (s.readMem .other (s.bar2Addr 0) 8).2.2 = false)
    ∧ State.reset.hw = [] ∧ 1048584 % 8 = 0 := by
  decide +kernel

/-- Channel 63 reads its descriptors from ring 63 and completes on ring 62; its first descriptor stands in the ring. -/
def dmaReady (d : List Byte) : State :=
  (((((({ withRing 5 0 1 0 with refNs := 600000 } : State).setFld F.HQ_RCFG_EN 62 1).setFld F.HQ_RCFG_USE 62 6).setFld F.HQ_DCFG_EN 63 1).setFld F.HQ_DCFG_DESCRING 63 63).setFld
    F.HQ_DCFG_CPLRING 63 62 |>.setLink 0 true).modHost fun h => { h with rings := [(63, { HRing.init with slots := [(d, [])] })] }
/-- A descriptor: OP, LEN, DEV. -/
def desc (op len dev : Nat) : List Byte := toBytes 4 op ++ toBytes 4 len ++ toBytes 8 0 ++ toBytes 6 dev ++ List.replicate 42 0

theorem hyp_DmaRuns :
    (∀ op len, (op, len) ∈ [(0, 1), (1, 0), (2, 0), (3, 0), (4, 1)] → (dmaReady (desc op len 0)).dmaHead 63 = some (desc op len 0)
      ∧ dOP (desc op len 0) = op ∧ (dmaReady (desc op len 0)).dmaCheck 63 (desc op len 0) ≠ stOK)
    ∧ ((dmaReady (desc 1 64 0)).dmaHead 63 = some (desc 1 64 0) ∧ dOP (desc 1 64 0) = 1)
    ∧ ((dmaReady (desc 3 64 0)).dmaHead 63 = some (desc 3 64 0) ∧ dOP (desc 3 64 0) = 3)
    ∧ ((dmaReady (desc 2 64 0)).dmaHead 63 = some (desc 2 64 0) ∧ dOP (desc 2 64 0) = 2
      ∧ (dmaReady (desc 2 64 0)).dmaCheck 63 (desc 2 64 0) = stOK ∧ (dmaReady (desc 2 64 0)).linkUp 0 = true
      ∧ (let x := ((dmaReady (desc 2 64 0)).dmaTake 63 (desc 2 64 0) none).dmaRead (dDEV (desc 2 64 0)) (dLEN (desc 2 64 0))
         x.ue = false ∧ x.waits = false))
    ∧ (∀ op, op ∈ [1, 2, 3] → ((State.reset.setDma 63 { DmaCh.init with desc := some (desc op 64 0), rest := [1] }).dmaAt 63) = some (desc op 64 0)
      ∧ dOP (desc op 64 0) = op)
    ∧ (let s := State.reset.setDma 63 { DmaCh.init with rest := [1] }
       s.dmaHead 63 = none ∧ (s.dma 63).status = none ∧ (s.dma 63).rest ≠ [])
    ∧ (State.reset.setDma 63 { DmaCh.init with unhashed := [1] }).digNext = some 63
    ∧ (let s := (dmaReady []).setDma 63 { DmaCh.init with desc := some (desc 1 64 0), status := some stOK }
       (s.dma 63).desc = some (desc 1 64 0) ∧ (s.dma 63).status = some stOK ∧ (s.dma 63).unhashed = [] ∧ s.cplRoom 63 = true) := by
  refine ⟨fun op len h => ?_, ?_⟩
  · fin_cases h <;> decide +kernel
  · decide +kernel

/-- An Ethernet message: TYPE, stream, SEQ, body. -/
def ethMsg (typ st seq : Nat) (body : List Byte) : List Byte :=
  ethMagic ++ toBytes 1 1 ++ toBytes 1 typ ++ toBytes 2 body.length ++ toBytes 2 st ++ toBytes 2 0 ++ toBytes 4 seq ++ body
/-- A ring on Ethernet port 0, its link up; a stream with a message not acknowledged. -/
def onEth (use : Nat) : State := (withRing use 1 0 0).setLink 1 true
def unacked (resends : Nat) : State :=
  { (onEth 2).setEthStream 63 { EthStream.init with unacked := [⟨1, 0, 7, []⟩], resends := resends } with refNs := 2 ^ 40 }

theorem hyp_LinksAndStreams :
    (State.reset.setLink 0 true).linkUp 0 = true ∧ State.reset.linkUp 0 = false ∧ State.reset.pins.perst = false
    ∧ State.reset.linkUp 2 = false ∧ State.reset.power < 2 ∧ (State.reset.setLink 2 true).linkUp 2 = true
    ∧ (∀ up : Bool, (State.reset.setLink 3 !up).linkUp 3 = !up)
    ∧ (onEth 2).linkUp 1 = true ∧ (ethParse []).isNone = true
    ∧ (∃ m, ethParse (ethMsg 1 63 0 []) = some m ∧ (m.typ == 1 && m.key == 63 && (onEth 2).ringIsOut m.key) = true)
    ∧ (∃ m, ethParse (ethMsg 1 62 0 []) = some m ∧ (m.typ == 1 && !(onEth 1).ringOn m.key) = true)
    ∧ (∃ m, ethParse (ethMsg 2 63 0 [7, 0, 0, 0]) = some m
      ∧ (m.typ == 2 && (((unacked 0).ethStream m.key).unacked.any fun x => x.seq == byF m.body 0 4)) = true)
    ∧ (∃ m, ethParse (ethMsg 5 0xFFFF 0 []) = some m ∧ (m.typ == 5 && m.key == 64) = true)
    ∧ (∃ m, ethParse (ethMsg 5 0xFFFF 1 []) = some m ∧ (m.typ == 5 && m.key == 64 && m.seq != ((onEth 2).ethStream 64).rx) = true)
    ∧ (∀ k ∈ [7, 8], ((unacked k).ethStream 63).unacked ≠ [] ∧ ((unacked k).ethStream 63).resends = k
      ∧ ((unacked k).ethStream 63).sent + 1000 * (unacked k).fld F.HQ_NETCFG_RTO 0 ≤ (unacked k).refNs)
    ∧ (let s := { State.reset.setFld F.HQ_NETCFG_TELEMMS 0 1 with refNs := 1000000 }
       s.fld F.HQ_NETCFG_TELEMMS 0 ≠ 0 ∧ s.host.telemAt + 1000000 * s.fld F.HQ_NETCFG_TELEMMS 0 ≤ s.refNs) :=
  ⟨by decide, by decide, by decide, by decide, by decide, by decide, by decide, by decide, by decide, held (by decide), held (by decide),
   held (by decide), held (by decide), held (by decide), by decide, by decide⟩

/-- A SUBMIT slot whose prompt has a length stands in ring 63 of an ingress part. -/
def submitting (len : Nat) : State :=
  (((withRing 1 0 1 0).setFld F.SERVE_PCFG_INGRESS 0 1).setFld F.HQ_INCFG_SLOTLINES 0 1 |>.setLink 0 true).modHost fun h =>
    { h with rings := [(63, { HRing.init with slots := [(List.replicate 40 0 ++ toBytes 4 len, [])] })] }

theorem hyp_RequestsSubmitted :
    (∀ len ∈ [1, 256], ∃ h, (submitting len).ringHead 63 = some h
      ∧ ((submitting len).ringUse 63 == 1 && (submitting len).ingress 0 && ((submitting len).ringTake 63).freeStage 0 == some 0
        && byF h.1 40 4 == len && decide (len ≤ ((submitting len).ringTake 63).stageSize 0) && ((submitting len).ringTake 63).ingress 0) = true)
    ∧ (∃ x, (State.reset.modSrv 7 fun w => { w with staging := [⟨0, 0, 0, 0, 0, 0, 0, 0, [], 0⟩] }).stagingHead = some x ∧ (x.1 == 7) = true)
    ∧ State.reset.ingress 7 = false
    ∧ (let s := (State.reset.setFld F.SERVE_PCFG_INGRESS 7 1).setFld F.SERVE_PCFG_ECOUNT 7 1
       let u := { s with table := [(0, { Entry.free with state := 1, reqid := 9 })] }
       s.ingress 7 = true ∧ (∀ v ∈ (s.srv 7).arrivals, v.reqid ≠ 9)
       ∧ (s.table.any fun x => s.ownsEnt 7 x.1 && x.2.state != esFREE && x.2.reqid == 9) = false
       ∧ u.ingress 7 = true ∧ (∀ v ∈ (u.srv 7).arrivals, v.reqid ≠ 9)
       ∧ (u.table.any fun x => u.ownsEnt 7 x.1 && x.2.state != esFREE && x.2.reqid == 9) = true) := by
  refine ⟨fun len h => held ?_, held (by decide), by decide, by decide⟩
  fin_cases h <;> decide

/-! ## Hypotheses of the statements about boot, management and the whole part -/

/-- A request frame: COMMAND, LEN, arguments. -/
def mreq (cmd : Nat) (args : List Byte) : List Byte :=
  toBytes 2 cmd ++ toBytes 2 0 ++ toBytes 2 args.length ++ toBytes 1 4 ++ toBytes 1 0 ++ toBytes 8 0 ++ args
/-- Both management cores RUNNING, and a request on channel 1: posted, or being served. -/
def served (req : List Byte) : State :=
  (({ State.reset with refNs := 600000 }.setFld F.ROOT_MGMT_MC0STATE 0 3).setFld F.ROOT_MGMT_MC1STATE 0 3).modMbox fun m =>
    { m with ch1 := some (0, req), busy := some 1 }
def posted (req : List Byte) : State := (served req).modMbox fun m => { m with busy := none, posted := [1] }

theorem hyp_MailboxRows :
    (posted (mreq 0x100 [])).mboxNext = some 1 ∧ rowTakes 0x100 ((posted (mreq 0x100 [])).mboxReq 1) = true
    ∧ State.reset.mboxNext = none ∧ State.reset.mbox.busy = none
    ∧ (served (mreq 0x100 [])).mbox.busy = some 1 ∧ rowTakes 0x100 ((served (mreq 0x100 [])).mboxReq 1) = true
    ∧ (served (mreq 0x100 [])).asleep = false ∧ (served (mreq 0x100 [])).mboxCheck 1 ((served (mreq 0x100 [])).mboxReq 1) = none
    ∧ rowTakes 0x100 (mreq 0xFFF []) = true
    ∧ (served (mreq 0xFFF [])).mboxCheck 1 ((served (mreq 0xFFF [])).mboxReq 1) = some (stBAD_ARG, 1) := by decide

/-- A PART_SET of partition 7: its mask. -/
def partSetReq (mask : Nat) : List Byte := mreq 0x200 (toBytes 8 7 ++ toBytes 8 mask)

theorem hyp_PartitionsSet :
    ∀ mask st, (mask, st) ∈ [(2 ^ 32 - 1, stOK), (0, stOK)] →
      let s := served (partSetReq mask)
      s.mbox.busy = some 1 ∧ s.asleep = false ∧ mqCmd (s.mboxReq 1) = 0x200 ∧ s.mboxCheck 1 (s.mboxReq 1) = none
      ∧ mqArg (s.mboxReq 1) 0 1 = 7 ∧ mqArg (s.mboxReq 1) 8 8 = mask ∧ s.partSetStatus 7 mask = st
      ∧ (s.setPart 7 { Part.init with job := .armed }).partSetStatus 7 mask = stNOT_PERMITTED := by
  intro mask st h
  fin_cases h <;> decide

/-- A fetch of slot 1 whose server has offered 1,500 bytes. -/
def fetch0 : Fetch := ⟨1, 5, none, 0, [], [], 0, none, false, 0⟩
def fetch1 : Fetch := { fetch0 with offer := some (9, 1500), next := 2, reads := [(1, 0)] }
def fetching (f : Fetch) : State := ({ State.reset with refNs := 5000000000 }.setFetch 0 (some f)).setLink 3 true

theorem hyp_BootRuns :
    State.reset.boot.due = some 1 ∧ State.reset.pins.held = false ∧ State.reset.boot.due ≠ some 2
    ∧ ({ State.reset.setFld F.ROOT_BOOT_STAGE 0 5 with refNs := 120000000000 } : State).overrun = some 7
    ∧ ((served []).setFld F.ROOT_BOOT_STAGE 0 5).fld F.ROOT_BOOT_STAGE 0 = 5 ∧ ((served []).setFld F.ROOT_BOOT_STAGE 0 5).mcState 0 = 3
    ∧ ((served []).setFld F.ROOT_BOOT_STAGE 0 5).mcState 1 = 3
    ∧ ((fetching fetch0).fetchList.find? fun x => (fetching fetch0).solicitDue x.2) = some (0, fetch0) ∧ (fetching fetch0).linkUp 3 = true
    ∧ (fetching fetch0).fetchOf 5 = some (0, fetch0) ∧ fetch0.offer = none ∧ fetch0.got = []
    ∧ (fetching fetch1).fetchOf 5 = some (0, fetch1) ∧ fetch1.offer = some (9, 1500) ∧ (fetch1.reads.any fun r => r.1 == 1) = true
    ∧ blockBytes 1500 1 = 476 ∧ (fetching fetch1).linkUp 3 = true
    ∧ ((fetching fetch1).fetchList.find? fun x => !((fetching fetch1).readsLate x.2).isEmpty) = some (0, fetch1)
    ∧ ((fetching fetch1).fetchList.find? fun x => (fetching fetch1).serverGone x.2) = some (0, fetch1)
    ∧ ((State.reset.modBoot fun b => { b with verifs := [(1, .attempt)] }).boot.verifs.find? fun v => v.1 == 1) = some (1, .attempt) := by decide

theorem hyp_ManagementRuns :
    (served []).mcState 1 = 3 ∧ (State.reset.setFld F.ROOT_MGMT_MC1STATE 0 2).mcState 1 = 2 ∧ State.reset.boot.switchTo = none
    ∧ (let s := ({ served [] with refNs := 1000000 }.setFld F.ROOT_WDOG_PERIOD 1 1).setMc 1 { Mc.init with kickAt := some 0 }
       s.wdogOut 1 = true)
    ∧ (let s := { served [] with refNs := 120000000000 }.setMc 1 { Mc.init with restartAt := some 0 }
       (s.mc 1).restartAt = some 0 ∧ 0 + 120000000000 ≤ s.refNs)
    ∧ psHost (State.reset.fld F.PS_INDEX_WORD 0) = false ∧ psHost ((State.reset.setFld F.PS_INDEX_WORD 0 0x13F).fld F.PS_INDEX_WORD 0) = true
    ∧ (State.reset.setFld F.PS_INDEX_WORD 0 0x13F).psQ.length < 64
    ∧ SMap.get 0 (State.reset.setFld F.PS_INDEX_WORD 0 0x13F).psCount 0x13F + (State.reset.setFld F.PS_INDEX_WORD 0 0x13F).psWaiting 0x13F < psLimit
    ∧ ({ State.reset with psQ := [(6, 0, 1)] } : State).psQ = (6, 0, 1) :: []
    ∧ State.reset.asleep = false ∧ (State.reset.setFld F.MBOX_STAT_STATE 0 2).fld F.MBOX_STAT_STATE 0 = 2
    ∧ State.reset.fld F.MBOX_STAT_STATE 0 ≠ 1 ∧ State.reset.fld F.MBOX_STAT_STATE 0 ≠ 2 ∧ State.reset.mbox.ch1 = none
    ∧ (({ State.reset with acts := [{ Act.mk0 actRetrain tokRoot with id := 3 }] } : State).acts.find? fun a => a.id == 3)
      = some { Act.mk0 actRetrain tokRoot with id := 3 } := by decide

/-- A row of each table of CommandsTakeEffect; the conditions of its other rows are met in the theorems about their families. -/
theorem hyp_CommandsTakeEffect :
    ((withCore { Core.init with fetchOn := true }).seqLive 0 = some (0, 20) ∧ ((withCore { Core.init with fetchOn := true }).core 0).mayFetch 20 = true)
    ∧ (let s := { State.reset with refNs := 600000 }
       s.scrubTurn 0 0 = true ∧ s.slotXfer 0 0 = none)
    ∧ atGate.beatReady 0 = true ∧ atGate.startLate 0 = 0 ∧ (withPort 23 3 Port.init).slotDue 23 = true
    ∧ (let s := given { okFrame with opspec := 64 }
       let f := { okFrame with opspec := 64 }
       s.firstReq 1 = some (none, false, f) ∧ 0 < frameLen f ∧ frameLen f ≤ 4064 ∧ s.targetStatus f.addr (frameLen f) (frameJob f) = stOK
       ∧ s.frameSlots none f.addr = true ∧ (s.slotNeed none f.addr (frameLen f) false).length ≤ s.fab.rdGot)
    ∧ (∀ j ∈ netsOf 3, (State.reset.net j).state = 0) ∧ (∀ j ∈ netsOf 3, (((State.reset.setNet 0 ⟨2, false, []⟩).setNet 1 ⟨2, false, []⟩).net j).state = 2)
    ∧ masterUp.isMaster = true ∧ masterUp.timeSrc = 0
    ∧ (State.reset.asleep = false ∧ 1048584 % 8 = 0 ∧ (regAt 1048584).isSome = true)
    ∧ (State.reset.mbox.ch1 = none ∧ State.reset.fld F.MBOX_STAT_STATE 0 ≠ 1) := by decide +kernel

theorem hyp_MemoryStaysCanonical : ∃ t, State.reset.memWf = true ∧ step State.reset = .next t := ⟨_, by decide, rfl⟩

theorem hyp_ReservedEncodingsKept :
    F.TIME_BEAT_CFG_K ∈ fieldsOf .TIME_BEAT_CFG ∧ F.TIME_BEAT_CFG_K.acc = .rw
    ∧ F.TIME_BEAT_CFG_K.legal (F.TIME_BEAT_CFG_K.get (BitVec.ofNat 64 11)) = false
    ∧ F.TIME_BEAT_CFG_K.legal (F.TIME_BEAT_CFG_K.get (BitVec.ofNat 64 12)) = true
    ∧ State.reset.asleep = false ∧ 135176 % 8 = 0 ∧ regAt 135176 = some (.TIME_BEAT_CFG, 0, false) ∧ (regInfo .TIME_BEAT_CFG).width = 64
    ∧ State.reset.barServes .TIME_BEAT_CFG 0 = true ∧ State.reset.gated .host .TIME_BEAT_CFG 0 (12 % 2 ^ 64) (2 ^ 64 - 1) = false
    ∧ (State.reset.writeIo .TIME_BEAT_CFG 0 (12 % 2 ^ 64) (2 ^ 64 - 1)).isNone = true
    ∧ (State.reset.writeRoot .host .TIME_BEAT_CFG 0 (12 % 2 ^ 64) (2 ^ 64 - 1)).isNone = true ∧ psReg .TIME_BEAT_CFG = none := by
  decide +kernel

/-! ## Worked examples of the spec, and single commands -/

/-- Example 0.1: the device address of core 350's core store. -/
theorem test_example_0_1 : daSpace 0x100AF0012340 = 1 ∧ daCore 0x100AF0012340 = 350 ∧ 0x12340 / 16 = 4660 := by decide

/-- Example 2.1: a scaled FP8 product. -/
theorem test_example_2_1 :
    (((decodeFp .e4m3 0x5C).mul (scaleOf 0x7A)).mul ((decodeFp .e5m2 0xB6).mul (scaleOf 0x80))).eqv (.fin true 72 (-7)) = true := by decide

/-- Example 2.3: five products under exact mode with anchor -6 drain to FP32 1.0. -/
theorem test_example_2_3 :
    let ps : List Machine.Num := [.fin false 1 24, .fin false 1 0, .fin true 1 24, .fin true 3 (-103), .fin false 1 (-104)]
    (ps.map fun p => (exOfNum (-6) p).1) = [.fin (2 ^ 126), .fin (2 ^ 102), .fin (-(2 ^ 126)), .fin (-1), .fin 0]
    ∧ toFp32 (exVal (-6) (ps.foldl (fun a p => (exAdd a (exOfNum (-6) p).1).1) (.fin 0))) = 0x3F800000 := by decide +kernel

/-- Example 2.3: in throughput mode the order matters. -/
theorem test_example_2_3_throughput : addFp32 (addFp32 0x4B800000 0x3F800000) 0xCB800000 = 0 ∧ addFp32 (addFp32 0x4B800000 0xCB800000) 0x3F800000 = 0x3F800000 := by
  decide +kernel

/-- Example 4.1: the scale byte of a block with amax 1.9 (here 1.9 to 20 bits), and its quantized element. -/
theorem test_example_4_1 :
    let x : Machine.Num := .fin false 1992294 (-20)
    scaleByteOf .e4m3 false x = 0x77 ∧ scaleByteOf .e4m3 true x = 0x78
    ∧ decodeFp .e4m3 (toFp .e4m3 false false (x.scale2 8)).1 = decodeFp .e4m3 (toFp .e4m3 false false (.fin false 448 0)).1
    ∧ (decodeFp .e4m3 (toFp .e4m3 false false (x.scale2 7)).1).eqv (.fin false 240 0) = true := by decide +kernel

/-- Example 6.1: banks of core-store words. -/
theorem test_example_6_1 : csBank 4660 = 61 ∧ csBank 0 = 0 ∧ csBank 65 = 0 := by decide

/-- Example 6.2: latencies seen from cluster 3 of C2, and from RT0. -/
theorem test_example_6_2 :
    bulkLat 19 2 3 3 = 60 ∧ bulkLat 19 2 0 4 = 84 ∧ bulkLat 19 5 2 6 = 249 ∧ bulkLat 76 2 0 3 = 229 ∧ peerLat 2 6 (20 / 16) = 24 := by decide

/-- The check value of the CRC-32 of IEEE 802.3, over the digits 1 to 9; the digest of "abc" (FIPS 180-4's example). -/
theorem test_crc32 : crc32 [0x31, 0x32, 0x33, 0x34, 0x35, 0x36, 0x37, 0x38, 0x39] = 0xCBF43926 := by decide +kernel
theorem test_sha256 : (sha256 [0x61, 0x62, 0x63]).take 4 = [0xBA, 0x78, 0x16, 0xBF] := by decide +kernel

/-- A queue's front runs, and leaves the queue. -/
theorem test_step_front : (step { State.reset with pending := [.pcieLinkUp, .wakePin] }) =
    exec .pcieLinkUp { State.reset with pending := [.wakePin] } := rfl

/-- The state a command answers, seen through a function. -/
def after {α : Type} (c : Instr) (s : State) (f : State → α) : Option α := match exec c s with | .next t => some (f t) | _ => none

theorem test_launch_late : after (.launch 7 false) (launchable 9999) (fun t => (t.fld F.HQ_JOB_STATUS 7, (t.part 7).job)) = some (stLATE, .armed) := by
  decide +kernel
theorem test_launch : after (.launch 7 false) (launchable 10000) (fun t => (t.fld F.HQ_JOB_STATUS 7, (t.part 7).job)) = some (stOK, .launched) := by
  decide +kernel
theorem test_beat_start_late : after (.beatStart 0) announced (fun t => ((t.part 0).frozen, t.fld F.TIME_FRZLAST_CAUSE 0)) = some (true, 6) := by decide +kernel
theorem test_register_write_r19 :
    after (.registerWrite .host 135176 8 11) State.reset (fun t => t.fld F.TIME_BEAT_CFG_K 0) = some 14
    ∧ after (.registerWrite .host 135176 8 12) State.reset (fun t => t.fld F.TIME_BEAT_CFG_K 0) = some 12 := by decide +kernel
theorem test_pcie_down : after .pcieLinkDown (State.reset.setLink 0 true) (fun t => (t.linkUp 0, t.occ)) = some (false, [324]) := by decide +kernel
theorem test_ring_overrun : after (.hqRhposWrite .host 63 17 []) (withRing 1 0 0 0) (fun t => (t.hpos 63, t.fld F.HQ_RSTAT_OVR 63)) = some (0, 1) := by decide +kernel
theorem test_slew : after .slewStep { State.reset with refNs := 5000, tm := { TimeSt.init with slew := -1 } } (fun t => (t.gtc, t.tm.slew, t.tm.hold))
    = some (0, 0, 1) := by decide +kernel
theorem test_tag_taken : after (.requestInject (reqTo 1)) routed (fun t => ((t.tag 0).state, (t.tag 0).gen, (t.port 0).dyn.length)) = some (.out, 1, 1) := by
  decide +kernel
theorem test_warm : after (.rootResetWarm .mc0) State.reset (fun t => (t.fld F.ROOT_RESET_LAST 0, t.boot.due)) = some (2, some 3) := by decide +kernel
theorem test_host_warm_refused : after (.rootResetWarm .host) State.reset (fun t => (t.fld F.ROOT_RESET_LAST 0, t.boot.due)) = some (1, some 1) := by decide +kernel

end Sys2Proof.Tests
end

section
/-! Accesses of the host to registers and to memory (00_scope.md R19, R20, R21; 02_numerics.md R81; 13_host_interfaces.md R430, R431):
what each kind of BAR0 and BAR2 access does, a lemma per kind, and from them the statements O47 and O59. -/

namespace Sys2Proof.Machine

/-! ## Fields of a register word -/

theorem fits_of_mem_fieldsOf (r : RegName) : ∀ f ∈ fieldsOf r, f.fits = true := by
  cases r <;> decide

theorem reg_of_mem_fieldsOf (r : RegName) : ∀ f ∈ fieldsOf r, f.reg = r := by
  cases r <;> decide

/-- No two fields of a register share a bit. -/
theorem fieldsOf_pairwise_apart (r : RegName) : (fieldsOf r).Pairwise fun f g => f.apart g = true := by
  cases r <;> decide

theorem Fld.get_lt (f : Fld) (w : Word) : f.get w < 2 ^ f.width := Nat.mod_lt _ (Nat.two_pow_pos _)

/-- Writes of fields that lie apart from a field leave it alone. -/
theorem Fld.get_foldl_put_apart {g : Fld} (hg : g.fits = true) (val : Fld → Nat) (l : List Fld) (w : Word)
    (hl : ∀ f ∈ l, f.fits = true ∧ f.apart g = true) : g.get (l.foldl (fun w f => f.put w (val f)) w) = g.get w := by
  induction l generalizing w with
  | nil => rfl
  | cons f l ih =>
    obtain ⟨hf, hfg⟩ := hl f List.mem_cons_self
    rw [List.foldl_cons, ih _ fun k hk => hl k (List.mem_cons_of_mem _ hk), Fld.get_put_apart hf hg hfg]

theorem Fld.apart_comm (f g : Fld) : f.apart g = g.apart f := Bool.or_comm ..

/-- After a write of fields that lie apart, each reads what was written to it. -/
theorem Fld.get_foldl_put {f : Fld} (val : Fld → Nat) (l : List Fld) (w : Word) (hfit : ∀ g ∈ l, g.fits = true)
    (hl : l.Pairwise fun g k => g.apart k = true) (hf : f ∈ l) :
    f.get (l.foldl (fun w g => g.put w (val g)) w) = val f % 2 ^ f.width := by
  induction l generalizing w with
  | nil => simp at hf
  | cons g l ih =>
    obtain ⟨hg, hl⟩ := List.pairwise_cons.1 hl
    have hfit' : ∀ k ∈ l, k.fits = true := fun k hk => hfit k (List.mem_cons_of_mem _ hk)
    rw [List.foldl_cons]
    rcases List.mem_cons.1 hf with rfl | hf
    · have hf := hfit f List.mem_cons_self
      rw [Fld.get_foldl_put_apart hf _ _ _ fun k hk => ⟨hfit' k hk, Fld.apart_comm f k ▸ hg k hk⟩, Fld.get_put hf]
    · exact ih _ hfit' hl hf

/-- A field of a written register word, cut to its width. -/
theorem get_writtenWord {r : RegName} {f : Fld} (hf : f ∈ fieldsOf r) (old : Word) (v m : Nat) :
    f.get (writtenWord r old v m) = f.written old v m % 2 ^ f.width :=
  Fld.get_foldl_put _ _ _ (fits_of_mem_fieldsOf r) (fieldsOf_pairwise_apart r) hf

theorem mergeMask_full (old v : Nat) : mergeMask old v (2 ^ 64 - 1) = v % 2 ^ 64 := by
  rw [mergeMask, Nat.sub_self, Nat.and_zero, Nat.zero_or, Nat.and_two_pow_sub_one_eq_mod]

theorem ofNat64_mod (v : Nat) : BitVec.ofNat 64 (v % 2 ^ 64) = BitVec.ofNat 64 v :=
  BitVec.eq_of_toNat_eq (by simp)

/-- R19: an RW or PS field that a whole-word write covers: a reserved encoding leaves it, any other value is taken. -/
theorem get_writtenWord_full {r : RegName} {f : Fld} (hf : f ∈ fieldsOf r) (ha : f.acc = .rw ∨ f.acc = .ps) (old : Word) (v : Nat) :
    f.get (writtenWord r old v (2 ^ 64 - 1))
      = if f.legal (f.get (BitVec.ofNat 64 v)) then f.get (BitVec.ofNat 64 v) else f.get old := by
  have hw : f.written old v (2 ^ 64 - 1)
      = if f.legal (f.get (BitVec.ofNat 64 v)) then f.get (BitVec.ofNat 64 v) else f.get old := by
    rcases ha with ha | ha <;> simp only [Fld.written, ha, mergeMask_full, ofNat64_mod]
  rw [get_writtenWord hf, hw, Nat.mod_eq_of_lt]
  split <;> exact Fld.get_lt _ _

/-! ## Answers of commands -/

/-- A command that gives a state with the queue and the identity it was given completes with that state. -/
theorem Gives.completes {c : Instr} {s u : State} {P : State → Prop} (h : Gives c s u) (hp : u.pending = s.pending) (hi : u.id = s.id)
    (hP : P u) : Completes c s P :=
  ⟨u, by rw [h, ← hp, ← hi], hP⟩

theorem exec_registerWrite (r : Requester) (off size v : Nat) (s : State) :
    exec (.registerWrite r off size v) s = done s (s.bar0Write r off size v) := rfl

theorem exec_lowHalfRead (r : Requester) (a : RegRead) (s : State) : exec (.lowHalfRead r a) s = execLowHalfRead r a s := rfl

theorem gives_registerWrite (r : Requester) (off size v : Nat) (s : State) :
    Gives (.registerWrite r off size v) s (s.bar0Write r off size v) := exec_registerWrite ..

theorem gives_lowHalfRead {s : State} (ha : s.asleep = false) (r : Requester) (off size : Nat) :
    Gives (.lowHalfRead r ⟨off, size⟩) s ((s.bar0Read r off size).1.answer (toBytes size (s.bar0Read r off size).2)) := by
  rw [Gives, exec_lowHalfRead, execLowHalfRead, ha]
  rfl

theorem gives_bar2Read (off n : Nat) (s : State) : Gives (.bar2Read off n) s (s.bar2Read off n) := rfl

theorem gives_bar2Write (off : Nat) (data : List Byte) (s : State) : Gives (.bar2Write off data) s (s.bar2Write off data) := rfl

/-- A part that is held in reset, or in DORMANT, takes no write of a register. -/
theorem exec_registerWrite_asleep {s : State} (ha : s.asleep = true) (r : Requester) (off size v : Nat) :
    exec (.registerWrite r off size v) s = .next s := by
  rw [exec_registerWrite, State.bar0Write, if_pos ha]
  rfl

/-- A part that is held in reset, or in DORMANT, answers no read of a register. -/
theorem exec_lowHalfRead_asleep {s : State} (ha : s.asleep = true) (r : Requester) (a : RegRead) :
    exec (.lowHalfRead r a) s = .next s := by
  rw [exec_lowHalfRead, execLowHalfRead, if_pos ha]
  rfl

/-! ## The record of an access error (R20) -/

/-- Two states differ at most in registers, in the notes of hardware changes and in the occurrences. -/
def State.sameButLog (s t : State) : Prop := t = { s with regs := t.regs, hw := t.hw, occ := t.occ }

theorem State.sameButLog.trans {s t u : State} (h : s.sameButLog t) (k : t.sameButLog u) : s.sameButLog u := by
  unfold State.sameButLog at *
  rw [h] at k
  exact k

theorem State.sameButLog.pending {s t : State} (h : s.sameButLog t) : t.pending = s.pending := by rw [h]
theorem State.sameButLog.id {s t : State} (h : s.sameButLog t) : t.id = s.id := by rw [h]
theorem State.sameButLog.mem {s t : State} (h : s.sameButLog t) : t.mem = s.mem := by rw [h]

theorem State.sameButLog_note (s : State) (f : Fld) (i kind k : Nat) : s.sameButLog (s.note f i kind k) := rfl

theorem State.sameButLog_raise (s : State) (n : Nat) : s.sameButLog (s.raise n) := rfl

theorem State.sameButLog_setFld {f : Fld} (h : psReg f.reg = none) (s : State) (i v : Nat) : s.sameButLog (s.setFld f i v) := by
  unfold State.sameButLog State.setFld
  rw [State.setReg_plain h]

theorem State.sameButLog_hwSet {f : Fld} (h : psReg f.reg = none) (s : State) (i v : Nat) : s.sameButLog (s.hwSet f i v) :=
  (State.sameButLog_setFld h ..).trans (State.sameButLog_note ..)

theorem State.sameButLog_addFld {f : Fld} (h : psReg f.reg = none) (s : State) (i k : Nat) : s.sameButLog (s.addFld f i k) :=
  (State.sameButLog_setFld h ..).trans (State.sameButLog_note ..)

/-- The record of an access error changes registers, the notes of hardware changes and the occurrences alone. -/
theorem State.sameButLog_accErr (s : State) (kind bar : Nat) (write : Bool) (off : Nat) : s.sameButLog (s.accErr kind bar write off) := by
  unfold State.accErr
  split
  · exact State.sameButLog_hwSet rfl .. |>.trans (State.sameButLog_setFld rfl ..) |>.trans (State.sameButLog_setFld rfl ..)
      |>.trans (State.sameButLog_setFld rfl ..) |>.trans (State.sameButLog_setFld rfl ..) |>.trans (State.sameButLog_setFld rfl ..)
      |>.trans (State.sameButLog_raise ..)
  · exact State.sameButLog_addFld rfl ..

/-! ## Accesses of a wrong size or alignment, and of no register (R20) -/

theorem State.bar0Write_misaligned {s : State} (ha : s.asleep = false) (r : Requester) {off size : Nat} (v : Nat)
    (h : (size ≠ 4 ∧ size ≠ 8) ∨ off % size ≠ 0) : s.bar0Write r off size v = s.accErr 1 0 true off := by
  rw [State.bar0Write, if_neg (by simp [ha]), if_pos h]

theorem State.bar0Read_misaligned (s : State) (r : Requester) {off size : Nat} (h : (size ≠ 4 ∧ size ≠ 8) ∨ off % size ≠ 0) :
    s.bar0Read r off size = (s.accErr 1 0 false off, 0) := by
  unfold State.bar0Read
  by_cases h4 : size = 4
  · subst h4
    rw [if_pos rfl, State.read4, if_pos (by simpa using h)]
  · by_cases h8 : size = 8
    · subst h8
      rw [if_neg h4, if_pos rfl, State.read8, if_pos (by simpa using h)]
    · rw [if_neg h4, if_neg h8]

theorem State.write4_noRegister (s : State) (r : Requester) {off : Nat} (v : Nat) (hm : inMsix off = false) (hp : inPba off = false)
    (hr : regAt off = none) : s.write4 r off v = s.accErr 2 0 true off := by
  simp [State.write4, hm, hp, hr]

theorem State.read4_noRegister (s : State) (r : Requester) {off : Nat} (h4 : off % 4 = 0) (hm : inMsix off = false) (hp : inPba off = false)
    (hr : regAt off = none) : s.read4 r off = (s.accErr 2 0 false off, 0) := by
  simp [State.read4, h4, hm, hp, hr]

theorem State.bar0Write_four {s : State} (ha : s.asleep = false) (r : Requester) {off : Nat} (v : Nat) (h4 : off % 4 = 0) :
    s.bar0Write r off 4 v = s.write4 r off v := by
  rw [State.bar0Write, if_neg (by simp [ha]), if_neg (by simp [h4]), if_pos rfl]

theorem State.bar0Read_four (s : State) (r : Requester) (off : Nat) : s.bar0Read r off 4 = s.read4 r off := rfl

theorem gives_registerWrite_misaligned {s : State} (ha : s.asleep = false) (r : Requester) {off size : Nat} (v : Nat)
    (h : (size ≠ 4 ∧ size ≠ 8) ∨ off % size ≠ 0) : Gives (.registerWrite r off size v) s (s.accErr 1 0 true off) :=
  State.bar0Write_misaligned ha r v h ▸ gives_registerWrite ..

theorem gives_lowHalfRead_misaligned {s : State} (ha : s.asleep = false) (r : Requester) {off size : Nat}
    (h : (size ≠ 4 ∧ size ≠ 8) ∨ off % size ≠ 0) :
    Gives (.lowHalfRead r ⟨off, size⟩) s ((s.accErr 1 0 false off).answer (toBytes size 0)) := by
  have hread := gives_lowHalfRead ha r off size
  rwa [State.bar0Read_misaligned s r h] at hread

theorem gives_registerWrite_noRegister {s : State} (ha : s.asleep = false) (r : Requester) {off : Nat} (v : Nat) (h4 : off % 4 = 0)
    (hm : inMsix off = false) (hp : inPba off = false) (hr : regAt off = none) :
    Gives (.registerWrite r off 4 v) s (s.accErr 2 0 true off) := by
  rw [← State.write4_noRegister s r v hm hp hr, ← State.bar0Write_four ha r v h4]
  exact gives_registerWrite ..

theorem gives_lowHalfRead_noRegister {s : State} (ha : s.asleep = false) (r : Requester) {off : Nat} (h4 : off % 4 = 0)
    (hm : inMsix off = false) (hp : inPba off = false) (hr : regAt off = none) :
    Gives (.lowHalfRead r ⟨off, 4⟩) s ((s.accErr 2 0 false off).answer (toBytes 4 0)) := by
  have hread := gives_lowHalfRead ha r off 4
  rwa [State.bar0Read_four, State.read4_noRegister s r h4 hm hp hr] at hread

/-! ## Accesses of 8 bytes to a 64-bit register (R20) -/

theorem State.writeReg_gated {s : State} {r : Requester} {g : RegName} {i v m : Nat} (off : Nat) (hg : s.gated r g i v m = true) :
    s.writeReg r g i v m off = s.accErr 2 0 true off := by
  simp [State.writeReg, hg]

theorem State.writeReg_open {s : State} {r : Requester} {g : RegName} {i v m : Nat} (off : Nat) (hs : s.barServes g i = true)
    (hg : s.gated r g i v m = false) : s.writeReg r g i v m off = s.writeUnder r g i v m := by
  simp [State.writeReg, hs, hg]

/-- R81: a register that the part has not changed in the present cycle is written at once. -/
theorem State.writeUnder_noNotes {s : State} {g : RegName} {i : Nat} (hn : (s.hw.filter fun n => n.key == regKey g i) = []) (r : Requester)
    (v m : Nat) : s.writeUnder r g i v m = s.writeTo r g i v m := by
  rw [State.writeUnder, hn]
  rfl

theorem State.writeTo_plain {s : State} {r : Requester} {g : RegName} {i v m : Nat} (hio : s.writeIo g i v m = none)
    (hroot : s.writeRoot r g i v m = none) : s.writeTo r g i v m = s.writePlain g i v m := by
  rw [State.writeTo, hio, hroot]
  rfl

section Wide
variable {s : State} {off i : Nat} {g : RegName} (ha : s.asleep = false) (h8 : off % 8 = 0) (hr : regAt off = some (g, i, false))
  (hw : (regInfo g).width = 64) (hs : s.barServes g i = true)
include h8 hr hw hs

theorem State.bar0Read_wide (r : Requester) : s.bar0Read r off 8 = (s, (s.view g i).toNat) := by
  rw [State.bar0Read, if_neg (by simp), if_pos rfl, State.read8, if_neg (by simp [h8]), hr]
  exact if_pos ⟨hw, hs⟩

include ha

theorem State.bar0Write_wide (r : Requester) (v : Nat) : s.bar0Write r off 8 v = s.writeReg r g i (v % 2 ^ 64) (2 ^ 64 - 1) off := by
  rw [State.bar0Write, if_neg (by simp [ha]), if_neg (by simp [h8]), if_neg (by simp), hr]
  exact if_pos ⟨hw, hs⟩

theorem gives_lowHalfRead_wide (r : Requester) :
    Gives (.lowHalfRead r ⟨off, 8⟩) s (s.answer (toBytes 8 (s.view g i).toNat)) := by
  have hread := gives_lowHalfRead ha r off 8
  rwa [State.bar0Read_wide h8 hr hw hs] at hread

theorem gives_registerWrite_gated {r : Requester} {v : Nat} (hg : s.gated r g i (v % 2 ^ 64) (2 ^ 64 - 1) = true) :
    Gives (.registerWrite r off 8 v) s (s.accErr 2 0 true off) := by
  rw [← State.writeReg_gated off hg, ← State.bar0Write_wide ha h8 hr hw hs]
  exact gives_registerWrite ..

theorem gives_registerWrite_open {r : Requester} {v : Nat} (hg : s.gated r g i (v % 2 ^ 64) (2 ^ 64 - 1) = false) :
    Gives (.registerWrite r off 8 v) s (s.writeUnder r g i (v % 2 ^ 64) (2 ^ 64 - 1)) := by
  rw [← State.writeReg_open off hs hg, ← State.bar0Write_wide ha h8 hr hw hs]
  exact gives_registerWrite ..

/-- A write of a register that has nothing but fields, and that no hardware change of the cycle meets, stores its fields. -/
theorem gives_registerWrite_plain {r : Requester} {v : Nat} (hg : s.gated r g i (v % 2 ^ 64) (2 ^ 64 - 1) = false)
    (hn : (s.hw.filter fun n => n.key == regKey g i) = []) (hio : s.writeIo g i (v % 2 ^ 64) (2 ^ 64 - 1) = none)
    (hroot : s.writeRoot r g i (v % 2 ^ 64) (2 ^ 64 - 1) = none) :
    Gives (.registerWrite r off 8 v) s (s.writePlain g i (v % 2 ^ 64) (2 ^ 64 - 1)) := by
  rw [← State.writeTo_plain hio hroot, ← State.writeUnder_noNotes hn]
  exact gives_registerWrite_open ha h8 hr hw hs hg

end Wide

/-! ## Reads of the halves of a 64-bit register (R21) -/

theorem State.read4_register {s : State} (r : Requester) {off i : Nat} {g : RegName} {hi : Bool} (h4 : off % 4 = 0) (hm : inMsix off = false)
    (hp : inPba off = false) (hr : regAt off = some (g, i, hi)) (hs : s.barServes g i = true) : s.read4 r off = s.readHalf r g i hi := by
  simp [State.read4, h4, hm, hp, hr, hs]

theorem State.readHalf_low {s : State} (r : Requester) {g : RegName} (i : Nat) (hw : (regInfo g).width = 64) :
    s.readHalf r g i false = ({ s with latch := SMap.put none s.latch (latchKey r g i) (some ((s.view g i).toNat / 2 ^ 32)) },
      (s.view g i).toNat % 2 ^ 32) := by
  simp [State.readHalf, hw]

theorem State.readHalf_high_snd {s : State} (r : Requester) {g : RegName} (i : Nat) (hw : (regInfo g).width = 64) :
    (s.readHalf r g i true).2 = (SMap.get none s.latch (latchKey r g i)).getD ((s.view g i).toNat / 2 ^ 32) := by
  simp [State.readHalf, hw]

theorem State.readHalf_out (s : State) (r : Requester) (g : RegName) (i : Nat) (hi : Bool) : (s.readHalf r g i hi).1.out = s.out := by
  unfold State.readHalf
  dsimp only
  split
  · rfl
  · split <;> rfl

theorem State.answer_latch (s : State) (bs : List Byte) : (s.answer bs).latch = s.latch := rfl

/-- R21: a read of the low half of a 64-bit register answers it and latches the high half. -/
theorem gives_lowHalfRead_low {s : State} (ha : s.asleep = false) (r : Requester) {off i : Nat} {g : RegName} (h4 : off % 4 = 0)
    (hm : inMsix off = false) (hp : inPba off = false) (hr : regAt off = some (g, i, false)) (hw : (regInfo g).width = 64)
    (hs : s.barServes g i = true) :
    Gives (.lowHalfRead r ⟨off, 4⟩) s
      (State.answer { s with latch := SMap.put none s.latch (latchKey r g i) (some ((s.view g i).toNat / 2 ^ 32)) }
        (toBytes 4 ((s.view g i).toNat % 2 ^ 32))) := by
  have h := gives_lowHalfRead ha r off 4
  rwa [State.bar0Read_four, State.read4_register r h4 hm hp hr hs, State.readHalf_low r i hw] at h

/-- R21: a read of the high half of a 64-bit register answers what is latched. -/
theorem completes_lowHalfRead_high {s : State} (ha : s.asleep = false) (r : Requester) {off i x : Nat} {g : RegName} (h4 : off % 4 = 0)
    (hm : inMsix off = false) (hp : inPba off = false) (hr : regAt off = some (g, i, true)) (hw : (regInfo g).width = 64)
    (hs : s.barServes g i = true) (hl : SMap.get none s.latch (latchKey r g i) = some x) :
    Completes (.lowHalfRead r ⟨off, 4⟩) s fun t => t.out = s.out ++ [.cpl (toBytes 4 x)] := by
  have h := gives_lowHalfRead ha r off 4
  rw [State.bar0Read_four, State.read4_register r h4 hm hp hr hs, State.readHalf_high_snd r i hw, hl] at h
  exact ⟨_, h, congrArg (· ++ [Out.cpl (toBytes 4 x)]) (State.readHalf_out s r g i true)⟩

/-! ## BAR2 (R430, R431) -/

/-- Why BAR2 refuses an access of `n` bytes at an offset: a KIND of HQ_ACCERR, 0 not at all; in minimal mode it serves none (R513). -/
def State.bar2Kind (s : State) (off n : Nat) : Nat := if s.minimal then 2 else s.bar2Refuse (s.bar2Addr off) n

theorem State.bar2Read_refused {s : State} {off n : Nat} (hk : s.bar2Kind off n ≠ 0) :
    s.bar2Read off n = (s.accErr (s.bar2Kind off n) 1 false off).answer (List.replicate n 0) := if_pos hk

theorem State.bar2Read_served {s : State} {off n : Nat} (hk : s.bar2Kind off n = 0)
    (hu : (s.readMem .other (s.bar2Addr off) n).2.2 = false) :
    s.bar2Read off n = (s.readMem .other (s.bar2Addr off) n).1.answer (s.readMem .other (s.bar2Addr off) n).2.1 :=
  (if_neg (not_not_intro hk)).trans (if_neg (by simp [hu]))

theorem State.bar2Write_refused {s : State} {off : Nat} {bs : List Byte} (hk : s.bar2Kind off bs.length ≠ 0) :
    s.bar2Write off bs = s.accErr (s.bar2Kind off bs.length) 1 true off := if_pos hk

theorem State.bar2Write_served {s : State} {off : Nat} {bs : List Byte} (hk : s.bar2Kind off bs.length = 0) :
    s.bar2Write off bs =
      if (s.writeMem .other (s.bar2Addr off) bs).2 then (s.writeMem .other (s.bar2Addr off) bs).1.accErr 5 1 true off
      else (s.writeMem .other (s.bar2Addr off) bs).1 := if_neg (not_not_intro hk)

/-! ## The statements -/

/-- Settles O47, a lemma above for each kind of access. -/
theorem hostAccesses : Obligations.HostAccesses := by
  unfold Obligations.HostAccesses
  intro r off size v s
  refine ⟨fun ha => ⟨exec_registerWrite_asleep ha .., exec_lowHalfRead_asleep ha ..⟩,
    fun ha => ⟨fun h => ⟨gives_registerWrite_misaligned ha r v h, gives_lowHalfRead_misaligned ha r h⟩,
      fun h4 hm hp hr => ⟨gives_registerWrite_noRegister ha r v h4 hm hp hr, gives_lowHalfRead_noRegister ha r h4 hm hp hr⟩,
      fun g i h8 hr hw hs => ⟨(gives_lowHalfRead_wide ha h8 hr hw hs r).completes rfl rfl ⟨rfl, rfl⟩,
        gives_registerWrite_gated ha h8 hr hw hs,
        fun hg => ⟨gives_registerWrite_open ha h8 hr hw hs hg, fun hn hio hroot hps => ?plain⟩⟩,
      fun g i h8 hm hp hr hr' hm' hp' hw hs => ?halves⟩,
    ⟨fun hk => State.bar2Read_refused hk ▸ gives_bar2Read .., fun hk hu => ?served⟩, fun data => ⟨fun hk => ?refused, fun hk => ?written⟩⟩
  case plain =>
    have hwrite := gives_registerWrite_plain ha h8 hr hw hs hg hn hio hroot
    refine hwrite.completes (State.setReg_pending ..) (State.setReg_id ..) ⟨State.reg_setReg hps .., ?_⟩
    rw [State.writePlain, State.setReg_plain hps]
  case halves =>
    have hlow := gives_lowHalfRead_low ha r (by omega) hm hp hr hw hs
    refine hlow.completes rfl rfl ⟨rfl, rfl, fun u hu hsu hl => ?_⟩
    refine completes_lowHalfRead_high hu r (by omega) hm' hp' hr' hw hsu ?_
    rw [hl, State.answer_latch, SMap.get_put_self]
  case served =>
    refine ⟨_, gives_bar2Read .., ?_⟩
    rw [State.bar2Read_served hk hu]
    exact ⟨rfl, rfl⟩
  case refused =>
    have hlog := State.sameButLog_accErr s (s.bar2Kind off data.length) 1 true off
    have hwrite := gives_bar2Write off data s
    rw [State.bar2Write_refused hk] at hwrite
    exact hwrite.completes hlog.pending hlog.id ⟨hlog.mem, hlog⟩
  case written =>
    have hwrite := gives_bar2Write off data s
    rwa [State.bar2Write_served hk] at hwrite

/-- Settles O59: the fields of a register lie apart, so each reads what the write leaves in it. -/
theorem reservedEncodingsKept : Obligations.ReservedEncodingsKept := by
  unfold Obligations.ReservedEncodingsKept
  intro r f old v hf ha
  refine ⟨fun hl => ?_, fun hl => ?_, fun by_ i off s has h8 hr hw hs hg hio hroot hps hn => ?_⟩
  · rw [get_writtenWord_full hf ha, if_neg (by simp [hl])]
  · rw [get_writtenWord_full hf ha, if_pos hl]
  · have hnotes : (s.hw.filter fun n => n.key == regKey r i) = [] := List.filter_eq_nil_iff.2 fun n h => by simpa using hn n h
    have hfld : (s.writePlain r i (v % 2 ^ 64) (2 ^ 64 - 1)).fld f i
        = if f.legal (f.get (BitVec.ofNat 64 v)) then f.get (BitVec.ofNat 64 v) else s.fld f i := by
      rw [State.fld, State.fld, reg_of_mem_fieldsOf r f hf, State.writePlain, State.reg_setReg hps, get_writtenWord_full hf ha, ofNat64_mod]
    have hwrite := gives_registerWrite_plain has h8 hr hw hs hg hnotes hio hroot
    refine hwrite.completes (State.setReg_pending ..) (State.setReg_id ..) ⟨fun hl => ?_, fun hl => ?_⟩
    · rw [hfld, if_neg (by simp [hl])]
    · rw [hfld, if_pos hl]

end Sys2Proof.Machine
end

section
/-! Words of the core queues that are planned when they issue, and words that complete (03_matrix_arrays.md R86, R98, R102;
04_chain_engine.md R122, R123; 05_thicket.md R149; 08_control_words.md R275, R281, R284, R289, R291): one lemma for the commands that issue
a word, one for the commands that complete one, and from them the statements O6 and O8. -/

namespace Sys2Proof.Machine

/-! ## Words that issue -/

/-- A command that plans the word that its row issues, and leaves the state where none issues, gives the planned state where one does. -/
theorem gives_of_issueOp {w : Instr} {s : State} {c qc op : Nat} {i : Issue} (plan : Issue → State)
    (hw : exec w s = match s.issueOp c qc op with | some i => done s (plan i) | none => done s s) (h : s.issueOp c qc op = some i) :
    Gives w s (plan i) := by
  rw [h] at hw
  exact hw

theorem State.mmulRow_of_phaseDue {s : State} {c q lc : Nat} {e : QEntry} (h : s.phaseDue c = some (q, lc, e)) :
    s.mmulRow c = s.mmulPhase q c lc e := by
  rw [State.mmulRow, h]

theorem State.mmulRow_of_issueOp {s : State} {c : Nat} {i : Issue} (hd : s.phaseDue c = none) (h : s.issueOp c 1 0x11 = some i) :
    s.mmulRow c = i.s.mmulPhase i.q c i.lc i.e := by
  rw [State.mmulRow, hd, h]

theorem gives_mmul (c : Nat) (s : State) : Gives (.mmul c) s (s.mmulRow c) := rfl

/-! ## Words that a late arrival may stop -/

/-- In a cycle that no late arrival has stopped, a word that may meet one works as any other. -/
theorem State.lateRow_of_frozenNow_none {s : State} {c : Nat} (h : s.frozenNow c = none) (f : State → State) : s.lateRow c f = f s := by
  rw [State.lateRow, h]

theorem State.recvRow_of_issueOp {s : State} {c : Nat} {i : Issue} (h : s.issueOp c 4 0x41 = some i) :
    s.recvRow c = s.recvRun i.s i.q c i.lc i.e := by
  rw [State.recvRow, h]

theorem State.pleachRecvRow_of_pleachDue {s : State} {c q lc : Nat} {e : QEntry} (hl : s.seqLive c = some (q, lc))
    (h : s.pleachDue c lc = some e) : s.pleachRecvRow c = s.pleachRecv q c e := by
  simp only [State.pleachRecvRow, hl, h]

theorem gives_recv {c : Nat} {s : State} (h : s.frozenNow c = none) : Gives (.recv c) s (s.recvRow c) := by
  rw [← State.lateRow_of_frozenNow_none h fun t => t.recvRow c]
  rfl

theorem gives_pleachReceive {c : Nat} {s : State} (h : s.frozenNow c = none) : Gives (.pleachReceive c) s (s.pleachRecvRow c) := by
  rw [← State.lateRow_of_frozenNow_none h fun t => t.pleachRecvRow c]
  rfl

/-! ## Words that complete -/

theorem State.completeBy_of_completeOp {s : State} {c qc q lc : Nat} {ops : List Nat} {e : QEntry}
    (h : s.completeOp c qc ops = some (q, e, lc)) : s.completeBy c qc ops = (s.completeRun c qc lc).retire c lc := by
  rw [State.completeBy, h]

/-- R224: a command that completes a word by its row gives the state in which the oldest run has left, and what completes by itself after
it has. -/
theorem gives_of_completeOp {w : Instr} {s : State} {c qc q lc : Nat} {ops : List Nat} {e : QEntry}
    (hw : exec w s = done s (s.completeBy c qc ops)) (h : s.completeOp c qc ops = some (q, e, lc)) :
    Gives w s ((s.completeRun c qc lc).retire c lc) := by
  rw [← State.completeBy_of_completeOp h]
  exact hw

/-- A COPY, PUSH or POP completes once every transfer of its oldest run has taken place. -/
theorem exec_copyComplete {c : Nat} {s : State} (hd : s.movDone c [0x30, 0x32, 0x33] = true) :
    exec (.copyComplete c) s = done s (s.completeBy c 3 [0x30, 0x32, 0x33]) :=
  if_pos hd

/-! ## The statements -/

/-- Settles O6: each word's plan is what its command gives, MMUL's for a phase in progress or a new word, RECV's and the halo's where the
cycle is not frozen. -/
theorem wordsRun : Obligations.WordsRun := by
  unfold Obligations.WordsRun
  refine ⟨fun c s i => ⟨?loadw, ?mmulIssue, ?mmulPhase, ?chain, ?copy, ?push, ?pop, ?tsub, ?send, ?pleach⟩,
    fun c s hf => ⟨fun i h => ?recv, fun q lc e hl h => ?pleachReceive⟩⟩
  case loadw => exact gives_of_issueOp (fun i => i.s.loadw c i.lc i.e) rfl
  case mmulIssue => exact fun hd h => State.mmulRow_of_issueOp hd h ▸ gives_mmul c s
  case mmulPhase => exact fun q lc e h => State.mmulRow_of_phaseDue h ▸ gives_mmul c s
  case chain => exact gives_of_issueOp (fun i => i.s.chainRun i.q c i.lc i.e) rfl
  case copy => exact gives_of_issueOp (fun i => i.s.copyRun i.q c i.lc i.e) rfl
  case push => exact gives_of_issueOp (fun i => i.s.ringRun true c i.lc i.e) rfl
  case pop => exact gives_of_issueOp (fun i => i.s.ringRun false c i.lc i.e) rfl
  case tsub => exact gives_of_issueOp (fun i => i.s.tsubRun c i.lc i.e) rfl
  case send => exact gives_of_issueOp (fun i => i.s.sendRun c i.lc i.e) rfl
  case pleach => exact gives_of_issueOp (fun i => i.s.pleachRun c i.lc i.e) rfl
  case recv => exact State.recvRow_of_issueOp h ▸ gives_recv hf
  case pleachReceive => exact State.pleachRecvRow_of_pleachDue hl h ▸ gives_pleachReceive hf

/-- Settles O8: every completion row completes by `State.completeBy`, that of COPY with its transfers made. -/
theorem wordsComplete : Obligations.WordsComplete := by
  unfold Obligations.WordsComplete
  intro c q lc s e
  refine ⟨fun op w hw => ?mat, gives_of_completeOp rfl, fun h hd => gives_of_completeOp (exec_copyComplete hd) h,
    gives_of_completeOp rfl, fun op w hw => ?lnk⟩
  all_goals
    simp only [List.mem_cons, Prod.mk.injEq, List.not_mem_nil, or_false] at hw
    obtain ⟨rfl, rfl⟩ | ⟨rfl, rfl⟩ := hw <;> exact gives_of_completeOp rfl

end Sys2Proof.Machine
end

section
/-! What a launch leaves in the matrix arrays (03_matrix_arrays.md R96; 09_beat_determinism.md R298, R299; 13_host_interfaces.md R443): the
launch gives every core of the partition arrays as a launch leaves them, and nothing that follows in the notice or in the command changes an
array, a fault of a job whose flit finds no port among it (R389). From this the statement O24. -/

namespace Sys2Proof.Machine

/-! ## Operations that leave the cores alone -/

/-- A choice between two states has the cores of the state chosen. -/
@[simp] theorem State.ite_cores (p : Prop) [Decidable p] (s t : State) : (if p then s else t).cores = if p then s.cores else t.cores :=
  apply_ite State.cores p s t

/-- A step through a list leaves the cores alone where each of its steps does. -/
@[simp] theorem State.foldl_cores {α : Type} {f : State → α → State} (hf : ∀ t a, (f t a).cores = t.cores) (l : List α)
    (s : State) : (l.foldl f s).cores = s.cores :=
  foldl_keeps (fun t => t.cores = s.cores) f (fun t a h => (hf t a).trans h) l s rfl

theorem State.cores_ite_self {p : Prop} [Decidable p] {s t : State} (h : t.cores = s.cores) : (if p then t else s).cores = s.cores := by
  rw [State.ite_cores, h, ite_self]

@[simp] theorem State.poisonEvent_cores (s : State) (w : Who) : (s.poisonEvent w).cores = s.cores := by
  cases w <;> simp [State.poisonEvent]

@[simp] theorem State.unpoison_cores (s : State) (u : Nat) : (s.unpoison u).cores = s.cores := rfl

@[simp] theorem State.clearBad_cores (s : State) (ks : List Nat) : (s.clearBad ks).cores = s.cores := rfl

@[simp] theorem State.wrBytes_cores (s : State) (a : Nat) (bs : List Byte) : (s.wrBytes a bs).cores = s.cores := by
  induction bs generalizing s a with
  | nil => rfl
  | cons b r ih => exact ih ..

@[simp] theorem State.memLog_cores (s : State) (c kind unit addr : Nat) : (s.memLog c kind unit addr).cores = s.cores := by
  simp [State.memLog]

@[simp] theorem State.health_cores (s : State) (f : Fld) (ci : Nat) : (s.health f ci).cores = s.cores := by
  simp [State.health]

@[simp] theorem State.failBank_cores (s : State) (ci bank : Nat) : (s.failBank ci bank).cores = s.cores := by
  simp [State.failBank]

@[simp] theorem State.noteBadPiece_cores (s : State) (tc line bank : Nat) : (s.noteBadPiece tc line bank).cores = s.cores := by
  simp [State.noteBadPiece]

@[simp] theorem State.readLine_cores (s : State) (a : Nat) : (s.readLine a).1.cores = s.cores := by
  unfold State.readLine
  dsimp only
  split
  · simp
  · split <;> simp

@[simp] theorem State.scrubNext_cores (s : State) (tc : Nat) : (s.scrubNext tc).cores = s.cores := by
  simp [State.scrubNext]

@[simp] theorem State.dropBack_cores (s : State) (line : Nat) : (s.dropBack line).cores = s.cores := by
  simp [State.dropBack]

@[simp] theorem State.writeCsWord_cores (s : State) (who : Who) (a : Nat) (bs : List Byte) :
    (s.writeCsWord who a bs).1.cores = s.cores := by
  simp [State.writeCsWord]

@[simp] theorem State.writeBulk_cores (s : State) (who : Who) (a : Nat) (bs : List Byte) :
    (s.writeBulk who a bs).1.cores = s.cores := by
  simp [State.writeBulk, apply_ite Prod.fst]

/-- A write of device memory leaves the cores alone. -/
@[simp] theorem State.writeMem_cores (s : State) (who : Who) (a : Nat) (bs : List Byte) : (s.writeMem who a bs).1.cores = s.cores := by
  unfold State.writeMem
  dsimp only
  refine foldl_keeps (fun (x : (State × Bool) × List Byte) => x.1.1.cores = s.cores) _ (fun x u hx => ?_) _ _ rfl
  dsimp only
  split
  · exact (State.writeCsWord_cores ..).trans hx
  · exact (State.writeBulk_cores ..).trans hx

@[simp] theorem State.landLedger_cores (s : State) (q : Nat) : (s.landLedger q).cores = s.cores := by
  refine State.foldl_cores (fun t e => ?_) ..
  rw [State.setCol_cores]
  refine State.foldl_cores (fun u x => ?_) ..
  split
  · exact State.writeMem_cores ..
  · rfl

@[simp] theorem State.unfreeze_cores (s : State) (q : Nat) : (s.unfreeze q).cores = s.cores := by
  simp [State.unfreeze]

@[simp] theorem State.dropSched_cores (s : State) (q : Nat) : (s.dropSched q).cores = s.cores := rfl

@[simp] theorem State.startAct_cores (s : State) (a : Act) : (s.startAct a).cores = s.cores := by
  simp [State.startAct]

@[simp] theorem State.beginTrans_cores (s : State) (t : Nat) : (s.beginTrans t).cores = s.cores := by
  simp [State.beginTrans]

@[simp] theorem State.launchWake_cores (s : State) : s.launchWake.cores = s.cores := by
  simp [State.launchWake]

/-- A return of registers to their defaults leaves the cores alone. -/
theorem State.foldl_clrReg_cores (l : List RegName) (i : Nat) (s : State) : (l.foldl (fun t r => t.clrReg r i) s).cores = s.cores :=
  State.foldl_cores (fun t r => State.clrReg_cores t r i) l s

@[simp] theorem State.launchCluster_cores (s : State) (k : Nat) : (s.launchCluster k).cores = s.cores := by
  simp [State.launchCluster]

@[simp] theorem State.launchServe_cores (s : State) (q : Nat) : (s.launchServe q).cores = s.cores := rfl

@[simp] theorem State.modCols_cores (s : State) (q : Nat) (f : TierCol → TierCol) : (s.modCols q f).cores = s.cores := by
  simp [State.modCols]

@[simp] theorem State.ctrlOut_cores (s : State) (n : Nat) (f : CtrlFlit) (from_ : Nat) : (s.ctrlOut n f from_).cores = s.cores :=
  State.modPort_cores ..

@[simp] theorem State.ownFlit_cores (s : State) (q typ : Nat) (body : List Byte) : (s.ownFlit q typ body).1.cores = s.cores := rfl

/-! ## Faults and flits leave the arrays alone -/

/-- The arrays of core `c`, as the state holds them. -/
def State.arrsOf (s : State) (c : Nat) : SMap Arr := (s.core c).arrs

theorem State.arrsOf_of_cores {s t : State} (h : t.cores = s.cores) (c : Nat) : t.arrsOf c = s.arrsOf c :=
  congrArg Core.arrs (State.core_of_cores h c)

/-- A step through a list leaves the arrays of a core alone where each of its steps does. -/
theorem State.foldl_arrsOf {α : Type} {f : State → α → State} {c : Nat} (hf : ∀ t a, (f t a).arrsOf c = t.arrsOf c) (l : List α)
    (s : State) : (l.foldl f s).arrsOf c = s.arrsOf c :=
  foldl_keeps (fun t => t.arrsOf c = s.arrsOf c) f (fun t a h => (hf t a).trans h) l s rfl

theorem State.modCore_arrsOf {f : Core → Core} (hf : ∀ k, (f k).arrs = k.arrs) (s : State) (d c : Nat) :
    (s.modCore d f).arrsOf c = s.arrsOf c := by
  rw [State.arrsOf, State.core_modCore_if]
  split
  case isTrue h => rw [hf, h, State.arrsOf]
  case isFalse => rfl

theorem State.modPartCores_arrsOf {f : Core → Core} (hf : ∀ k, (f k).arrs = k.arrs) (s : State) (q c : Nat) :
    (s.modPartCores q f).arrsOf c = s.arrsOf c :=
  State.foldl_arrsOf (fun t d => State.modCore_arrsOf hf t d c) ..

theorem State.ite_arrsOf (p : Prop) [Decidable p] (s t : State) (c : Nat) :
    (if p then s else t).arrsOf c = if p then s.arrsOf c else t.arrsOf c :=
  apply_ite (fun u : State => u.arrsOf c) p s t

/-- R563: the stop of a job stops its cores and leaves their arrays. -/
theorem State.stopJob_arrsOf (s : State) (q : Nat) (f : CycleFault) (c : Nat) : (s.stopJob q f).arrsOf c = s.arrsOf c := by
  unfold State.stopJob
  extract_lets thawed p faulted recorded lagged unsent drained stopped landed written
  have hlagged : lagged.cores = s.cores := calc
    lagged.cores = recorded.cores := State.cores_ite_self (State.setFld_cores ..)
    _ = faulted.cores := by simp only [recorded, State.setFld_cores]
    _ = thawed.cores := State.setPart_cores ..
    _ = s.cores := State.cores_ite_self (State.unfreeze_cores ..)
  calc (written.raise (960 + 6 * q + 1)).arrsOf c
    _ = written.arrsOf c := State.arrsOf_of_cores (State.raise_cores ..) c
    _ = landed.arrsOf c := State.arrsOf_of_cores (State.cores_ite_self (State.writeMem_cores ..)) c
    _ = stopped.arrsOf c := State.arrsOf_of_cores (State.landLedger_cores ..) c
    _ = drained.arrsOf c := State.modPartCores_arrsOf (by intro _; rfl) ..
    _ = unsent.arrsOf c := State.arrsOf_of_cores (State.foldl_cores (fun _ _ => State.modCluster_cores ..) ..) c
    _ = s.arrsOf c := State.arrsOf_of_cores hlagged c

theorem State.jobFault_arrsOf (s : State) (q cause status core port c : Nat) :
    (s.jobFault q cause status core port).arrsOf c = s.arrsOf c := by
  by_cases hf : ((s.part q).job == .faulted) = true
  · exact State.arrsOf_of_cores (by simp [State.jobFault, hf]) c
  · rw [State.jobFault, if_neg hf]
    split
    case isTrue =>
      dsimp only
      rw [State.ite_arrsOf, State.arrsOf_of_cores (State.setPart_cores ..), State.stopJob_arrsOf, ite_self]
    case isFalse => rfl

theorem State.ctrlLost_arrsOf (s : State) (q : Nat) (f : CtrlFlit) (c : Nat) : (s.ctrlLost q f).arrsOf c = s.arrsOf c := by
  rw [State.ctrlLost, State.ite_arrsOf, State.jobFault_arrsOf, ite_self]

theorem State.ctrlBy_arrsOf (s : State) (q r : Nat) (f : CtrlFlit) (from_ c : Nat) : (s.ctrlBy q r f from_).arrsOf c = s.arrsOf c := by
  unfold State.ctrlBy
  split
  · exact State.arrsOf_of_cores (State.ctrlOut_cores ..) c
  · exact State.ctrlLost_arrsOf ..

/-- R386 to R389: a flit sent to the children of the part leaves the arrays alone, where it finds no port too. -/
theorem State.toChildren_arrsOf (s : State) (q o : Nat) (f : CtrlFlit) (from_ c : Nat) :
    (s.toChildren q o f from_).arrsOf c = s.arrsOf c := by
  unfold State.toChildren
  split
  · rw [State.ite_arrsOf, State.ctrlBy_arrsOf, ite_self]
  · exact State.foldl_arrsOf (fun t d => State.ctrlBy_arrsOf ..) ..

/-! ## A launch clears the arrays of the partition's cores (R96) -/

/-- A core with no array listed holds every array as a launch leaves it. -/
theorem Core.arr_of_arrs_nil {k : Core} (h : k.arrs = []) (a : Nat) : k.arr a = Arr.init := by
  rw [Core.arr, h]
  rfl

theorem State.core_setCore_ne (s : State) {c d : Nat} (v : Core) (h : d ≠ c) : (s.setCore c v).core d = s.core d :=
  SMap.get_put_ne _ _ _ _ h

theorem State.arrsOf_launchCore_self (s : State) (c : Nat) : (s.launchCore c).arrsOf c = [] :=
  congrArg Core.arrs (State.core_setCore ..)

theorem State.arrsOf_launchCore_ne (s : State) {c d : Nat} (h : d ≠ c) : (s.launchCore c).arrsOf d = s.arrsOf d := by
  unfold State.launchCore
  extract_lets cleared
  have hcleared : cleared.cores = s.cores := State.foldl_clrReg_cores ..
  calc State.arrsOf (cleared.setCore c _) d
    _ = cleared.arrsOf d := congrArg Core.arrs (State.core_setCore_ne _ _ h)
    _ = s.arrsOf d := State.arrsOf_of_cores hcleared d

/-- The launch of a list of cores clears the arrays of each. -/
theorem State.arrsOf_foldl_launchCore {l : List Nat} {c : Nat} (s : State) (h : c ∈ l ∨ s.arrsOf c = []) :
    (l.foldl (fun t d => t.launchCore d) s).arrsOf c = [] := by
  induction l generalizing s with
  | nil => simpa using h
  | cons d l ih =>
    refine ih _ ?_
    by_cases hd : c = d
    · exact .inr (hd ▸ State.arrsOf_launchCore_self s c)
    · rw [State.arrsOf_launchCore_ne s hd]
      simpa [hd] using h

theorem State.partCores_congr {s t : State} (hp : t.parts = s.parts) (ht : t.topo = s.topo) (q : Nat) : t.partCores q = s.partCores q := by
  have hin : t.inPart q = s.inPart q := by
    funext cl; rw [State.inPart, State.inPart, hp]
  have hphys : t.physSlot = s.physSlot := by
    funext cl slot; rw [State.physSlot, State.physSlot, State.topiary, State.topiary, ht]
  have hex : t.coreExists = s.coreExists := by
    funext c; rw [State.coreExists, State.coreExists, hphys]
  have hcl : t.clusterCores = s.clusterCores := by
    funext cl; rw [State.clusterCores, State.clusterCores, hex]
  rw [State.partCores, State.partCores, State.partClusters, State.partClusters, hin, hcl]

/-- R96, R299: a launch clears the arrays of the partition's cores, and what it sets after that leaves them alone. -/
theorem State.arrsOf_launchSet {s : State} {q c : Nat} (h : c ∈ s.partCores q) (count : Nat) : (s.launchSet q count).arrsOf c = [] := by
  unfold State.launchSet
  extract_lets cored clustered served trimmed counted ledgered
  have hcores : ledgered.cores = cored.cores := calc
    ledgered.cores = counted.cores := State.setFld_cores ..
    _ = trimmed.cores := (State.setFld_cores ..).trans (State.setFld_cores ..)
    _ = served.cores := State.modCols_cores ..
    _ = clustered.cores := (State.launchServe_cores ..).trans (State.foldl_clrReg_cores ..)
    _ = cored.cores := State.foldl_cores (fun _ _ => State.launchCluster_cores ..) ..
  rw [State.arrsOf_of_cores (State.modPart_cores ..), State.arrsOf_of_cores hcores]
  exact State.arrsOf_foldl_launchCore s (.inl h)

/-- R298: an accepted notice is a launch, and where the part is in REST the start of a wake. -/
theorem State.notice_accepted {s : State} {jobid count mode k p : Nat} (hp : s.noticePart jobid = some p)
    (hs : s.noticeStatus p count mode k = stOK) :
    (s.notice jobid count mode k).1 = ((s.setFld F.TIME_JOB_STAT_LSTATUS p stOK).launchSet p count).launchWake := by
  rw [State.notice, hp]
  dsimp only
  rw [hs, if_pos rfl]

theorem State.arrsOf_notice {s : State} {jobid count mode k p c : Nat} (hp : s.noticePart jobid = some p)
    (hs : s.noticeStatus p count mode k = stOK) (hc : c ∈ s.partCores p) : (s.notice jobid count mode k).1.arrsOf c = [] := by
  rw [State.notice_accepted hp hs, State.arrsOf_of_cores (State.launchWake_cores _)]
  refine State.arrsOf_launchSet ?_ count
  rwa [State.partCores_congr (State.setFld_parts ..) (State.setFld_topo ..)]

/-- R443: after its notice LAUNCH writes a status and sends flits, and neither changes an array. -/
theorem State.arrsOf_launch (s : State) (q : Nat) (spread : Bool) (c : Nat) :
    (s.launch q spread).arrsOf c = (s.notice (s.fld F.TIME_JOB_CFG_JOBID q) (s.fld F.HQ_LAUNCHCNT_COUNT q) (s.fld F.TIME_JOB_CFG_MODE q)
      (s.fld F.TIME_BEAT_CFG_K q)).1.arrsOf c := by
  unfold State.launch
  extract_lets job count mode k r told f
  have htold : told.arrsOf c = r.1.arrsOf c := by
    refine State.arrsOf_of_cores ?_ c
    dsimp only [told]
    split
    · exact State.setFld_cores ..
    · rfl
  rw [State.ite_arrsOf, State.toChildren_arrsOf, State.arrsOf_of_cores (State.ownFlit_cores ..), ite_self]
  exact htold

/-! ## The statement -/

/-- R96: what a launch leaves of an array: all-zero tiles, an EMPTY shadow, all-zero accumulator entries. -/
theorem State.arr_zero_of_arrsOf_nil {t : State} {c : Nat} (h : t.arrsOf c = []) (a : Nat) :
    ((t.core c).arr a).live = Tile.init ∧ ((t.core c).arr a).shadow = Tile.init ∧ ((t.core c).arr a).sstate = .empty
      ∧ (∀ n, SMap.get 0 ((t.core c).arr a).acc n = 0)
      ∧ (∀ n, SMap.get 0 Tile.init.data n = 0 ∧ SMap.get 0 Tile.init.scales n = 0) := by
  rw [Core.arr_of_arrs_nil h]
  exact ⟨rfl, rfl, rfl, fun _ => rfl, fun _ => ⟨rfl, rfl⟩⟩

theorem exec_launch {q : Nat} (hq : q < 8) (spread : Bool) (s : State) : exec (.launch q spread) s = done s (s.launch q spread) :=
  if_pos hq

/-- Settles O24: the cores' arrays are cleared by the launch, and neither the rest of the notice nor the rest of LAUNCH changes one. -/
theorem launchClearsArrays : Obligations.LaunchClearsArrays := by
  unfold Obligations.LaunchClearsArrays
  intro jobid count mode k p c a s hp hs hc zero
  have hnotice : (s.notice jobid count mode k).1.arrsOf c = [] := State.arrsOf_notice hp hs hc
  refine ⟨State.arr_zero_of_arrsOf_nil hnotice a, fun q spread hq hjob hcount hmode hk => ?launch⟩
  case launch =>
    subst hjob hcount hmode hk
    have hlaunch : (s.launch q spread).arrsOf c = [] := (State.arrsOf_launch s q spread c).trans hnotice
    exact ⟨_, exec_launch hq spread s, State.arr_zero_of_arrsOf_nil hlaunch a⟩

end Sys2Proof.Machine
end

section
/-! What a SETK word leaves when it issues (04_chain_engine.md R112): its scalar writes planned for the next cycle, and every chain scalar
still as it was. Statement O5, which has the scalars written by the command itself, fails for that reason. -/

namespace Sys2Proof.Machine

@[simp] theorem Core.setQueue_ks (k : Core) (qc : Nat) (es : List QEntry) : (k.setQueue qc es).ks = k.ks := by
  unfold Core.setQueue
  split <;> rfl

@[simp] theorem Core.modEntry_ks (k : Core) (qc id : Nat) (f : QEntry → QEntry) : (k.modEntry qc id f).ks = k.ks :=
  Core.setQueue_ks ..

/-- R112: the immediates join the scalar writes planned for the cycle after the issue, and the run is counted. -/
theorem State.core_setk (s : State) (c lc : Nat) (e : QEntry) :
    (s.setk c lc e).core c =
      { s.core c with
        kplan := (s.core c).kplan ++ (List.range (W.SETK_COUNT e.lead + 1)).map fun i =>
          (lc + 1, W.SETK_FIRST e.lead + i, bits e.lead (32 * i + 31) (32 * i)) }.modEntry 2 e.id
        fun x => { x with issued := x.issued + 1, phase := 0, runs := x.runs ++ [lc + 2] } := by
  rw [State.setk, State.endRun, State.core_modCore, State.core_modCore]

/-- The issue of a word takes its wait and leaves the chain scalars. -/
theorem State.core_ks_of_issueOp {s : State} {c qc op : Nat} {i : Issue} (h : s.issueOp c qc op = some i) :
    (i.s.core c).ks = (s.core c).ks := by
  obtain ⟨-, -, -, -, -, hs⟩ := State.issueOp_some h
  rw [hs, State.core_modCore]

theorem gives_setk {s : State} {c : Nat} {i : Issue} (h : s.issueOp c 2 0x21 = some i) :
    Gives (.setk c) s (i.s.setk c i.lc i.e) :=
  gives_of_issueOp (fun i => i.s.setk c i.lc i.e) rfl h

/-- R112: a SETK word that issues leaves the chain scalars, which take their values in the cycle after. -/
theorem core_ks_of_exec_setk {s t : State} {c : Nat} {i : Issue} (h : s.issueOp c 2 0x21 = some i)
    (ht : exec (.setk c) s = Host.Outcome.next t) : (t.core c).ks = (s.core c).ks := by
  obtain rfl := Host.Outcome.next.inj (ht.symm.trans (gives_setk h))
  calc ((i.s.setk c i.lc i.e).core c).ks
    _ = (i.s.core c).ks := by rw [State.core_setk, Core.modEntry_ks]
    _ = (s.core c).ks := State.core_ks_of_issueOp h

/-- A SETK word that gives K12 the immediate 1 and K13 to K15 the immediate 0. -/
def setkWord : Nat := 2 * 2 ^ 252 + 0x21 * 2 ^ 244 + 12 * 2 ^ 188 + 3 * 2 ^ 186 + 1

/-- Core 0 in cycle 20 of a job in RUN, its scalars all 0, with `setkWord` at the head of its CHN queue. -/
def setkState : State :=
  (State.reset.setPart 0 { Part.init with mask := 1, job := .run, lc := 20, bc := 20 }).setCore 0
    (Core.init.setQueue 2 [⟨0, setkWord, 0, 8, 0, 0, 0, [], 0, 0, 0⟩])

theorem setkState_issues : ((setkState.issueOp 0 2 0x21).map fun i => i.e.lead) = some setkWord := by decide

theorem setkState_scalar : SMap.get 0 (setkState.core 0).ks 12 = 0 := by decide

theorem setkWord_fields : W.SETK_FIRST setkWord = 12 ∧ W.SETK_COUNT setkWord = 3 ∧ bits setkWord 31 0 = 1 := by decide

/-- Refutes O5: R112 has SETK write its immediates in the cc after it issues, and so does the model, which only plans them at the issue.
Right after the command the scalar K12 of `setkState` is still 0 where the statement asks for the immediate 1. -/
theorem not_setkWrites : ¬ Obligations.SetkWrites := by
  unfold Obligations.SetkWrites
  intro hall
  obtain ⟨i, hissue, hlead⟩ := Option.map_eq_some_iff.1 setkState_issues
  obtain ⟨hfirst, hcount, himm⟩ := setkWord_fields
  obtain ⟨t, ht, hwritten, -⟩ := hall 0 setkState i hissue (by rw [hlead, hfirst, hcount]; decide)
  have hone : SMap.get 0 (t.core 0).ks 12 = 1 := by simpa [hlead, hfirst, himm] using hwritten 0 (Nat.zero_le _)
  have hzero : SMap.get 0 (t.core 0).ks 12 = 0 := by rw [core_ks_of_exec_setk hissue ht, setkState_scalar]
  exact absurd (hone.symm.trans hzero) (by decide)

end Sys2Proof.Machine
end

section
/-! The effects of a thicket completion (05_thicket.md R154, R160, R178): what a whole word written to a core store leaves in memory, and the
record of a completion. -/

namespace Sys2Proof.Machine

/-! ## Bytes of device memory -/

theorem length_toBytes (n v : Nat) : (toBytes n v).length = n := by
  induction n generalizing v with
  | zero => rfl
  | succ n ih => rw [toBytes, List.length_cons, ih]

theorem State.rdBytes_succ (s : State) (a n : Nat) : s.rdBytes a (n + 1) = s.rdByte a :: s.rdBytes (a + 1) n := by
  simp only [State.rdBytes, List.range_succ_eq_map, List.map_cons, List.map_map, Nat.add_zero, List.cons.injEq, true_and]
  exact List.map_congr_left fun i _ => congrArg s.rdByte (by simp only [Nat.succ_eq_add_one]; omega)

/-- Bytes read back as they were written. -/
theorem State.rdBytes_wrBytes (s : State) (a : Nat) (bs : List Byte) : (s.wrBytes a bs).rdBytes a bs.length = bs := by
  induction bs generalizing s a with
  | nil => rfl
  | cons b r ih =>
    have hfirst : ((s.wrByte a b).wrBytes (a + 1) r).rdByte a = b := by
      rw [State.rdByte_wrBytes_ne _ _ _ (.inl (Nat.lt_succ_self a)), State.rdByte_wrByte]
    rw [List.length_cons, State.wrBytes, State.rdBytes_succ, hfirst, ih]

theorem State.memSame.rdBytes {s t : State} (h : s.memSame t) (a n : Nat) : t.rdBytes a n = s.rdBytes a n :=
  List.map_congr_left fun _ _ => h.rdByte _

theorem State.memSame_ite (p : Prop) [Decidable p] {s t u : State} (ht : s.memSame t) (hu : s.memSame u) :
    s.memSame (if p then t else u) := by
  split
  · exact ht
  · exact hu

theorem State.memSame_syncAdd (s : State) (c n inc : Nat) : s.memSame (s.syncAdd c n inc) := by
  rw [State.syncAdd_form]
  exact ⟨rfl, rfl⟩

/-! ## A whole word of a core store -/

theorem daSpace_csAddr {c off : Nat} (hc : c < 512) (ho : off < 2 ^ 22) : daSpace (csAddr c off) = 1 := by
  simp only [daSpace, bits, csAddr]
  omega

/-- A range that starts at a multiple of the unit and is one unit long is not cut. -/
theorem chunks_unit {u a : Nat} (hu : 0 < u) (ha : a % u = 0) (fuel : Nat) : chunks u (fuel + 2) a u = [(a, u)] := by
  have hk : min u (u - a % u) = u := by rw [ha]; exact Nat.min_self u
  rw [chunks, if_neg (Nat.ne_of_gt hu)]
  dsimp only
  rw [hk, Nat.sub_self, chunks, if_pos rfl]

/-- A word of a core store is two units of 8 bytes. -/
theorem chunks_csWord {a : Nat} (ha : a % 16 = 0) : chunks 8 3 a 16 = [(a, 8), (a + 8, 8)] := by
  have h8 : a % 8 = 0 := by omega
  rw [chunks, if_neg (by decide), h8]
  exact congrArg ((a, 8) :: ·) (chunks_unit (by decide) (by omega) 0)

/-- A write of a whole word of a core store puts its bytes into memory and changes no other byte: no unit of it is merged (R608). -/
theorem State.writeCsWord_whole (s : State) (who : Who) {a : Nat} {bs : List Byte} (ha : a % 16 = 0) (hn : bs.length = 16) :
    ∃ u, s.memSame u ∧ (s.writeCsWord who a bs).1 = u.wrBytes a bs := by
  unfold State.writeCsWord
  extract_lets n us part ue ce psn counted warned logged merged cleared free
  have hpart : part = [] := by simp only [part, us, n, hn, chunks_csWord ha]; rfl
  have hmerged : merged = logged := by simp only [merged, hpart, List.foldl_nil]
  have hcounted : s.memSame counted := State.memSame_ite _ ⟨rfl, rfl⟩ ⟨by simp, by simp⟩
  have hwarned : counted.memSame warned := State.memSame_ite _ (State.memSame_poisonEvent ..) ⟨rfl, rfl⟩
  have hlogged : warned.memSame logged := State.memSame_ite _ (State.memSame_memLog ..) ⟨rfl, rfl⟩
  have hmem : s.memSame merged := hmerged ▸ State.memSame_trans (State.memSame_trans hcounted hwarned) hlogged
  exact ⟨free, hmem, rfl⟩

theorem State.writeMem_csWord (s : State) (who : Who) {a : Nat} {bs : List Byte} (hs : daSpace a = 1) (ha : a % 16 = 0)
    (hn : bs.length = 16) : (s.writeMem who a bs).1 = (s.writeCsWord who a bs).1 := by
  have htake : bs.take 16 = bs := List.take_of_length_le (le_of_eq hn)
  simp only [State.writeMem, hs, beq_self_eq_true, if_true, hn, chunks_unit (by decide : 0 < 16) ha, List.foldl_cons, List.foldl_nil, htake]

/-- The write of a whole word of a core store: its bytes are those written, and every other byte of memory is as it was. -/
theorem State.writeMem_csWord_whole (s : State) (who : Who) {a : Nat} {bs : List Byte} (hs : daSpace a = 1) (ha : a % 16 = 0)
    (hn : bs.length = 16) :
    (s.writeMem who a bs).1.rdBytes a 16 = bs
    ∧ ∀ c, c < a ∨ a + 16 ≤ c → (s.writeMem who a bs).1.rdByte c = s.rdByte c := by
  obtain ⟨u, hu, hw⟩ := s.writeCsWord_whole who ha hn
  rw [s.writeMem_csWord who hs ha hn, hw]
  constructor
  · rw [← hn, State.rdBytes_wrBytes]
  · intro c hc
    rw [State.rdByte_wrBytes_ne _ _ _ (hn ▸ hc), hu.rdByte]

/-! ## Completion -/

theorem TDesc.length_record (d : TDesc) : d.record.length = 16 := by
  simp only [TDesc.record, List.length_append, length_toBytes]

/-- R154, R178: of memory, a completion with a record changes what the write of the record changes. Its log apart, which a timed MOE
alone has, the rest goes to counters and to the event controller. -/
theorem State.thktDone_memSame (s : State) (q cl : Nat) {d : TDesc} (hk : TD.KIND d.raw ≠ 4) (hr : TD.STATEN d.raw = 1) :
    ∃ u, s.memSame u ∧ (u.writeMem (.thkt cl) (csAddr d.core (16 * TD.STATADDR d.raw)) d.record).1.memSame (s.thktDone q cl d) := by
  unfold State.thktDone
  extract_lets timed g logged signalled written
  have hlogged : logged = s := if_neg fun h => hk h.2.1
  have hsignalled : s.memSame signalled := by
    rw [← hlogged]
    exact State.memSame_ite _ (State.memSame_syncAdd ..) ⟨rfl, rfl⟩
  have hwritten : written = (signalled.writeMem (.thkt cl) (csAddr d.core (16 * TD.STATADDR d.raw)) d.record).1 := if_pos hr
  exact ⟨signalled, hsignalled, hwritten ▸ State.memSame_ite _ ⟨rfl, rfl⟩ ⟨rfl, rfl⟩⟩

/-! ## The rows -/

theorem gives_thktComplete {cl e q : Nat} {s : State} {d : TDesc} (hl : s.thktLive cl = some q)
    (hd : s.thktDue cl e (s.part q).lc = some d) (hg : (s.part q).gate = false) :
    Gives (.thktComplete cl e) s (s.thktEnd q cl e d) := by
  show execThktComplete cl e s = _
  simp only [execThktComplete, hl, hd, hg]
  rfl

theorem gives_untimedComplete {cl e q : Nat} {s : State} {d : TDesc} (hl : s.thktLive cl = some q)
    (hr : (s.cluster cl).run e = some d) (hran : d.ran = true) (hc : d.finish < (s.part q).lc ∨ (s.part q).gate = true) :
    Gives (.untimedComplete cl e) s ((s.modCluster cl fun k => k.setRun e none).thktDone q cl d) := by
  show execUntimedComplete cl e s = _
  simp only [execUntimedComplete, hl, hr]
  exact if_pos ⟨hran, hc⟩

/-! ## The statement -/

/-- Settles O15: a completion's row gives the state of its effects, and of these the record alone is written to memory, as one whole word
of the submitting core's store. -/
theorem thicketCompletes : Obligations.ThicketCompletes := by
  unfold Obligations.ThicketCompletes
  refine ⟨fun cl e q s d hl => ⟨gives_thktComplete hl, gives_untimedComplete hl⟩, fun q cl s d hcore hkind hrec haddr => ?_⟩
  intro a
  have hspace : daSpace a = 1 := daSpace_csAddr hcore (by omega)
  have haligned : a % 16 = 0 := by simp only [a, csAddr]; omega
  obtain ⟨u, hu, ht⟩ := s.thktDone_memSame q cl hkind hrec
  obtain ⟨hword, hrest⟩ := u.writeMem_csWord_whole (.thkt cl) hspace haligned d.length_record
  exact ⟨(ht.rdBytes a 16).trans hword, fun c hc => (ht.rdByte c).trans ((hrest c hc).trans (hu.rdByte c))⟩

end Sys2Proof.Machine
end

section
/-! The queues of the thicket (05_thicket.md R149, R150, R158, R159): a TSUB that is accepted, and an idle engine that takes an untimed
descriptor. -/

namespace Sys2Proof.Machine

/-! ## Operations that change the cores alone, and what records a change of one -/

/-- Two states differ at most in the cores and in what a saturated sync counter leaves: registers, notes of hardware changes,
occurrences. -/
def State.sameButCores (s t : State) : Prop := t = { s with cores := t.cores, regs := t.regs, hw := t.hw, occ := t.occ }

theorem State.sameButCores.trans {s t u : State} (h : s.sameButCores t) (k : t.sameButCores u) : s.sameButCores u := by
  unfold State.sameButCores at *
  rw [h] at k
  exact k

theorem State.sameButCores.pending {s t : State} (h : s.sameButCores t) : t.pending = s.pending := by rw [h]
theorem State.sameButCores.id {s t : State} (h : s.sameButCores t) : t.id = s.id := by rw [h]
theorem State.sameButCores.mem {s t : State} (h : s.sameButCores t) : t.mem = s.mem := by rw [h]
theorem State.sameButCores.parts {s t : State} (h : s.sameButCores t) : t.parts = s.parts := by rw [h]
theorem State.sameButCores.clusters {s t : State} (h : s.sameButCores t) : t.clusters = s.clusters := by rw [h]

theorem State.sameButCores_refl (s : State) : s.sameButCores s := rfl

theorem State.sameButCores_modCore (s : State) (c : Nat) (f : Core → Core) : s.sameButCores (s.modCore c f) := rfl

theorem State.sameButCores_foldl {α : Type} {f : State → α → State} (hf : ∀ (t : State) a, t.sameButCores (f t a)) (l : List α) (s : State) :
    s.sameButCores (l.foldl f s) :=
  foldl_keeps (fun t => s.sameButCores t) f (fun t a h => h.trans (hf t a)) l s s.sameButCores_refl

/-- R243: a signal of any scope waits in its core, or counts there. -/
theorem State.sameButCores_signal (s : State) (c w lc : Nat) : s.sameButCores (s.signal c w lc) := by
  unfold State.signal
  extract_lets inc ctr
  split
  · exact s.sameButCores_refl
  · split
    · exact State.syncAdd_form ..
    · exact State.sameButCores_modCore ..
    · exact State.sameButCores_modCore ..
    · exact s.sameButCores_refl

/-- R224: a completed run changes its own core, by its signals too. -/
theorem State.sameButCores_completeRun (s : State) (c qc lc : Nat) : s.sameButCores (s.completeRun c qc lc) := by
  unfold State.completeRun
  split
  · exact s.sameButCores_refl
  · extract_lets e' last left key signalled dropped
    have hleft : s.sameButCores left := State.sameButCores_modCore ..
    have hsignalled : left.sameButCores signalled := State.sameButCores_foldl (fun _ _ => State.syncAdd_form ..) ..
    have hdropped : signalled.sameButCores dropped := State.sameButCores_modCore ..
    exact hleft.trans (hsignalled.trans (hdropped.trans (State.sameButCores_signal ..)))

theorem State.sameButCores_retireQ (s : State) (c qc lc n : Nat) : s.sameButCores (s.retireQ c qc lc n) := by
  induction n generalizing s with
  | zero => exact s.sameButCores_refl
  | succ n ih =>
    rw [State.retireQ]
    split
    · split
      · exact (State.sameButCores_completeRun ..).trans (ih _)
      · exact s.sameButCores_refl
    · exact s.sameButCores_refl

theorem State.sameButCores_retire (s : State) (c lc : Nat) : s.sameButCores (s.retire c lc) :=
  State.sameButCores_foldl (fun t qc => t.sameButCores_retireQ c qc lc _) ..

/-- R149: the completion of a TSUB changes its core alone. -/
theorem State.sameButCores_tsubEnd (s : State) (c qid lc : Nat) : s.sameButCores (s.tsubEnd c qid lc) :=
  (State.sameButCores_modCore ..).trans (State.sameButCores_retire ..)

/-! ## Parts of a cluster that a change leaves alone -/

theorem State.cluster_modCluster_if (s : State) (k j : Nat) (f : Cluster → Cluster) :
    (s.modCluster k f).cluster j = if j = k then f (s.cluster k) else s.cluster j :=
  SMap.get_put ..

/-- What a change of a cluster leaves alone in it is as before in every cluster. -/
theorem State.cluster_modCluster_keeps {α : Type} (part : Cluster → α) {f : Cluster → Cluster} (hf : ∀ k, part (f k) = part k)
    (s : State) (k j : Nat) : part ((s.modCluster k f).cluster j) = part (s.cluster j) := by
  rw [State.cluster_modCluster_if]
  split
  case isTrue h => rw [hf, h]
  case isFalse => rfl

/-! ## Acceptance (R149, R150) -/

/-- The TSUB leaves those in hand. -/
def Cluster.dropSub (k : Cluster) (b : TSub) : Cluster := { k with subs := k.subs.erase b }

/-- An untimed descriptor joins the queue of its kind. -/
def Cluster.queueUntimed (k : Cluster) (kind : Nat) (d : TDesc) : Cluster := k.setUntimed kind (k.untimedQ kind ++ [d])

/-- A timed descriptor joins the queue of its engine, which is taken up to its finish. -/
def Cluster.queueTimed (k : Cluster) (e : Nat) (d : TDesc) : Cluster :=
  { k.setTimed e (k.timedQ e ++ [d]) with tend := SMap.put 0 k.tend e d.finish }

@[simp] theorem Cluster.untimedQ_queueUntimed (k : Cluster) (kind : Nat) (d : TDesc) :
    (k.queueUntimed kind d).untimedQ kind = k.untimedQ kind ++ [d] := SMap.get_put_self ..

@[simp] theorem Cluster.timedQ_queueTimed (k : Cluster) (e : Nat) (d : TDesc) : (k.queueTimed e d).timedQ e = k.timedQ e ++ [d] :=
  SMap.get_put_self ..

@[simp] theorem Cluster.tend_queueTimed (k : Cluster) (e : Nat) (d : TDesc) : SMap.get 0 (k.queueTimed e d).tend e = d.finish :=
  SMap.get_put_self ..

@[simp] theorem Cluster.untimedQ_setUntimed (k : Cluster) (kind : Nat) (l : List TDesc) : (k.setUntimed kind l).untimedQ kind = l :=
  SMap.get_put_self ..

@[simp] theorem Cluster.run_setRun (k : Cluster) (e : Nat) (d : Option TDesc) : (k.setRun e d).run e = d := SMap.get_put_self ..

/-- The TSUB that may be accepted is one of the core's own. -/
theorem State.subReady_core {s : State} {q c lc : Nat} {b : TSub} (h : s.subReady q c lc = some b) : b.core = c := by
  unfold State.subReady at h
  split at h
  case h_1 x hx =>
    have hb : x = b := (Option.ite_none_right_eq_some.1 h).2 |> Option.some.inj
    exact hb ▸ beq_iff_eq.1 (List.find?_some (p := fun y : TSub => y.core == c) hx)
  case h_2 => exact absurd h (by simp)

/-- Legality is read from registers, partitions and the part, not from clusters. -/
theorem State.tdescBad_modCluster (s : State) (k : Nat) (f : Cluster → Cluster) (q c r : Nat) :
    (s.modCluster k f).tdescBad q c r = s.tdescBad q c r := rfl

theorem gives_tsubAccept {c q lc : Nat} {s : State} {b : TSub} (hl : s.seqLive c = some (q, lc)) (hb : s.subReady q c lc = some b) :
    Gives (.tsubAccept c) s (s.tsubAccept q lc b) := by
  show execTsubAccept c s = _
  simp only [execTsubAccept, hl, hb]
  rfl

/-- The state after a TSUB has left those in hand and its word has completed. -/
def State.subTaken (s : State) (lc : Nat) (b : TSub) : State :=
  (s.modCluster (b.core / 8) fun k => k.dropSub b).tsubEnd b.core b.qid lc

theorem State.sameButCores_subTaken (s : State) (lc : Nat) (b : TSub) :
    (s.modCluster (b.core / 8) fun k => k.dropSub b).sameButCores (s.subTaken lc b) :=
  State.sameButCores_tsubEnd ..

@[simp] theorem State.subTaken_pending (s : State) (lc : Nat) (b : TSub) : (s.subTaken lc b).pending = s.pending :=
  (s.sameButCores_subTaken lc b).pending
@[simp] theorem State.subTaken_id (s : State) (lc : Nat) (b : TSub) : (s.subTaken lc b).id = s.id := (s.sameButCores_subTaken lc b).id
@[simp] theorem State.subTaken_mem (s : State) (lc : Nat) (b : TSub) : (s.subTaken lc b).mem = s.mem := (s.sameButCores_subTaken lc b).mem
@[simp] theorem State.subTaken_parts (s : State) (lc : Nat) (b : TSub) : (s.subTaken lc b).parts = s.parts :=
  (s.sameButCores_subTaken lc b).parts

theorem State.cluster_subTaken (s : State) (lc : Nat) (b : TSub) (j : Nat) :
    (s.subTaken lc b).cluster j = (s.modCluster (b.core / 8) fun k => k.dropSub b).cluster j :=
  State.cluster_of_clusters (s.sameButCores_subTaken lc b).clusters j

/-- Of a cluster only the TSUBs in hand change. -/
theorem State.cluster_subTaken_keeps {α : Type} (part : Cluster → α) (s : State) (lc : Nat) (b : TSub)
    (hd : ∀ k, part (Cluster.dropSub k b) = part k) (j : Nat) : part ((s.subTaken lc b).cluster j) = part (s.cluster j) := by
  rw [State.cluster_subTaken, State.cluster_modCluster_keeps part hd]

/-- A descriptor that joins a queue leaves the TSUBs in hand, of which its own is gone. -/
theorem State.subs_subTaken_modCluster (s : State) (lc : Nat) (b : TSub) (j : Nat) {f : Cluster → Cluster} (hf : ∀ k, (f k).subs = k.subs) :
    (((s.subTaken lc b).modCluster j f).cluster (b.core / 8)).subs = (s.cluster (b.core / 8)).subs.erase b := by
  rw [State.cluster_modCluster_keeps Cluster.subs hf, State.cluster_subTaken, State.cluster_modCluster, Cluster.dropSub]

theorem State.tsubAccept_bad {s : State} {q lc : Nat} {b : TSub} (h : s.tdescBad q b.core b.raw = true) :
    s.tsubAccept q lc b = (s.modCluster (b.core / 8) fun k => { k with subs := k.subs.erase b }).rejectWord q b.core 0x0F 3 0x34 b.addr :=
  if_pos h

theorem State.tsubAccept_untimed {s : State} {q lc : Nat} {b : TSub} (h : s.tdescBad q b.core b.raw = false) (ht : TD.TIMED b.raw ≠ 1) :
    s.tsubAccept q lc b = (s.subTaken lc b).modCluster b.tcl fun k => k.queueUntimed (TD.KIND b.raw) (TDesc.new b 0 0 0) := by
  unfold State.tsubAccept
  extract_lets dropped taken e
  rw [if_neg (by rw [State.tdescBad_modCluster, h]; decide), if_neg ht]
  rfl

/-- R152: the cycle in which a timed descriptor that is accepted in cycle `lc` starts: behind the one before it and its yield allowance. -/
def State.tsubStart (s : State) (lc : Nat) (b : TSub) : Nat :=
  max lc (SMap.get 0 (s.cluster b.tcl).tend (TD.ENGINE b.raw)) + tdYield b.raw

/-- R152: the cycle in which it finishes. -/
def State.tsubFinish (s : State) (lc : Nat) (b : TSub) : Nat := s.tsubStart lc b + tdLat b.tcl b.raw + TD.EXTRA b.raw

/-- R152: the cycle in which it is due. -/
def TSub.dueAt (b : TSub) : Nat := b.issue + TD.DUE b.raw

/-- The descriptor of a timed TSUB as it enters its queue. -/
def State.tsubTimed (s : State) (lc : Nat) (b : TSub) : TDesc := TDesc.new b (s.tsubStart lc b) (s.tsubFinish lc b) b.dueAt

/-- The state with a timed descriptor in its queue. -/
def State.subQueued (s : State) (lc : Nat) (b : TSub) : State :=
  (s.subTaken lc b).modCluster b.tcl fun k => k.queueTimed (TD.ENGINE b.raw) (s.tsubTimed lc b)

theorem State.tsubStart_subTaken (s : State) (lc : Nat) (b : TSub) : (s.subTaken lc b).tsubStart lc b = s.tsubStart lc b := by
  rw [State.tsubStart, State.cluster_subTaken_keeps Cluster.tend s lc b fun _ => rfl]
  rfl

theorem State.tsubTimed_subTaken (s : State) (lc : Nat) (b : TSub) : (s.subTaken lc b).tsubTimed lc b = s.tsubTimed lc b := by
  simp only [State.tsubTimed, State.tsubFinish, State.tsubStart_subTaken]

theorem State.tsubAccept_timed {s : State} {q lc : Nat} {b : TSub} (h : s.tdescBad q b.core b.raw = false) (ht : TD.TIMED b.raw = 1) :
    s.tsubAccept q lc b =
      if s.tsubFinish lc b > b.dueAt then (s.subQueued lc b).jobFault q caTHKT_DUE stFAULTED b.core 0 else s.subQueued lc b := by
  rw [State.subQueued, ← State.tsubTimed_subTaken, State.tsubFinish, ← State.tsubStart_subTaken]
  unfold State.tsubAccept
  extract_lets dropped taken e
  rw [if_neg (by rw [State.tdescBad_modCluster, h]; decide), if_pos ht]
  rfl

theorem State.timedQ_subQueued (s : State) (lc : Nat) (b : TSub) :
    ((s.subQueued lc b).cluster b.tcl).timedQ (TD.ENGINE b.raw) = (s.cluster b.tcl).timedQ (TD.ENGINE b.raw) ++ [s.tsubTimed lc b] := by
  rw [State.subQueued, State.cluster_modCluster, Cluster.timedQ_queueTimed,
    State.cluster_subTaken_keeps (Cluster.timedQ · (TD.ENGINE b.raw)) s lc b fun _ => rfl]

theorem State.tend_subQueued (s : State) (lc : Nat) (b : TSub) :
    SMap.get 0 ((s.subQueued lc b).cluster b.tcl).tend (TD.ENGINE b.raw) = s.tsubFinish lc b := by
  rw [State.subQueued, State.cluster_modCluster, Cluster.tend_queueTimed, State.tsubTimed, TDesc.new]

@[simp] theorem State.subQueued_pending (s : State) (lc : Nat) (b : TSub) : (s.subQueued lc b).pending = s.pending := by
  rw [State.subQueued, State.modCluster_pending, State.subTaken_pending]
@[simp] theorem State.subQueued_id (s : State) (lc : Nat) (b : TSub) : (s.subQueued lc b).id = s.id := by
  rw [State.subQueued, State.modCluster_id, State.subTaken_id]
@[simp] theorem State.subQueued_mem (s : State) (lc : Nat) (b : TSub) : (s.subQueued lc b).mem = s.mem := by
  rw [State.subQueued, State.modCluster_mem, State.subTaken_mem]
@[simp] theorem State.subQueued_parts (s : State) (lc : Nat) (b : TSub) : (s.subQueued lc b).parts = s.parts := by
  rw [State.subQueued, State.modCluster_parts, State.subTaken_parts]

/-- The partition of a core that acts runs a logical cycle. -/
theorem State.live_of_seqLive {s : State} {c q lc : Nat} (h : s.seqLive c = some (q, lc)) : (s.part q).live = true :=
  (State.liveQ_some (State.seqLive_some h).1).2.1

theorem State.part_subQueued (s : State) (lc : Nat) (b : TSub) (q : Nat) : (s.subQueued lc b).part q = s.part q :=
  State.part_of_parts (s.subQueued_parts lc b) q

/-! ## Picks (R158, R159) -/

theorem gives_untimedPick {cl e q : Nat} {s : State} {p : Nat × TDesc} (hl : s.thktLive cl = some q)
    (hidle : s.engineIdle cl e (s.part q).lc = true) (hp : s.pickFrom q cl e = some p) (hb : s.pickBefore q cl e (s.part q).lc p = false) :
    Gives (.untimedPick cl e) s (s.pick q cl e p.1 p.2) := by
  show execUntimedPick cl e s = _
  simp only [execUntimedPick, hl, hidle, hp, hb]
  rfl

/-- The state in which the descriptor has left its queue and stands on the engine; a steal is counted besides. -/
def State.picked (s : State) (cl e n : Nat) (d : TDesc) : State :=
  (s.modCluster n fun k => k.setUntimed (engineKind e) ((k.untimedQ (engineKind e)).erase d)).modCluster cl fun k =>
    k.setRun e (some { d with stolen := n != cl })

theorem State.addFld_form {f : Fld} (h : psReg f.reg = none) (s : State) (i k : Nat) :
    s.addFld f i k = { s with regs := (s.addFld f i k).regs, hw := (s.addFld f i k).hw } := by
  unfold State.addFld State.note State.setFld
  rw [State.setReg_plain h]

/-- A pick leaves the picked state, but for the counts of a steal. -/
theorem State.pick_form (s : State) (q cl e n : Nat) (d : TDesc) :
    s.pick q cl e n d = { s.picked cl e n d with regs := (s.pick q cl e n d).regs, hw := (s.pick q cl e n d).hw } := by
  have hpick : s.pick q cl e n d = if n != cl then
      ((s.picked cl e n d).choice q F.TIME_CHOICEBY_STEAL).addFld F.THKT_CNT_STEAL cl 1 else s.picked cl e n d := rfl
  rw [hpick]
  split
  · rw [State.addFld_form rfl, State.choice, State.addFld_form rfl, State.addFld_form rfl]
  · rfl

theorem State.run_picked (s : State) (cl e n : Nat) (d : TDesc) :
    ((s.picked cl e n d).cluster cl).run e = some { d with stolen := n != cl } := by
  rw [State.picked, State.cluster_modCluster, Cluster.run_setRun]

theorem State.untimedQ_picked (s : State) (cl e n : Nat) (d : TDesc) :
    ((s.picked cl e n d).cluster n).untimedQ (engineKind e) = ((s.cluster n).untimedQ (engineKind e)).erase d := by
  rw [State.picked, State.cluster_modCluster_keeps (Cluster.untimedQ · (engineKind e)) (fun _ => by rfl), State.cluster_modCluster,
    Cluster.untimedQ_setUntimed]

/-! ## The statement -/

theorem completes_tsubAccept_untimed {c q lc : Nat} {s : State} {b : TSub} (hgives : Gives (.tsubAccept c) s (s.tsubAccept q lc b))
    (hlegal : s.tdescBad q b.core b.raw = false) (ht : TD.TIMED b.raw ≠ 1) :
    Completes (.tsubAccept c) s fun t =>
      (t.cluster b.tcl).untimedQ (TD.KIND b.raw) = (s.cluster b.tcl).untimedQ (TD.KIND b.raw) ++ [TDesc.new b 0 0 0]
      ∧ (t.cluster (b.core / 8)).subs = (s.cluster (b.core / 8)).subs.erase b ∧ t.mem = s.mem ∧ t.parts = s.parts := by
  rw [State.tsubAccept_untimed hlegal ht] at hgives
  refine hgives.completes (by simp) (by simp) ⟨?joins, State.subs_subTaken_modCluster _ _ _ _ fun _ => rfl, by simp, by simp⟩
  case joins =>
    rw [State.cluster_modCluster, Cluster.untimedQ_queueUntimed,
      State.cluster_subTaken_keeps (Cluster.untimedQ · (TD.KIND b.raw)) s lc b fun _ => rfl]

theorem completes_tsubAccept_timed {c q lc : Nat} {s : State} {b : TSub} (hl : s.seqLive c = some (q, lc))
    (hgives : Gives (.tsubAccept c) s (s.tsubAccept q lc b)) (hlegal : s.tdescBad q b.core b.raw = false) (ht : TD.TIMED b.raw = 1) :
    Completes (.tsubAccept c) s fun t =>
      (t.cluster b.tcl).timedQ (TD.ENGINE b.raw) = (s.cluster b.tcl).timedQ (TD.ENGINE b.raw) ++ [s.tsubTimed lc b]
      ∧ SMap.get 0 (t.cluster b.tcl).tend (TD.ENGINE b.raw) = s.tsubFinish lc b
      ∧ (t.cluster (b.core / 8)).subs = (s.cluster (b.core / 8)).subs.erase b ∧ t.mem = s.mem
      ∧ (s.tsubFinish lc b ≤ b.dueAt → t.parts = s.parts) ∧ (b.dueAt < s.tsubFinish lc b → (t.part q).fault.isSome = true) := by
  have hsubs : ((s.subQueued lc b).cluster (b.core / 8)).subs = (s.cluster (b.core / 8)).subs.erase b :=
    State.subs_subTaken_modCluster _ _ _ _ fun _ => rfl
  rw [State.tsubAccept_timed hlegal ht] at hgives
  by_cases hlate : b.dueAt < s.tsubFinish lc b
  · have hlive : ((s.subQueued lc b).part q).live = true := by rw [State.part_subQueued, State.live_of_seqLive hl]
    rw [if_pos hlate, State.jobFault_cycle hlive (by decide)] at hgives
    refine hgives.completes (by simp) (by simp)
      ⟨?queue, ?tend, ?subs, by simp, fun h => absurd hlate (Nat.not_lt.2 h), fun _ => by rw [State.part_modPart]; rfl⟩
    all_goals rw [State.cluster_of_clusters (State.modPart_clusters ..)]
    case queue => exact s.timedQ_subQueued lc b
    case tend => exact s.tend_subQueued lc b
    case subs => exact hsubs
  · rw [if_neg hlate] at hgives
    exact hgives.completes (by simp) (by simp)
      ⟨s.timedQ_subQueued lc b, s.tend_subQueued lc b, hsubs, by simp, fun _ => by simp, fun h => absurd h hlate⟩

/-- Settles O14: the TSUB accepted is its core's own, whose word completes without a change of clusters, partitions or memory; the
descriptor then joins its queue, or leaves it for the engine. -/
theorem thicketQueues : Obligations.ThicketQueues := by
  unfold Obligations.ThicketQueues
  refine ⟨fun c q lc s b hl hb => ?accept, fun cl e q s p hl hidle hp hbefore => ?pick⟩
  case accept =>
    have hgives := gives_tsubAccept hl hb
    obtain rfl := State.subReady_core hb
    refine ⟨fun hbad => ?_, fun hlegal => ⟨hgives, completes_tsubAccept_untimed hgives hlegal, completes_tsubAccept_timed hl hgives hlegal⟩⟩
    rw [← State.tsubAccept_bad (lc := lc) hbad]
    exact hgives
  case pick =>
    have hgives := gives_untimedPick hl hidle hp hbefore
    refine ⟨hgives, ?_⟩
    have hform := s.pick_form q cl e p.1 p.2
    refine hgives.completes (by rw [hform]; rfl) (by rw [hform]; rfl) ⟨?_, ?_, by rw [hform]; rfl⟩
    · rw [State.cluster_of_clusters (congrArg State.clusters hform)]
      exact s.run_picked ..
    · rw [State.cluster_of_clusters (congrArg State.clusters hform)]
      exact s.untimedQ_picked ..

end Sys2Proof.Machine
end

section
/-! The work of the thicket's engines (05_thicket.md R155 to R157, R162 to R172; 06_memories.md R204): which units each row of the table does
of a descriptor, and what is left of them in the state. -/

namespace Sys2Proof.Machine

/-! ## Slots of the thicket -/

/-- R200, R202: slots that are taken change tier-columns alone. -/
theorem State.takeSlots_cols {s : State} {cl cc : Nat} {ls : List LineUse} {v : State × Nat} (h : s.takeSlots cl cc ls = some v) :
    v.1 = { s with cols := v.1.cols } := by
  unfold State.takeSlots at h
  refine foldl_keeps (fun acc : Option (State × Nat) => ∀ v, acc = some v → v.1 = { s with cols := v.1.cols }) _ (fun acc tc ih v hv => ?_)
    _ _ (fun v hv => ?_) v h
  · split at hv
    case h_1 => exact absurd hv (by simp)
    case h_2 u =>
      split at hv
      case h_1 => exact absurd hv (by simp)
      case h_2 slot _ =>
        obtain rfl := Option.some.inj hv
        exact congrArg (State.setCol · tc { u.1.col tc with used := (u.1.col tc).used ++ [slot] }) (ih u rfl)
  · obtain rfl := Option.some.inj hv
    rfl

theorem State.run_thktPut (s : State) (cl e : Nat) (d d' : TDesc) : ((s.thktPut cl e false d d').cluster cl).run e = some d' := by
  rw [State.thktPut, State.cluster_modCluster]
  exact Cluster.run_setRun ..

/-! ## Work done -/

/-- R155, R156: a timed descriptor whose lines find slots up to its finish has done all its units. -/
theorem State.workTimed_of_takeSlots {s : State} {q cl e n : Nat} {d : TDesc} {f : Nat → ThX → ThX} {v : State × Nat} (x : ThX)
    (hx : x = (List.range n).foldl (fun x j => f j x) (d.begin_ s q cl e true))
    (hv : x.s.takeSlots cl ((s.part q).bc - ((s.part q).lc - d.start)) x.lines = some v)
    (hin : v.2 ≤ (s.part q).bc + (d.finish - (s.part q).lc)) :
    s.workTimed q cl e d n f = v.1.thktPut cl e true d
      { d with ran := true, late := false, status := x.status, units := x.units, aux0 := x.aux0, aux1 := x.aux1 } := by
  subst hx
  simp only [State.workTimed, hv, if_pos hin]

/-- R157, R204: an untimed descriptor whose next unit finds its slots has done that unit; at a gate a unit of no line needs none. -/
theorem State.workUntimed_of_takeSlots {s : State} {q cl e n : Nat} {d : TDesc} {f : Nat → ThX → ThX} {v : State × Nat} (x y : ThX)
    (last : Bool) (hx : x = f d.prog (d.begin_ s q cl e false)) (hlast : last = (x.stop || decide (n ≤ d.prog + 1)))
    (hy : y = if last then x.logMoe d.raw else x) (hgate : (s.part q).gate = false ∨ y.lines = [])
    (hv : y.s.takeSlots cl (s.part q).bc y.lines = some v) :
    s.workUntimed q cl e d n f = v.1.thktPut cl e false d
      { d with
        ran := last, prog := d.prog + 1, start := (s.part q).lc + (v.2 - (s.part q).bc), finish := (s.part q).lc + (v.2 - (s.part q).bc),
        status := y.status, units := y.units, aux0 := y.aux0, aux1 := y.aux1 } := by
  have hopen : ¬ ((s.part q).gate = true ∧ (!y.lines.isEmpty) = true) := by
    rintro ⟨hg, hl⟩
    obtain h | h := hgate
    · exact absurd (hg.symm.trans h) (by decide)
    · rw [h] at hl
      exact absurd hl (by decide)
  subst hy hlast hx
  unfold State.workUntimed
  dsimp only
  rw [if_neg hopen, hv]

/-! ## The rows of the operations -/

/-- A command is the row by which an engine does the work of one kind and mode: `n` units of a descriptor, unit `j` being `f`'s. -/
def ThktRow (cl e : Nat) : Instr × Nat × Nat × (Nat → Nat) × (Nat → Nat → ThX → ThX) → Prop
  | (w, kind, mode, n, f) =>
    (∃ m : Nat → Bool, m mode = true ∧ ∀ s, exec w s = done s (s.thktWork cl e kind m))
    ∧ ∀ r, TD.KIND r = kind → TD.MODE r = mode → thOp r = ⟨n r, f r⟩

/-- A row for one mode. -/
theorem thktRow_of_mode {w : Instr} {cl e kind mode : Nat} {n : Nat → Nat} {f : Nat → Nat → ThX → ThX}
    (hw : ∀ s, exec w s = done s (s.thktWork cl e kind (· == mode)))
    (hop : ∀ r, TD.KIND r = kind → TD.MODE r = mode → thOp r = ⟨n r, f r⟩) : ThktRow cl e (w, kind, mode, n, f) :=
  ⟨⟨(· == mode), beq_self_eq_true mode, hw⟩, hop⟩

/-- The operations of the thicket's engines, each with its kind, its mode, its units and what a unit does (R162 to R172). -/
def thktRows (cl e mode : Nat) : List (Instr × Nat × Nat × (Nat → Nat) × (Nat → Nat → ThX → ThX)) :=
  [(Instr.gatherRow cl e, 0, 0, TD.COUNT, ThX.gatherRow), (Instr.gatherPage cl e, 0, 1, TD.COUNT, ThX.gatherPage),
   (Instr.scatterRow cl e, 1, 0, TD.COUNT, ThX.scatterRow), (Instr.kvappend cl e, 1, 1, TD.P, ThX.kvappend),
   (Instr.topk cl e, 2, 0, fun _ => 1, fun r _ => ThX.topk r), (Instr.pagescore cl e, 2, 1, fun _ => 1, fun r _ => ThX.pagescore r),
   (Instr.sample cl e, 2, 2, fun _ => 1, fun r _ => ThX.sampleBy (TD.TOPP r) r),
   (Instr.sampleall cl e, 2, 3, fun _ => 1, fun r _ => ThX.sampleBy 0x3F800000 r),
   (Instr.transpose cl e, 3, 0, fun _ => 1, fun r _ => ThX.transpose r), (Instr.relayout cl e, 3, 1, TD.ROWS, ThX.relayout),
   (Instr.requant cl e, 3, 2, TD.ROWS, ThX.requant), (Instr.compactFlags cl e, 4, 0, fun _ => 1, fun r _ => ThX.compactFlags r),
   (Instr.moe cl e, 4, 1, fun _ => 1, fun r _ => ThX.moe r), (Instr.digest cl e, 5, mode, fun _ => 1, fun r _ => ThX.digest r)]

/-- Every operation has its row; DIGEST's takes every mode of its kind, each other one its own. -/
theorem thktRow_of_mem {cl e mode : Nat} : ∀ row ∈ thktRows cl e mode, ThktRow cl e row := by
  simp only [thktRows, List.forall_mem_cons, List.not_mem_nil, false_imp_iff, implies_true, and_true]
  refine ⟨?gatherRow, ?gatherPage, ?scatterRow, ?kvappend, ?topk, ?pagescore, ?sample, ?sampleall, ?transpose, ?relayout, ?requant,
    ?compactFlags, ?moe, ?digest⟩
  case digest => exact ⟨⟨fun _ => true, rfl, fun _ => rfl⟩, fun r hk _ => by simp only [thOp, hk, ThOp.one]⟩
  all_goals exact thktRow_of_mode (fun _ => rfl) fun r hk hm => by simp only [thOp, hk, hm, ThOp.one]

/-- R155: the row of the operation of the descriptor that is next works on it; timed work needs a logical cycle. -/
theorem gives_thktRow {w : Instr} {cl e kind mode q : Nat} {n : Nat → Nat} {f : Nat → Nat → ThX → ThX} {s : State} {timed : Bool} {d : TDesc}
    (hrow : ThktRow cl e (w, kind, mode, n, f)) (hl : s.thktLive cl = some q) (hd : s.thktNext cl e (s.part q).lc = some (timed, d))
    (hk : TD.KIND d.raw = kind) (hm : TD.MODE d.raw = mode) (hg : timed = true → (s.part q).gate = false) :
    Gives w s (if timed then s.workTimed q cl e d (n d.raw) (f d.raw) else s.workUntimed q cl e d (n d.raw) (f d.raw)) := by
  obtain ⟨⟨m, hmode, hw⟩, hop⟩ := hrow
  have hruns : TD.KIND d.raw = kind ∧ m (TD.MODE d.raw) = true ∧ (!timed || !(s.part q).gate) = true := by
    refine ⟨hk, by rw [hm, hmode], ?_⟩
    cases timed
    · rfl
    · rw [hg rfl]
      rfl
  have hwork : s.thktWork cl e kind m = s.workNext q cl e timed d := by
    simp only [State.thktWork, hl, hd]
    exact if_pos hruns
  rw [Gives, hw s, hwork, State.workNext, hop d.raw hk hm]
  rfl

/-! ## The statement -/

/-- Settles O13: the row of the descriptor's operation does all its units where it is timed, and the next one where it is not; the slots they
take change tier-columns alone. -/
theorem thicketWorks : Obligations.ThicketWorks := by
  unfold Obligations.ThicketWorks
  intro cl e kind mode q n w f s timed d hop hl hd hk hm hg p
  have hgives := gives_thktRow (thktRow_of_mem _ hop) hl hd hk hm hg
  constructor
  · intro ht x v hv hin
    rw [ht, if_pos rfl, State.workTimed_of_takeSlots x rfl hv hin] at hgives
    exact ⟨State.takeSlots_cols hv, hgives⟩
  · intro ht x last y hgate v hv
    have hcols := State.takeSlots_cols hv
    rw [ht, if_neg (by decide), State.workUntimed_of_takeSlots x y last rfl rfl rfl hgate hv] at hgives
    have hmem : v.1.mem = y.s.mem := by rw [hcols]
    have hregs : v.1.regs = y.s.regs := by rw [hcols]
    have hcores : v.1.cores = y.s.cores := by rw [hcols]
    exact ⟨hcols, _, hgives, hmem, hregs, hcores, State.run_thktPut ..⟩

end Sys2Proof.Machine
end

section
/-! R215 over every step (06_memories.md): device memory keeps its canonical form. One lemma per function of the model that answers a state:
it takes a state in canonical form to one in canonical form. Each is proved from the lemmas of the functions it calls, in the order of the model's
files, down to the writes of memory, whose lemmas stand in Laws/Memory. -/

namespace Sys2Proof.Machine

/-- R215: device memory is in its canonical form. -/
def State.MemOk (s : State) : Prop := s.memWf = true
/-- A state that a meaning answers has its device memory in canonical form. -/
def Res.MemOk (r : Res) : Prop := ∀ t, r = .next t → t.MemOk

/-! The records that carry a state along are in canonical form where their state is. -/

def Issue.MemOk (x : Issue) : Prop := x.s.MemOk
def MAcc.MemOk (x : MAcc) : Prop := x.s.MemOk
def ThX.MemOk (x : ThX) : Prop := x.s.MemOk
def StepX.MemOk (x : StepX) : Prop := x.s.MemOk
def CommitX.MemOk (x : CommitX) : Prop := x.s.MemOk
def Moving.MemOk (x : Moving) : Prop := x.s.MemOk

section
variable {s : State} (h : s.MemOk)

theorem Issue.MemOk.of {x : Issue} (hx : x.s.MemOk) : x.MemOk := hx
theorem MAcc.MemOk.of {x : MAcc} (hx : x.s.MemOk) : x.MemOk := hx
theorem ThX.MemOk.of {x : ThX} (hx : x.s.MemOk) : x.MemOk := hx
theorem StepX.MemOk.of {x : StepX} (hx : x.s.MemOk) : x.MemOk := hx
theorem CommitX.MemOk.of {x : CommitX} (hx : x.s.MemOk) : x.MemOk := hx
theorem Moving.MemOk.of {x : Moving} (hx : x.s.MemOk) : x.MemOk := hx
theorem Issue.MemOk.ofSome {x y : Issue} (hx : x.MemOk) : some x = some y → y.MemOk := fun e => Option.some.inj e ▸ hx
theorem MAcc.MemOk.ofSome {x y : MAcc} (hx : x.MemOk) : some x = some y → y.MemOk := fun e => Option.some.inj e ▸ hx
theorem Res.MemOk.ite {p : Prop} {_ : Decidable p} {r u : Res} (hr : r.MemOk) (hu : u.MemOk) : Res.MemOk (if p then r else u) :=
  iteInduction (motive := Res.MemOk) (fun _ => hr) fun _ => hu
theorem MAcc.MemOk.ite {p : Prop} {_ : Decidable p} {x y : MAcc} (hx : x.MemOk) (hy : y.MemOk) : (if p then x else y).MemOk :=
  iteInduction (motive := MAcc.MemOk) (fun _ => hx) fun _ => hy
theorem ThX.MemOk.ite {p : Prop} {_ : Decidable p} {x y : ThX} (hx : x.MemOk) (hy : y.MemOk) : (if p then x else y).MemOk :=
  iteInduction (motive := ThX.MemOk) (fun _ => hx) fun _ => hy
theorem StepX.MemOk.ite {p : Prop} {_ : Decidable p} {x y : StepX} (hx : x.MemOk) (hy : y.MemOk) : (if p then x else y).MemOk :=
  iteInduction (motive := StepX.MemOk) (fun _ => hx) fun _ => hy
theorem CommitX.MemOk.ite {p : Prop} {_ : Decidable p} {x y : CommitX} (hx : x.MemOk) (hy : y.MemOk) : (if p then x else y).MemOk :=
  iteInduction (motive := CommitX.MemOk) (fun _ => hx) fun _ => hy
theorem Moving.MemOk.ite {p : Prop} {_ : Decidable p} {x y : Moving} (hx : x.MemOk) (hy : y.MemOk) : (if p then x else y).MemOk :=
  iteInduction (motive := Moving.MemOk) (fun _ => hx) fun _ => hy
theorem MAcc.MemOk.foldl {α : Type} {f : MAcc → α → MAcc} {l : List α} {x : MAcc} (hx : x.MemOk)
    (hf : ∀ y a, y.MemOk → (f y a).MemOk) : (l.foldl f x).MemOk :=
  foldl_keeps MAcc.MemOk f hf l x hx
theorem ThX.MemOk.foldl {α : Type} {f : ThX → α → ThX} {l : List α} {x : ThX} (hx : x.MemOk)
    (hf : ∀ y a, y.MemOk → (f y a).MemOk) : (l.foldl f x).MemOk :=
  foldl_keeps ThX.MemOk f hf l x hx
theorem StepX.MemOk.foldl {α : Type} {f : StepX → α → StepX} {l : List α} {x : StepX} (hx : x.MemOk)
    (hf : ∀ y a, y.MemOk → (f y a).MemOk) : (l.foldl f x).MemOk :=
  foldl_keeps StepX.MemOk f hf l x hx
theorem CommitX.MemOk.foldl {α : Type} {f : CommitX → α → CommitX} {l : List α} {x : CommitX} (hx : x.MemOk)
    (hf : ∀ y a, y.MemOk → (f y a).MemOk) : (l.foldl f x).MemOk :=
  foldl_keeps CommitX.MemOk f hf l x hx
theorem Moving.MemOk.foldl {α : Type} {f : Moving → α → Moving} {l : List α} {x : Moving} (hx : x.MemOk)
    (hf : ∀ y a, y.MemOk → (f y a).MemOk) : (l.foldl f x).MemOk :=
  foldl_keeps Moving.MemOk f hf l x hx

include h

/-- A state with the same memory and fill patterns: the change lies elsewhere. -/
theorem State.MemOk.of_same {t : State} (hm : t.mem = s.mem) (hf : t.fill = s.fill) : t.MemOk :=
  State.memSame.memWf ⟨hm, hf⟩ h
theorem State.MemOk.ite {p : Prop} {_ : Decidable p} {t : State} (ht : t.MemOk) : (if p then s else t).MemOk :=
  iteInduction (motive := State.MemOk) (fun _ => h) fun _ => ht
theorem State.MemOk.foldl {α : Type} {f : State → α → State} {l : List α} (hf : ∀ t a, t.MemOk → (f t a).MemOk) : (l.foldl f s).MemOk :=
  foldl_keeps State.MemOk f hf l s h
theorem State.MemOk.foldr {α : Type} {f : α → State → State} {l : List α} (hf : ∀ a t, t.MemOk → (f a t).MemOk) : (l.foldr f s).MemOk :=
  List.foldrRecOn l f h fun t ht a _ => hf a t ht
theorem State.MemOk.ofSome {v : State} : some s = some v → v.MemOk := fun e => Option.some.inj e ▸ h
theorem State.MemOk.ofSomePair {α : Type} {y : α} {v : State × α} : some (s, y) = some v → v.1.MemOk :=
  fun e => Option.some.inj e ▸ h

/-! ## The reset state -/

omit h in
theorem State.MemOk.reset : State.reset.MemOk := by unfold State.MemOk; decide

/-! ## Operations on the state, device memory and buffers -/

omit h in
theorem Res.MemOk.done {t : State} (ht : t.MemOk) : Res.MemOk (done s t) := by
  rintro _ ⟨⟩
  exact ht.of_same rfl rfl

theorem State.MemOk.setPlain {f v} : (s.setPlain f v).MemOk := h.of_same rfl rfl

theorem State.MemOk.psSet {w v} : (s.psSet w v).MemOk := by
  unfold State.psSet
  extract_lets _ _ s₁
  have hs₁ : s₁.MemOk := h.setPlain.setPlain
  clear_value s₁
  refine .ite h (.ite ?_ (.setPlain ?_))
  · exact hs₁.of_same rfl rfl
  · exact h.of_same rfl rfl

theorem State.MemOk.setReg {r i w} : (s.setReg r i w).MemOk := by
  unfold State.setReg
  split
  · exact .ite h.psSet.psSet h.psSet
  · exact h.of_same rfl rfl

theorem State.MemOk.setFld {f i v} : (s.setFld f i v).MemOk := h.setReg
theorem State.MemOk.note {f i kind k} : (s.note f i kind k).MemOk := h.of_same rfl rfl
theorem State.MemOk.dropNotes {clk} : (s.dropNotes clk).MemOk := h.of_same rfl rfl
theorem State.MemOk.addFld {f i k} : (s.addFld f i k).MemOk := h.setFld.note
theorem State.MemOk.hwSet {f i v} : (s.hwSet f i v).MemOk := h.setFld.note
theorem State.MemOk.hwMax {f i v} : (s.hwMax f i v).MemOk := h.setFld.note
theorem State.MemOk.clrReg {r i} : (s.clrReg r i).MemOk := h.of_same rfl rfl
theorem State.MemOk.raise {n} : (s.raise n).MemOk := h.of_same rfl rfl
theorem State.MemOk.takeFree : s.takeFree.1.MemOk := h.of_same rfl rfl
theorem State.MemOk.setCore {c v} : (s.setCore c v).MemOk := h.of_same rfl rfl
theorem State.MemOk.modCore {c} {f : Core → Core} : (s.modCore c f).MemOk := h.setCore
theorem State.MemOk.setCluster {k v} : (s.setCluster k v).MemOk := h.of_same rfl rfl
theorem State.MemOk.modCluster {k} {f : Cluster → Cluster} : (s.modCluster k f).MemOk := h.setCluster
theorem State.MemOk.setCol {tc v} : (s.setCol tc v).MemOk := h.of_same rfl rfl
theorem State.MemOk.setPart {q v} : (s.setPart q v).MemOk := h.of_same rfl rfl
theorem State.MemOk.modPart {q} {f : Part → Part} : (s.modPart q f).MemOk := h.setPart
theorem State.MemOk.setPort {n v} : (s.setPort n v).MemOk := h.of_same rfl rfl
theorem State.MemOk.modPort {n} {f : Port → Port} : (s.modPort n f).MemOk := h.setPort
theorem State.MemOk.loadTopo {cl} : (s.loadTopo cl).MemOk := h.of_same rfl rfl
theorem State.MemOk.modPartCores {q} {f : Core → Core} : (s.modPartCores q f).MemOk := h.foldl fun _ _ ht => ht.modCore

theorem State.MemOk.poisonEvent {x1} : (s.poisonEvent x1).MemOk := by
  unfold State.poisonEvent
  split
  · exact h.raise.addFld
  · exact h.raise
  · exact h.raise

theorem State.MemOk.unpoison {u} : (s.unpoison u).MemOk := h.of_same rfl rfl
theorem State.MemOk.memLog {c kind unit addr} : (s.memLog c kind unit addr).MemOk := .ite h.setFld.setFld.setFld h.addFld
theorem State.MemOk.health {f ci} : (s.health f ci).MemOk := .ite h.addFld.raise h
theorem State.MemOk.failBank {ci bank} : (s.failBank ci bank).MemOk := h.setFld.setFld.raise
theorem State.MemOk.noteBadPiece {tc line bank} : (s.noteBadPiece tc line bank).MemOk := .ite h (.ite h.setCol.failBank h.setCol)

theorem State.MemOk.readLine {a} : (s.readLine a).1.MemOk := by
  unfold State.readLine
  extract_lets _ _ _ _ _ _ _ _ s₁ s₂
  have hs₁ : s₁.MemOk := .ite h h.addFld
  have hs₂ : s₂.MemOk := hs₁.foldl fun _ _ ht => ht.noteBadPiece
  split
  · exact hs₂.health
  · split
    · exact hs₂.health
    · exact hs₂

theorem State.MemOk.readCsWord {who a n} : (s.readCsWord who a n).1.MemOk := by
  unfold State.readCsWord
  extract_lets _ _ _ _ _ _ s₁ s₂ s₃
  have hs₁ : s₁.MemOk := .ite h h.addFld
  have hs₂ : s₂.MemOk := .ite hs₁.poisonEvent hs₁
  have hs₃ : s₃.MemOk := .ite hs₂.memLog hs₂
  exact hs₃

theorem State.MemOk.readMem {who a n} : (s.readMem who a n).1.MemOk := (State.memSame_readMem ..).memWf h
theorem State.MemOk.clearBad {ks} : (s.clearBad ks).MemOk := h.of_same rfl rfl
theorem State.MemOk.scrubNext {tc} : (s.scrubNext tc).MemOk := .ite h.setFld.addFld h.setFld
theorem State.MemOk.writeMem {who a bs} : (s.writeMem who a bs).1.MemOk := State.memWf_writeMem _ _ _ _ h
theorem State.MemOk.readBuf {c b i n} : (s.readBuf c b i n).1.MemOk := (State.memSame_readBuf ..).memWf h
theorem State.MemOk.writeCsMask {who a val mask} : (s.writeCsMask who a val mask).1.MemOk := State.memWf_writeCsMask _ _ _ _ _ h

theorem State.MemOk.writeBufMask {c b word val mask} : (s.writeBufMask c b word val mask).1.MemOk := by
  unfold State.writeBufMask
  extract_lets _ _ _ _ _ _ s₁ s₂ s₃ _ _ s₄ s₅
  have hs₁ : s₁.MemOk := .ite h h.addFld
  have hs₂ : s₂.MemOk := .ite hs₁.poisonEvent hs₁
  have hs₃ : s₃.MemOk := .ite hs₂ hs₂.memLog
  have hs₄ : s₄.MemOk := hs₃.clearBad
  have hs₅ : s₅.MemOk := hs₄.unpoison
  exact hs₅.modCore

/-! ## Jobs and the records of a partition -/

theorem State.MemOk.landLedger {q} : (s.landLedger q).MemOk := by
  unfold State.landLedger
  extract_lets
  refine .foldl h fun t e ht => ?_
  extract_lets _ t
  have ht : t.MemOk := by
    unfold t
    refine .foldl ht fun u x hu => ?_
    split
    · exact hu.writeMem
    · exact hu
  exact ht.setCol

theorem State.MemOk.dropSched {q} : (s.dropSched q).MemOk := h.of_same rfl rfl
theorem State.MemOk.unfreeze {q} : (s.unfreeze q).MemOk := h.addFld.modPart

theorem State.MemOk.stopJob {q f} : (s.stopJob q f).MemOk := by
  unfold State.stopJob
  extract_lets s₁ _ s₂ s₃ s₄ s₅ s₆ s₇ s₈ s₉
  have hs₁ : s₁.MemOk := .ite h.unfreeze h
  have hs₂ : s₂.MemOk := hs₁.setPart
  have hs₃ : s₃.MemOk := hs₂.setFld.setFld.setFld.setFld.setFld
  have hs₄ : s₄.MemOk := .ite hs₃.setFld hs₃
  have hs₅ : s₅.MemOk := hs₄.dropSched
  have hs₆ : s₆.MemOk := hs₅.foldl fun _ _ ht => ht.modCluster
  have hs₇ : s₇.MemOk := hs₆.modPartCores
  have hs₈ : s₈.MemOk := hs₇.landLedger
  have hs₉ : s₉.MemOk := .ite hs₈.writeMem hs₈
  exact hs₉.raise

theorem State.MemOk.jobFault {q cause status core port} : (s.jobFault q cause status core port).MemOk :=
  .ite (.ite (.ite h.setFld.setFld.setFld.setFld h) h.addFld) (.ite (.ite h.setPart h.stopJob) h)

theorem State.MemOk.faultAll {cause status} : (s.faultAll cause status).MemOk := h.foldl fun _ _ ht => .ite ht.jobFault ht
theorem State.MemOk.choice {q f} : (s.choice q f).MemOk := h.addFld.addFld

theorem State.MemOk.recordIllegal {c reason queue opcode addr} : (s.recordIllegal c reason queue opcode addr).MemOk :=
  .ite h.setFld.setFld.setFld.setFld (.addFld (.ite h.setFld.setFld.setFld.setFld h))

theorem State.MemOk.rejectWord {q c reason queue opcode addr} : (s.rejectWord q c reason queue opcode addr).MemOk :=
  h.recordIllegal.jobFault

theorem State.MemOk.reject {q c reason queue opcode addr} : (s.reject q c reason queue opcode addr).MemOk := h.modCore.rejectWord

theorem State.MemOk.recordFreeze {q cause core ch again} : (s.recordFreeze q cause core ch again).MemOk := by
  unfold State.recordFreeze
  extract_lets _ s₁
  have hs₁ : s₁.MemOk := .ite h h.setFld.setFld
  exact .ite hs₁ hs₁.setFld

theorem State.MemOk.freeze {q cause core ch} : (s.freeze q cause core ch).MemOk := by
  unfold State.freeze
  extract_lets _ _ s₁ s₂
  have hs₁ : s₁.MemOk := h.setPart
  have hs₂ : s₂.MemOk := hs₁.recordFreeze
  exact .ite h (.ite hs₂ hs₂.addFld.setFld)

theorem State.MemOk.lateRow {c} {f : State → State} (hf : ∀ t, t.MemOk → (f t).MemOk) : (s.lateRow c f).MemOk := by
  unfold State.lateRow
  split
  · exact hf _ h
  · exact .ite (hf _ h.modPart) h

theorem State.MemOk.noteSyncSat {c n} : (s.noteSyncSat c n).MemOk := by
  unfold State.noteSyncSat
  extract_lets _ _ _ _ t t₂
  have ht : t.MemOk := h.setCore
  have ht₂ : t₂.MemOk := .ite ht.hwSet.setFld (.ite ht.setFld ht)
  exact .ite ht₂ ht₂.raise

theorem State.MemOk.syncAdd {c n inc} : (s.syncAdd c n inc).MemOk := .ite h.setCore h.setCore.noteSyncSat

theorem State.MemOk.signal {c w lc} : (s.signal c w lc).MemOk := by
  unfold State.signal
  extract_lets
  refine .ite h ?_
  split
  · exact h.syncAdd
  · exact h.modCore
  · exact h.modCore
  · exact h

theorem State.MemOk.takePort {a wr} : (s.takePort a wr).1.MemOk := by
  unfold State.takePort
  extract_lets _ _ _ _ s₁ s₂
  have hs₁ : s₁.MemOk := h.memLog
  have hs₂ : s₂.MemOk := hs₁.jobFault
  split
  · exact h.of_same rfl rfl
  · split
    · exact h
    · exact hs₂

theorem State.MemOk.portBytes {a o n} : (s.portBytes a o n).1.MemOk := by
  unfold State.portBytes
  extract_lets r s₁ _ v
  have hr : r.1.MemOk := by
    unfold r
    split
    · exact h
    · exact h.takePort
  have hs₁ : s₁.MemOk := hr
  have hv : v.1.MemOk := by
    unfold v
    split
    · split
      · exact hs₁
      · exact hs₁.readCsWord
    · split
      · exact hs₁
      · exact hs₁.readBuf
  exact .ite hv.jobFault hv

theorem State.MemOk.portRead {a} : (s.portRead a).1.MemOk := h.portBytes
theorem State.MemOk.keepOld {a} : (s.keepOld a).MemOk := .ite h.modCore h

theorem State.MemOk.portWrite {a val mask} : (s.portWrite a val mask).MemOk := by
  unfold State.portWrite
  extract_lets r s₁ v
  have hr : r.1.MemOk := by
    unfold r
    split
    · exact h
    · exact h.takePort
  have hs₁ : s₁.MemOk := hr.keepOld
  have hv : v.1.MemOk := by
    unfold v
    split
    · exact hs₁.writeCsMask
    · exact hs₁.writeBufMask
  exact .ite hr (.ite hv.jobFault hv)

theorem State.MemOk.planFor {c ps} : (s.planFor c ps).MemOk := h.modCore

theorem State.MemOk.planRead {q c p} : (s.planRead q c p).MemOk := by
  unfold State.planRead
  extract_lets r _ r₂
  have hr : r.1.MemOk := h.portRead
  have hr₂ : r₂.1.MemOk := h.takePort
  split
  · exact hr.modCore
  · exact .ite hr₂ hr₂.modCore
  · exact h

theorem State.MemOk.planWrite {q c p} : (s.planWrite q c p).MemOk := by
  unfold State.planWrite
  split
  · exact h
  · exact h.portWrite
  · exact h.portWrite.modCore

theorem State.MemOk.readPhase {q lc} : (s.readPhase q lc).MemOk := .modPartCores (h.foldl fun _ _ ht => ht.planRead)
theorem State.MemOk.writePhase {q lc} : (s.writePhase q lc).MemOk := .modPartCores (h.foldl fun _ _ ht => ht.planWrite)

/-! ## Issue, runs and the sequencer -/

theorem Issue.MemOk.issueOp {c qc op} {v} : s.issueOp c qc op = some v → v.MemOk := by
  unfold State.issueOp
  split
  · nofun
  · extract_lets
    split
    · nofun
    · extract_lets
      split
      · exact Issue.MemOk.ofSome (.of h.modCore)
      · nofun

theorem State.MemOk.endRun {c qc e due} : (s.endRun c qc e due).MemOk := h.modCore

theorem State.MemOk.completeRun {c qc lc} : (s.completeRun c qc lc).MemOk := by
  unfold State.completeRun
  split
  · exact h
  · exact .signal (.modCore (h.modCore.foldl fun _ _ ht => ht.syncAdd))

theorem State.MemOk.retireQ {c qc lc n} : (s.retireQ c qc lc n).MemOk := by
  induction n generalizing s with
  | zero => exact h
  | succ n ih =>
    rw [State.retireQ]
    split
    · exact .ite (ih h.completeRun) h
    · exact h

theorem State.MemOk.retire {c lc} : (s.retire c lc).MemOk := h.foldl fun _ _ ht => ht.retireQ

theorem State.MemOk.completeBy {c qc ops} : (s.completeBy c qc ops).MemOk := by
  unfold State.completeBy
  split
  · exact h.completeRun.retire
  · exact h

theorem State.MemOk.countWaits {c lc} : (s.countWaits c lc).MemOk := by
  unfold State.countWaits
  extract_lets _ s₁ _ _ _ s₂ s₃
  have hs₁ : s₁.MemOk := .ite h.addFld h
  have hs₂ : s₂.MemOk := .ite hs₁.addFld hs₁
  have hs₃ : s₃.MemOk := .ite hs₂.addFld hs₂
  split
  · exact .ite hs₃.addFld hs₃
  · exact hs₃

theorem State.MemOk.fetch {c lc} : (s.fetch c lc).MemOk := h.planFor.modCore

theorem State.MemOk.inspect {q c lc r} : (s.inspect q c lc r).MemOk := by
  unfold State.inspect
  extract_lets
  split
  · exact h.reject
  · exact h.modCore

theorem State.MemOk.rejectHead {q c e reason} : (s.rejectHead q c e reason).MemOk := h.reject
theorem State.MemOk.moveHead {c lc e} : (s.moveHead c lc e).MemOk := h.modCore
theorem State.MemOk.dispatch {q c lc e} : (s.dispatch q c lc e).MemOk := .ite h (.ite h.rejectHead (.ite h h.moveHead))

theorem Res.MemOk.execFetchRequest {core} : (execFetchRequest core s).MemOk := by
  unfold Machine.execFetchRequest
  split
  · exact .ite (.done h.fetch) (.done h)
  · exact .done h

theorem Res.MemOk.execFetchInspect {core} : (execFetchInspect core s).MemOk := by
  unfold Machine.execFetchInspect
  split
  · exact .ite (.done h.inspect) (.done h)
  · exact .done h

theorem Res.MemOk.execDispatch {core} : (execDispatch core s).MemOk := by
  unfold Machine.execDispatch
  split
  · split
    · exact .done h.dispatch
    · exact .done h
  · exact .done h

theorem State.MemOk.execSeqWord {c op} : (s.execSeqWord c op).MemOk := by
  unfold State.execSeqWord
  split
  · exact h
  · split
    · exact h
    · extract_lets
      refine .ite ?_ h
      refine .ite h.rejectHead ?_
      split
      next i e =>
        have hi := Issue.MemOk.issueOp h e
        exact .endRun hi
      · exact h

theorem Res.MemOk.execNop {core queue} : (execNop core queue s).MemOk := by
  unfold Machine.execNop
  refine .ite (.done h.execSeqWord) ?_
  split
  next i e =>
    have hi := Issue.MemOk.issueOp h e
    exact .done (.endRun hi)
  · exact .done h

theorem Res.MemOk.execPeerSignal {core} : (execPeerSignal core s).MemOk := by
  unfold Machine.execPeerSignal
  split
  · exact .done h
  · extract_lets
    split
    · exact .done h
    · exact .done h.modCore.syncAdd

theorem Res.MemOk.execClusterSignal {core} : (execClusterSignal core s).MemOk := by
  unfold Machine.execClusterSignal
  split
  · exact .done h
  · extract_lets
    split
    · exact .done h
    · exact .done (h.modCore.foldl fun _ _ hu => hu.syncAdd)

/-! ## The matrix arrays -/

theorem State.MemOk.loadStep {q c w a j f} : (s.loadStep q c w a j f).MemOk := by
  unfold State.loadStep
  extract_lets _ r _ rs t
  have hr : r.1.MemOk := h.readBuf
  clear_value r
  have hrs : rs.1.MemOk := by
    unfold rs
    split
    · exact hr.readBuf
    · exact hr
  have ht : t.MemOk := hrs.modCore
  exact .ite ht.jobFault ht

theorem State.MemOk.loadCycle {q c lc} : (s.loadCycle q c lc).MemOk := by
  unfold State.loadCycle
  extract_lets s₁
  have hs₁ : s₁.MemOk := by
    unfold s₁
    refine .foldl h fun t r ht => ?_
    split
    · exact .ite (ht.foldl fun _ _ hu => hu.loadStep) ht
    · exact ht
  exact .ite hs₁ hs₁.modCore

theorem State.MemOk.loadw {c lc e} : (s.loadw c lc e).MemOk := by
  unfold State.loadw
  extract_lets
  split
  · exact h
  · exact h.modCore.endRun

theorem State.MemOk.noteSat {c exact n} : (s.noteSat c exact n).MemOk := .ite h h.hwSet.addFld
theorem State.MemOk.accWrite {c a} : (s.accWrite c a).MemOk := h.modCore.noteSat
theorem State.MemOk.accCycle {c lc} : (s.accCycle c lc).MemOk := .ite h (h.modCore.foldl fun _ _ ht => ht.accWrite)
theorem State.MemOk.rowCycle {q c lc} : (s.rowCycle q c lc).MemOk := .ite h h.modCore

theorem State.MemOk.askRow {q c lc p} : (s.askRow q c lc p).MemOk := by
  unfold State.askRow
  extract_lets r
  have hr : r.1.MemOk := h.portRead
  refine .ite h.planFor ?_
  split
  · exact hr.modCore
  · exact hr

theorem State.MemOk.endPhase {c n wrote e} : (s.endPhase c n wrote e).MemOk := .ite h.endRun (.ite h.endRun.modCore h.modCore)

theorem State.MemOk.mmulPhase {q c lc e} : (s.mmulPhase q c lc e).MemOk := by
  unfold State.mmulPhase
  extract_lets _ _ _ _ s₁
  have hs₁ : s₁.MemOk := h.modCore
  split
  · exact .endPhase (hs₁.setCore.foldl fun _ _ ht => ht.askRow)
  · exact h

theorem Res.MemOk.execLoadw {core} : (execLoadw core s).MemOk := by
  unfold Machine.execLoadw
  split
  next i e =>
    have hi := Issue.MemOk.issueOp h e
    exact .done (.loadw hi)
  · exact .done h

theorem State.MemOk.mmulRow {c} : (s.mmulRow c).MemOk := by
  unfold State.mmulRow
  split
  · exact h.mmulPhase
  · split
    next i e =>
      have hi := Issue.MemOk.issueOp h e
      exact .mmulPhase hi
    · exact h

/-! ## Chains -/

theorem State.MemOk.noteFlags {c f} : (s.noteFlags c f).MemOk := by
  unfold State.noteFlags
  extract_lets
  exact .ite (.hwSet (.ite (.hwSet (.ite (.hwSet (.ite (.hwSet (.ite h.hwSet h)) (.ite h.hwSet h))) (.ite (.hwSet (.ite h.hwSet h)) (.ite
    h.hwSet h)))) (.ite (.hwSet (.ite (.hwSet (.ite h.hwSet h)) (.ite h.hwSet h))) (.ite (.hwSet (.ite h.hwSet h)) (.ite h.hwSet h)))))
    (.ite (.hwSet (.ite (.hwSet (.ite (.hwSet (.ite h.hwSet h)) (.ite h.hwSet h))) (.ite (.hwSet (.ite h.hwSet h)) (.ite h.hwSet h))))
    (.ite (.hwSet (.ite (.hwSet (.ite h.hwSet h)) (.ite h.hwSet h))) (.ite (.hwSet (.ite h.hwSet h)) (.ite h.hwSet h))))

theorem State.MemOk.chainVec {q c r} : (s.chainVec q c r).MemOk := by
  unfold State.chainVec
  extract_lets _ _ _ _ _ _ _ _ _ _ _ _ s₁ s₂ s₃
  have hs₁ : s₁.MemOk := h.modCore
  have hs₂ : s₂.MemOk := hs₁.noteSat
  have hs₃ : s₃.MemOk := .ite hs₂ hs₂.addFld
  exact .ite hs₃.noteFlags hs₃

theorem State.MemOk.chainCycle {q c lc} : (s.chainCycle q c lc).MemOk := .ite h (h.modCore.foldl fun _ _ ht => .ite ht.chainVec ht)

theorem State.MemOk.chainRun {q c lc e} : (s.chainRun q c lc e).MemOk := by
  unfold State.chainRun
  extract_lets _ _ _ _ _ _ _ _ _ _ s₁ s₂ s₃
  have hs₁ : s₁.MemOk := h.planFor
  have hs₂ : s₂.MemOk := hs₁.modCore
  have hs₃ : s₃.MemOk := .ite hs₂.noteFlags hs₂
  exact hs₃.endRun

theorem State.MemOk.setk {c lc e} : (s.setk c lc e).MemOk := h.modCore.endRun

theorem Res.MemOk.execChain {core} : (execChain core s).MemOk := by
  unfold Machine.execChain
  split
  next i e =>
    have hi := Issue.MemOk.issueOp h e
    exact .done (.chainRun hi)
  · exact .done h

theorem Res.MemOk.execSetk {core} : (execSetk core s).MemOk := by
  unfold Machine.execSetk
  split
  next i e =>
    have hi := Issue.MemOk.issueOp h e
    exact .done (.setk hi)
  · exact .done h

/-! ## The mover -/

theorem State.MemOk.passedSlot {tc owner} {v} : s.passedSlot tc owner = some v → v.MemOk := by
  unfold State.passedSlot
  extract_lets
  split
  · nofun
  · split
    · split
      · split
        · exact h.setCol.ofSome
        · nofun
      · nofun
    · nofun

theorem State.MemOk.passedSlots {tc owner k v} (e : s.passedSlots tc owner k = some v) : v.MemOk := by
  induction k generalizing s with
  | zero => exact Option.some.inj e ▸ h
  | succ k ih =>
    obtain ⟨t, ht, e⟩ := Option.bind_eq_some_iff.1 e
    exact ih (h.passedSlot ht) e

theorem State.MemOk.addXfer {tc x} : (s.addXfer tc x).MemOk := h.setCol

theorem State.MemOk.writeLine {r a w key len} {v} : s.writeLine r a w key len = some v → v.1.MemOk := by
  unfold State.writeLine
  extract_lets
  split
  · split
    · nofun
    · exact h.addXfer.ofSomePair
  · split
    · nofun
    · split
      · nofun
      · exact h.addXfer.ofSomePair

theorem State.MemOk.writeLines {r a w g len v} (e : s.writeLines r a w g len = some v) : v.1.MemOk := by
  refine foldl_keeps (fun acc : Option (State × Nat) => ∀ v, acc = some v → v.1.MemOk) _ (fun acc u ih v e => ?_) _ _ ?_ v e
  · split at e
    case h_1 => exact nomatch e
    case h_2 x =>
      split at e
      case h_1 => exact nomatch e
      case h_2 t ht =>
        obtain rfl := Option.some.inj e
        exact State.MemOk.writeLine (v := t) (ih x rfl) ht
  · rintro _ ⟨⟩
    exact h

omit h in
theorem MAcc.MemOk.write {r dst a s0 g len} {m : MAcc} (h : m.MemOk) : (m.write r dst a s0 g len).MemOk := by
  unfold MAcc.write
  extract_lets
  split
  · exact .of (.planFor h)
  · split
    · exact h
    next v e =>
      have hv := State.MemOk.writeLines h e
      exact hv

omit h in
theorem MAcc.MemOk.fromBulk {r ad len s0 dst} {m : MAcc} (h : m.MemOk) : (m.fromBulk r ad len s0 dst).MemOk := by
  unfold MAcc.fromBulk
  split
  · exact MAcc.MemOk.of (State.MemOk.foldl h fun _ _ hs => hs.addXfer)
  · exact h

omit h in
theorem MAcc.MemOk.point {r k p} {m : MAcc} (h : m.MemOk) : (m.point r k p).MemOk := by
  unfold MAcc.point
  extract_lets _ _ _ s₁
  have hs₁ : s₁.MemOk := .modCore h
  refine .ite h ?_
  split
  · exact .write hs₁
  · exact .write (.of (.planFor (.modCore h)))
  · exact h.fromBulk

theorem MAcc.MemOk.moveAll {r ps} {v} : s.moveAll r ps = some v → v.MemOk := by
  unfold State.moveAll
  extract_lets _ _ m0 m
  have hm0 : m0.MemOk := h
  have hm : m.MemOk := hm0.foldl fun _ _ hm => hm.point
  split
  · nofun
  · exact MAcc.MemOk.ofSome (.of (.modCore hm))

theorem State.MemOk.copyRun {q c lc e} : (s.copyRun q c lc e).MemOk := by
  unfold State.copyRun
  split
  next m e =>
    have hm := MAcc.MemOk.moveAll h e
    exact .endRun hm
  · exact h.rejectWord

theorem State.MemOk.ringRun {push c i e} : (s.ringRun push c i e).MemOk := h.planFor.modCore.endRun

theorem State.MemOk.ringDecide {q c e r} : (s.ringDecide q c e r).MemOk := by
  unfold State.ringDecide
  extract_lets _ _ _ _ s₁ _ _ _ _ _ s₂
  have hs₁ : s₁.MemOk := h.modCore
  have hs₂ : s₂.MemOk := hs₁.modCore.planFor
  refine .ite hs₁.rejectWord ?_
  split
  · exact hs₂.rejectWord
  next m e =>
    have hm := MAcc.MemOk.moveAll hs₂ e
    exact .modCore (.ite (.modCluster hm) hm)

theorem State.MemOk.ringCycle {q c lc} : (s.ringCycle q c lc).MemOk := by
  unfold State.ringCycle
  refine .foldl h fun t r ht => ?_
  split
  · exact ht.ringDecide
  · exact ht

theorem State.MemOk.ringViolation {q c kind addr} : (s.ringViolation q c kind addr).MemOk := h.memLog.raise.modPart

theorem State.MemOk.guardStep {q cl g} : (s.guardStep q cl g).MemOk :=
  .ite h.modCluster.ringViolation (.ite h.modCluster.ringViolation h.modCluster)

theorem State.MemOk.guardTick {q cl lc} : (s.guardTick q cl lc).MemOk := .ite h (h.modCluster.foldl fun _ _ ht => ht.guardStep)

theorem Res.MemOk.execCopy {core} : (execCopy core s).MemOk := by
  unfold Machine.execCopy
  split
  next i e =>
    have hi := Issue.MemOk.issueOp h e
    exact .done (.copyRun hi)
  · exact .done h

theorem Res.MemOk.execPush {core} : (execPush core s).MemOk := by
  unfold Machine.execPush
  split
  next i e =>
    have hi := Issue.MemOk.issueOp h e
    exact .done (.ringRun hi)
  · exact .done h

theorem Res.MemOk.execPop {core} : (execPop core s).MemOk := by
  unfold Machine.execPop
  split
  next i e =>
    have hi := Issue.MemOk.issueOp h e
    exact .done (.ringRun hi)
  · exact .done h

/-! ## The links of a core and the package mesh -/

theorem State.MemOk.setChan {c ch v} : (s.setChan c ch v).MemOk := h.modCore
theorem State.MemOk.landBytes {c ch bs m sig} : (s.landBytes c ch bs m sig).MemOk := h.setChan
theorem State.MemOk.takeBytes {c ch n key} : (s.takeBytes c ch n key).1.MemOk := h.setChan.modCore
theorem State.MemOk.awaitBytes {q c ch} : (s.awaitBytes q c ch).MemOk := h.freeze
theorem State.MemOk.enterRun {q c lc t} : (s.enterRun q c lc t).MemOk := .ite h h.modCluster.modCore
theorem State.MemOk.enterSends {q c lc} : (s.enterSends q c lc).MemOk := h.foldl fun _ _ ht => ht.enterRun
theorem State.MemOk.startSend {c lc rank t rs} : (s.startSend c lc rank t rs).MemOk := h.planFor.modCore
theorem State.MemOk.sendRun {c lc e} : (s.sendRun c lc e).MemOk := h.startSend.endRun
theorem State.MemOk.recvWrites {c w j i key m0 n} : (s.recvWrites c w j i key m0 n).MemOk := h.takeBytes.planFor

omit h in
theorem State.MemOk.recvRun {q c lc e} {s0 : State} {s : State} (h : s0.MemOk) (hs : s.MemOk) : (s0.recvRun s q c lc e).MemOk := by
  unfold State.recvRun
  extract_lets _ _ _ s₁
  have hs₁ : s₁.MemOk := hs.recvWrites.endRun
  exact .ite h.awaitBytes (.ite hs₁ hs₁.modCore)

theorem State.MemOk.recvCycle {c lc} : (s.recvCycle c lc).MemOk := h.foldl fun _ _ ht => .ite ht.recvWrites.modCore ht
theorem State.MemOk.pleachEnd {c id} : (s.pleachEnd c id).MemOk := h.modCore

theorem State.MemOk.pleachRun {c lc e} : (s.pleachRun c lc e).MemOk := by
  unfold State.pleachRun
  extract_lets _ s₁
  have hs₁ : s₁.MemOk := h.endRun
  split
  · exact hs₁.modCore
  · exact hs₁.startSend.modCore.modCore

theorem State.MemOk.pleachRecv {q c e} : (s.pleachRecv q c e).MemOk := by
  unfold State.pleachRecv
  extract_lets _ _ _ _ _ v
  have hv : v.1.MemOk := by
    unfold v
    split
    · exact h
    · exact h.takeBytes
  exact .ite h.awaitBytes hv.planFor.modCore.pleachEnd

theorem State.MemOk.meshArrive {cl i} : (s.meshArrive cl i).MemOk := by
  unfold State.meshArrive
  extract_lets s₁
  have hs₁ : s₁.MemOk := h.modCluster
  split
  · exact h
  · exact hs₁.landBytes

theorem State.MemOk.meshTick {p cl} : (s.meshTick p cl).MemOk := .ite h h.modCluster

theorem State.MemOk.landAll {q n} : (s.landAll q n).MemOk := by
  induction n generalizing s with
  | zero => exact h
  | succ n ih =>
    rw [State.landAll]
    split
    · exact ih h.meshArrive
    · exact h

theorem State.MemOk.drainFlit {cl i} : (s.drainFlit cl i).MemOk := by
  unfold State.drainFlit
  split
  · exact h
  · exact .ite h.modCluster.addFld.raise (.ite h.modCluster h.modCluster.modPort)

theorem State.MemOk.drainAll {n} : (s.drainAll n).MemOk := by
  induction n generalizing s with
  | zero => exact h
  | succ n ih =>
    rw [State.drainAll]
    split
    · exact ih h.drainFlit
    · exact h

theorem Res.MemOk.execSend {core} : (execSend core s).MemOk := by
  unfold Machine.execSend
  split
  next i e =>
    have hi := Issue.MemOk.issueOp h e
    exact .done (.sendRun hi)
  · exact .done h

theorem State.MemOk.recvRow {core} : (s.recvRow core).MemOk := by
  unfold State.recvRow
  split
  next i e => exact .recvRun h (Issue.MemOk.issueOp h e)
  · exact h

theorem Res.MemOk.execPleach {core} : (execPleach core s).MemOk := by
  unfold Machine.execPleach
  split
  next i e =>
    have hi := Issue.MemOk.issueOp h e
    exact .done (.pleachRun hi)
  · exact .done h

theorem State.MemOk.pleachRecvRow {core} : (s.pleachRecvRow core).MemOk := by
  unfold State.pleachRecvRow
  split
  · split
    · exact h.pleachRecv
    · exact h
  · exact h

theorem Res.MemOk.execLandingArrival {cl} : (execLandingArrival cl s).MemOk := by
  unfold Machine.execLandingArrival
  split
  · exact .done h.meshArrive
  · exact .done h

theorem Res.MemOk.execSendBufferDrain {cl} : (execSendBufferDrain cl s).MemOk := by
  unfold Machine.execSendBufferDrain
  split
  · exact .done h.drainFlit
  · exact .done h

/-! ## The work of the thicket -/

omit h in
theorem ThX.MemOk.noSlot {x : ThX} (h : x.MemOk) : x.noSlot.MemOk := .ite (.of (.jobFault h)) h

omit h in
theorem ThX.MemOk.use {wr a n} {x : ThX} (h : x.MemOk) : (x.use wr a n).MemOk := .ite h h

omit h in
theorem ThX.MemOk.keep {a n} {x : ThX} (h : x.MemOk) : (x.keep a n).MemOk := .ite h (.of (.modPart h))

omit h in
theorem ThX.MemOk.rd {a n} {x : ThX} (h : x.MemOk) : (x.rd a n).1.MemOk := by
  unfold ThX.rd
  extract_lets r
  have hr : r.1.MemOk := .readMem h
  split
  · exact h
  · split
    · exact h.noSlot
    · exact .use (.of (.ite hr.jobFault hr))

omit h in
theorem ThX.MemOk.wr {a bs} {x : ThX} (h : x.MemOk) : (x.wr a bs).MemOk := by
  unfold ThX.wr
  extract_lets x₂ r
  have hx₂ : x₂.MemOk := h.keep
  have hr : r.1.MemOk := .writeMem hx₂
  exact .ite h (.ite h.noSlot (.use (.of (.ite hr.jobFault hr))))

omit h in
theorem ThX.MemOk.miss {x : ThX} (h : x.MemOk) : x.miss.MemOk := h

omit h in
theorem ThX.MemOk.unit {x : ThX} (h : x.MemOk) : x.unit.MemOk := .ite h h

omit h in
theorem ThX.MemOk.gatherRow {r j} {x : ThX} (h : x.MemOk) : (x.gatherRow r j).MemOk := by
  unfold ThX.gatherRow
  extract_lets i
  have hi : i.1.MemOk := h.rd
  split
  · exact hi.rd.wr.unit
  · exact hi.miss.wr.unit

omit h in
theorem ThX.MemOk.gatherPage {r j} {x : ThX} (h : x.MemOk) : (x.gatherPage r j).MemOk := .ite h.rd.rd.wr.unit h.rd.miss.wr.unit

omit h in
theorem ThX.MemOk.scatterRow {r j} {x : ThX} (h : x.MemOk) : (x.scatterRow r j).MemOk := by
  unfold ThX.scatterRow
  extract_lets i v
  have hi : i.1.MemOk := h.rd
  have hv : v.1.MemOk := hi.rd
  split
  · exact hv.wr.unit
  · exact hi.miss.unit

omit h in
theorem ThX.MemOk.kvHead {r i p kp vp h} {x : ThX} (hx : x.MemOk) : (kvHead r i p kp vp x h).MemOk := by
  unfold Machine.kvHead
  extract_lets _ _ _ k v _ _ x₂ _ o
  have hk : k.1.MemOk := hx.rd
  have hv : v.1.MemOk := hk.rd
  have hx₂ : x₂.MemOk := .ite (.wr (.ite hv.wr hv.miss)) (.miss (.ite hv.wr hv.miss))
  have ho : o.1.MemOk := by
    unfold o
    split
    · exact hx₂
    · exact hx₂.rd
  exact ho.wr

omit h in
theorem ThX.MemOk.kvappend {r i} {x : ThX} (h : x.MemOk) : (x.kvappend r i).MemOk := .ite h (.unit (h.rd.foldl fun _ _ hx => hx.kvHead))

omit h in
theorem ThX.MemOk.topk {r} {x : ThX} (h : x.MemOk) : (x.topk r).MemOk := .ite h.rd.wr.wr (.of h.rd.wr.wr)

omit h in
theorem ThX.MemOk.pagescore {r} {x : ThX} (h : x.MemOk) : (x.pagescore r).MemOk := by
  unfold ThX.pagescore
  extract_lets _ qs _ sm x₂
  have hqs : qs.1.MemOk := h.rd
  have hsm : sm.1.MemOk := by
    unfold sm
    refine foldl_keeps (fun x : ThX × List (List Num × List Num) => x.1.MemOk) _ (fun acc j hacc => ?_) _ _ hqs
    exact hacc.rd
  have hx₂ : x₂.MemOk := hsm.foldl fun _ _ hx => hx.wr
  exact .ite hx₂ hx₂

omit h in
theorem ThX.MemOk.sampleBy {topp r} {x : ThX} (h : x.MemOk) : (x.sampleBy topp r).MemOk := .ite h.rd.wr (.of h.rd.wr)

omit h in
theorem ThX.MemOk.transpose {r} {x : ThX} (h : x.MemOk) : (x.transpose r).MemOk := by
  unfold ThX.transpose
  extract_lets _ rows x₂
  have hrows : rows.1.MemOk := by
    unfold rows
    refine foldl_keeps (fun x : ThX × List (List Byte) => x.1.MemOk) _ (fun acc i hacc => ?_) _ _ h
    exact hacc.rd
  have hx₂ : x₂.MemOk := hrows.foldl fun _ _ hx => hx.wr
  exact .ite hx₂ hx₂

omit h in
theorem ThX.MemOk.rowDone {n} {x : ThX} (h : x.MemOk) : (x.rowDone n).MemOk := .ite h h

omit h in
theorem ThX.MemOk.relayout {r i} {x : ThX} (h : x.MemOk) : (x.relayout r i).MemOk := h.rd.wr.rowDone

omit h in
theorem ThX.MemOk.requant {r i} {x : ThX} (h : x.MemOk) : (x.requant r i).MemOk := by
  unfold ThX.requant
  extract_lets v
  have hv : v.1.MemOk := h.rd
  split
  · exact hv.wr.wr.rowDone
  · exact h

omit h in
theorem ThX.MemOk.compactFlags {r} {x : ThX} (h : x.MemOk) : (x.compactFlags r).MemOk := .ite h.rd.wr (.of h.rd.wr)

omit h in
theorem ThX.MemOk.moe {r} {x : ThX} (h : x.MemOk) : (x.moe r).MemOk := by
  unfold ThX.moe
  extract_lets c v d0 ch _ _ _ x₂ x₃ x₄
  have hc : c.1.MemOk := h.rd
  have hv : v.1.MemOk := hc.rd
  have hd0 : d0.1.MemOk := by
    unfold d0
    split
    · exact h
    · exact hv
  have hch : ch.1.MemOk := hd0.rd
  have hx₂ : x₂.MemOk := hch.foldl fun _ _ hx => hx.wr
  have hx₃ : x₃.MemOk := hx₂.wr
  have hx₄ : x₄.MemOk := .ite hx₃.wr hx₃
  exact .ite hx₄ (.of (.addFld (.addFld hx₄)))

omit h in
theorem ThX.MemOk.digest {r} {x : ThX} (h : x.MemOk) : (x.digest r).MemOk := by
  unfold ThX.digest
  extract_lets _ st _ _ _ m _ _ _ x₂
  have hst : st.1.MemOk := by
    unfold st
    split
    · exact h.rd
    · exact h
  have hm : m.1.MemOk := by
    unfold m
    refine foldl_keeps (fun x : ThX × List Byte => x.1.MemOk) _ (fun acc p hacc => ?_) _ _ hst
    exact hacc.rd
  have hx₂ : x₂.MemOk := .ite hm.wr hm.wr
  exact .ite hx₂ hx₂

/-! ## The thicket's queues and engines -/

theorem State.MemOk.tsubRun {c lc e} : (s.tsubRun c lc e).MemOk := h.planFor.modCore.modCluster.endRun
theorem State.MemOk.tsubEnd {c qid lc} : (s.tsubEnd c qid lc).MemOk := h.modCore.retire

theorem State.MemOk.tsubAccept {q lc b} : (s.tsubAccept q lc b).MemOk := by
  unfold State.tsubAccept
  extract_lets s₁ s₂ _ _ _ _ _ _ s₃
  have hs₁ : s₁.MemOk := h.modCluster
  have hs₂ : s₂.MemOk := hs₁.tsubEnd
  have hs₃ : s₃.MemOk := hs₂.setCluster
  exact .ite hs₁.rejectWord (.ite (.ite hs₃.jobFault hs₃) hs₂.modCluster)

theorem State.MemOk.putSub {b b'} : (s.putSub b b').MemOk := h.modCluster
theorem State.MemOk.subMeet {q lc b} : (s.subMeet q lc b).MemOk := .ite h.putSub h
theorem State.MemOk.subGive {q lc b} : (s.subGive q lc b).MemOk := .ite h h.putSub
theorem State.MemOk.subRead {lc b} : (s.subRead lc b).MemOk := .ite h.putSub.modCore h

theorem State.MemOk.countSubWait {q cl lc} : (s.countSubWait q cl lc).MemOk := by
  unfold State.countSubWait
  split
  · exact h
  · exact h.addFld.modCluster

theorem State.MemOk.subTick {q lc} : (s.subTick q lc).MemOk :=
  .ite h (.foldl (.foldl (.foldl (h.foldl fun _ _ ht => ht.subRead) fun _ _ ht => ht.subMeet) fun _ _ ht => ht.subGive) fun _ _ ht =>
    ht.countSubWait)

theorem State.MemOk.subAccept {q lc} : (s.subAccept q lc).MemOk := by
  unfold State.subAccept
  refine .foldl h fun t c ht => ?_
  split
  · exact ht.tsubAccept
  · exact ht

theorem State.MemOk.thktPut {cl e timed d d'} : (s.thktPut cl e timed d d').MemOk := h.modCluster

theorem State.MemOk.takeSlots {cl cc ls v} (e : s.takeSlots cl cc ls = some v) : v.1.MemOk := by
  rw [State.takeSlots_cols e]
  exact h.of_same rfl rfl

theorem ThX.MemOk.begin_ {q cl e timed} {d : TDesc} : (d.begin_ s q cl e timed).MemOk := h

omit h in
theorem ThX.MemOk.logMoe {r} {x : ThX} (h : x.MemOk) : (x.logMoe r).MemOk := .ite h.wr h

theorem State.MemOk.workTimed {q cl e d n} {f : Nat → ThX → ThX} (hf : ∀ a t, t.MemOk → (f a t).MemOk) : (s.workTimed q cl e d n f).MemOk
    := by
  unfold State.workTimed
  extract_lets _ x
  have hx : x.MemOk := .foldl (.begin_ h) fun _ _ hx => hf _ _ hx
  split
  next v e =>
    have hv := State.MemOk.takeSlots hx e
    exact .ite hv.thktPut h.thktPut
  · exact .ite (.thktPut hx) h.thktPut

theorem State.MemOk.workUntimed {q cl e d n} {f : Nat → ThX → ThX} (hf : ∀ a t, t.MemOk → (f a t).MemOk) : (s.workUntimed q cl e d n
    f).MemOk := by
  unfold State.workUntimed
  extract_lets _ x _ x₂
  have hx : x.MemOk := hf _ _ (.begin_ h)
  have hx₂ : x₂.MemOk := .ite hx.logMoe hx
  refine .ite h ?_
  split
  · exact h
  next v e =>
    have hv := State.MemOk.takeSlots hx₂ e
    exact hv.thktPut

omit h in
/-- Every unit of a thicket operation keeps the canonical form. -/
theorem ThX.MemOk.thOp {r j} {x : ThX} (hx : x.MemOk) : ((thOp r).unit j x).MemOk := by
  unfold Machine.thOp
  split
  · exact .gatherRow hx
  · exact .gatherPage hx
  · exact .scatterRow hx
  · exact .kvappend hx
  · exact .topk hx
  · exact .pagescore hx
  · exact .sampleBy hx
  · exact .sampleBy hx
  · exact .transpose hx
  · exact .relayout hx
  · exact .requant hx
  · exact .compactFlags hx
  · exact .moe hx
  · exact .digest hx

theorem State.MemOk.workNext {q cl e timed d} : (s.workNext q cl e timed d).MemOk :=
  .ite (h.workTimed fun _ _ hx => hx.thOp) (h.workUntimed fun _ _ hx => hx.thOp)

theorem State.MemOk.thktWork {cl e kind} {mode : Nat → Bool} : (s.thktWork cl e kind mode).MemOk := by
  unfold State.thktWork
  split
  · exact h
  · split
    · exact h
    · exact .ite h.workNext h

theorem State.MemOk.thktDone {q cl d} : (s.thktDone q cl d).MemOk := by
  unfold State.thktDone
  extract_lets _ _ s₁ s₂ s₃
  have hs₁ : s₁.MemOk := .ite (ThX.MemOk.wr (.begin_ h)) h
  have hs₂ : s₂.MemOk := .ite hs₁.syncAdd hs₁
  have hs₃ : s₃.MemOk := .ite hs₂.writeMem hs₂
  exact .ite hs₃.raise hs₃

theorem State.MemOk.thktEnd {q cl e d} : (s.thktEnd q cl e d).MemOk := h.modCluster.thktDone

theorem State.MemOk.engineEnd {q cl e lc} : (s.engineEnd q cl e lc).MemOk := by
  unfold State.engineEnd
  extract_lets s₁ s₂
  have hs₁ : s₁.MemOk := by
    unfold s₁
    split
    · exact .ite h.workNext h
    · exact h
  have hs₂ : s₂.MemOk := by
    unfold s₂
    split
    · exact hs₁.jobFault
    · exact hs₁
  split
  · exact hs₂.thktEnd
  · exact hs₂

theorem State.MemOk.thktTick {q lc} : (s.thktTick q lc).MemOk := .modPart (h.foldl fun _ _ ht => ht.foldl fun _ _ hu => hu.engineEnd)

theorem State.MemOk.pick {q cl e n d} : (s.pick q cl e n d).MemOk := by
  unfold State.pick
  extract_lets _ s₁ _ s₂
  have hs₁ : s₁.MemOk := h.modCluster
  have hs₂ : s₂.MemOk := hs₁.modCluster
  exact .ite hs₂.choice.addFld hs₂

theorem Res.MemOk.execTsub {core} : (execTsub core s).MemOk := by
  unfold Machine.execTsub
  split
  next i e =>
    have hi := Issue.MemOk.issueOp h e
    exact .done (.tsubRun hi)
  · exact .done h

theorem Res.MemOk.execTsubAccept {core} : (execTsubAccept core s).MemOk := by
  unfold Machine.execTsubAccept
  split
  · split
    · exact .done h.tsubAccept
    · exact .done h
  · exact .done h

theorem Res.MemOk.execThktComplete {cl e} : (execThktComplete cl e s).MemOk := by
  unfold Machine.execThktComplete
  split
  · exact .done h
  · split
    · exact .ite (.done h) (.done h.thktEnd)
    · exact .done h

theorem Res.MemOk.execUntimedPick {cl e} : (execUntimedPick cl e s).MemOk := by
  unfold Machine.execUntimedPick
  split
  · exact .done h
  · extract_lets
    refine .ite ?_ (.done h)
    split
    · exact .ite (.done h) (.done h.pick)
    · exact .done h

theorem Res.MemOk.execUntimedComplete {cl e} : (execUntimedComplete cl e s).MemOk := by
  unfold Machine.execUntimedComplete
  split
  · exact .done h
  · split
    · exact .ite (.done h.modCluster.thktDone) (.done h)
    · exact .done h

/-! ## A logical cycle -/

theorem State.MemOk.unitCycle {q lc c} : (s.unitCycle q lc c).MemOk := h.loadCycle.chainCycle.rowCycle.accCycle

theorem State.MemOk.workCycle {q lc} : (s.workCycle q lc).MemOk := by
  unfold State.workCycle
  extract_lets s₁ s₂ s₃ __src
  have hs₁ : s₁.MemOk := h.readPhase
  have hs₂ : s₂.MemOk := hs₁.foldl fun _ _ ht => ht.unitCycle
  have hs₃ : s₃.MemOk := hs₂.writePhase
  have h__src : __src.MemOk := hs₃.modPartCores
  exact h__src.of_same rfl rfl

theorem State.MemOk.askTable {c lc v tab addr} : (s.askTable c lc v tab addr).MemOk := h.planFor.modCore

theorem State.MemOk.tableCycle {q c lc} : (s.tableCycle q c lc).MemOk := by
  unfold State.tableCycle
  split
  · exact h
  · exact .ite h (.ite h.modCore.reject h.modCore.modCore)

theorem State.MemOk.freezeFor {q x} : (s.freezeFor q x).MemOk := h.modPart.freeze
theorem State.MemOk.retireAll {q lc} : (s.retireAll q lc).MemOk := h.foldl fun _ _ ht => ht.retire
theorem State.MemOk.takeUp {q lc c} : (s.takeUp q lc c).MemOk := h.enterSends.recvCycle.ringCycle.tableCycle

theorem State.MemOk.beginCycle {q lc} : (s.beginCycle q lc).MemOk := by
  unfold State.beginCycle
  extract_lets t
  have ht : t.MemOk := h.retireAll
  split
  · exact ht.foldl fun _ _ hu => hu.takeUp
  · exact h.foldl fun _ _ hu => hu.freezeFor

theorem State.MemOk.closeCycle {q lc} : (s.closeCycle q lc).MemOk :=
  .thktTick (.subAccept (.subTick (.foldl (.workCycle (h.foldl fun _ _ ht => ht.countWaits)) fun _ _ ht => ht.guardTick)))

theorem State.MemOk.endCycle {q} : (s.endCycle q).MemOk := by
  unfold State.endCycle
  extract_lets s₁
  have hs₁ : s₁.MemOk := h.closeCycle
  split
  · exact hs₁.stopJob
  · exact hs₁.modPart

theorem State.MemOk.cycleEnd {q} : (s.cycleEnd q).MemOk := by
  unfold State.cycleEnd
  extract_lets s₁
  have hs₁ : s₁.MemOk := h.endCycle.dropNotes
  exact .ite hs₁.beginCycle hs₁

theorem State.MemOk.runOut {q n lc} : (s.runOut q n lc).MemOk := by
  induction n generalizing s lc with
  | zero => exact h
  | succ n ih =>
    exact .ite h (ih (.workCycle (h.foldl fun _ _ ht => .ringCycle (.ite ht.modCore ht.recvCycle))))

theorem State.MemOk.settle {q} : (s.settle q).MemOk := .ite h.runOut h

/-! ## Access -/

theorem State.MemOk.accErr {kind bar write off} : (s.accErr kind bar write off).MemOk :=
  .ite h.hwSet.setFld.setFld.setFld.setFld.setFld.raise h.addFld

theorem State.MemOk.refuseWrite {r i} : (s.refuseWrite r i).MemOk := h.accErr

/-! ## The token -/

theorem State.MemOk.startAct {a} : (s.startAct a).MemOk := by
  unfold State.startAct
  extract_lets _ s₁
  have hs₁ : s₁.MemOk := h.of_same rfl rfl
  exact hs₁.foldl fun _ _ ht => ht.setFld.setFld.setFld

theorem State.MemOk.endAct {a status} : (s.endAct a status).MemOk := by
  unfold State.endAct
  extract_lets s₁ s₂
  have hs₁ : s₁.MemOk := h.of_same rfl rfl
  have hs₂ : s₂.MemOk := hs₁.foldl fun _ _ ht => ht.setFld.setFld.setFld.setFld
  exact hs₂.raise

/-! ## Bulk slots, scrub and sweep -/

theorem State.MemOk.xferFault {x ue} : (s.xferFault x ue).MemOk := by
  unfold State.xferFault
  refine .ite ?_ h
  split
  · exact h.jobFault
  · exact h

theorem State.MemOk.landLocal {q who core unit word req bs} : (s.landLocal q who core unit word req bs).MemOk :=
  .ite h.planFor (h.foldl fun _ _ ht => ht.planWrite)

theorem State.MemOk.xferDrop {x} : (s.xferDrop x).MemOk := by
  unfold State.xferDrop
  split
  · exact h.modCore
  · exact h

theorem State.MemOk.xferWrite {tc x off bs} : (s.xferWrite tc x off bs).MemOk := by
  unfold State.xferWrite
  split
  · exact State.MemOk.xferFault (.setCol (.readMem h))
  · exact State.MemOk.writeMem (.setCol h)

theorem State.MemOk.runXfer {tc x} : (s.runXfer tc x).MemOk := by
  unfold State.runXfer
  dsimp only
  split
  · exact h.xferDrop.xferWrite
  · exact .xferFault (.landLocal (.setCol (.readMem h)))
  · exact .ite (.writeMem (.setCol h)) (.setCol (.readMem h))
  · exact h

theorem Res.MemOk.execBulkSlotTransfer {tc slot} : (execBulkSlotTransfer tc slot s).MemOk := by
  unfold Machine.execBulkSlotTransfer
  split
  · exact .done (.ite h.runXfer h.runXfer.setCol)
  · exact .done h

theorem State.MemOk.scrub {tc} : (s.scrub tc).MemOk := .ite h.clearBad.setCol.scrubNext (.ite h.readLine.scrubNext h.readLine.setCol)

theorem State.MemOk.scrubWord {core unit word} : (s.scrubWord core unit word).MemOk := by
  unfold State.scrubWord
  extract_lets _ t
  have ht : t.MemOk := h.addFld
  refine .ite h ?_
  exact ht.of_same rfl rfl

theorem State.MemOk.scrubDone {x} : (s.scrubDone x).MemOk := h.of_same rfl rfl

theorem State.MemOk.scrubBacks {mine : Nat → Bool} : (s.scrubBacks mine).MemOk := by
  unfold State.scrubBacks
  extract_lets _ s₁
  have hs₁ : s₁.MemOk := h.foldl fun _ _ hs => hs.scrubDone
  exact hs₁.of_same rfl rfl

theorem State.MemOk.rebuilt {d} {old : State} : (s.rebuilt old d).MemOk := .ite h h.setFld
theorem State.MemOk.rebuildAll : s.rebuildAll.MemOk := .foldl (h.foldl fun _ _ hs => hs.loadTopo) fun _ _ hu => hu.rebuilt
theorem State.MemOk.sweepMem {key pat psn} : (s.sweepMem key pat psn).MemOk := State.memWf_sweepMem _ _ _ _ h
theorem State.MemOk.sweepBufs {c pat psn} : (s.sweepBufs c pat psn).MemOk := h.of_same rfl rfl

theorem State.MemOk.sweepCluster {cl pat psn bulk} : (s.sweepCluster cl pat psn bulk).MemOk := by
  unfold State.sweepCluster
  extract_lets s₁
  have hs₁ : s₁.MemOk := h.foldl fun _ _ ht => ht.sweepMem
  exact .ite (hs₁.foldl fun _ _ ht => ht.sweepMem) hs₁

theorem State.MemOk.askSweep {mask} : (s.askSweep mask).1.MemOk := by
  unfold State.askSweep
  extract_lets
  split
  · exact h
  · split
    · exact h
    · exact h.startAct.setFld

theorem State.MemOk.sweepOk {a} : (s.sweepOk a).MemOk := .ite h.setFld h
theorem State.MemOk.endSweep {a} : (s.endSweep a).MemOk := .raise (.setFld (.endAct (.sweepOk (h.foldl fun _ _ ht => ht.sweepCluster))))

theorem Res.MemOk.execSweepComplete : (execSweepComplete s).MemOk := by
  unfold Machine.execSweepComplete
  split
  · exact .done h.endSweep
  · exact .done h

/-! ## CTRL flits -/

theorem State.MemOk.fabDisc {f} : (s.fabDisc f).MemOk := h.addFld.raise
theorem State.MemOk.setSync {on} : (s.setSync on).MemOk := .ite h h.setFld.raise
theorem State.MemOk.parentLost {n} : (s.parentLost n).MemOk := .ite h.setSync h
theorem State.MemOk.ctrlOut {n f from_} : (s.ctrlOut n f from_).MemOk := h.modPort
theorem State.MemOk.ctrlLost {q f} : (s.ctrlLost q f).MemOk := .ite h h.jobFault

theorem State.MemOk.ctrlBy {q r f from_} : (s.ctrlBy q r f from_).MemOk := by
  unfold State.ctrlBy
  split
  · exact h.ctrlOut
  · exact h.ctrlLost

theorem State.MemOk.toChildren {q o f from_} : (s.toChildren q o f from_).MemOk := .ite (.ite h.ctrlBy h) (h.foldl fun _ _ ht => ht.ctrlBy)

theorem State.MemOk.toParent {q o f} : (s.toParent q o f).MemOk := by
  unfold State.toParent
  refine .ite h.ctrlBy ?_
  split
  · exact h.ctrlBy
  · exact h

theorem State.MemOk.ownFlit {q typ body} : (s.ownFlit q typ body).1.MemOk := h.of_same rfl rfl
theorem State.MemOk.ctrlTake {n f} : (s.ctrlTake n f).MemOk := .ite h.setPort h

theorem State.MemOk.ctrlJob {n f} {act : State → Nat → State} (hact : ∀ t b, t.MemOk → (act t b).MemOk) : (s.ctrlJob n f act).MemOk := by
  unfold State.ctrlJob
  extract_lets s₁
  have hs₁ : s₁.MemOk := h.ctrlTake
  split
  · exact hs₁.fabDisc
  · exact hact _ _ hs₁.toChildren

/-! ## Requests of the fabric -/

theorem State.MemOk.noRoute : s.noRoute.MemOk := h.fabDisc
theorem State.MemOk.setTag {t v} : (s.setTag t v).MemOk := h.of_same rfl rfl
theorem State.MemOk.setNet {k v} : (s.setNet k v).MemOk := h.of_same rfl rfl

theorem State.MemOk.startTimer {t} : (s.startTimer t).MemOk := by
  unfold State.startTimer
  extract_lets
  split
  · exact h.setTag
  · exact h

theorem State.MemOk.countDelivery {r status} : (s.countDelivery r status).MemOk := by
  unfold State.countDelivery
  split
  · exact h
  · extract_lets s₁
    have hs₁ : s₁.MemOk := .ite h.choice h
    exact .ite (.ite hs₁.choice hs₁) h

theorem State.MemOk.landRead {d} : (s.landRead d).MemOk := .ite h.writeMem h

theorem State.MemOk.complete {r status data} : (s.complete r status data).MemOk := by
  unfold State.complete
  extract_lets _ s₁ _ _ s₂
  have hs₁ : s₁.MemOk := .ite h.addFld (.ite h.addFld h)
  have hs₂ : s₂.MemOk := hs₁.of_same rfl rfl
  exact .ite hs₂ hs₂.landRead.countDelivery

theorem State.MemOk.retireTag {t status} : (s.retireTag t status).MemOk := by
  unfold State.retireTag
  extract_lets
  split
  · exact h.setTag.complete
  · exact h.setTag

theorem State.MemOk.inject {r} : (s.inject r).MemOk := by
  unfold State.inject
  split
  · exact h.complete
  · extract_lets _ _ _ s₁
    have hs₁ : s₁.MemOk := h.setTag.startTimer
    split
    · exact hs₁.of_same rfl rfl
    · exact h.setTag.startTimer.noRoute
    · exact .ite h.addFld.raise.complete h.setTag.modPort

theorem State.MemOk.request {r} : (s.request r).MemOk := .ite h.inject h.setNet
theorem State.MemOk.injectHeld : s.injectHeld.MemOk := .ite (h.setNet.foldl fun _ _ ht => ht.inject) h

theorem State.MemOk.sendFrame {f} : (s.sendFrame f).MemOk := by
  unfold State.sendFrame
  extract_lets
  split
  · exact h.of_same rfl rfl
  · exact h.noRoute
  · exact .ite h.addFld.raise h.modPort

/-! ## Ports: state and enable -/

theorem State.MemOk.setPState {n st} : (s.setPState n st).MemOk := .ite h h.setFld.raise

theorem State.MemOk.leaveUp {n} : (s.leaveUp n).MemOk :=
  .foldl (h.modPort.parentLost.foldl fun _ _ ht => .ite ht.jobFault ht) fun _ _ ht => .ite ht.retireTag ht

theorem State.MemOk.endRetrain {n status} : (s.endRetrain n status).MemOk := by
  unfold State.endRetrain
  split
  · exact h.endAct
  · exact h

theorem State.MemOk.portStop {n st cause} : (s.portStop n st cause).MemOk := by
  unfold State.portStop
  extract_lets _ _ s₁ s₂ s₃ s₄
  have hs₁ : s₁.MemOk := h.setPState
  have hs₂ : s₂.MemOk := .ite hs₁.setFld hs₁
  have hs₃ : s₃.MemOk := .ite hs₂.leaveUp hs₂.modPort
  have hs₄ : s₄.MemOk := hs₃.modPort
  exact hs₄.endRetrain

theorem State.MemOk.portDown {n cause} : (s.portDown n cause).MemOk := h.portStop
theorem State.MemOk.startTraining {n} : (s.startTraining n).MemOk := h.setPort.setPState
theorem State.MemOk.enterIdent {n} : (s.enterIdent n).MemOk := h.setPort.setPState

theorem State.MemOk.takeRecord {n r} : (s.takeRecord n r).MemOk := by
  unfold State.takeRecord
  extract_lets _ _ _ _ s₁ s₂ s₃ s₄ s₅ s₆ s₇ s₈ s₉
  have hs₁ : s₁.MemOk := .ite h.raise h
  have hs₂ : s₂.MemOk := hs₁.setPort
  have hs₃ : s₃.MemOk := hs₂.setFld
  have hs₄ : s₄.MemOk := .ite hs₃ hs₃.setFld
  have hs₅ : s₅.MemOk := hs₄.setFld
  have hs₆ : s₆.MemOk := hs₅.setFld
  have hs₇ : s₇.MemOk := hs₆.setFld
  have hs₈ : s₈.MemOk := hs₇.setPState
  have hs₉ : s₉.MemOk := .ite hs₈.leaveUp hs₈
  exact .ite hs₉.endRetrain hs₉

theorem State.MemOk.checkHeard : s.checkHeard.MemOk := by
  unfold State.checkHeard
  refine .foldl h fun t n ht => ?_
  split
  · exact .ite ht.takeRecord ht
  · exact ht

/-! ## Ports: transmission -/

theorem State.MemOk.bcastLeft : s.bcastLeft.MemOk := by
  unfold State.bcastLeft
  refine .foldl h fun t q ht => ?_
  extract_lets _ _ _ _ t'
  have ht' : t'.MemOk := ht.of_same rfl rfl
  exact .ite (.ite ht ht'.setFld.setFld.setFld.raise) ht

theorem State.MemOk.ctrlPick {n} {v} : s.ctrlPick n = some v → v.1.MemOk := by
  unfold State.ctrlPick
  extract_lets
  split
  · split
    · exact h.setPort.bcastLeft.ofSomePair
    · nofun
  · nofun

theorem State.MemOk.maintPick {n} {v} : s.maintPick n = some v → v.1.MemOk := by
  unfold State.maintPick
  extract_lets
  split
  · split
    · exact h.setPort.ofSomePair
    · nofun
  · nofun

theorem State.MemOk.framePick {n} {v} : s.framePick n = some v → v.1.MemOk := by
  unfold State.framePick
  extract_lets
  split
  · exact h.setPort.ofSomePair
  · nofun

theorem State.MemOk.schedPick {n} {v} : s.schedPick n = some v → v.1.MemOk := by
  unfold State.schedPick
  extract_lets
  split
  · extract_lets
    split
    · extract_lets
      split
      · exact h.setPort.ofSomePair
      · nofun
    · nofun
  · nofun

theorem State.MemOk.frameLeaves {f} : (s.frameLeaves f).MemOk := .ite h.startTimer h

theorem State.MemOk.dynPickVc {n vc} : (s.dynPickVc n vc).1.MemOk := by
  unfold State.dynPickVc
  extract_lets
  split
  · extract_lets
    split
    · exact h
    · split
      · exact h.setPort.frameLeaves
      · split
        · exact h
        · exact h.setPort.addFld
  · exact h

theorem State.MemOk.dynPick {n} : (s.dynPick n).1.MemOk := by
  unfold State.dynPick
  split
  · exact h
  · refine foldl_keeps (fun x : State × Option Slot => x.1.MemOk) _ (fun acc vc hacc => ?_) _ _ h
    split
    · exact hacc
    · exact hacc.dynPickVc

theorem State.MemOk.freePick {n} : (s.freePick n).1.MemOk := by
  unfold State.freePick
  cases hc : s.ctrlPick n with
  | some v => exact h.ctrlPick hc
  | none =>
    cases hm : s.maintPick n with
    | some v => exact h.maintPick hm
    | none => exact h

theorem State.MemOk.slotPick {n} : (s.slotPick n).1.MemOk := by
  unfold State.slotPick
  split
  · exact h.freePick
  · split
    case h_1 r e =>
      cases hf : s.framePick n with
      | some v => exact h.framePick (hf.trans (by simpa [hf] using e))
      | none => exact h.schedPick (by simpa [hf] using e)
    case h_2 =>
      dsimp only
      split
      · exact h.dynPick
      · exact h.dynPick.freePick

theorem State.MemOk.sendNull {n slots} : (s.sendNull n slots).MemOk := h.of_same rfl rfl

theorem State.MemOk.endGroup {n} : (s.endGroup n).MemOk := by
  unfold State.endGroup
  extract_lets _ _ s₁
  have hs₁ : s₁.MemOk := h.setPort
  refine .ite h.sendNull ?_
  exact hs₁.of_same rfl rfl

theorem State.MemOk.replaySlot {n r} : (s.replaySlot n r).MemOk := by
  unfold State.replaySlot
  extract_lets _ _ s₁
  have hs₁ : s₁.MemOk := h.setPort
  refine .ite h.setPort ?_
  exact hs₁.of_same rfl rfl

theorem State.MemOk.identChange {n} : (s.identChange n).MemOk := .ite h.setPort h

theorem State.MemOk.newSlot {n} : (s.newSlot n).MemOk := by
  unfold State.newSlot
  extract_lets s₁ r s₂
  have hs₁ : s₁.MemOk := .ite h.identChange.modPort h
  have hr : r.1.MemOk := by
    unfold r
    split
    · exact hs₁
    · exact hs₁.slotPick
  have hs₂ : s₂.MemOk := hr.modPort
  exact .ite hs₂.endGroup hs₂

theorem State.MemOk.fillSlot {n} : (s.fillSlot n).MemOk := by
  unfold State.fillSlot
  extract_lets s₁
  have hs₁ : s₁.MemOk := h.modPort
  split
  · exact hs₁.replaySlot
  · exact hs₁.newSlot

theorem Res.MemOk.execNakIssue {n} : (execNakIssue n s).MemOk := by
  unfold Machine.execNakIssue
  split
  · exact .ite (.done h.modPort) (.done h)
  · exact .done h

theorem State.MemOk.replay {n} : (s.replay n).MemOk := by
  unfold State.replay
  extract_lets _ _ s₁ s₂ s₃ s₄
  have hs₁ : s₁.MemOk := h.setPort
  have hs₂ : s₂.MemOk := hs₁.addFld
  have hs₃ : s₃.MemOk := hs₂.hwMax
  have hs₄ : s₄.MemOk := .ite hs₃.raise hs₃
  exact .ite hs₄.portDown hs₄

theorem Res.MemOk.execReplayStart {n} : (execReplayStart n s).MemOk := by
  unfold Machine.execReplayStart
  split
  · exact .ite (.done h.replay) (.done h)
  · exact .done h

/-! ## Ports: reception -/

theorem State.MemOk.rxSchedFirst {n rh flit} : (s.rxSchedFirst n rh flit).MemOk := by
  unfold State.rxSchedFirst
  extract_lets _ _ _ _ _ _ s₁
  have hs₁ : s₁.MemOk := h.modPort
  split
  · exact h.modPort
  · split
    · exact hs₁.addFld.raise
    · exact hs₁

theorem State.MemOk.rxSchedNext {n flit} : (s.rxSchedNext n flit).MemOk := by
  unfold State.rxSchedNext
  extract_lets
  split
  · exact .ite h.setPort h.setPort
  · exact h.setPort

theorem State.MemOk.rxDynFlit {n vc last flit} : (s.rxDynFlit n vc last flit).MemOk := by
  unfold State.rxDynFlit
  extract_lets
  refine .ite h.setPort ?_
  split
  · exact h.setPort
  · exact h.setPort.addFld.raise

theorem State.MemOk.rxSlot {n rh0 rh1 v} : (s.rxSlot n rh0 rh1 v).MemOk := by
  unfold State.rxSlot
  refine .ite h (.ite h.modPort ?_)
  dsimp only
  split
  · exact .ite h.rxSchedFirst h.rxSchedNext
  · exact .ite h.modPort.fabDisc h.modPort
  · exact .ite h.modPort h.modPort
  · exact h.rxDynFlit

theorem State.MemOk.rxGroup {n raw corr uncorr} : (s.rxGroup n raw corr uncorr).MemOk := by
  unfold State.rxGroup
  extract_lets s₁ s₂ _ s₃ s₄
  have hs₁ : s₁.MemOk := .ite h h.addFld
  have hs₂ : s₂.MemOk := .ite hs₁ hs₁.addFld
  have hs₃ : s₃.MemOk := hs₂.modPort
  have hs₄ : s₄.MemOk := hs₃.modPort
  exact .ite hs₂.modPort (.ite hs₃.modPort (.ite (hs₄.foldl fun _ _ ht => ht.rxSlot) hs₃.modPort))

theorem State.MemOk.deliverFlit {n} : (s.deliverFlit n).MemOk := by
  unfold State.deliverFlit
  split
  · exact h
  · exact .ite h.modPort.landBytes h.modPort

theorem State.MemOk.forwardFlit {n} : (s.forwardFlit n).MemOk := by
  unfold State.forwardFlit
  split
  · exact h
  · exact .ite h.modPort h.modPort.modPort

theorem State.MemOk.rxMove {k} : (s.rxMove k).MemOk := by
  induction k generalizing s with
  | zero => exact h
  | succ k ih => exact ih (h.foldl fun _ _ ht => .ite ht (.forwardFlit ht.deliverFlit))

theorem State.MemOk.portTick : s.portTick.MemOk := h.rxMove.drainAll

/-! ## Ports: training -/

theorem State.MemOk.lanesPlaced {n lanes} : (s.lanesPlaced n lanes).MemOk := h.modPort.setFld

theorem State.MemOk.probe {n t1 t2 t3 t4} : (s.probe n t1 t2 t3 t4).MemOk := by
  unfold State.probe
  extract_lets _ _ _ s₁ _ s₂
  have hs₁ : s₁.MemOk := h.setPort
  have hs₂ : s₂.MemOk := hs₁.setFld
  exact .ite hs₁ (.ite hs₂.portDown hs₂.enterIdent)

theorem State.MemOk.resendIdent {n} : (s.resendIdent n).MemOk := h.modPort
theorem State.MemOk.maintTake {n r} : (s.maintTake n r).MemOk := .ite h.setPort h

theorem State.MemOk.enablePort {n on} : (s.enablePort n on).MemOk := by
  unfold State.enablePort
  extract_lets s₁ s₂
  have hs₁ : s₁.MemOk := h.setFld
  have hs₂ : s₂.MemOk := by
    unfold s₂
    split
    · exact hs₁.setFld
    · exact hs₁
  exact .ite (.ite h (.ite h.setFld.startAct.startTraining h.refuseWrite)) (.ite h.refuseWrite (.ite hs₂ hs₂.portStop))

theorem State.MemOk.resetPort {n} : (s.resetPort n).MemOk := .ite h.refuseWrite (.ite h (.startTraining (.startAct (.ite h.leaveUp h))))

theorem State.MemOk.writeWin {n v} : (s.writeWin n v).MemOk := by
  unfold State.writeWin
  refine .ite h.refuseWrite ?_
  split
  · exact h.setReg
  · exact h.refuseWrite

/-! ## Frames and the two networks -/

theorem State.MemOk.frameHere {from_ held f} : (s.frameHere from_ held f).MemOk := by
  unfold State.frameHere
  extract_lets free s₁
  have hfree : (free s).MemOk := by
    unfold free
    split
    · exact h.modPort
    · exact h
  refine .ite hfree.fabDisc (.ite ?_ ?_)
  · exact h.of_same rfl rfl
  · exact hfree.of_same rfl rfl

theorem State.MemOk.frameFrom {n held f} : (s.frameFrom n held f).MemOk := by
  unfold State.frameFrom
  extract_lets
  refine .ite h.frameHere ?_
  refine .ite (.fabDisc (.ite h.modPort h)) ?_
  refine .ite (.fabDisc (.ite h.modPort h)) ?_
  split
  · exact h.frameHere
  · exact .noRoute (.ite h.modPort h)
  · exact .ite (.raise (.addFld (.ite h.modPort h))) (.modPort (.ite h.modPort h))

theorem State.MemOk.frameArrive {n f} : (s.frameArrive n f).MemOk := .ite h.setPort.frameFrom h.frameFrom

theorem Res.MemOk.execFrameArrive {from_ f} : (execFrameArrive from_ f s).MemOk := by
  unfold Machine.execFrameArrive
  split
  · exact .ite (.done h.frameArrive) (.done h)
  · refine .ite ?_ (.done h.sendFrame)
    refine .done ?_
    split
    · exact h.frameHere
    · exact h.sendFrame

theorem State.MemOk.reply {f status opspec data} : (s.reply f status opspec data).MemOk := h.sendFrame

theorem State.MemOk.takeReq {e} : (s.takeReq e).MemOk := by
  unfold State.takeReq
  extract_lets _ s₁
  have hs₁ : s₁.MemOk := h.of_same rfl rfl
  split
  · exact hs₁.modPort
  · exact hs₁

theorem State.MemOk.serveRd {e} : (s.serveRd e).MemOk := by
  unfold State.serveRd
  extract_lets _ s₁ _ r
  have hs₁ : s₁.MemOk := h.takeReq
  have hr : r.1.MemOk := hs₁.readMem
  exact .ite hs₁.reply (.ite hs₁.reply (.ite hr.reply hr.reply))

theorem State.MemOk.takeUpTo {need got} : (s.takeUpTo need got).1.MemOk := by
  refine foldl_keeps (fun x : State × Nat × Bool => x.1.MemOk) _ (fun acc u hacc => ?_) _ _ h
  split
  · exact hacc
  · split
    case h_1 t e => exact hacc.passedSlot e
    case h_2 => exact hacc

theorem Res.MemOk.execRd : (execRd s).MemOk := by
  unfold Machine.execRd
  extract_lets
  split
  · extract_lets _ _ _ r
    have hr : r.1.MemOk := h.takeUpTo
    refine .ite ?_ ?_
    · refine .done ?_
      refine .serveRd ?_
      exact hr.of_same rfl rfl
    · refine .done ?_
      exact hr.of_same rfl rfl
  · exact .done h

theorem State.MemOk.serveWr {e} : (s.serveWr e).MemOk := .ite h.takeReq.reply (.ite h.takeReq.reply h.takeReq.writeMem.reply)

theorem Res.MemOk.execWr : (execWr s).MemOk := by
  unfold Machine.execWr
  extract_lets
  split
  · extract_lets _ _ _ r
    have hr : r.1.MemOk := h.takeUpTo
    refine .ite ?_ ?_
    · refine .done ?_
      refine .serveWr ?_
      exact hr.of_same rfl rfl
    · refine .done ?_
      exact hr.of_same rfl rfl
  · exact .done h

theorem State.MemOk.takeReply {f} : (s.takeReply f).MemOk := by
  unfold State.takeReply
  extract_lets _ s₁
  have hs₁ : s₁.MemOk := h.of_same rfl rfl
  split
  · exact .ite hs₁.setTag.complete hs₁.addFld
  · exact hs₁.addFld

theorem Res.MemOk.execReplyArrive {from_ f} : (execReplyArrive from_ f s).MemOk := by
  unfold Machine.execReplyArrive
  refine .ite ?_ (.done h)
  split
  · exact .ite (.done h.frameArrive.takeReply) (.done h)
  · exact .ite (.done h.takeReply) (.done h)

theorem State.MemOk.swapNet {k} : (s.swapNet k).MemOk :=
  .raise (.foldl (h.foldl fun _ _ ht => .ite ht ht.setReg.setReg) fun _ _ ht => ht.setReg)

theorem State.MemOk.routeCmd {nets state} {eff : State → Nat → State} (heff : ∀ t b, t.MemOk → (eff t b).MemOk) : (s.routeCmd nets state
    eff).MemOk :=
  .ite h.setFld (.ite h.setFld (.setFld (h.foldl fun _ _ ha => heff _ _ ha)))

theorem State.MemOk.resumeNet {k} : (s.resumeNet k).MemOk := h.setNet.injectHeld
theorem State.MemOk.drained {k} : (s.drained k).MemOk := .ite h.setNet.raise.swapNet.resumeNet h.setNet.raise

/-! ## Group operations -/

theorem State.MemOk.setGop {q g} : (s.setGop q g).MemOk := h.of_same rfl rfl
theorem State.MemOk.gopHold {q op} : (s.gopHold q op).MemOk := h.setGop.setFld.setFld
theorem State.MemOk.gopShow {q op status} : (s.gopShow q op status).MemOk := h.setFld.setFld.raise
theorem State.MemOk.gopDone {q status} : (s.gopDone q status).MemOk := h.setGop.setFld.gopShow
theorem State.MemOk.gopRefuse {q op status} : (s.gopRefuse q op status).MemOk := h.gopShow
theorem State.MemOk.originateRelease {q status} : (s.originateRelease q status).MemOk := h.ownFlit.toChildren.gopDone
theorem State.MemOk.gatherStep {q} : (s.gatherStep q).MemOk := .ite (.ite h.originateRelease h.ownFlit.toParent.setGop) h
theorem State.MemOk.enterBarrier {q} : (s.enterBarrier q).MemOk := h.gopHold.setFld.setGop.gatherStep

theorem Res.MemOk.execBarrier {q} : (execBarrier q s).MemOk := by
  unfold Machine.execBarrier
  split
  · exact .done h.gopRefuse
  · exact .done h.enterBarrier

theorem State.MemOk.takeArrive {q f} : (s.takeArrive q f).MemOk := .ite h.setGop.gatherStep h.fabDisc

theorem Res.MemOk.execArrive {n f} : (execArrive n f s).MemOk := by
  unfold Machine.execArrive
  extract_lets t
  have ht : t.MemOk := h.ctrlTake
  split
  · exact .done ht.takeArrive
  · exact .done ht.fabDisc

theorem State.MemOk.takeRelease {q f} : (s.takeRelease q f).MemOk := .ite h.gopDone h.fabDisc
theorem State.MemOk.bcastWrite {q off bs} : (s.bcastWrite q off bs).MemOk := .ite h (.ite h.writeMem.setGop h.setGop.fabDisc)

theorem State.MemOk.originateBcast {q} : (s.originateBcast q).MemOk :=
  .ite h.gopRefuse (.bcastLeft (.setGop (.bcastWrite (h.readMem.gopHold.ownFlit.foldl fun _ _ ht => ht.toChildren))))

theorem Res.MemOk.execBcast {q} : (execBcast q s).MemOk := by
  unfold Machine.execBcast
  split
  · exact .done h.gopRefuse
  · exact .done h.originateBcast

theorem State.MemOk.takeBcast {q f} : (s.takeBcast q f).MemOk := .ite h.bcastWrite.gopShow h.bcastWrite

theorem State.MemOk.originateSnap {q} : (s.originateSnap q).MemOk :=
  .ite h.gopRefuse (.ite h.gopRefuse (.ite h.gopRefuse h.ownFlit.toChildren.gopHold.setGop))

theorem Res.MemOk.execSnap {q} : (execSnap q s).MemOk := by
  unfold Machine.execSnap
  split
  · exact .done h.gopRefuse
  · exact .done h.originateSnap

theorem State.MemOk.takeSnap {q f} : (s.takeSnap q f).MemOk := by
  unfold State.takeSnap
  extract_lets
  refine .ite h.jobFault ?_
  split
  · exact .ite h h.fabDisc
  · exact h.setGop

/-! ## The rings of SERVE -/

theorem State.MemOk.modHost {f : HostIf → HostIf} : (s.modHost f).MemOk := h.of_same rfl rfl
theorem State.MemOk.setHring {r v} : (s.setHring r v).MemOk := h.modHost
theorem State.MemOk.setEthStream {k v} : (s.setEthStream k v).MemOk := h.modHost
theorem State.MemOk.setLink {l up} : (s.setLink l up).MemOk := h.modHost
theorem State.MemOk.ringOvr {r} : (s.ringOvr r).MemOk := h.hwSet.raise
theorem State.MemOk.ringUnd {r} : (s.ringUnd r).MemOk := h.hwSet.raise
theorem State.MemOk.dposUp {r} : (s.dposUp r).MemOk := h.setFld
theorem State.MemOk.ringTake {r} : (s.ringTake r).MemOk := h.setHring.dposUp
theorem State.MemOk.hostWrite {a bs} : (s.hostWrite a bs).MemOk := h.of_same rfl rfl

theorem State.MemOk.hostRead {a n} : (s.hostRead a n).1.MemOk := by
  unfold State.hostRead
  refine foldl_keeps (fun x : State × List Byte => x.1.MemOk) _ (fun acc i hacc => ?_) _ _ h
  split
  · exact hacc
  · exact hacc.takeFree

theorem State.MemOk.setMsix {i w} : (s.setMsix i w).MemOk := h.modHost

theorem State.MemOk.sendVector {v} : (s.sendVector v).MemOk := by
  unfold State.sendVector
  extract_lets
  refine .ite h.modHost ?_
  exact h.of_same rfl rfl

theorem State.MemOk.ringIrqs : s.ringIrqs.MemOk := h.foldl fun _ _ ht => .ite ht.setHring.sendVector ht

theorem State.MemOk.ethOut {port bs} : (s.ethOut port bs).MemOk := by
  unfold State.ethOut
  refine .ite ?_ h
  exact h.of_same rfl rfl

theorem State.MemOk.ethSend {k typ flags body} : (s.ethSend k typ flags body).MemOk := h.setEthStream.ethOut
theorem State.MemOk.ethAck {port k seq} : (s.ethAck port k seq).MemOk := h.takeFree.ethOut
theorem State.MemOk.ethDiscard : s.ethDiscard.MemOk := h.raise

theorem State.MemOk.ethAccept {port m} : (s.ethAccept port m).1.MemOk := by
  unfold State.ethAccept
  extract_lets
  split
  · exact h.setEthStream.ethAck
  · exact h.ethAck

theorem State.MemOk.ringPut {r bs} : (s.ringPut r bs).MemOk := .dposUp (.ite h.hostWrite h.ethSend)
theorem State.MemOk.ringEnable {r} : (s.ringEnable r).MemOk := h.setFld.setFld.setHring.setEthStream

/-! ## The table of SERVE -/

theorem State.MemOk.setSrv {q v} : (s.setSrv q v).MemOk := h.of_same rfl rfl
theorem State.MemOk.modSrv {q} {f : Serve → Serve} : (s.modSrv q f).MemOk := h.setSrv
theorem State.MemOk.setEnt {e v} : (s.setEnt e v).MemOk := h.of_same rfl rfl
theorem State.MemOk.modEnt {e} {f : Entry → Entry} : (s.modEnt e f).MemOk := h.setEnt

theorem State.MemOk.enter {q e st n} : (s.enter q e st n).MemOk := by
  unfold State.enter
  extract_lets s₁ s₂
  have hs₁ : s₁.MemOk := h.modEnt
  have hs₂ : s₂.MemOk := .ite hs₁.addFld hs₁
  exact .ite hs₂.addFld hs₂

theorem State.MemOk.queueRoot {q pri a bs} : (s.queueRoot q pri a bs).MemOk := by
  refine foldl_keeps (fun x : State × List Byte => x.1.MemOk) _ (fun _ _ hacc => ?_) _ _ ?_
  · exact hacc.addXfer
  · exact h

theorem State.MemOk.rootWrite {q pri a bs} : (s.rootWrite q pri a bs).MemOk := .ite h (.ite (.ite h.queueRoot h.jobFault) h.writeMem)

theorem State.MemOk.rootSlots {a n v} (e : s.rootSlots a n = some v) : v.MemOk := by
  unfold State.rootSlots at e
  split at e
  · refine foldl_keeps (fun acc : Option State => ∀ v, acc = some v → v.MemOk) _ (fun acc u ih v e => ?_) _ _ ?_ v e
    · obtain ⟨t, ht, e⟩ := Option.bind_eq_some_iff.1 e
      exact (ih t ht).passedSlots e
    · rintro _ ⟨⟩
      exact h
  · exact Option.some.inj e ▸ h

theorem State.MemOk.rootRead {q a n} : (s.rootRead q a n).1.MemOk := by
  unfold State.rootRead
  extract_lets r
  have hr : r.1.MemOk := h.readMem
  split
  · exact h
  · split
    · exact h.jobFault
    · exact hr

theorem State.MemOk.listPage {q e j g} : (s.listPage q e j g).MemOk := h.rootWrite

theorem State.MemOk.takePages {q e n} {v} : s.takePages q e n = some v → v.MemOk := by
  unfold State.takePages
  extract_lets _ _ s₁
  have hs₁ : s₁.MemOk := h.foldl fun _ _ ht => ht.listPage
  split
  · nofun
  · exact hs₁.modEnt.ofSome

theorem State.MemOk.freePages {e} : (s.freePages e).MemOk := h.modEnt
theorem State.MemOk.outputFull {q r} : (s.outputFull q r).MemOk := h.ringOvr.modSrv
theorem State.MemOk.statusRecord {q ring reqid status} : (s.statusRecord q ring reqid status).MemOk := .ite h (.ite h.outputFull h.ringPut)
theorem State.MemOk.refuseSub {q v status} : (s.refuseSub q v status).MemOk := h.statusRecord.addFld.raise

/-! ## The step of SERVE -/

theorem State.MemOk.beginMove {q e n out} : (s.beginMove q e n out).MemOk := h.modEnt.modSrv

theorem State.MemOk.endMove {q n m} : (s.endMove q n m).MemOk := by
  unfold State.endMove
  extract_lets s₁ s₂
  have hs₁ : s₁.MemOk := .ite h h.modSrv
  have hs₂ : s₂.MemOk := hs₁.modEnt
  exact .ite hs₂.freePages (.ite hs₂.modEnt (.ite hs₂.enter hs₂))

theorem State.MemOk.endMoves {q n} : (s.endMoves q n).MemOk := h.modSrv.foldl fun _ _ ht => ht.endMove

omit h in
theorem StepX.MemOk.finish {q e st n} {x : StepX} (h : x.MemOk) : (x.finish q e st n).MemOk := .of (.enter (.ite h (.freePages h)))

omit h in
theorem StepX.MemOk.noPage {q} {x : StepX} (h : x.MemOk) : (x.noPage q).MemOk := .of (.addFld h)

omit h in
theorem StepX.MemOk.commit {q n} {x : StepX} (h : x.MemOk) : (x.commit q n).MemOk := by
  unfold StepX.commit
  extract_lets s₁ s₂ _ _ s₃ _ s₄ _ x₂
  have hs₁ : s₁.MemOk := State.MemOk.foldl h fun _ _ ht => ht.modEnt
  have hs₂ : s₂.MemOk := hs₁.modSrv
  have hs₃ : s₃.MemOk := .modSrv (hs₂.foldl fun _ _ ht => ht.setEnt)
  have hs₄ : s₄.MemOk := hs₃.foldl fun _ _ ht => ht.enter
  clear_value s₄
  have hx₂ : x₂.MemOk := StepX.MemOk.foldl (.of hs₄) fun _ _ hy => .ite (.of (.statusRecord hy.finish)) hy.finish
  clear_value x₂
  exact .of (.endMoves hx₂)

theorem State.MemOk.applyAdmit {q e n b} : (s.applyAdmit q e n b).MemOk := h.modSrv.setEnt.addFld.setFld

omit h in
theorem StepX.MemOk.stale {q} {x : StepX} (h : x.MemOk) : (x.stale q).MemOk := .of (.addFld h)

omit h in
theorem StepX.MemOk.apply {q n b} {x : StepX} (h : x.MemOk) : (x.apply q n b).MemOk := by
  unfold StepX.apply
  extract_lets _ _ _ x₂
  have hx₂ : x₂.MemOk := h.finish
  refine .ite h ?_
  refine .ite h.stale ?_
  refine .ite (.ite (.of (.applyAdmit h)) h.stale) ?_
  refine .ite h.stale ?_
  split
  · exact .of (.enter h)
  · refine .ite ?_ (.of (.enter (.modEnt h)))
    split
    next t e =>
      have ht := State.MemOk.takePages h e
      exact .of ht.modEnt.enter
    · exact h.noPage
  · exact .of (.beginMove (.enter h))
  · refine .ite h.stale ?_
    split
    next t e =>
      have ht := State.MemOk.takePages h e
      exact .of ht.modEnt.beginMove
    · exact h.noPage
  · exact .ite (.ite (.of (.statusRecord hx₂)) hx₂) h.stale
  · exact .ite h.finish h.stale
  · exact h.stale

omit h in
theorem StepX.MemOk.applyAll {q n} {x : StepX} (h : x.MemOk) : (x.applyAll q n).MemOk := .foldl (.of (.modSrv h)) fun _ _ hy => hy.apply

omit h in
theorem StepX.MemOk.decodePages {q n} {x : StepX} (h : x.MemOk) : (x.decodePages q n).MemOk := by
  refine .foldl h fun y e hy => .ite ?_ hy
  split
  next t e => exact StepX.MemOk.of (State.MemOk.takePages hy e)
  · exact .of (.enter (.modEnt hy.noPage))

omit h in
theorem StepX.MemOk.admitPrefill {x : StepX} (hx : x.MemOk) {q n chunk es b room} : (x.admitPrefill q n chunk es b room).1.MemOk := by
  induction es generalizing x b room with
  | nil => exact hx
  | cons e r ih =>
    rw [StepX.admitPrefill]
    split
    · exact hx
    · dsimp only
      split
      case h_1 => exact hx
      case h_2 t ht => exact ih (.of (State.MemOk.enter (State.MemOk.takePages (s := x.s) hx ht)))

omit h in
theorem StepX.MemOk.slots {q n var} {x : StepX} (h : x.MemOk) : (x.slots q n var).1.MemOk := h.decodePages.admitPrefill

theorem State.MemOk.beatStep {q n} : (s.beatStep q n).MemOk := by
  unfold State.beatStep
  extract_lets x x₂ _ _ r x₃ s₁ s₂ s₃ s₄ s₅
  have hx : x.MemOk := h
  have hx₂ : x₂.MemOk := hx.commit.applyAll
  have hr : r.1.MemOk := hx₂.slots
  have hx₃ : x₃.MemOk := hr
  have hs₁ : s₁.MemOk := .ite (.writeMem hx₃) (.jobFault hx₃)
  have hs₂ : s₂.MemOk := hs₁.modSrv.modPart
  have hs₃ : s₃.MemOk := hs₂.setFld.setFld
  have hs₄ : s₄.MemOk := hs₃.setFld
  have hs₅ : s₅.MemOk := .ite hs₄.raise hs₄
  exact .ite hs₅.raise hs₅

/-! ## Decisions of SERVE -/

theorem State.MemOk.storeFlit {q b} : (s.storeFlit q b).MemOk := .ite h.jobFault (.ite h.jobFault h.modSrv)
theorem State.MemOk.sendAdmit {q b} : (s.sendAdmit q b).MemOk := h.ownFlit.toChildren.storeFlit
theorem State.MemOk.inputDesc {q e v} : (s.inputDesc q e v).MemOk := h.rootWrite
theorem State.MemOk.takeSub {q e v} : (s.takeSub q e v).MemOk := h.modSrv.inputDesc
theorem State.MemOk.logPush {q body} : (s.logPush q body).MemOk := .ite h (.ite h.outputFull h.ringPut)

theorem State.MemOk.sendDecision {q i last d} : (s.sendDecision q i last d).MemOk := by
  unfold State.sendDecision
  extract_lets _ _ s₁ s₂ s₃
  have hs₁ : s₁.MemOk := .ite h h.choice
  have hs₂ : s₂.MemOk := by
    unfold s₂
    split
    · exact hs₁.takeSub.modSrv
    · exact hs₁
  have hs₃ : s₃.MemOk := .ite hs₂ hs₂.modSrv
  exact hs₃.sendAdmit.logPush

theorem State.MemOk.sendAll {q i ds} : (s.sendAll q i ds).MemOk := by
  induction ds generalizing s i with
  | nil => exact h
  | cons d r ih =>
    cases r with
    | nil => exact h.sendDecision
    | cons d' r => exact ih h.sendDecision

theorem State.MemOk.takeDecisions {q} : (s.takeDecisions q).MemOk := h.sendAll

theorem State.MemOk.pumpLog {q now n} : (s.pumpLog q now n).MemOk := by
  induction n generalizing s with
  | zero => exact h
  | succ n ih =>
    rw [State.pumpLog]
    split
    · exact h
    next body sub _ =>
      extract_lets _ s₁ s₂ s₃
      have hs₂ : s₂.MemOk := by
        unfold s₂
        split
        · exact .takeSub h.ringTake
        · exact h.ringTake
      exact ih (.sendAdmit (.ite hs₂ hs₂.modSrv))

theorem State.MemOk.pumpLate : s.pumpLate.MemOk := h.foldl fun _ _ ht => .ite ht.pumpLog ht
theorem State.MemOk.beatDecide {q} : (s.beatDecide q).MemOk := .ite h.pumpLog (.ite h.takeDecisions h)
theorem State.MemOk.takeAdmit {q f} : (s.takeAdmit q f).MemOk := .ite h.fabDisc.jobFault (.ite h.storeFlit h)

theorem State.MemOk.submit {r slot input} : (s.submit r slot input).MemOk := by
  unfold State.submit
  extract_lets _ s₁
  have hs₁ : s₁.MemOk := h.ringTake
  refine .ite hs₁.refuseSub ?_
  refine .ite hs₁.refuseSub ?_
  split
  · exact hs₁.refuseSub
  · exact hs₁.modSrv

theorem Res.MemOk.execSubmit {ring input} : (execSubmit ring input s).MemOk := by
  unfold Machine.execSubmit
  split
  · exact .ite (.done h.submit) (.done h)
  · exact .done h

theorem State.MemOk.staged {q v} : (s.staged q v).MemOk := by
  unfold State.staged
  extract_lets s₁ s₂
  have hs₁ : s₁.MemOk := h.modSrv
  have hs₂ : s₂.MemOk := hs₁.rootWrite
  exact .ite hs₂.modSrv.pumpLate hs₂.refuseSub

theorem Res.MemOk.execStagingComplete : (execStagingComplete s).MemOk := by
  unfold Machine.execStagingComplete
  split
  · exact .done h.staged
  · exact .done h

theorem State.MemOk.abortReq {q reqid} : (s.abortReq q reqid).1.MemOk := by
  unfold State.abortReq
  split
  · exact h
  · split
    · exact h.modSrv.statusRecord
    · split
      · exact h.modSrv
      · exact h

theorem State.MemOk.writeAbort {q reqid} : (s.writeAbort q reqid).MemOk := h.abortReq.setFld
theorem State.MemOk.modMove {q e} {f : Move → Move} : (s.modMove q e f).MemOk := h.modSrv

theorem State.MemOk.moveWith {q m b} : (s.moveWith q m b).MemOk := by
  unfold State.moveWith
  extract_lets _ _ r _ r₂ r₃
  have hr : r.1.MemOk := by
    unfold r
    split
    · exact h.rootRead
    · exact h
  have hr₂ : r₂.1.MemOk := h.rootRead
  have hr₃ : r₃.1.MemOk := h.hostRead
  exact .ite (.ite h hr.modMove.request) (.ite (.ite h.modMove (.ite hr₂.modMove.ethSend h.modMove.ethSend)) (.ite h (.ite
    hr₂.modMove.hostWrite hr₃.modMove.rootWrite)))

theorem State.MemOk.moveNext {q m b} : (s.moveNext q m b).MemOk := by
  unfold State.moveNext
  split
  · split
    case h_1 t e => exact (h.rootSlots e).moveWith
    case h_2 => exact h
  · exact h.moveWith

theorem State.MemOk.moveGot {q m b status data} : (s.moveGot q m b status data).MemOk := .ite h.modMove h.modMove.rootWrite

theorem State.MemOk.moveReplies : s.moveReplies.MemOk := by
  unfold State.moveReplies
  extract_lets _ _ _ s₁
  have hs₁ : s₁.MemOk := h.of_same rfl rfl
  refine .ite h ?_
  refine .foldl hs₁ fun t d ht => ?_
  extract_lets
  split
  · exact ht.moveGot
  · exact ht

theorem State.MemOk.parkAcks {q} : (s.parkAcks q).MemOk := h.foldl fun _ _ ht => .ite (ht.foldl fun _ _ hu => .ite hu hu.moveGot) ht

theorem State.MemOk.moveTick : s.moveTick.MemOk := by
  unfold State.moveTick
  extract_lets s₁
  have hs₁ : s₁.MemOk := h.moveReplies
  refine .foldl hs₁ fun t x ht => ?_
  extract_lets _ t
  have ht : t.MemOk := .ite ht.parkAcks ht
  split
  · split
    · exact ht.moveNext
    · exact ht
  · exact ht

/-! ## Power and clocks -/

theorem State.MemOk.modPow {f : PowSt → PowSt} : (s.modPow f).MemOk := h.of_same rfl rfl
theorem State.MemOk.writeCap {v} : (s.writeCap v).MemOk := .ite h (.ite h.setFld h.setFld.setFld)
theorem State.MemOk.writePdecl {q v} : (s.writePdecl q v).MemOk := .ite h.refuseWrite (.ite h.setFld h.setFld.setFld)
theorem State.MemOk.powerTrip : s.powerTrip.MemOk := h.hwSet.faultAll.raise

theorem State.MemOk.measure {w} : (s.measure w).MemOk := by
  unfold State.measure
  extract_lets _ s₁
  have hs₁ : s₁.MemOk := h.modPow.setFld
  exact .ite hs₁.powerTrip hs₁

theorem State.MemOk.stepDone {q} : (s.stepDone q).MemOk := by
  unfold State.stepDone
  extract_lets
  split
  · exact h.setPart
  · extract_lets s₁ s₂
    have hs₁ : s₁.MemOk := h.setPart
    have hs₂ : s₂.MemOk := by
      unfold s₂
      split
      · exact hs₁.endAct
      · exact hs₁
    exact hs₂.raise

theorem State.MemOk.takeStep {q n step} : (s.takeStep q n step).MemOk := by
  unfold State.takeStep
  extract_lets s₁ s₂
  have hs₁ : s₁.MemOk := h.startAct.modPart
  have hs₂ : s₂.MemOk := hs₁.setFld.setFld
  exact .ite hs₂ hs₂.stepDone

theorem State.MemOk.sendStep {q n step} : (s.sendStep q n step).MemOk := h.ownFlit.toChildren

theorem State.MemOk.askStep {q n step spread} : (s.askStep q n step spread).1.MemOk := by
  unfold State.askStep
  extract_lets _ _ t
  have ht : t.MemOk := h.takeStep
  split
  · exact h
  · exact .ite ht.sendStep ht

theorem State.MemOk.writeStepcmd {q v} : (s.writeStepcmd q v).MemOk := h.askStep.setFld
theorem State.MemOk.stepFlit {q f} : (s.stepFlit q f).MemOk := .ite h.jobFault (.ite h.takeStep h.jobFault)
theorem State.MemOk.pllLost {r} : (s.pllLost r).MemOk := .raise (h.hwSet.modPow.foldl fun _ _ ht => .ite ht.jobFault ht)
theorem State.MemOk.beginTrans {t} : (s.beginTrans t).MemOk := h.setFld.modPow.startAct
theorem State.MemOk.askState {t} : (s.askState t).1.MemOk := .ite h.beginTrans h
theorem State.MemOk.beginWake {code} : (s.beginWake code).MemOk := h.beginTrans.setFld.modPow

theorem State.MemOk.wakeBy {code flood} : (s.wakeBy code flood).MemOk := by
  unfold State.wakeBy
  extract_lets
  refine .ite h ?_
  split
  · exact .ite h h.setFld.modPow
  · exact h.modPow
  · exact .ite h h.beginWake.modPow

theorem State.MemOk.writeState {t} : (s.writeState t).1.MemOk := by
  unfold State.writeState
  split
  · exact h.wakeBy
  · exact h.askState

theorem State.MemOk.stateCmd {t} : (s.stateCmd t).MemOk := .ite h h.writeState.setFld

/-! ## Beats and moves -/

omit h in
theorem CommitX.MemOk.slot {q slot} {x : CommitX} (h : x.MemOk) : (x.slot q slot).MemOk := by
  unfold CommitX.slot
  extract_lets s₁
  have hs₁ : s₁.MemOk := h
  split
  · exact .of hs₁.addFld
  · extract_lets _ _ _ _ s₂ s₃ s₄ s₅
    have hs₂ : s₂.MemOk := .ite hs₁.ringPut hs₁
    have hs₃ : s₃.MemOk := hs₂.modEnt
    have hs₄ : s₄.MemOk := .ite hs₃.modSrv hs₃
    have hs₅ : s₅.MemOk := hs₄.modPart
    exact hs₅

omit h in
theorem CommitX.MemOk.pop {cl bit guarded} {x : CommitX} (h : x.MemOk) : (x.pop cl bit guarded).MemOk :=
  .ite h (.ite (.of (.modCluster h)) h)

theorem CommitX.MemOk.commitRecords {q} : (s.commitRecords q).MemOk := by
  unfold State.commitRecords
  extract_lets _ x0 d _ _ x
  have hd : d.1.MemOk := h.readMem
  have hx : x.MemOk := CommitX.MemOk.foldl hd fun _ _ hx => .slot (.pop (.of (.rootRead hx)))
  exact .ite (.of h) (.ite (.of hd) (.ite hx (.of (.writeMem hx))))

theorem State.MemOk.queueLedger {q off bs} : (s.queueLedger q off bs).MemOk := h.addXfer

theorem State.MemOk.queueBeat {q recs end_} : (s.queueBeat q recs end_).MemOk := by
  unfold State.queueBeat
  extract_lets _ s₁ _ s₂ _ s₃
  have hs₁ : s₁.MemOk := h.foldl fun _ _ ht => ht.queueLedger
  have hs₂ : s₂.MemOk := hs₁.foldl fun _ _ ht => .ite ht.queueLedger ht
  have hs₃ : s₃.MemOk := hs₂.queueLedger
  exact .ite h (.ite hs₃.queueLedger hs₃)

theorem State.MemOk.ringFault {q core} : (s.ringFault q core).MemOk := h.jobFault

theorem State.MemOk.commitBeat {q recs} : (s.commitBeat q recs).MemOk := by
  unfold State.commitBeat
  extract_lets _ s₁ s₂
  have hs₁ : s₁.MemOk := h.modPart
  have hs₂ : s₂.MemOk := hs₁.queueBeat
  exact .ite hs₂.modPart.raise hs₂.modPart

theorem State.MemOk.badPop {q} : (s.badPop q).MemOk := h.modCluster.writeMem.ringViolation.ringFault

theorem State.MemOk.workEnd {q} : (s.workEnd q).MemOk := by
  unfold State.workEnd
  extract_lets s₁ _ x
  have hs₁ : s₁.MemOk := h.endCycle
  have hx : x.MemOk := .commitRecords hs₁
  refine .ite hs₁ ?_
  split
  · exact hs₁.ringFault
  · refine .ite hs₁.ringFault ?_
    refine .ite hs₁.jobFault ?_
    split
    · exact hs₁.ringOvr.ringFault
    · exact .ite hs₁.badPop (.commitBeat hx)

theorem State.MemOk.endBeat {q c lc e} : (s.endBeat q c lc e).MemOk := by
  unfold State.endBeat
  extract_lets s₁ s₂
  have hs₁ : s₁.MemOk := h.completeRun
  have hs₂ : s₂.MemOk := hs₁.modCore
  exact .ite hs₂.workEnd hs₂

theorem Res.MemOk.execBeatendComplete {core} : (execBeatendComplete core s).MemOk := by
  unfold Machine.execBeatendComplete
  split
  · exact .done h.endBeat
  · exact .done h

theorem State.MemOk.haltCore {q c lc} : (s.haltCore q c lc).MemOk := by
  unfold State.haltCore
  extract_lets s₁ _ s₂
  have hs₁ : s₁.MemOk := h.completeRun
  have hs₂ : s₂.MemOk := hs₁.modCore
  exact .ite hs₂.workEnd hs₂

theorem Res.MemOk.execHaltComplete {core} : (execHaltComplete core s).MemOk := by
  unfold Machine.execHaltComplete
  split
  · exact .done h.haltCore
  · exact .done h

theorem State.MemOk.switchPage {q cl v} : (s.switchPage q cl v).MemOk := h.setFld
theorem State.MemOk.restartSlots {cl} : (s.restartSlots cl).MemOk := h.foldl fun _ _ ht => ht.setCol

theorem State.MemOk.resumeFetch {q v c} : (s.resumeFetch q v c).MemOk := by
  unfold State.resumeFetch
  extract_lets
  refine .ite h ?_
  split
  · exact h.modCore
  · exact h.askTable

theorem State.MemOk.releaseDones {q b} : (s.releaseDones q b).MemOk := by
  unfold State.releaseDones
  extract_lets _ _ _ s₁
  have hs₁ : s₁.MemOk := h.of_same rfl rfl
  exact hs₁.foldl fun _ _ ht => ht.landRead.countDelivery

theorem State.MemOk.takeSnapshot {q b} : (s.takeSnapshot q b).MemOk := by
  unfold State.takeSnapshot
  extract_lets _ s₁
  have hs₁ : s₁.MemOk := h.setGop
  split
  · exact h
  · extract_lets _ s₂
    have hs₂ : s₂.MemOk := by
      unfold s₂
      split
      · exact .ite hs₁.ringOvr hs₁.ringPut
      · exact hs₁
    exact .ite hs₂.gopDone hs₂.gopShow

theorem State.MemOk.moveFault {q} : (s.moveFault q).MemOk := by
  unfold State.moveFault
  split
  · exact h.modSrv.jobFault
  · exact h

theorem State.MemOk.beginBeat {q} : (s.beginBeat q).MemOk := by
  unfold State.beginBeat
  extract_lets _ _ s₁ s₂ s₃ s₄ s₅ s₆
  have hs₁ : s₁.MemOk := h.modPart
  have hs₂ : s₂.MemOk := hs₁.setFld
  have hs₃ : s₃.MemOk := hs₂.foldl fun _ _ ht => ht.switchPage.restartSlots
  have hs₄ : s₄.MemOk := hs₃.releaseDones.takeSnapshot
  have hs₅ : s₅.MemOk := hs₄.foldl fun _ _ ht => ht.resumeFetch
  have hs₆ : s₆.MemOk := hs₅.beatDecide.moveFault
  exact .ite hs₆.beginCycle hs₆

theorem State.MemOk.startBeat {q} : (s.startBeat q).MemOk := .ite h.beginBeat h.modPart.freeze
theorem State.MemOk.thaw {q} : (s.thaw q).MemOk := .ite h.unfreeze.beginBeat h.unfreeze.beginCycle
theorem State.MemOk.frozenEdge {q} : (s.frozenEdge q).MemOk := h.modPart

/-! ## Launch and load -/

theorem State.MemOk.clearBufMarks {c} : (s.clearBufMarks c).MemOk := h.of_same rfl rfl
theorem State.MemOk.launchCore {c} : (s.launchCore c).MemOk := .setCore (h.clearBufMarks.foldl fun _ _ ht => ht.clrReg)
theorem State.MemOk.launchCluster {cl} : (s.launchCluster cl).MemOk := h.setCluster.clrReg.clrReg
theorem State.MemOk.launchServe {q} : (s.launchServe q).MemOk := h.of_same rfl rfl
theorem State.MemOk.modCols {q} {f : TierCol → TierCol} : (s.modCols q f).MemOk := h.foldl fun _ _ ht => ht.setCol

theorem State.MemOk.launchSet {q count} : (s.launchSet q count).MemOk :=
  .modPart (.setFld (.setFld (.setFld (.modCols (.launchServe (.foldl (.foldl (h.foldl fun _ _ ht => ht.launchCore) fun _ _ ht =>
    ht.launchCluster) fun _ _ ht => ht.clrReg))))))

theorem State.MemOk.launchWake : s.launchWake.MemOk := .ite h.beginTrans h

theorem State.MemOk.notice {jobid count mode k} : (s.notice jobid count mode k).1.MemOk := by
  unfold State.notice
  split
  · exact h
  · exact .ite h.setFld.launchSet.launchWake h.setFld.raise

theorem State.MemOk.launch {q spread} : (s.launch q spread).MemOk := by
  unfold State.launch
  extract_lets _ _ _ _ r s₁ f
  have hr : r.1.MemOk := h.notice
  have hs₁ : s₁.MemOk := by
    unfold s₁
    split
    · exact hr.setFld
    · exact hr
  have hf : f.1.MemOk := hs₁.ownFlit
  exact .ite hf.toChildren hs₁

theorem State.MemOk.load {q} : (s.load q).MemOk := .ite h.setFld.modPart.raise h.setFld

theorem State.MemOk.clearJ {q} : (s.clearJ q).MemOk :=
  .foldl (h.foldl fun _ _ ht => ht.foldl fun _ _ hu => hu.clrReg) fun _ _ ht => ht.setFld

theorem State.MemOk.stopUnits {q} : (s.stopUnits q).MemOk := .modCols (h.modPartCores.foldl fun _ _ ht => ht.setCluster)

theorem State.MemOk.resetServe {q} : (s.resetServe q).MemOk := by
  unfold State.resetServe
  extract_lets _ s₁
  have hs₁ : s₁.MemOk := h.foldl fun _ _ ht => ht.statusRecord
  exact hs₁.of_same rfl rfl

theorem State.MemOk.cancelOps {q} : (s.cancelOps q).MemOk := h.setGop.foldl fun _ _ ht => .ite ht.endAct ht

theorem State.MemOk.partReset {q} : (s.partReset q).MemOk := by
  unfold State.partReset
  extract_lets s₁ s₂ s₃ _ s₄
  have hs₁ : s₁.MemOk := h.landLedger.dropSched
  have hs₂ : s₂.MemOk := hs₁.stopUnits.resetServe
  have hs₃ : s₃.MemOk := hs₂.cancelOps
  have hs₄ : s₄.MemOk := hs₃.of_same rfl rfl
  exact hs₄.setPart.clearJ

theorem State.MemOk.gopReset {q} : (s.gopReset q).MemOk := h.ownFlit.toChildren.partReset.raise

theorem Res.MemOk.execReset {q} : (execReset q s).MemOk := by
  unfold Machine.execReset
  refine .ite (.done h) ?_
  split
  · exact .done h.gopRefuse
  · exact .done h.gopReset

/-! ## Host interfaces -/

theorem State.MemOk.slotsFrom {r at_ n given} : (s.slotsFrom r at_ n given).1.MemOk := by
  unfold State.slotsFrom
  extract_lets
  refine foldl_keeps (fun x : State × List (List Byte) => x.1.MemOk) _ (fun acc i hacc => ?_) _ _ h
  extract_lets v
  have hv : v.1.MemOk := hacc.hostRead
  split
  · exact hacc
  · exact hv

theorem State.MemOk.writeHpos {r v given} : (s.writeHpos r v given).MemOk :=
  .ite (.ite h.ringUnd h.setFld) (.ite h.ringOvr h.slotsFrom.setHring.setFld.pumpLate)

theorem State.MemOk.setDma {c v} : (s.setDma c v).MemOk := h.modHost

theorem State.MemOk.pieceSlots {a n write} {v} : s.pieceSlots a n write = some v → v.MemOk := by
  unfold State.pieceSlots
  split
  · exact h.passedSlots
  · exact h.ofSome

theorem State.MemOk.dmaWrite {a bs} : (s.dmaWrite a bs).s.MemOk := by
  refine foldl_keeps (fun x : Moving × List Byte => x.1.s.MemOk) _ (fun acc p hacc => ?_) _ _ h
  dsimp only
  split
  · exact hacc
  · split
    case h_1 => exact hacc
    case h_2 t e => exact (hacc.pieceSlots e).writeMem

theorem Moving.MemOk.dmaRead {a n} : (s.dmaRead a n).MemOk := by
  unfold State.dmaRead
  refine .foldl h fun x p hx => ?_
  refine .ite hx ?_
  split
  · exact hx
  next t e =>
    have ht := State.MemOk.pieceSlots hx e
    exact .of ht.readMem

theorem State.MemOk.dmaTake {c d status} : (s.dmaTake c d status).MemOk := .setDma (.ite h.ringTake.setFld h.ringTake)
theorem State.MemOk.dmaMoved {c status bs} : (s.dmaMoved c status bs).MemOk := h.setDma
theorem State.MemOk.dmaPart {c n bs rest} : (s.dmaPart c n bs rest).MemOk := h.setDma
theorem State.MemOk.h2dMove {c d bs err} : (s.h2dMove c d bs err).MemOk := .ite (.dmaPart (.dmaWrite h)) (.dmaMoved (.dmaWrite h))
theorem State.MemOk.h2d {c d data err} : (s.h2d c d data err).MemOk := .ite h.dmaTake h.dmaTake.h2dMove

theorem Res.MemOk.execH2d {ch data err} : (execH2d ch data err s).MemOk := by
  unfold Machine.execH2d
  split
  · exact .ite (.done h.h2dMove) (.done h)
  · exact .ite (.done h.h2d) (.done h)
  · exact .done h

theorem State.MemOk.d2hMove {c d err} : (s.d2hMove c d err).MemOk := by
  unfold State.d2hMove
  extract_lets _ r t
  have hr : r.MemOk := .dmaRead h
  have ht : t.MemOk := .hostWrite hr
  exact .ite h.dmaMoved (.ite ht.dmaPart ht.dmaMoved)

theorem State.MemOk.d2h {c d err} : (s.d2h c d err).MemOk := .ite h.dmaTake h.dmaTake.d2hMove

theorem Res.MemOk.execD2h {ch err} : (execD2h ch err s).MemOk := by
  unfold Machine.execD2h
  split
  · exact .ite (.done h.d2hMove) (.done h)
  · exact .ite (.done h.d2h) (.done h)
  · exact .done h

theorem State.MemOk.h2lMove {c fin} : (s.h2lMove c fin).MemOk := .setDma (.ite h h.landBytes)
theorem State.MemOk.h2l {c d data err} : (s.h2l c d data err).MemOk := .ite h.dmaTake h.dmaTake.setDma.h2lMove
theorem State.MemOk.h2lMore {c} : (s.h2lMore c).MemOk := h.h2lMove

theorem Res.MemOk.execH2l {ch data err} : (execH2l ch data err s).MemOk := by
  unfold Machine.execH2l
  split
  · exact .ite (.done h.h2l) (.done h)
  · exact .ite (.done h.h2lMore) (.done h)

theorem State.MemOk.digSlice {c} : (s.digSlice c).MemOk := h.setDma.modHost

theorem Res.MemOk.execDigestSlice : (execDigestSlice s).MemOk := by
  unfold Machine.execDigestSlice
  split
  · exact .done h.digSlice
  · exact .done h

theorem State.MemOk.dmaDigest {v d status} : (s.dmaDigest v d status).1.MemOk := by
  unfold State.dmaDigest
  extract_lets f
  have hf : f.1.MemOk := h.takeFree
  split
  · exact h
  · split
    · exact h
    · exact hf

theorem State.MemOk.dmaDone {c v d status} : (s.dmaDone c v d status).MemOk := by
  unfold State.dmaDone
  extract_lets g s₁ s₂ _ _ _ _ s₃
  have hg : g.1.MemOk := h.dmaDigest
  have hs₁ : s₁.MemOk := hg.ringPut
  have hs₂ : s₂.MemOk := hs₁.setFld
  have hs₃ : s₃.MemOk := hs₂.setDma.setFld
  exact .ite hs₃ hs₃.raise

theorem Res.MemOk.execDmaComplete {ch} : (execDmaComplete ch s).MemOk := by
  unfold Machine.execDmaComplete
  extract_lets
  split
  · exact .ite (.done h.dmaDone) (.done h)
  · exact .done h

theorem State.MemOk.sendPending : s.sendPending.MemOk := h.foldl fun _ _ ht => .ite ht ht.sendVector
theorem State.MemOk.dmaAbort : s.dmaAbort.MemOk := h.modHost
theorem State.MemOk.pcieDown : s.pcieDown.MemOk := .ite h.setLink.dmaAbort.raise h
theorem State.MemOk.ethLink {p up} : (s.ethLink p up).MemOk := .ite h h.setLink.raise
theorem State.MemOk.mgmtLink {up} : (s.mgmtLink up).MemOk := .ite h h.setLink.raise
theorem State.MemOk.answer {bs} : (s.answer bs).MemOk := h.of_same rfl rfl
theorem State.MemOk.bar2Read {off n} : (s.bar2Read off n).MemOk := .ite h.accErr.answer (.ite h.readMem.accErr.answer h.readMem.answer)
theorem State.MemOk.bar2Write {off bs} : (s.bar2Write off bs).MemOk := .ite h.accErr (.ite h.writeMem.accErr h.writeMem)
theorem State.MemOk.ethSlotIn {r m} : (s.ethSlotIn r m).MemOk := .ite h.setHring h.setHring.setFld.pumpLate

theorem State.MemOk.ethSlot {port m} : (s.ethSlot port m).MemOk :=
  .ite h.ethDiscard (.ite h.ethDiscard (.ite h.ethAccept.ethSlotIn h.ethAccept))

theorem Res.MemOk.execEthSlot {port raw} : (execEthSlot port raw s).MemOk := by
  unfold Machine.execEthSlot
  refine .ite ?_ (.done h)
  split
  · exact .ite (.done h.ethSlot) (.done h)
  · exact .done h.ethDiscard

theorem State.MemOk.ethAcked {k seq} : (s.ethAcked k seq).MemOk := .ite h (.ite h.setEthStream.setFld h.setEthStream)

theorem Res.MemOk.execEthAck {port raw} : (execEthAck port raw s).MemOk := by
  unfold Machine.execEthAck
  refine .ite ?_ (.done h)
  split
  · exact .ite (.done h.ethAcked) (.done h)
  · exact .done h.ethDiscard

theorem State.MemOk.streamDown {k} : (s.streamDown k).MemOk :=
  .raise (.ite h.setEthStream.setFld (h.setEthStream.foldl fun _ _ ht => ht.modSrv))

theorem State.MemOk.ethResend {k} : (s.ethResend k).MemOk := .ite h.streamDown (h.setEthStream.foldl fun _ _ ht => ht.ethOut)

theorem State.MemOk.parkd {port m} : (s.parkd port m).MemOk := by
  unfold State.parkd
  extract_lets v
  have hv : v.1.MemOk := h.ethAccept
  refine .ite hv ?_
  split
  · exact hv.moveGot
  · exact hv

theorem Res.MemOk.execParkd {port raw} : (execParkd port raw s).MemOk := by
  unfold Machine.execParkd
  refine .ite ?_ (.done h)
  split
  · exact .ite (.done h.parkd) (.done h)
  · exact .done h.ethDiscard

theorem State.MemOk.modPins {f : Pins → Pins} : (s.modPins f).MemOk := h.of_same rfl rfl
theorem State.MemOk.scan {ir} : (s.scan ir).MemOk := h.modPins
theorem State.MemOk.scanDrive {ir drive} : (s.scanDrive ir drive).MemOk := .ite h.modPins h.modPins

/-! ## Time -/

theorem State.MemOk.modTm {f : TimeSt → TimeSt} : (s.modTm f).MemOk := h.of_same rfl rfl
theorem State.MemOk.setSlew {r} : (s.setSlew r).MemOk := h.modTm.setFld
theorem State.MemOk.slewBy {e} : (s.slewBy e).MemOk := .setSlew (.ite h.modTm h)
theorem State.MemOk.stepBy {e} : (s.stepBy e).MemOk := h.of_same rfl rfl
theorem State.MemOk.stepRefused : s.stepRefused.MemOk := h.addFld.raise

theorem State.MemOk.correct {e own} : (s.correct e own).MemOk := by
  unfold State.correct
  extract_lets s₁ t
  have hs₁ : s₁.MemOk := h.setFld
  have ht : t.MemOk := hs₁.setFld
  exact .ite hs₁ (.ite ht.stepBy (.ite (.ite ht.slewBy.stepRefused ht.slewBy) (.ite ht.slewBy.stepRefused (.ite ht.slewBy ht.stepBy))))

theorem State.MemOk.slewNs : s.slewNs.MemOk := by
  unfold State.slewNs
  extract_lets s₁
  have hs₁ : s₁.MemOk := h.modTm
  refine .ite ?_ hs₁.modTm.setSlew
  refine .setSlew ?_
  exact hs₁.of_same rfl rfl

theorem State.MemOk.beacon : s.beacon.MemOk := .modTm (h.foldl fun _ _ ht => ht.ctrlOut)

theorem State.MemOk.setParent {n f} : (s.setParent n f).MemOk := by
  unfold State.setParent
  extract_lets _ s₁ s₂ s₃ s₄
  have hs₁ : s₁.MemOk := .ite h h.modTm
  have hs₂ : s₂.MemOk := .ite hs₁ hs₁.modTm
  have hs₃ : s₃.MemOk := hs₂.setFld.setFld.setFld
  have hs₄ : s₄.MemOk := hs₃.modTm
  exact .ite hs₄ hs₄.raise

theorem State.MemOk.syncAfter {e} : (s.syncAfter e).MemOk := .ite h.modTm.setSync (.ite h.modTm.setSync h.modTm)
theorem State.MemOk.beaconUse {n f} : (s.beaconUse n f).MemOk := h.modTm.correct.syncAfter.foldl fun _ _ hu => hu.ctrlOut

theorem State.MemOk.beaconIn {n f} : (s.beaconIn n f).MemOk := by
  unfold State.beaconIn
  extract_lets s₁ s₂ s₃
  have hs₁ : s₁.MemOk := .ite h.setParent h
  have hs₂ : s₂.MemOk := hs₁.modTm
  have hs₃ : s₃.MemOk := hs₂.modTm
  exact .ite h (.ite hs₁ (.ite hs₂ (.ite hs₃.beaconUse hs₃)))

theorem State.MemOk.takeBeacon {n f} : (s.takeBeacon n f).MemOk := .ite (.ite h h.raise) h.beaconIn
theorem State.MemOk.setHoldover {on} : (s.setHoldover on).MemOk := .ite h h.setFld.raise
theorem State.MemOk.masterSync : s.masterSync.MemOk := .ite h.setSync h
theorem State.MemOk.srcHeard : s.srcHeard.MemOk := h.modTm.setHoldover.masterSync

theorem State.MemOk.masterSet {old} : (s.masterSet old).MemOk := by
  unfold State.masterSet
  extract_lets s₁
  have hs₁ : s₁.MemOk := h.modTm.setHoldover
  exact .ite h (.ite hs₁.masterSync hs₁.setSync)

theorem State.MemOk.ppsCorrection : s.ppsCorrection.1.MemOk := by
  unfold State.ppsCorrection
  extract_lets _ f
  have hf : f.1.MemOk := h.takeFree
  split
  · exact h
  · split
    · exact h
    · exact hf

theorem State.MemOk.ppsIn : s.ppsIn.MemOk := h.srcHeard.ppsCorrection.correct
theorem State.MemOk.ptmAsk : s.ptmAsk.MemOk := h.of_same rfl rfl
theorem State.MemOk.writeTimeSet {v} : (s.writeTimeSet v).MemOk := .ite h.correct h.refuseWrite
theorem State.MemOk.refBack : s.refBack.MemOk := h.setFld.modTm.masterSync
theorem State.MemOk.setPps {high} : (s.setPps high).MemOk := h.of_same rfl rfl
theorem State.MemOk.writeAlarm {v} : (s.writeAlarm v).MemOk := h.setFld.modTm

/-! ## The EVC -/

theorem State.MemOk.modEvc {f : Evc → Evc} : (s.modEvc f).MemOk := h.of_same rfl rfl
theorem State.MemOk.occur {n} : (s.occur n).MemOk := .ite h h.setFld.setFld
theorem State.MemOk.setWire {j w} : (s.setWire j w).MemOk := h.modEvc
theorem State.MemOk.wireOccur {j a r} : (s.wireOccur j a r).MemOk := h.foldl fun _ _ ht => ht.occur

theorem State.MemOk.sampleWire {j v} : (s.sampleWire j v).MemOk := by
  unfold State.sampleWire
  extract_lets _ _ _ _ _ s₁
  have hs₁ : s₁.MemOk := h.setFld.setWire
  exact .ite hs₁.setFld (.ite hs₁.setFld.wireOccur hs₁)

theorem State.MemOk.latchPulse {j} : (s.latchPulse j).MemOk := h.setWire
theorem State.MemOk.applyEvc {w} : (s.applyEvc w).MemOk := .ite h.setReg.setWire h.setReg
theorem State.MemOk.applyWrites : s.applyWrites.MemOk := h.modEvc.foldl fun _ _ ht => ht.foldl fun _ _ hs => hs.applyEvc

theorem State.MemOk.setNext {d l} : (s.setNext d l).MemOk := by
  unfold State.setNext
  split
  · exact h.setFld.setFld
  · exact h.setFld.setFld

theorem State.MemOk.deliverMc {m l} : (s.deliverMc m l).MemOk := by
  unfold State.deliverMc
  extract_lets _ s₁
  have hs₁ : s₁.MemOk := h.setNext
  clear_value s₁
  split
  · refine .ite ?_ hs₁
    exact hs₁.of_same rfl rfl
  · exact hs₁

theorem State.MemOk.deliverHost {l} : (s.deliverHost l).MemOk := h.setNext.modEvc.foldl fun _ _ hs => hs.sendVector
theorem State.MemOk.greenEntry {n} : (s.greenEntry n).MemOk := h.setFld.setFld.setFld.addFld
theorem State.MemOk.deliverGreen {l} : (s.deliverGreen l).MemOk := h.modEvc.foldl fun _ _ hs => hs.greenEntry
theorem State.MemOk.deliver : s.deliver.MemOk := h.deliverMc.deliverMc.deliverHost.deliverGreen

theorem State.MemOk.eventTick {wires} : (s.eventTick wires).MemOk := by
  unfold State.eventTick
  extract_lets s₁ _ s₂ s₃
  have hs₁ : s₁.MemOk := h.applyWrites
  have hs₂ : s₂.MemOk := by
    unfold s₂
    refine .foldl ?_ fun s n hs => ?_
    · exact hs₁.of_same rfl rfl
    · exact hs.occur
  have hs₃ : s₃.MemOk := hs₂.foldl fun _ _ ht => ht.sampleWire
  exact hs₃.deliver.modEvc.ringIrqs

/-! ## Mailbox: replies -/

theorem State.MemOk.modMbox {f : Mbox → Mbox} : (s.modMbox f).MemOk := h.of_same rfl rfl
theorem State.MemOk.modBoot {f : Boot → Boot} : (s.modBoot f).MemOk := h.of_same rfl rfl
theorem State.MemOk.respond0 {f} : (s.respond0 f).MemOk := .raise (.setFld (h.foldl fun _ _ ht => ht.setReg))

theorem State.MemOk.respond {ch status detail res} : (s.respond ch status detail res).MemOk := by
  unfold State.respond
  extract_lets _ s₁
  have hs₁ : s₁.MemOk := by
    unfold s₁
    split
    · exact h.respond0
    · split
      · exact h.of_same rfl rfl
      · exact h
    · split
      · exact h.modMbox.reply
      · exact h
  exact hs₁.modMbox

theorem State.MemOk.mboxPost {go} : (s.mboxPost go).MemOk := .ite h.addFld (.ite h.setFld.raise.modMbox h)

theorem State.MemOk.closeStandby : s.closeStandby.MemOk := by
  unfold State.closeStandby
  split
  · exact h.setFld.modMbox
  · exact h

theorem State.MemOk.mboxInterrupt : s.mboxInterrupt.MemOk := by
  unfold State.mboxInterrupt
  extract_lets s₁
  have hs₁ : s₁.MemOk := by
    unfold s₁
    split
    · exact h.respond
    · exact h
  exact hs₁.closeStandby.modMbox

theorem State.MemOk.mboxReset : s.mboxReset.MemOk := by
  unfold State.mboxReset
  extract_lets s₁
  have hs₁ : s₁.MemOk := h.closeStandby
  exact hs₁.of_same rfl rfl

/-! ## Boot and management controllers -/

theorem State.MemOk.setRec {hi lo v} : (s.setRec hi lo v).MemOk := h.psSet
theorem State.MemOk.setStage {st} : (s.setStage st).MemOk := h.setFld.setRec
theorem State.MemOk.setReason {r} : (s.setReason r).MemOk := h.setFld.setRec
theorem State.MemOk.setSlot {k} : (s.setSlot k).MemOk := h.setFld.setRec
theorem State.MemOk.setFail {n} : (s.setFail n).MemOk := h.setRec.setFld
theorem State.MemOk.setTried {v} : (s.setTried v).MemOk := h.setFld.psSet
theorem State.MemOk.setMc {m v} : (s.setMc m v).MemOk := h.modBoot
theorem State.MemOk.setMcState {m st} : (s.setMcState m st).MemOk := h.setFld
theorem State.MemOk.setMcSlot {m k} : (s.setMcSlot m k).MemOk := h.setFld
theorem State.MemOk.setPrimary {m} : (s.setPrimary m).MemOk := .ite h h.setFld.raise
theorem State.MemOk.toRom : s.toRom.MemOk := h.setMc.setMc.modBoot.setMcState.setMcState.setFld

theorem State.MemOk.startFw {k} : (s.startFw k).MemOk := by
  unfold State.startFw
  extract_lets s₁
  have hs₁ : s₁.MemOk := h.setMcState.setMcState.setMcSlot.setMcSlot
  exact hs₁.setSlot.setStage.modBoot

theorem State.MemOk.trainAll : s.trainAll.MemOk := h.foldl fun _ _ ht => .ite (.startTraining (.ite ht.leaveUp ht)) ht
theorem State.MemOk.trainEnabled : s.trainEnabled.MemOk := h.foldl fun _ _ ht => .ite ht.startTraining ht
theorem State.MemOk.enterMinimal : s.enterMinimal.MemOk := h.toRom.setFld.setStage.trainAll.raise

theorem State.MemOk.failAttempt {reason} : (s.failAttempt reason).MemOk := by
  unfold State.failAttempt
  extract_lets _ s₁ s₂
  have hs₁ : s₁.MemOk := h.setReason.setRec
  have hs₂ : s₂.MemOk := hs₁.modBoot
  exact .ite hs₂.toRom.modBoot hs₂.enterMinimal

theorem State.MemOk.slotVerified {k r} : (s.slotVerified k r).MemOk := h.setFld.setFld.setFld
theorem State.MemOk.beginVerify {k a} : (s.beginVerify k a).MemOk := h.modBoot
theorem State.MemOk.setFetch {i f} : (s.setFetch i f).MemOk := h.modBoot
theorem State.MemOk.newXid : s.newXid.1.MemOk := h.takeFree
theorem State.MemOk.beginFetch {i k} : (s.beginFetch i k).MemOk := h.newXid.setFld.setFetch
theorem State.MemOk.refetch {i f} : (s.refetch i f).MemOk := h.newXid.setFetch
theorem State.MemOk.fetchMsg {to_ typ xid off body} : (s.fetchMsg to_ typ xid off body).MemOk := h.of_same rfl rfl
theorem State.MemOk.sendSolicit {i f} : (s.sendSolicit i f).MemOk := h.fetchMsg.setFetch

theorem Res.MemOk.execSolicit : (execSolicit s).MemOk := by
  unfold Machine.execSolicit
  split
  · exact .ite (.done h.sendSolicit) (.done h)
  · exact .done h

theorem State.MemOk.sendRead {f b} : (s.sendRead f b).MemOk := by
  unfold State.sendRead
  split
  · exact h.fetchMsg
  · exact h

theorem State.MemOk.readAhead {i f} : (s.readAhead i f).MemOk := by
  unfold State.readAhead
  split
  · exact h.setFetch
  · exact .setFetch (h.foldl fun _ _ ht => ht.sendRead)

theorem State.MemOk.takeOffer {i server size f} : (s.takeOffer i server size f).MemOk := h.readAhead

theorem Res.MemOk.execOffer {server xid size} : (execOffer server xid size s).MemOk := by
  unfold Machine.execOffer
  split
  · exact .ite (.done h.takeOffer) (.done h)
  · exact .done h

theorem State.MemOk.fetchWhole {i size f} : (s.fetchWhole i size f).MemOk := by
  unfold State.fetchWhole
  extract_lets _ s₁ s₂
  have hs₁ : s₁.MemOk := h.setFetch.modBoot
  have hs₂ : s₂.MemOk := hs₁.beginVerify
  exact .ite hs₂ hs₂.setStage.setTried

theorem State.MemOk.takeData {i size b f data} : (s.takeData i size b f data).MemOk := .ite h.fetchWhole h.readAhead

theorem Res.MemOk.execData {xid off data} : (execData xid off data s).MemOk := by
  unfold Machine.execData
  split
  · split
    · exact .ite (.done h.takeData) (.done h)
    · exact .done h
  · exact .done h

theorem State.MemOk.resendReads {i f} : (s.resendReads i f).MemOk := .setFetch (h.foldl fun _ _ ht => ht.sendRead)

theorem Res.MemOk.execReadResend : (execReadResend s).MemOk := by
  unfold Machine.execReadResend
  split
  · exact .done h.resendReads
  · exact .done h

theorem Res.MemOk.execServerLost : (execServerLost s).MemOk := by
  unfold Machine.execServerLost
  split
  · exact .done h.refetch
  · exact .done h

theorem State.MemOk.tryNext {order pref} : (s.tryNext order pref).MemOk := by
  unfold State.tryNext
  split
  · exact h.setSlot.setStage.setTried.modBoot.beginVerify
  · exact h.modBoot.setSlot.setStage.beginFetch

theorem State.MemOk.attempt {cause} : (s.attempt cause).MemOk := by
  unfold State.attempt
  extract_lets s₁ _ _ s₂ s₃ s₄ s₅ s₆ s₇
  have hs₁ : s₁.MemOk := .ite h.setRec h
  have hs₂ : s₂.MemOk := hs₁.toRom.setFld.modBoot
  have hs₃ : s₃.MemOk := .ite hs₂.checkHeard hs₂
  have hs₄ : s₄.MemOk := hs₃.setFail.psSet
  have hs₅ : s₅.MemOk := hs₄.setRec.setFld.setStage.setReason
  have hs₆ : s₆.MemOk := hs₅.setFld
  have hs₇ : s₇.MemOk := .ite hs₆.trainEnabled hs₆
  exact .ite hs₇.enterMinimal hs₇.tryNext

theorem Res.MemOk.execStageOverrun : (execStageOverrun s).MemOk := by
  unfold Machine.execStageOverrun
  split
  · exact .done h.failAttempt
  · exact .done h

theorem State.MemOk.bootOk : s.bootOk.MemOk := h.setFail.setStage.setFld.raise
theorem State.MemOk.restartMc {m k a} : (s.restartMc m k a).MemOk := h.setMcState.setMc.beginVerify
theorem State.MemOk.countExpiry {m} : (s.countExpiry m).MemOk := h.addFld.raise

theorem State.MemOk.expiryRole {m} : (s.expiryRole m).MemOk := by
  unfold State.expiryRole
  extract_lets s₁
  have hs₁ : s₁.MemOk := h.mboxInterrupt
  exact .ite h (.ite hs₁.setPrimary hs₁)

theorem State.MemOk.restartFailed {m} : (s.restartFailed m).MemOk := by
  unfold State.restartFailed
  extract_lets s₁ _ s₂
  have hs₁ : s₁.MemOk := h.countExpiry
  have hs₂ : s₂.MemOk := hs₁.modBoot
  exact .ite hs₂.setMcState.setMc.modBoot hs₂.setMc.restartMc

theorem State.MemOk.expire {m} : (s.expire m).MemOk :=
  .ite h.countExpiry.failAttempt (.ite h.countExpiry.restartFailed h.countExpiry.expiryRole.restartMc)

theorem State.MemOk.runMc {m} : (s.runMc m).MemOk := by
  unfold State.runMc
  extract_lets _ s₁
  have hs₁ : s₁.MemOk := h.setMcState.setMc
  exact .ite hs₁.modBoot.setPrimary (.ite hs₁.setPrimary.modMbox (.ite hs₁.modMbox hs₁))

theorem Res.MemOk.execMcRestartTimeout {m} : (execMcRestartTimeout m s).MemOk := by
  unfold Machine.execMcRestartTimeout
  split
  · exact .ite (.done h.restartFailed) (.done h)
  · exact .done h

theorem State.MemOk.sendDone {f r} : (s.sendDone f r).MemOk := by
  unfold State.sendDone
  split
  · exact h.fetchMsg
  · exact h

theorem State.MemOk.verified {k a r} : (s.verified k a r).MemOk := by
  unfold State.verified
  split
  · exact .ite h.startFw h.tryNext
  · split
    · exact .ite h.sendDone.setFetch.startFw h.sendDone.setStage.refetch
    · exact h
  · split
    · exact h.sendDone.setFetch
    · exact h
  · exact .ite h.setMcState h.restartFailed
  · exact .ite h.setMcState.setMcSlot h.restartFailed

theorem State.MemOk.endVerify {k a} : (s.endVerify k a).MemOk := h.modBoot.slotVerified.verified

theorem Res.MemOk.execImageVerified {slot} : (execImageVerified slot s).MemOk := by
  unfold Machine.execImageVerified
  split
  · exact .done h.endVerify
  · exact .done h

theorem State.MemOk.psWrite {w v} : (s.psWrite w v).MemOk := h.psSet.masterSet
theorem State.MemOk.writePsData {by_ v} : (s.writePsData by_ v).MemOk := .ite h.refuseWrite (.ite h h.psWrite)

theorem State.MemOk.psDone {w} : (s.psDone w).MemOk := by
  unfold State.psDone
  extract_lets _ s₁
  have hs₁ : s₁.MemOk := h.of_same rfl rfl
  exact .ite hs₁.hwSet.setFld.raise hs₁

theorem Res.MemOk.execPsWriteComplete : (execPsWriteComplete s).MemOk := by
  unfold Machine.execPsWriteComplete
  split
  · exact .done h.psDone
  · exact .done h

/-! ## Resets and power states -/

theorem State.MemOk.defaultRegs {p : Nat → Bool} : (s.defaultRegs p).MemOk := h.of_same rfl rfl
theorem State.MemOk.partDefaults : s.partDefaults.MemOk := .foldl (h.foldl fun _ _ ht => ht.setReg) fun _ _ ht => ht.setFld

theorem State.MemOk.warmUnits : s.warmUnits.MemOk := by
  unfold State.warmUnits
  extract_lets _ s₁ s₂ _
  have hs₁ : s₁.MemOk := h.of_same rfl rfl
  have hs₂ : s₂.MemOk := hs₁.foldr fun _ _ ht => ht.setCore
  refine .foldr ?_ fun _ _ ht => ht.setTag
  exact hs₂.of_same rfl rfl

theorem State.MemOk.warmTime : s.warmTime.MemOk := h.modTm.setFld.setFld.setFld.setFld
theorem State.MemOk.warmHost : s.warmHost.MemOk := h.modHost

theorem State.MemOk.warmReset {cause} : (s.warmReset cause).MemOk := by
  unfold State.warmReset
  extract_lets s₁ s₂ s₃ s₄ s₅ _ s₆
  have hs₁ : s₁.MemOk := h.mboxReset
  have hs₂ : s₂.MemOk := hs₁.defaultRegs
  have hs₃ : s₃.MemOk := hs₂.warmUnits.warmTime.warmHost.rebuildAll
  have hs₄ : s₄.MemOk := hs₃.of_same rfl rfl
  have hs₅ : s₅.MemOk := hs₄.modPow
  have hs₆ : s₆.MemOk := hs₅.modBoot
  exact hs₆.setFld.setFld.partDefaults

theorem State.MemOk.byCore {by_} {eff : State} (heff : eff.MemOk) : (s.byCore by_ eff).MemOk := by
  unfold State.byCore
  split
  · exact h.refuseWrite
  · exact .ite h heff

theorem State.MemOk.mgmtReset : s.mgmtReset.MemOk := h.mboxReset.defaultRegs.modEvc.modBoot.setMc.setMc.restartMc.restartMc.setFld
theorem State.MemOk.readStraps {l} : (s.readStraps l).MemOk := h.setFld.setFld.setFld.setFld.setFld

omit h in
theorem State.MemOk.overCold {s : State} : s.overCold.MemOk := by
  unfold State.overCold
  extract_lets __src
  have h__src : __src.MemOk := .reset
  exact h__src.of_same rfl rfl

omit h in
theorem State.MemOk.coldReset {straps} {s : State} : (s.coldReset straps).MemOk :=
  .setFld (.setFld (.partDefaults (.readStraps (.overCold))))

omit h in
theorem State.MemOk.loseWork {veg33} {s : State} : (s.loseWork veg33).MemOk := by
  unfold State.loseWork
  extract_lets _ _ s₁
  have hs₁ : s₁.MemOk := .partDefaults (.overCold)
  exact hs₁.of_same rfl rfl

theorem State.MemOk.enableWakePorts : s.enableWakePorts.MemOk := h.foldl fun _ _ ht => .ite ht.setFld.startTraining ht.setFld
theorem State.MemOk.floodWake : s.floodWake.MemOk := .ite (.modPow (h.foldl fun _ _ ht => ht.ctrlOut)) h

theorem State.MemOk.sweepAll {bulk} : (s.sweepAll bulk).MemOk :=
  h.foldl fun _ _ ht => ht.sweepCluster.foldl fun _ _ hu => hu.setCore.sweepBufs

theorem State.MemOk.reach {t} : (s.reach t).MemOk := by
  unfold State.reach
  extract_lets s₁ s₂ s₃
  have hs₁ : s₁.MemOk := h.setFld.setFld
  have hs₂ : s₂.MemOk := hs₁.modPow
  have hs₃ : s₃.MemOk := by
    unfold s₃
    split
    · exact hs₂.endAct
    · exact hs₂
  exact hs₃.raise

theorem State.MemOk.disarm : s.disarm.MemOk := h.foldl fun _ _ ht => .ite ht.modPart ht
theorem State.MemOk.stopPorts {p : Nat → Bool} : (s.stopPorts p).MemOk := h.foldl fun _ _ ht => .ite ht ht.portStop
theorem State.MemOk.enterDeep : s.enterDeep.MemOk := h.disarm.stopPorts.defaultRegs.ethLink.ethLink

theorem State.MemOk.enterDormant : s.enterDormant.MemOk := by
  unfold State.enterDormant
  extract_lets s₁ s₂ s₃ s₄ s₅
  have hs₂ : s₂.MemOk := h.disarm.stopPorts.dmaAbort.setLink.setLink
  have hs₄ : s₄.MemOk := hs₂.setLink.setLink.setMc.setMc
  exact hs₄.closeStandby.setMcState.setMcState.modBoot

theorem State.MemOk.thenWake : s.thenWake.MemOk := by
  unfold State.thenWake
  split
  · exact h.beginWake
  · exact .ite h.beginTrans h

theorem State.MemOk.entered {t} : (s.entered t).MemOk := by
  unfold State.entered
  extract_lets s₁
  have hs₁ : s₁.MemOk := by
    unfold s₁
    split
    · exact h.enterDeep
    · exact h.enterDormant
    · exact h
  exact hs₁.reach.thenWake

theorem Res.MemOk.execPowerStateEntered : (execPowerStateEntered s).MemOk := by
  unfold Machine.execPowerStateEntered
  split
  · exact .ite (.done h) (.done h.entered)
  · exact .done h

theorem State.MemOk.leaveDormant : s.leaveDormant.MemOk := by
  unfold State.leaveDormant
  extract_lets _ s₁
  have hs₁ : s₁.MemOk := h.warmReset.sweepAll
  exact .ite hs₁ hs₁.setFld.setFld

theorem State.MemOk.leaveDeep : s.leaveDeep.MemOk := by
  unfold State.leaveDeep
  extract_lets s₁
  have hs₁ : s₁.MemOk := by
    unfold s₁
    refine .rebuildAll ?_
    refine .sweepAll ?_
    exact h.of_same rfl rfl
  exact hs₁.foldl fun _ _ ht => .ite ht.startTraining ht

theorem State.MemOk.woken : s.woken.MemOk := by
  unfold State.woken
  dsimp only
  split
  · exact h.leaveDeep.reach.enableWakePorts.floodWake
  · exact h.leaveDormant.reach.enableWakePorts.floodWake
  · exact h.reach.enableWakePorts.floodWake

theorem State.MemOk.perst : s.perst.MemOk := by
  unfold State.perst
  extract_lets s₁
  have hs₁ : s₁.MemOk := h.modPins.pcieDown
  exact .ite hs₁ hs₁.warmReset

theorem State.MemOk.perstOff : s.perstOff.MemOk := .ite h.modPins.wakeBy h.modPins
theorem State.MemOk.heat {t} : (s.heat t).MemOk := .ite h.setFld.raise.wakeBy h.setFld
theorem State.MemOk.thermTrip {t} : (s.thermTrip t).MemOk := h.heat.modPins.faultAll

/-! ## Register writes -/

theorem State.MemOk.via {r : Res} (hr : r.MemOk) : (s.via r).MemOk := by
  unfold State.via
  split
  · exact hr _ rfl
  · exact h

theorem State.MemOk.writeSweep {mask} : (s.writeSweep mask).MemOk := .ite h h.askSweep.setFld

theorem State.MemOk.writePortCtl {n v m} : (s.writePortCtl n v m).MemOk := by
  unfold State.writePortCtl
  extract_lets _ s₁
  have hs₁ : s₁.MemOk := .ite h.enablePort h
  exact .ite hs₁.resetPort hs₁

theorem State.MemOk.writeRouteCtl {v} : (s.writeRouteCtl v).MemOk := by
  unfold State.writeRouteCtl
  extract_lets
  split
  · exact h.via (.done (h.routeCmd fun _ _ ht => ht.setNet))
  · exact h.via (.done (h.routeCmd fun _ _ ht => ht.swapNet))
  · exact h.via (.done (h.routeCmd fun _ _ ht => ht.resumeNet))
  · exact h.via (.done (h.routeCmd fun _ _ ht => ht.setNet))
  · exact h

theorem State.MemOk.writeGop {q v} : (s.writeGop q v).MemOk := by
  unfold State.writeGop
  split
  · exact (h.via (.execBarrier h))
  · exact (h.via (.execBcast h))
  · exact (h.via (.execSnap h))
  · exact (h.via (.execReset h))
  · exact h

theorem State.MemOk.writeJob {q v} : (s.writeJob q v).MemOk := by
  unfold State.writeJob
  split
  · exact h.load
  · exact h.launch
  · exact h

theorem State.MemOk.writeReset {v} : (s.writeReset v).MemOk := by
  unfold State.writeReset
  split
  · exact h.warmReset
  · exact h.mgmtReset
  · exact h

theorem State.MemOk.writeRole {i v m} : (s.writeRole i v m).MemOk := h.setReg
theorem State.MemOk.writePcfg {q v m} : (s.writePcfg q v m).MemOk := h.setReg
theorem State.MemOk.writeRcfg {r v m} : (s.writeRcfg r v m).MemOk := .ite h.setReg.ringEnable h.setReg
theorem State.MemOk.writeDcfg {c v m} : (s.writeDcfg c v m).MemOk := .ite h.setReg.setDma.setFld h.setReg
theorem State.MemOk.writeEvc {by_ r i v m} : (s.writeEvc by_ r i v m).MemOk := .ite h h.modEvc
theorem State.MemOk.writePlain {r i v m} : (s.writePlain r i v m).MemOk := h.setReg
theorem State.MemOk.writeFrz {q v m} : (s.writeFrz q v m).MemOk := .ite h.writePlain h.writePlain.modPart

theorem State.MemOk.writeIo {r i v m} {t} : s.writeIo r i v m = some t → t.MemOk := by
  unfold State.writeIo
  extract_lets
  split
  · exact h.writePortCtl.ofSome
  · exact h.writeWin.ofSome
  · exact h.writeRole.ofSome
  · exact h.writeFrz.ofSome
  · exact h.writeRouteCtl.ofSome
  · exact h.writeGop.ofSome
  · exact State.MemOk.ofSome (.ite h h.writePlain)
  · exact h.writeCap.ofSome
  · exact h.writePdecl.ofSome
  · exact h.writeStepcmd.ofSome
  · exact h.stateCmd.ofSome
  · exact h.writeTimeSet.ofSome
  · exact h.writeAlarm.ofSome
  · exact h.writePlain.masterSet.ofSome
  · nofun

theorem State.MemOk.writeRoot {by_ r i v m} {t} : s.writeRoot by_ r i v m = some t → t.MemOk := by
  unfold State.writeRoot
  split
  · exact h.writeSweep.ofSome
  · exact h.writePcfg.ofSome
  · exact State.MemOk.ofSome (.ite h h.writeAbort)
  · exact h.writeRcfg.ofSome
  · exact h.writeHpos.ofSome
  · exact h.writeDcfg.ofSome
  · exact h.writeJob.ofSome
  · exact h.writePsData.ofSome
  · exact h.mboxPost.ofSome
  · exact h.writeReset.ofSome
  · split
    · exact h.writeEvc.ofSome
    · nofun

theorem State.MemOk.writeTo {by_ r i v m} : (s.writeTo by_ r i v m).MemOk := by
  unfold State.writeTo
  cases hi : s.writeIo r i v m with
  | some t => exact h.writeIo hi
  | none =>
    cases hr : s.writeRoot by_ r i v m with
    | some t => exact h.writeRoot hr
    | none => exact h.writePlain

theorem State.MemOk.undoHw {n} : (s.undoHw n).MemOk := by
  unfold State.undoHw
  split
  · exact h.setFld
  · exact h.setFld
  · exact h

theorem State.MemOk.redoHw {n} : (s.redoHw n).MemOk := by
  unfold State.redoHw
  split
  · exact h.setFld
  · exact h.setFld
  · exact h.setFld

theorem State.MemOk.writeUnder {by_ r i v m} : (s.writeUnder by_ r i v m).MemOk :=
  .foldl (.writeTo (h.foldl fun _ _ hs => hs.undoHw)) fun _ _ hs => hs.redoHw

theorem State.MemOk.writeReg {by_ r i v m off} : (s.writeReg by_ r i v m off).MemOk := .ite h.accErr h.writeUnder
theorem State.MemOk.writeMsix {off v} : (s.writeMsix off v).MemOk := h.setMsix.sendPending

theorem State.MemOk.write4 {by_ off v} : (s.write4 by_ off v).MemOk := by
  unfold State.write4
  refine .ite h.writeMsix ?_
  refine .ite h ?_
  split
  · exact h.writeReg
  · exact h.accErr

theorem State.MemOk.bar0Write {by_ off size v} : (s.bar0Write by_ off size v).MemOk := by
  unfold State.bar0Write
  refine .ite h ?_
  refine .ite h.accErr ?_
  refine .ite h.write4 ?_
  split
  · exact .ite h.writeReg h.write4.write4
  · exact h.write4.write4

theorem State.MemOk.readHalf {by_ r i hi} : (s.readHalf by_ r i hi).1.MemOk := by
  unfold State.readHalf
  extract_lets
  split
  · exact h
  · split
    · exact h.of_same rfl rfl
    · exact h.of_same rfl rfl

theorem State.MemOk.read4 {by_ off} : (s.read4 by_ off).1.MemOk := by
  unfold State.read4
  split
  · exact h.accErr
  · split
    · exact h
    · split
      · split
        · exact h.readHalf
        · exact h.accErr
      · exact h.accErr

theorem State.MemOk.read8 {by_ off} : (s.read8 by_ off).1.MemOk := by
  unfold State.read8
  extract_lets a b two
  have ha : a.1.MemOk := h.read4
  have hb : b.1.MemOk := ha.read4
  have htwo : two.1.MemOk := hb
  split
  · exact h.accErr
  · split
    · split
      · exact h
      · exact htwo
    · exact htwo

theorem State.MemOk.bar0Read {by_ off size} : (s.bar0Read by_ off size).1.MemOk := by
  unfold State.bar0Read
  split
  · exact h.read4
  · split
    · exact h.read8
    · exact h.accErr

/-! ## Maintenance -/

theorem State.MemOk.sweepCore {c} : (s.sweepCore c).MemOk := h.sweepMem
theorem State.MemOk.remap {cl w} : (s.remap cl w).MemOk := h.psSet.loadTopo.foldl fun _ _ hu => hu.sweepCore

theorem State.MemOk.begin {a forbidden} : (s.begin a forbidden).1.MemOk := by
  unfold State.begin
  split
  · exact h
  · split
    · exact h
    · exact h.startAct

theorem State.MemOk.beginTest {d k p} : (s.beginTest d k p).1.MemOk := by
  unfold State.beginTest
  split
  · exact h
  · exact h.begin

theorem State.MemOk.beginFence {d k p} : (s.beginFence d k p).1.MemOk := by
  unfold State.beginFence
  extract_lets _ r
  have hr : r.1.MemOk := h.begin
  split
  · exact h
  · split
    · exact hr
    · split
      · exact h
      · exact hr.setFld

theorem State.MemOk.beginRemap {d words} : (s.beginRemap d words).1.MemOk := by
  unfold State.beginRemap
  extract_lets
  split
  · exact h
  · exact h.begin

theorem State.MemOk.beginBank {d t k b} : (s.beginBank d t k b).1.MemOk := by
  unfold State.beginBank
  extract_lets
  split
  · exact h
  · exact h.begin

theorem State.MemOk.beginPortTest {n pat} : (s.beginPortTest n pat).1.MemOk := by
  unfold State.beginPortTest
  extract_lets _ r
  have hr : r.1.MemOk := h.begin
  split
  · exact h
  · split
    · exact hr.portStop
    · exact hr

theorem State.MemOk.pickSpare {ok x2} : (s.pickSpare ok x2).1.MemOk := by
  unfold State.pickSpare
  extract_lets f
  have hf : f.1.MemOk := h.takeFree
  split
  · exact h
  · split
    · exact h
    · split
      · exact h
      · exact hf

theorem State.MemOk.endFence {a ok} : (s.endFence a ok).MemOk := by
  unfold State.endFence
  extract_lets _ _ r
  have hr : r.1.MemOk := h.pickSpare
  split
  · exact h.endAct
  · split
    · exact hr.remap.rebuilt.endAct
    · exact hr.setFld.endAct

theorem State.MemOk.endTest {a ok} : (s.endTest a ok).MemOk := by
  unfold State.endTest
  extract_lets s₁
  have hs₁ : s₁.MemOk := by
    unfold s₁
    split
    · exact h.sweepCore
    · exact h
  exact hs₁.endAct

theorem State.MemOk.endRemap {a} : (s.endRemap a).MemOk := .endAct (.rebuilt (h.foldl fun _ _ hu => hu.remap))
theorem State.MemOk.endBank {a} : (s.endBank a).MemOk := .ite h.endAct h.failBank.endAct
theorem State.MemOk.endPortTest {a ok} : (s.endPortTest a ok).MemOk := .ite h.endAct.startTraining h.endAct

theorem State.MemOk.endMaint {a ok} : (s.endMaint a ok).MemOk :=
  .ite h.endTest (.ite h.endFence (.ite h.endRemap (.ite h.endBank (.ite h.endPortTest (.ite h.endSweep h)))))

theorem Res.MemOk.execMaintActivityEnd {id ok} : (execMaintActivityEnd id ok s).MemOk := by
  unfold Machine.execMaintActivityEnd
  split
  · exact .done h.endMaint
  · exact .done h

/-! ## Mailbox: partition, power and time -/

theorem State.MemOk.mgmtIn {from_ b} : (s.mgmtIn from_ b).MemOk := .ite h h.modMbox
theorem State.MemOk.msgIn {e} : (s.msgIn e).MemOk := .ite h.takeReq h.takeReq.modMbox

theorem Res.MemOk.execMsg : (execMsg s).MemOk := by
  unfold Machine.execMsg
  split
  · exact .done h.msgIn
  · exact .done h

theorem State.MemOk.mboxTake {ch} : (s.mboxTake ch).MemOk := .ite h.modMbox.setFld.setFld h.modMbox
theorem State.MemOk.ansOk {res} : (ansOk s res).1.MemOk := h
theorem State.MemOk.ansSt {st} : (ansSt s st).1.MemOk := h
theorem State.MemOk.ansArg : (ansArg s).1.MemOk := h.ansSt

theorem State.MemOk.ansWith {st res} : (ansWith s st res).1.MemOk := by
  unfold Machine.ansWith
  split
  · exact h.ansOk
  · exact h.ansSt

theorem State.MemOk.mboxServe {ch} {serve : State → Nat → List Byte → Ans} (hserve : ∀ t b c, t.MemOk → (serve t b c).1.MemOk) :
    (s.mboxServe ch serve).MemOk := by
  unfold State.mboxServe
  extract_lets _ s₁ a
  have hs₁ : s₁.MemOk := .ite h h.closeStandby
  have ha : a.1.MemOk := hserve _ _ _ hs₁
  split
  · exact h.respond
  · exact .ite ha ha.respond

theorem State.MemOk.mboxRow {ph code} {serve : State → Nat → List Byte → Ans} (hserve : ∀ t b c, t.MemOk → (serve t b c).1.MemOk) :
    (s.mboxRow ph code serve).MemOk := by
  unfold State.mboxRow
  split
  · split
    · exact .ite h.mboxTake h
    · exact h
  · split
    · exact .ite (h.mboxServe (fun _ _ _ ha => hserve _ _ _ ha)) h
    · exact h

theorem State.MemOk.asReg {r i v m} : (s.asReg r i v m).MemOk := h.writeReg

theorem State.MemOk.withQ {b} {f : Nat → Ans} (hf : ∀ a, (f a).1.MemOk) : (withQ s b f).1.MemOk := by
  unfold Machine.withQ
  extract_lets
  split
  · exact h.ansArg
  · exact hf _

theorem State.MemOk.serveGetVersion {x1 x2} : (serveGetVersion s x1 x2).1.MemOk := h.ansOk

theorem State.MemOk.serveNegotiate {ch b} : (serveNegotiate s ch b).1.MemOk := by
  unfold Machine.serveNegotiate
  extract_lets _ t
  have ht : t.MemOk := .ite h.setFld h.modMbox
  split
  · exact h
  · exact ht.ansOk

theorem State.MemOk.serveGetIdentity {x1 x2} : (serveGetIdentity s x1 x2).1.MemOk := h.ansOk
theorem State.MemOk.serveGetStatus {x1 x2} : (serveGetStatus s x1 x2).1.MemOk := h.ansOk
theorem State.MemOk.serveGetBootrec {x1 x2} : (serveGetBootrec s x1 x2).1.MemOk := h.ansOk
theorem State.MemOk.servePartSet {x1 b} : (servePartSet s x1 b).1.MemOk := (h.withQ (fun _ => .ansWith (.ite h.modPart h)))
theorem State.MemOk.servePartQuery {x1 b} : (servePartQuery s x1 b).1.MemOk := (h.withQ (fun _ => h.ansOk))
theorem State.MemOk.servePartReset {x1 b} : (servePartReset s x1 b).1.MemOk := (h.withQ (fun _ => h.partReset.ansOk))

theorem State.MemOk.servePartLedger {x1 b} : (servePartLedger s x1 b).1.MemOk := by
  unfold Machine.servePartLedger
  refine .withQ h (fun q => ?_)
  split
  · exact h.ansSt
  · exact h.ansOk

theorem State.MemOk.serveSetState {x1 b} : (serveSetState s x1 b).1.MemOk := by
  unfold Machine.serveSetState
  extract_lets _ u
  have hu : u.MemOk := h.stateCmd
  split
  · exact h.ansArg
  · exact hu.ansSt

theorem State.MemOk.serveSetCap {x1 b} : (serveSetCap s x1 b).1.MemOk := by
  unfold Machine.serveSetCap
  extract_lets _ t
  have ht : t.MemOk := h.asReg
  split
  · exact h.ansArg
  · exact ht.ansWith

theorem State.MemOk.serveSetStep {x1 b} : (serveSetStep s x1 b).1.MemOk := by
  unfold Machine.serveSetStep
  extract_lets
  refine .withQ h (fun q => ?_)
  extract_lets t
  have ht : t.MemOk := h.asReg
  split
  · exact h.ansArg
  · exact ht.ansSt

theorem State.MemOk.serveSetWakesel {x1 b} : (serveSetWakesel s x1 b).1.MemOk := h.asReg.ansOk

theorem State.MemOk.serveSetPdecl {x1 b} : (serveSetPdecl s x1 b).1.MemOk := by
  unfold Machine.serveSetPdecl
  extract_lets
  refine .withQ h (fun q => ?_)
  extract_lets t
  have ht : t.MemOk := h.asReg
  split
  · exact h.ansArg
  · exact ht.ansWith

/-! ## Mailbox: diagnosis -/

theorem State.MemOk.serveTimeStatus {x1 x2} : (serveTimeStatus s x1 x2).1.MemOk := h.ansOk
theorem State.MemOk.serveSetMaster {x1 b} : (serveSetMaster s x1 b).1.MemOk := h.asReg.ansOk

theorem State.MemOk.serveTimeSet {x1 b} : (serveTimeSet s x1 b).1.MemOk := by
  unfold Machine.serveTimeSet
  extract_lets _ t
  have ht : t.MemOk := h.asReg
  split
  · exact ht.ansOk
  · exact ht.ansSt

theorem State.MemOk.serveSetAlarm {x1 b} : (serveSetAlarm s x1 b).1.MemOk := h.asReg.ansOk
theorem State.MemOk.serveSetPps {x1 b} : (serveSetPps s x1 b).1.MemOk := h.asReg.ansOk
theorem State.MemOk.serveSetSlew {x1 b} : (serveSetSlew s x1 b).1.MemOk := h.asReg.ansOk
theorem State.MemOk.serveSetDeadline {x1 b} : (serveSetDeadline s x1 b).1.MemOk := (h.withQ (fun _ => h.asReg.asReg.asReg.ansOk))
theorem State.MemOk.serveServeStatus {x1 b} : (serveServeStatus s x1 b).1.MemOk := (h.withQ (fun _ => h.ansOk))
theorem State.MemOk.serveServeAbort {x1 b} : (serveServeAbort s x1 b).1.MemOk := (h.withQ (fun _ => h.asReg.ansSt))
theorem State.MemOk.clearPass {w} : (s.clearPass w).MemOk := .setFld (h.foldl fun _ _ ht => ht.setFld)

theorem State.MemOk.serveEvcClear {x1 b} : (serveEvcClear s x1 b).1.MemOk := by
  unfold Machine.serveEvcClear
  extract_lets
  split
  · exact h.ansArg
  · exact h.clearPass.ansOk

theorem State.MemOk.serveEvcSetmask {x1 b} : (serveEvcSetmask s x1 b).1.MemOk := by
  unfold Machine.serveEvcSetmask
  extract_lets
  split
  · exact h.ansArg
  · exact h.writeEvc.ansOk

theorem State.MemOk.serveRegRead {x1 b} : (serveRegRead s x1 b).1.MemOk := by
  unfold Machine.serveRegRead
  extract_lets _ r r₂
  have hr : r.1.MemOk := h.read4
  have hr₂ : r₂.1.MemOk := h.read8
  split
  · exact hr.ansOk
  · exact hr₂.ansOk
  · exact h.ansArg

theorem State.MemOk.serveRegWrite {x1 b} : (serveRegWrite s x1 b).1.MemOk := by
  unfold Machine.serveRegWrite
  extract_lets
  split
  · exact h.bar0Write.ansOk
  · exact h.ansArg

theorem State.MemOk.serveEcho {x1 b} : (serveEcho s x1 b).1.MemOk := h.ansOk

/-! ## Mailbox: firmware and persistent words -/

theorem State.MemOk.serveImgStatus {x1 x2} : (serveImgStatus s x1 x2).1.MemOk := h.ansOk

theorem State.MemOk.serveFetchRetry {x1 b} : (serveFetchRetry s x1 b).1.MemOk := by
  unfold Machine.serveFetchRetry
  extract_lets
  split
  · exact h.ansArg
  · split
    · exact h.ansSt
    · exact h.modBoot.ansOk

theorem State.MemOk.serveStandbyFetch {x1 x2} : (serveStandbyFetch s x1 x2).1.MemOk := by
  unfold Machine.serveStandbyFetch
  extract_lets
  split
  · exact h.ansSt
  · exact h.beginFetch.ansOk

theorem State.MemOk.serveStandbyBegin {x1 b} : (serveStandbyBegin s x1 b).1.MemOk := by
  unfold Machine.serveStandbyBegin
  extract_lets
  split
  · exact h.ansArg
  · split
    · exact h.ansSt
    · exact h.setFld.modMbox.ansOk

theorem State.MemOk.serveStandbyData {x1 b} : (serveStandbyData s x1 b).1.MemOk := by
  unfold Machine.serveStandbyData
  extract_lets
  split
  · exact h.ansSt
  · split
    · exact h.ansArg
    · exact h.modMbox.ansOk

theorem State.MemOk.endStandby {k img} : (s.endStandby k img).1.MemOk := h.modBoot.slotVerified.modMbox

theorem State.MemOk.serveStandbyEnd {x1 x2} : (serveStandbyEnd s x1 x2).1.MemOk := by
  unfold Machine.serveStandbyEnd
  split
  · exact h.ansSt
  · split
    · exact h.ansSt
    · exact h.endStandby.ansOk

theorem State.MemOk.serveSetBootcfg {x1 b} : (serveSetBootcfg s x1 b).1.MemOk := by
  unfold Machine.serveSetBootcfg
  extract_lets _ _ t
  have ht : t.MemOk := h.psWrite
  split
  · exact h.ansArg
  · exact ht.ansSt

theorem State.MemOk.serveRoleSwitch {x1 b} : (serveRoleSwitch s x1 b).1.MemOk := by
  unfold Machine.serveRoleSwitch
  extract_lets
  split
  · exact h.ansArg
  · split
    · exact h.ansSt
    · split
      · exact h.ansSt
      · exact h.modBoot.restartMc.ansOk

theorem State.MemOk.serveFuseKey {x1 b} : (serveFuseKey s x1 b).1.MemOk := by
  unfold Machine.serveFuseKey
  extract_lets
  split
  · exact h.ansArg
  · split
    · exact h.ansSt
    · exact h.modBoot.ansOk

theorem State.MemOk.serveFuseRevoke {x1 b} : (serveFuseRevoke s x1 b).1.MemOk := by
  unfold Machine.serveFuseRevoke
  extract_lets
  split
  · exact h.ansArg
  · split
    · exact h.ansSt
    · exact h.setFld.ansOk

theorem State.MemOk.serveFuseSvn {x1 b} : (serveFuseSvn s x1 b).1.MemOk := by
  unfold Machine.serveFuseSvn
  extract_lets
  split
  · exact h.ansArg
  · split
    · exact h.ansSt
    · exact h.setFld.ansOk

theorem State.MemOk.servePsRead {x1 b} : (servePsRead s x1 b).1.MemOk := by
  unfold Machine.servePsRead
  split
  · exact h.ansOk
  · exact h.ansArg

theorem State.MemOk.psWords {w vs k} : (s.psWords w vs k).1.MemOk := by
  induction vs generalizing s w k with
  | nil => exact h
  | cons v vs ih =>
    rw [State.psWords]
    split
    · exact ih h.psWrite
    · exact h.psWrite

theorem State.MemOk.servePsWrite {x1 b} : (servePsWrite s x1 b).1.MemOk := by
  unfold Machine.servePsWrite
  extract_lets _ _ r
  have hr : r.1.MemOk := h.psWords
  split
  · exact h.ansArg
  · exact hr

theorem State.MemOk.servePsWear {x1 b} : (servePsWear s x1 b).1.MemOk := by
  unfold Machine.servePsWear
  split
  · exact h.ansOk
  · exact h.ansArg

/-! ## Mailbox: ports and dispatch -/

theorem State.MemOk.withN {b} {f : Nat → Ans} (hf : ∀ a, (f a).1.MemOk) : (withN s b f).1.MemOk := by
  unfold Machine.withN
  extract_lets
  split
  · exact h.ansArg
  · exact hf _

theorem State.MemOk.servePortInfo {x1 b} : (servePortInfo s x1 b).1.MemOk := (h.withN (fun _ => h.ansOk))
theorem State.MemOk.serveNbrMap {x1 x2} : (serveNbrMap s x1 x2).1.MemOk := h.ansOk
theorem State.MemOk.persistEnable {n on} : (s.persistEnable n on).MemOk := h.psSet

theorem State.MemOk.servePortEnable {x1 b} : (servePortEnable s x1 b).1.MemOk := by
  unfold Machine.servePortEnable
  extract_lets
  refine .withN h (fun n => ?_)
  extract_lets t
  have ht : t.MemOk := h.asReg
  split
  · exact h.ansArg
  · exact .ansOk (.ite ht.persistEnable ht)

theorem State.MemOk.servePortReset {x1 b} : (servePortReset s x1 b).1.MemOk := (h.withN (fun _ => h.asReg.ansOk))
theorem State.MemOk.serveSetRole {x1 b} : (serveSetRole s x1 b).1.MemOk := (h.withN (fun _ => h.asReg.ansOk))
theorem State.MemOk.serveSetDims {x1 b} : (serveSetDims s x1 b).1.MemOk := h.asReg.ansOk

theorem State.MemOk.serveEthAddr {x1 b} : (serveEthAddr s x1 b).1.MemOk := by
  unfold Machine.serveEthAddr
  extract_lets
  split
  · exact h.ansArg
  · exact h.modHost.ansOk

theorem State.MemOk.serveEthEndpoint {x1 b} : (serveEthEndpoint s x1 b).1.MemOk := by
  unfold Machine.serveEthEndpoint
  extract_lets
  split
  · exact h.ansArg
  · split
    · exact h.ansSt
    · exact h.modHost.ansOk

theorem State.MemOk.serveMaintStatus {x1 x2} : (serveMaintStatus s x1 x2).1.MemOk := h.ansOk

omit h in
theorem State.MemOk.ansStart {r code} (h : r.1.MemOk) : (ansStart r code).1.MemOk := h.ansWith

theorem State.MemOk.serveCoreTest {x1 b} : (serveCoreTest s x1 b).1.MemOk := h.beginTest.ansStart
theorem State.MemOk.serveCoreFence {x1 b} : (serveCoreFence s x1 b).1.MemOk := h.beginFence.ansStart
theorem State.MemOk.serveTopiaryRemap {x1 b} : (serveTopiaryRemap s x1 b).1.MemOk := h.beginRemap.ansStart
theorem State.MemOk.serveBankFail {x1 b} : (serveBankFail s x1 b).1.MemOk := h.beginBank.ansStart
theorem State.MemOk.servePortTest {x1 b} : (servePortTest s x1 b).1.MemOk := h.beginPortTest.ansStart

theorem State.MemOk.serveSweep {x1 b} : (serveSweep s x1 b).1.MemOk := by
  unfold Machine.serveSweep
  extract_lets _ t
  have ht : t.MemOk := h.writeSweep
  split
  · exact h.ansOk
  · exact ht.ansWith

/-! ## The passing of time -/

theorem State.MemOk.countGtc : s.countGtc.MemOk := by
  unfold State.countGtc
  refine .ite h ?_
  refine .ite h.modTm ?_
  exact h.of_same rfl rfl

theorem State.MemOk.meshEdge {q} : (s.meshEdge q).MemOk := .landAll (h.foldl fun _ _ ht => ht.meshTick)

theorem State.MemOk.ccEdge {q} : (s.ccEdge q).MemOk := by
  unfold State.ccEdge
  extract_lets s₁ s₂
  have hs₁ : s₁.MemOk := h.meshEdge.scrubBacks
  have hs₂ : s₂.MemOk := hs₁.dropNotes
  exact .ite hs₁.cycleEnd (.ite hs₂.frozenEdge hs₂)

theorem State.MemOk.lagTick {q} : (s.lagTick q).MemOk := .ite h (.ite (.modPart (.ite h.hwMax h)) (.ite h.hwMax h))

theorem State.MemOk.stopTick {q} : (s.stopTick q).MemOk := by
  unfold State.stopTick
  split
  · exact .ite h.stepDone h
  · exact h

theorem State.MemOk.partTick {edge q} : (s.partTick edge q).MemOk := .lagTick (.stopTick (.ite h.ccEdge h.settle))

theorem State.MemOk.pass {d} : (s.pass d).MemOk := by
  unfold State.pass
  extract_lets __src
  have h__src : __src.MemOk := h.countGtc
  refine .ite ?_ ?_
  · exact h.of_same rfl rfl
  · exact h__src.of_same rfl rfl

theorem State.MemOk.tick : s.tick.MemOk := by
  unfold State.tick
  extract_lets _ _ _ _ s₁ s₂ s₃
  have hs₁ : s₁.MemOk := h.pass.foldl fun _ _ ht => ht.partTick
  have hs₂ : s₂.MemOk := .dropNotes (hs₁.foldl fun _ _ hs => hs.dropNotes)
  have hs₃ : s₃.MemOk := hs₂.scrubBacks
  exact .ite hs₃.portTick.bcastLeft.moveTick hs₁

/-! ## The dispatch and a step -/

/-- Every command keeps the canonical form: each row of the dispatch, by the lemmas of what it runs. -/
theorem Res.MemOk.exec {i} : Res.MemOk (exec i s) := by
  cases i with
  | nop => exact .execNop h
  | loop => exact .done h.execSeqWord
  | jump => exact .done h.execSeqWord
  | beatend => exact .done h.execSeqWord
  | beatendComplete => exact .execBeatendComplete h
  | halt => exact .done h.execSeqWord
  | haltComplete => exact .execHaltComplete h
  | loadw => exact .execLoadw h
  | loadwComplete => exact .done h.completeBy
  | mmul => exact .done h.mmulRow
  | mmulComplete => exact .done h.completeBy
  | chain => exact .execChain h
  | chainComplete => exact .done h.completeBy
  | setk => exact .execSetk h
  | copy => exact .execCopy h
  | copyComplete => exact .ite (.done h.completeBy) (.done h)
  | pleach => exact .execPleach h
  | pleachReceive => exact .done (h.lateRow (fun _ ht => ht.pleachRecvRow))
  | pleachComplete => exact .done h.completeBy
  | push => exact .execPush h
  | pop => exact .execPop h
  | tsub => exact .execTsub h
  | tsubAccept => exact .execTsubAccept h
  | send => exact .execSend h
  | sendComplete => exact .done h.completeBy
  | recv => exact .done (h.lateRow (fun _ ht => ht.recvRow))
  | recvComplete => exact .done h.completeBy
  | fetchRequest => exact .execFetchRequest h
  | fetchInspect => exact .execFetchInspect h
  | dispatch => exact .execDispatch h
  | peerSignal => exact .execPeerSignal h
  | clusterSignal => exact .execClusterSignal h
  | landingArrival => exact .execLandingArrival h
  | sendBufferDrain => exact .execSendBufferDrain h
  | freezeEnd => exact .ite (.done h.thaw) (.done h)
  | gatherRow => exact .done h.thktWork
  | gatherPage => exact .done h.thktWork
  | scatterRow => exact .done h.thktWork
  | kvappend => exact .done h.thktWork
  | topk => exact .done h.thktWork
  | pagescore => exact .done h.thktWork
  | sample => exact .done h.thktWork
  | sampleall => exact .done h.thktWork
  | transpose => exact .done h.thktWork
  | relayout => exact .done h.thktWork
  | requant => exact .done h.thktWork
  | compactFlags => exact .done h.thktWork
  | moe => exact .done h.thktWork
  | digest => exact .done h.thktWork
  | thktComplete => exact .execThktComplete h
  | untimedPick => exact .execUntimedPick h
  | untimedComplete => exact .execUntimedComplete h
  | bulkSlotTransfer => exact .execBulkSlotTransfer h
  | scrubSlot => exact .ite (.done (.ite h.scrub.setCol h.scrub)) (.done h)
  | coreStoreScrub => exact .ite (.done h.scrubWord) (.done h)
  | rootSweepctlWrite => exact .ite (.done h) (.done h.askSweep.setFld)
  | sweepComplete => exact .execSweepComplete h
  | beatStart => exact .ite (.done h.startBeat) (.done h)
  | lagEvent => exact .ite (.done h.modPart.raise) (.done h)
  | lagFault => exact .ite (.done h.jobFault) (.done h)
  | beatStartStep => exact .ite (.done h.beatStep) (.done h)
  | stepChangeRun => exact .ite (.done h.modPart) (.done h)
  | launch => exact .ite (.done h.launch) (.done h)
  | launchReceive => exact .done (h.ctrlJob (fun _ _ ht => ht.notice))
  | load => exact .ite (.done h.load) (.done h)
  | slotFill => exact .ite (.done h.fillSlot) (.done h)
  | groupReceive => exact .ite (.done h.rxGroup) (.done h)
  | schedForward => exact .done h.forwardFlit
  | nakIssue => exact .execNakIssue h
  | replayStart => exact .execReplayStart h
  | replayTimeout => exact .ite (.done h.addFld.replay) (.done h)
  | probeExchange => exact .ite (.done h.probe) (.done h)
  | identityResend => exact .ite (.done h.resendIdent) (.done h)
  | neighbourRecord => exact .ite (.done (.ite h.maintTake.takeRecord h.maintTake)) (.done h)
  | portLockLoss => exact .ite (.done h.portDown) (.ite (.done h.setFld) (.done h))
  | trainTimeout => exact .ite (.done h.portDown) (.done h)
  | identTimeout => exact .ite (.done h.portDown) (.done h)
  | portCtlEnable => exact .ite (.done h.enablePort) (.done h.refuseWrite)
  | portCtlReset => exact .ite (.done h.resetPort) (.done h.refuseWrite)
  | portWinWrite => exact .ite (.done h.writeWin) (.done h.refuseWrite)
  | frameArrive => exact .execFrameArrive h
  | requestInject => exact .done h.request
  | rd => exact .execRd h
  | wr => exact .execWr h
  | msg => exact .execMsg h
  | replyArrive => exact .execReplyArrive h
  | requestTimeout => exact .ite (.done h.retireTag) (.done h)
  | retireExpiry => exact .ite (.done h.setTag) (.done h)
  | drain => exact .done (h.routeCmd (fun _ _ ht => ht.setNet))
  | swap => exact .done (h.routeCmd (fun _ _ hs => hs.swapNet))
  | resume => exact .done (h.routeCmd (fun _ _ hs => hs.resumeNet))
  | change => exact .done (h.routeCmd (fun _ _ ht => ht.setNet))
  | drained => exact .ite (.done h.drained) (.done h)
  | barrier => exact .execBarrier h
  | bcast => exact .execBcast h
  | snap => exact .execSnap h
  | reset => exact .execReset h
  | arrive => exact .execArrive h
  | release => exact .done (h.ctrlJob (fun _ _ ht => ht.takeRelease))
  | barrierRootTimeout => exact .ite (.done h.originateRelease) (.done h)
  | barrierTimeout => exact .ite (.done h.gopDone) (.done h)
  | bcastReceive => exact .done (h.ctrlJob (fun _ _ ht => ht.takeBcast))
  | snapReceive => exact .done (h.ctrlJob (fun _ _ ht => ht.takeSnap))
  | resetReceive => exact .done (h.ctrlJob (fun _ _ ht => ht.partReset))
  | admitReceive => exact .done (h.ctrlJob (fun _ _ ht => ht.takeAdmit))
  | stepReceive => exact .done (h.ctrlJob (fun _ _ ht => ht.stepFlit))
  | wakeReceive => exact .ite (.done h.ctrlTake.wakeBy) (.done h.ctrlTake)
  | beaconSend => exact .ite (.done h.beacon) (.done h)
  | beaconReceive => exact .done h.ctrlTake.takeBeacon
  | beaconTimeout => exact .ite (.done h.setSync) (.done h)
  | slewStep => exact .ite (.done h.slewNs) (.done h)
  | eventTick => exact .ite (.done h.eventTick) (.done h)
  | wirePulseLatch => exact .ite (.done h.latchPulse) (.done h)
  | refclkLoss => exact .done h.setFld.modTm.setSync
  | refclkReturn => exact .ite (.done h.refBack) (.done h)
  | timeBaseFailover => exact .ite (.done h.setFld.raise) (.done h)
  | ppsInEdge => exact .ite (.done h.ppsIn) (.done h)
  | ppsOutEdge => exact .ite (.done h.setPps) (.ite (.done h.setPps) (.done h))
  | ptpSync => exact .ite (.done h.srcHeard.correct) (.done h)
  | ptmRequest => exact .ite (.done h.ptmAsk) (.done h)
  | holdover => exact .ite (.done h.setHoldover.masterSync) (.done h)
  | timeSetWrite => exact .done h.writeTimeSet
  | timeAlarmFire => exact .ite (.done h.modTm.raise.wakeBy) (.done h)
  | pllLockLoss => exact .ite (.done h.pllLost) (.done h)
  | pwrStepcmd => exact .ite (.done h.writeStepcmd) (.done h)
  | pwrCapWrite => exact .done h.writeCap
  | pwrPdeclWrite => exact .ite (.done h.writePdecl) (.done h)
  | powerMeasure => exact .done h.measure
  | statecmdRun => exact .done h.stateCmd
  | statecmdRest => exact .done h.stateCmd
  | statecmdDeep => exact .done h.stateCmd
  | statecmdDormant => exact .done h.stateCmd
  | powerStateEntered => exact .execPowerStateEntered h
  | wakePin => exact .done h.wakeBy
  | wakeFrame => exact .ite (.done h.wakeBy) (.done h)
  | wakeComplete => exact .ite (.done h.woken) (.done h)
  | thermalAlert => exact .ite (.done h.heat) (.done h)
  | thermalTrip => exact .ite (.done h.thermTrip) (.done h)
  | coldReset => exact .ite (.done h) (.ite (.ite (.done h.woken) (.done h)) (.done (.coldReset)))
  | powerLoss => exact .ite (.done (.loseWork)) (.done h)
  | perstAssert => exact .ite (.done h) (.done h.perst)
  | rootResetWarm => exact .done (h.byCore h.warmReset)
  | rootResetMgmt => exact .done (h.byCore h.mgmtReset)
  | pcieLinkDown => exact .done h.pcieDown
  | bar2Read => exact .done h.bar2Read
  | bar2Write => exact .done h.bar2Write
  | registerWrite => exact .done h.bar0Write
  | lowHalfRead => exact .ite (.done h) (.done h.bar0Read.answer)
  | hqRhposWrite => exact .ite (.done h.writeHpos) (.done h)
  | h2d => exact .execH2d h
  | d2h => exact .execD2h h
  | h2l => exact .execH2l h
  | dmaComplete => exact .execDmaComplete h
  | digestSlice => exact .execDigestSlice h
  | submit => exact .execSubmit h
  | stagingComplete => exact .execStagingComplete h
  | serveAbortWrite => exact .ite (.done h.writeAbort) (.done h)
  | ethSlot => exact .execEthSlot h
  | ethAck => exact .execEthAck h
  | ethResend => exact .ite (.done h.ethResend) (.done h)
  | parkd => exact .execParkd h
  | telem => exact .ite (.done h.modHost.ethSend) (.done h)
  | bypass => exact .done h.scan
  | idcode => exact .done h.scan
  | samplePreload => exact .done h.scan.modPins
  | extest => exact .done h.scanDrive
  | clamp => exact .done h.scanDrive
  | highz => exact .done h.scanDrive
  | startAttempt => exact .ite (.done h.attempt) (.done h)
  | stageOverrun => exact .execStageOverrun h
  | solicit => exact .execSolicit h
  | offer => exact .execOffer h
  | data => exact .execData h
  | readResend => exact .execReadResend h
  | serverLost => exact .execServerLost h
  | bootOk => exact .ite (.done h.bootOk) (.done h)
  | watchdogExpire => exact .ite (.done h.expire) (.done h)
  | watchdogKick => exact .ite (.done h.setFld.setMc) (.done h)
  | mcRunning => exact .ite (.done h.runMc) (.done h)
  | psDataWrite => exact .done h.writePsData
  | psWriteComplete => exact .execPsWriteComplete h
  | mboxPost => exact .ite (.done h) (.done h.mboxPost)
  | mgmtMessage => exact .ite (.done h) (.done h.mgmtIn)
  | getVersion => exact .done (h.mboxRow (fun _ _ _ hs => hs.serveGetVersion))
  | negotiate => exact .done (h.mboxRow (fun _ _ _ hs => hs.serveNegotiate))
  | getIdentity => exact .done (h.mboxRow (fun _ _ _ hs => hs.serveGetIdentity))
  | getStatus => exact .done (h.mboxRow (fun _ _ _ hs => hs.serveGetStatus))
  | getBootrec => exact .done (h.mboxRow (fun _ _ _ hs => hs.serveGetBootrec))
  | partSet => exact .done (h.mboxRow (fun _ _ _ hs => hs.servePartSet))
  | partQuery => exact .done (h.mboxRow (fun _ _ _ hs => hs.servePartQuery))
  | partReset => exact .done (h.mboxRow (fun _ _ _ hs => hs.servePartReset))
  | partLedger => exact .done (h.mboxRow (fun _ _ _ hs => hs.servePartLedger))
  | setState => exact .done (h.mboxRow (fun _ _ _ hs => hs.serveSetState))
  | setCap => exact .done (h.mboxRow (fun _ _ _ hs => hs.serveSetCap))
  | setStep => exact .done (h.mboxRow (fun _ _ _ hs => hs.serveSetStep))
  | setWakesel => exact .done (h.mboxRow (fun _ _ _ hs => hs.serveSetWakesel))
  | setPdecl => exact .done (h.mboxRow (fun _ _ _ hs => hs.serveSetPdecl))
  | portInfo => exact .done (h.mboxRow (fun _ _ _ hs => hs.servePortInfo))
  | nbrMap => exact .done (h.mboxRow (fun _ _ _ hs => hs.serveNbrMap))
  | portEnable => exact .done (h.mboxRow (fun _ _ _ hs => hs.servePortEnable))
  | portReset => exact .done (h.mboxRow (fun _ _ _ hs => hs.servePortReset))
  | setRole => exact .done (h.mboxRow (fun _ _ _ hs => hs.serveSetRole))
  | setDims => exact .done (h.mboxRow (fun _ _ _ hs => hs.serveSetDims))
  | ethAddr => exact .done (h.mboxRow (fun _ _ _ hs => hs.serveEthAddr))
  | ethEndpoint => exact .done (h.mboxRow (fun _ _ _ hs => hs.serveEthEndpoint))
  | maintStatus => exact .done (h.mboxRow (fun _ _ _ hs => hs.serveMaintStatus))
  | coreTest => exact .done (h.mboxRow (fun _ _ _ hs => hs.serveCoreTest))
  | coreFence => exact .done (h.mboxRow (fun _ _ _ hs => hs.serveCoreFence))
  | topiaryRemap => exact .done (h.mboxRow (fun _ _ _ hs => hs.serveTopiaryRemap))
  | bankFail => exact .done (h.mboxRow (fun _ _ _ hs => hs.serveBankFail))
  | portTest => exact .done (h.mboxRow (fun _ _ _ hs => hs.servePortTest))
  | sweep => exact .done (h.mboxRow (fun _ _ _ hs => hs.serveSweep))
  | maintActivityEnd => exact .execMaintActivityEnd h
  | imgStatus => exact .done (h.mboxRow (fun _ _ _ hs => hs.serveImgStatus))
  | fetchRetry => exact .done (h.mboxRow (fun _ _ _ hs => hs.serveFetchRetry))
  | standbyFetch => exact .done (h.mboxRow (fun _ _ _ hs => hs.serveStandbyFetch))
  | standbyBegin => exact .done (h.mboxRow (fun _ _ _ hs => hs.serveStandbyBegin))
  | standbyData => exact .done (h.mboxRow (fun _ _ _ hs => hs.serveStandbyData))
  | standbyEnd => exact .done (h.mboxRow (fun _ _ _ hs => hs.serveStandbyEnd))
  | setBootcfg => exact .done (h.mboxRow (fun _ _ _ hs => hs.serveSetBootcfg))
  | roleSwitch => exact .done (h.mboxRow (fun _ _ _ hs => hs.serveRoleSwitch))
  | fuseKey => exact .done (h.mboxRow (fun _ _ _ hs => hs.serveFuseKey))
  | fuseRevoke => exact .done (h.mboxRow (fun _ _ _ hs => hs.serveFuseRevoke))
  | fuseSvn => exact .done (h.mboxRow (fun _ _ _ hs => hs.serveFuseSvn))
  | psRead => exact .done (h.mboxRow (fun _ _ _ hs => hs.servePsRead))
  | psWrite => exact .done (h.mboxRow (fun _ _ _ hs => hs.servePsWrite))
  | psWear => exact .done (h.mboxRow (fun _ _ _ hs => hs.servePsWear))
  | timeStatus => exact .done (h.mboxRow (fun _ _ _ hs => hs.serveTimeStatus))
  | setMaster => exact .done (h.mboxRow (fun _ _ _ hs => hs.serveSetMaster))
  | timeSet => exact .done (h.mboxRow (fun _ _ _ hs => hs.serveTimeSet))
  | setAlarm => exact .done (h.mboxRow (fun _ _ _ hs => hs.serveSetAlarm))
  | setPps => exact .done (h.mboxRow (fun _ _ _ hs => hs.serveSetPps))
  | setSlew => exact .done (h.mboxRow (fun _ _ _ hs => hs.serveSetSlew))
  | setDeadline => exact .done (h.mboxRow (fun _ _ _ hs => hs.serveSetDeadline))
  | serveStatus => exact .done (h.mboxRow (fun _ _ _ hs => hs.serveServeStatus))
  | serveAbort => exact .done (h.mboxRow (fun _ _ _ hs => hs.serveServeAbort))
  | evcClear => exact .done (h.mboxRow (fun _ _ _ hs => hs.serveEvcClear))
  | evcSetmask => exact .done (h.mboxRow (fun _ _ _ hs => hs.serveEvcSetmask))
  | regRead => exact .done (h.mboxRow (fun _ _ _ hs => hs.serveRegRead))
  | regWrite => exact .done (h.mboxRow (fun _ _ _ hs => hs.serveRegWrite))
  | echo => exact .done (h.mboxRow (fun _ _ _ hs => hs.serveEcho))
  | laneLock => exact .ite (.done h.lanesPlaced) (.done h)
  | pcieLinkUp => exact .ite (.done h) (.done h.setLink.raise.sendPending)
  | ethLinkUp => exact .ite (.done h.ethLink) (.done h)
  | ethLinkDown => exact .ite (.done h.ethLink) (.done h)
  | mgmtLinkUp => exact .done h.mgmtLink
  | mgmtLinkDown => exact .done h.mgmtLink
  | perstRelease => exact .ite (.done h.perstOff) (.done h)
  | pllRelock => exact .ite (.done h) (.done h.modPow)
  | thermalAlertClear => exact .ite (.done h.heat) (.done h)
  | denianWakeBeacon => exact .ite (.done h.wakeBy) (.done h)
  | ptmResponse => exact .ite (.done h.srcHeard.correct) (.done h)
  | evergreenPowerOn => exact .done h.modPins
  | mcRestartTimeout => exact .execMcRestartTimeout h
  | imageVerified => exact .execImageVerified h

/-- A step runs the command at the front of the queue, or lets time pass. -/
theorem Res.MemOk.step : Res.MemOk (step s) := by
  unfold Machine.step
  split
  case h_1 c rest e =>
    have ht : State.MemOk { s with pending := rest } := h.of_same rfl rfl
    exact .exec ht
  case h_2 => exact .done h.tick

end

/-- Settles O57: device memory is written by `wrByte`, which keeps the canonical form, and by a sweep, which makes a new one; every function a
step can run is built of these and of changes to other parts of the state. -/
theorem memoryStaysCanonical : Obligations.MemoryStaysCanonical :=
  fun _ _ h => Res.MemOk.step h _

end Sys2Proof.Machine
end

section
/-! The transfers of bulk slots (06_memories.md R193, R200; 13_host_interfaces.md R439): the transfer whose slot has come, and what a write of
part of one bulk line leaves in memory and in the queues of the tier-columns. -/

namespace Sys2Proof.Machine

/-! ## Operations that leave the queued transfers alone -/

/-- The queued transfers of each tier-column. -/
def State.pends (s : State) (tc : Nat) : List Xfer := (s.col tc).pend

/-- The tier-columns of two states hold the same queued transfers. -/
def State.pendSame (s t : State) : Prop := t.pends = s.pends

theorem State.pendSame_refl (s : State) : s.pendSame s := rfl

theorem State.pendSame_of_cols {s t : State} (h : t.cols = s.cols) : s.pendSame t :=
  funext fun _ => by simp only [State.pends, State.col, h]

theorem State.pendSame.trans {s t u : State} (h : s.pendSame t) (k : t.pendSame u) : s.pendSame u := Eq.trans k h

theorem State.pendSame_ite (p : Prop) [Decidable p] {s t u : State} (ht : s.pendSame t) (hu : s.pendSame u) : s.pendSame (if p then t else u) :=
  iteInduction (motive := fun v => s.pendSame v) (fun _ => ht) fun _ => hu

theorem State.pendSame_setCol {s : State} {tc : Nat} {v : TierCol} (h : v.pend = (s.col tc).pend) : s.pendSame (s.setCol tc v) :=
  funext fun k => by
    unfold State.pends
    by_cases hk : k = tc
    · rw [hk, State.col_setCol, h]
    · rw [State.col, State.setCol, SMap.get_put_ne _ _ _ _ hk, State.col]

theorem State.pendSame_health (s : State) (f : Fld) (ci : Nat) : s.pendSame (s.health f ci) :=
  State.pendSame_ite _ (State.pendSame_of_cols (by simp)) s.pendSame_refl

theorem State.pendSame_poisonEvent (s : State) (w : Who) : s.pendSame (s.poisonEvent w) :=
  State.pendSame_of_cols (by cases w <;> simp [State.poisonEvent])

theorem State.pendSame_wrBytes (s : State) (a : Nat) (bs : List Byte) : s.pendSame (s.wrBytes a bs) := by
  induction bs generalizing s a with
  | nil => exact s.pendSame_refl
  | cons b r ih => exact ih (s.wrByte a b) (a + 1)

theorem State.pendSame_noteBadPiece (s : State) (tc line bank : Nat) : s.pendSame (s.noteBadPiece tc line bank) := by
  unfold State.noteBadPiece
  extract_lets c bl noted
  have hnoted : s.pendSame noted := State.pendSame_setCol rfl
  exact State.pendSame_ite _ s.pendSame_refl
    (State.pendSame_ite _ (hnoted.trans (State.pendSame_of_cols (by simp [State.failBank]))) hnoted)

/-- A read of a bulk line counts and notes errors: the queued transfers stay (R206 to R209). -/
theorem State.pendSame_readLine (s : State) (a : Nat) : s.pendSame (s.readLine a).1 := by
  unfold State.readLine
  extract_lets line tc ci failed fb live ce ue counted noted
  have hcounted : s.pendSame counted := State.pendSame_ite _ s.pendSame_refl (State.pendSame_of_cols (by simp))
  have hnoted : s.pendSame noted :=
    foldl_keeps (fun t => s.pendSame t) _ (fun t p ht => ht.trans (State.pendSame_noteBadPiece ..)) _ _ hcounted
  split
  · exact hnoted.trans (State.pendSame_health ..)
  · split
    · exact hnoted.trans (State.pendSame_health ..)
    · exact hnoted

theorem State.pendSame_scrubNext (s : State) (tc : Nat) : s.pendSame (s.scrubNext tc) :=
  State.pendSame_ite _ (State.pendSame_of_cols (by simp)) (State.pendSame_of_cols (by simp))

theorem State.pendSame_dropBack (s : State) (line : Nat) : s.pendSame (s.dropBack line) := by
  unfold State.dropBack
  extract_lets tc
  refine State.pendSame_ite _ (State.pendSame.trans ?_ (State.pendSame_scrubNext ..)) s.pendSame_refl
  exact State.pendSame_setCol rfl

/-! ## A write within one bulk line -/

/-- Two states differ in memory at most in the bulk line at an address, and hold the same queued transfers. -/
def State.sameButLine (line : Nat) (s t : State) : Prop := (∀ c, c < line ∨ line + 256 ≤ c → t.rdByte c = s.rdByte c) ∧ s.pendSame t

theorem State.sameButLine.trans {line : Nat} {s t u : State} (h : s.sameButLine line t) (k : t.sameButLine line u) : s.sameButLine line u :=
  ⟨fun c hc => (k.1 c hc).trans (h.1 c hc), h.2.trans k.2⟩

theorem State.sameButLine_of_memSame {line : Nat} {s t : State} (h : s.memSame t) (hp : s.pendSame t) : s.sameButLine line t :=
  ⟨fun c _ => h.rdByte c, hp⟩

theorem State.sameButLine_refl (line : Nat) (s : State) : s.sameButLine line s := ⟨fun _ _ => rfl, s.pendSame_refl⟩

theorem State.sameButLine_ite {line : Nat} (p : Prop) [Decidable p] {s t u : State} (ht : s.sameButLine line t) (hu : s.sameButLine line u) :
    s.sameButLine line (if p then t else u) :=
  iteInduction (motive := fun v => s.sameButLine line v) (fun _ => ht) fun _ => hu

theorem State.sameButLine_wrBytes {line a : Nat} (s : State) {bs : List Byte} (h : line ≤ a) (hn : a + bs.length ≤ line + 256) :
    s.sameButLine line (s.wrBytes a bs) :=
  ⟨fun _ hc => State.rdByte_wrBytes_ne _ _ _ (by omega), State.pendSame_wrBytes ..⟩

theorem State.length_fillBytes (s : State) (a n : Nat) : (s.fillBytes a n).length = n := by
  rw [State.fillBytes, List.length_map, List.length_range]

/-- R193, R608: before its bytes land, a write of part of a bulk line changes no byte outside the line. -/
theorem State.writeBulk_form (s : State) (who : Who) (a : Nat) (bs : List Byte) :
    ∃ u, s.sameButLine (a / 256 * 256) u ∧ (s.writeBulk who a bs).1 = u.wrBytes a bs := by
  unfold State.writeBulk
  extract_lets line whole psn r told filled dropped free
  have hr : s.sameButLine line r.1 := by
    simp only [r]
    split
    · exact State.sameButLine_refl ..
    · exact State.sameButLine_of_memSame (State.memSame_readLine ..) (State.pendSame_readLine ..)
  have htold : s.sameButLine line told := State.sameButLine_ite _
    (hr.trans (State.sameButLine_of_memSame (State.memSame_poisonEvent ..) (State.pendSame_poisonEvent ..))) hr
  have hfilled : s.sameButLine line filled := State.sameButLine_ite _
    (htold.trans (State.sameButLine_wrBytes _ (Nat.le_refl _) (by rw [State.length_fillBytes]))) htold
  have hdropped : s.sameButLine line dropped := hfilled.trans
    (State.sameButLine_of_memSame (State.memSame_trans (State.memSame_clearBad ..) (State.memSame_dropBack ..)) (State.pendSame_dropBack ..))
  exact ⟨free, hdropped.trans (State.sameButLine_refl ..), rfl⟩

theorem chunks_zero (u fuel a : Nat) : chunks u fuel a 0 = [] := by
  cases fuel with
  | zero => rfl
  | succ fuel => rw [chunks, if_pos rfl]

/-- A range that lies within one unit is not cut. -/
theorem chunks_within {u a n : Nat} (hn : 0 < n) (h : a % u + n ≤ u) (fuel : Nat) : chunks u (fuel + 1) a n = [(a, n)] := by
  have hk : min n (u - a % u) = n := by omega
  rw [chunks, if_neg (by omega)]
  dsimp only
  rw [hk, Nat.sub_self, chunks_zero]

/-- A write of bytes of one bulk line puts them there and changes no byte outside the line. -/
theorem State.writeMem_bulkLine (s : State) (who : Who) {line a : Nat} {bs : List Byte} (hs : daSpace a = 0) (hl : line % 256 = 0)
    (ha : line ≤ a) (hn : a + bs.length ≤ line + 256) :
    (s.writeMem who a bs).1.rdBytes a bs.length = bs ∧ s.sameButLine line (s.writeMem who a bs).1 := by
  cases bs with
  | nil => exact ⟨rfl, State.sameButLine_refl ..⟩
  | cons b r =>
    have hpos : 0 < (b :: r).length := Nat.succ_pos _
    have hline : a / 256 * 256 = line := by omega
    have hchunks := chunks_within hpos (by omega : a % 256 + (b :: r).length ≤ 256) (b :: r).length
    have hbulk : (s.writeMem who a (b :: r)).1 = (s.writeBulk who a (b :: r)).1 := by
      unfold State.writeMem
      simp only [hs, Nat.reduceBEq, Bool.false_eq_true, if_false, hchunks, List.foldl_cons, List.foldl_nil, List.take_length]
    obtain ⟨u, hu, hw⟩ := s.writeBulk_form who a (b :: r)
    rw [hbulk, hw]
    exact ⟨State.rdBytes_wrBytes .., (hline ▸ hu).trans (State.sameButLine_wrBytes _ ha hn)⟩

/-! ## Transfers -/

theorem daSpace_bulkAddr {tc off : Nat} (ht : tc < 256) (ho : off ≤ 2 ^ 28) : daSpace (bulkAddr tc off) = 0 := by
  simp only [daSpace, bits, bulkAddr]
  omega

theorem bulkAddr_add (tc o k : Nat) : bulkAddr tc o + k = bulkAddr tc (o + k) := Nat.add_assoc ..

theorem TierCol.pend_swap_none (c : TierCol) (x : Xfer) : (c.swap x none).pend = c.pend.filter fun z => z != x := by
  show (c.pend.flatMap fun z => if z == x then [] else [z]) = _
  induction c.pend with
  | nil => rfl
  | cons z r ih =>
    rw [List.flatMap_cons, ih]
    by_cases h : z = x <;> simp [h]

theorem State.slotted_of_xferBytes {s : State} {x : Xfer} {b : Nat × List Byte} (h : s.xferBytes x = some b) : x.slotted = true := by
  unfold State.xferBytes at h
  unfold Xfer.slotted
  split <;> simp_all

theorem State.xferDrop_form (s : State) (x : Xfer) : s.xferDrop x = { s with cores := (s.xferDrop x).cores } := by
  unfold State.xferDrop
  split <;> rfl

/-- R200: a write of a transfer that needs no second slot is a write of its bytes, with the transfer taken from its queue. -/
theorem State.runXfer_write {s : State} {tc : Nat} {x : Xfer} {b : Nat × List Byte} (hb : s.xferBytes x = some b) (h2 : x.slot2 = none) :
    s.runXfer tc x
      = (((s.xferDrop x).setCol tc ((s.col tc).swap x none)).writeMem (.core x.core) (bulkAddr tc (x.line * 256) + b.1) b.2).1 := by
  have hcol : (s.xferDrop x).col tc = s.col tc := by rw [s.xferDrop_form]; rfl
  have hrun : s.runXfer tc x = (s.xferDrop x).xferWrite tc x b.1 b.2 := by simp only [State.runXfer, hb]
  rw [hrun]
  simp only [State.xferWrite, h2, hcol]

/-- R193, R200: such a write lands: its bytes stand in its line, no byte outside the line changes, and it is no longer queued. -/
theorem State.runXfer_write_lands {s : State} {tc off : Nat} {x : Xfer} {bs : List Byte} (hb : s.xferBytes x = some (off, bs))
    (h2 : x.slot2 = none) (htc : tc < 256) (hline : x.line < 2 ^ 20) (hlen : off + bs.length ≤ 256) :
    let a := bulkAddr tc (x.line * 256)
    (s.runXfer tc x).rdBytes (a + off) bs.length = bs ∧ (∀ c, c < a ∨ a + 256 ≤ c → (s.runXfer tc x).rdByte c = s.rdByte c)
    ∧ ((s.runXfer tc x).col tc).pend = (s.col tc).pend.filter fun z => z != x := by
  intro a
  rw [State.runXfer_write hb h2]
  have haligned : a % 256 = 0 := by simp only [a, bulkAddr]; omega
  have hspace : daSpace (a + off) = 0 := by
    rw [show a + off = bulkAddr tc (x.line * 256 + off) from bulkAddr_add ..]
    exact daSpace_bulkAddr htc (by omega)
  obtain ⟨hbytes, hrest, hpend⟩ := State.writeMem_bulkLine ((s.xferDrop x).setCol tc ((s.col tc).swap x none)) (.core x.core) (bs := bs)
    hspace haligned (Nat.le_add_right ..) (by omega)
  refine ⟨hbytes, fun c hc => (hrest c hc).trans ?_, (congrFun hpend tc).trans ?_⟩
  · rw [s.xferDrop_form]
    rfl
  · rw [State.pends, State.col_setCol, TierCol.pend_swap_none]

/-- R200: the row carries out the transfer that its slot is for. -/
theorem gives_bulkSlotTransfer {tc slot : Nat} {s : State} {x : Xfer} (h : s.slotXfer tc slot = some x) :
    Gives (.bulkSlotTransfer tc slot) s
      (if x.slotted then s.runXfer tc x else (s.runXfer tc x).setCol tc { (s.runXfer tc x).col tc with slot := slot + 1 }) := by
  show execBulkSlotTransfer tc slot s = _
  simp only [execBulkSlotTransfer, h]
  rfl

/-! ## The statement -/

/-- Settles O16: the row runs the transfer; a write of it lands within one bulk line, whose bytes it reads back as. -/
theorem slotTransfers : Obligations.SlotTransfers := by
  unfold Obligations.SlotTransfers
  refine ⟨fun tc slot s x hx => ⟨fun hs => ?_, fun hs => ?_⟩, fun tc slot off bytes s x hx hb h2 htc hline hlen => ?_⟩
  · simpa only [hs, if_true] using gives_bulkSlotTransfer hx
  · simpa only [hs, Bool.false_eq_true, if_false] using gives_bulkSlotTransfer hx
  · have hgives := gives_bulkSlotTransfer hx
    rw [if_pos (State.slotted_of_xferBytes hb)] at hgives
    exact ⟨_, hgives, State.runXfer_write_lands hb h2 htc hline hlen⟩

end Sys2Proof.Machine
end

section
/-! Patrol scrub and the scrub of core stores (06_memories.md R210, R211): the pointer's advance, the count of corrections, and the
write-backs. -/

namespace Sys2Proof.Machine

/-! ## The scrub pointer -/

theorem State.fld_addFld_apart {f g : Fld} (h : psReg f.reg = none) (hr : g.reg = f.reg) (hf : f.fits = true) (hg : g.fits = true)
    (ha : f.apart g = true) (s : State) (i k : Nat) : (s.addFld f i k).fld g i = s.fld g i := by
  rw [State.addFld, State.fld_note, State.fld_setFld_apart h hr hf hg ha]

theorem State.fld_lt (s : State) (f : Fld) (i : Nat) : s.fld f i < 2 ^ f.width := Fld.get_lt ..

theorem State.scrubNext_form (s : State) (tc : Nat) :
    s.scrubNext tc = { s with regs := (s.scrubNext tc).regs, hw := (s.scrubNext tc).hw } := by
  unfold State.scrubNext
  dsimp only
  split
  · rw [State.addFld_form rfl, State.setFld, State.setReg_plain rfl]
  · rw [State.setFld, State.setReg_plain rfl]

/-- R210: the pointer goes to the next line of its tier-column, and from the last to the first. -/
theorem State.scrubNext_pointer (s : State) (tc : Nat) :
    (s.scrubNext tc).fld F.CAL_SCRUB_POINTER tc = (s.fld F.CAL_SCRUB_POINTER tc + 1) % 2 ^ 20 := by
  unfold State.scrubNext
  dsimp only
  split
  next hlast =>
    have hkept := State.fld_addFld_apart (f := F.CAL_SCRUB_PASSES) (g := F.CAL_SCRUB_POINTER) rfl rfl rfl rfl rfl
    rw [hkept, State.fld_setFld rfl rfl, hlast]
    rfl
  next => exact State.fld_setFld rfl rfl ..

/-- R210: a pass is counted where the pointer leaves the last line. -/
theorem State.scrubNext_passes (s : State) (tc : Nat) :
    (s.scrubNext tc).fld F.CAL_SCRUB_PASSES tc
      = if s.fld F.CAL_SCRUB_POINTER tc + 1 = 2 ^ 20 then min (2 ^ 32 - 1) (s.fld F.CAL_SCRUB_PASSES tc + 1)
        else s.fld F.CAL_SCRUB_PASSES tc := by
  have hkept := State.fld_setFld_apart (f := F.CAL_SCRUB_POINTER) (g := F.CAL_SCRUB_PASSES) rfl rfl rfl rfl rfl
  unfold State.scrubNext
  dsimp only
  split
  · rw [State.fld_addFld rfl rfl, hkept]
    rfl
  · exact hkept ..

/-! ## A scrub slot -/

/-- A read of a line without an error counts nothing. -/
theorem State.readLine_clean {s : State} {a : Nat} (h : ∀ p, p < 17 → SMap.get 0 s.bad (pieceUnit (a / 256 * 256) p) = 0) :
    s.readLine a = (s, false) := by
  have hnone : ∀ (live : Nat → Bool) (k : Nat), k ≠ 0 →
      ((List.range 17).filter live).filter (fun p => SMap.get 0 s.bad (pieceUnit (a / 256 * 256) p) == k) = [] := by
    intro live k hk
    rw [List.filter_eq_nil_iff]
    intro p hp
    rw [h p (List.mem_range.1 (List.mem_filter.1 hp).1)]
    simpa using hk.symm
  simp [State.readLine, hnone]

/-- R210: over a line without an error a scrub slot moves the pointer and does nothing else. -/
theorem State.scrub_clean {s : State} {tc : Nat} (hb : (s.col tc).scrubBack = false)
    (h : ∀ p, p < 17 → SMap.get 0 s.bad (pieceUnit (bulkAddr tc (s.fld F.CAL_SCRUB_POINTER tc * 256)) p) = 0) :
    s.scrub tc = s.scrubNext tc := by
  unfold State.scrub
  extract_lets line _ _ failed fb fix r
  have haligned : line / 256 * 256 = line := by simp only [line, bulkAddr]; omega
  have hr : r = (s, false) := State.readLine_clean fun p hp => haligned.symm ▸ h p hp
  have hfix : fix = false := by
    simp only [fix, List.any_eq_false, List.mem_range]
    intro p hp
    simp [line, h p hp]
  rw [if_neg (by simp [hb]), hfix, Bool.not_false, Bool.or_true, if_pos rfl, hr]

theorem Gives.of_done {c : Instr} {s u : State} (h : exec c s = done s u) : Gives c s u := h

/-- R210: the row does a scrub slot, and counts the slot as past where nothing else stands in it. -/
theorem gives_scrubSlot {tc slot : Nat} {s : State} (h : s.scrubTurn tc slot = true) :
    Gives (.scrubSlot tc slot) s
      (if (s.colPart tc).isNone ∨ s.slotXfer tc slot = none then
        (s.scrub tc).setCol tc { (s.scrub tc).col tc with slot := max ((s.scrub tc).col tc).slot (slot + 1) } else s.scrub tc) :=
  .of_done (if_pos h)

theorem State.ite_setCol_form (p : Prop) [Decidable p] (s : State) (tc : Nat) (v : TierCol) :
    (if p then s.setCol tc v else s) = { s with cols := (if p then s.setCol tc v else s).cols } := by
  split <;> rfl

/-! ## Scrub of a core store -/

theorem State.fld_with_scrubs (s : State) (l : List ScrubBack) (f : Fld) (i : Nat) : State.fld { s with scrubs := l } f i = s.fld f i :=
  State.fld_congr rfl rfl rfl f i

/-- R211: the single-bit errors of a scrubbed word are counted, and their write-back is owed. -/
theorem State.scrubWord_form (s : State) (c unit word : Nat) :
    let us := (wordUnits c unit word).filter fun u => SMap.get 0 s.bad u == 1
    let t := s.scrubWord c unit word
    t.scrubs = s.scrubs ++ (if us.isEmpty then [] else [⟨c, unit, word, wordUnits c unit word, us, false⟩])
    ∧ t.fld F.CORECTL_MEMSTAT_CECNT c = min (2 ^ F.CORECTL_MEMSTAT_CECNT.width - 1) (s.fld F.CORECTL_MEMSTAT_CECNT c + us.length)
    ∧ t = { s with scrubs := t.scrubs, regs := t.regs, hw := t.hw } := by
  intro us t
  by_cases hus : us.isEmpty = true
  · have ht : t = s := if_pos hus
    have hlt := s.fld_lt F.CORECTL_MEMSTAT_CECNT c
    rw [ht, if_pos hus, List.append_nil, List.isEmpty_iff.1 hus, List.length_nil, Nat.add_zero, Nat.min_eq_right (Nat.le_sub_one_of_lt hlt)]
    exact ⟨rfl, rfl, rfl⟩
  · let counted := s.addFld F.CORECTL_MEMSTAT_CECNT c us.length
    have ht : t = { counted with scrubs := counted.scrubs ++ [⟨c, unit, word, wordUnits c unit word, us, false⟩] } := if_neg hus
    have hform : counted = { s with regs := counted.regs, hw := counted.hw } := State.addFld_form rfl ..
    have hcount : counted.fld F.CORECTL_MEMSTAT_CECNT c = _ := State.fld_addFld rfl rfl ..
    clear_value counted
    rw [if_neg hus, ht]
    refine ⟨?_, (State.fld_with_scrubs ..).trans hcount, ?_⟩
    · rw [hform]
    · rw [hform]

theorem gives_coreStoreScrub {c unit word : Nat} {s : State} (hc : s.coreExists c = true) (hu : unit < 4) (hw : word < unitWords unit)
    (hp : s.portIdle c unit word = true) : Gives (.coreStoreScrub c unit word) s (s.scrubWord c unit word) :=
  .of_done (if_pos ⟨hc, hu, hw, hp⟩)

/-! ## Write-backs -/

theorem SMap.get_foldl_erase {α : Type} (d : α) (ks : List Nat) (m : SMap α) (u : Nat) :
    SMap.get d (ks.foldl (fun m k => m.erase k) m) u = if ks.contains u then d else SMap.get d m u := by
  induction ks generalizing m with
  | nil => rfl
  | cons k r ih =>
    rw [List.foldl_cons, ih, SMap.get_erase]
    by_cases hk : u = k
    · simp [hk]
    · simp [hk]

theorem State.foldl_scrubDone_form (l : List ScrubBack) (s : State) :
    l.foldl State.scrubDone s = { s with bad := (l.foldl State.scrubDone s).bad, scrubs := (l.foldl State.scrubDone s).scrubs } := by
  refine foldl_keeps (fun t => t = { s with bad := t.bad, scrubs := t.scrubs }) _ (fun t x ht => ?_) l s rfl
  rw [ht]
  rfl

/-- R211: write-backs remove the errors that they correct and no other mark. -/
theorem State.foldl_scrubDone_bad (l : List ScrubBack) (s : State) (u : Nat) :
    SMap.get 0 (l.foldl State.scrubDone s).bad u = if l.any (fun x => x.fix.contains u) then 0 else SMap.get 0 s.bad u := by
  induction l generalizing s with
  | nil => rfl
  | cons x r ih =>
    rw [List.foldl_cons, ih, State.scrubDone, SMap.get_foldl_erase]
    rw [List.any_cons]
    by_cases hx : x.fix.contains u = true
    · rw [hx, Bool.true_or, if_pos rfl, ite_self]
    · rw [Bool.eq_false_iff.2 hx, Bool.false_or, if_neg Bool.false_ne_true]

/-! ## The statement -/

/-- Settles O17: a scrub slot over a line without an error moves the pointer alone; the scrub of a word owes what it corrects; a write-back
erases the marks that it corrects. -/
theorem scrubs : Obligations.Scrubs := by
  unfold Obligations.Scrubs
  refine ⟨fun tc slot s hturn hback hclean => ?_, fun c unit word s hc hu hw hp => ?_, fun mine s => ?_⟩
  · have hgives := gives_scrubSlot hturn
    rw [State.scrub_clean hback hclean, State.ite_setCol_form] at hgives
    refine ⟨_, hgives, s.scrubNext_pointer tc, s.scrubNext_passes tc, ?_⟩
    rw [s.scrubNext_form]
  · obtain ⟨howed, hcount, hform⟩ := s.scrubWord_form c unit word
    exact (gives_coreStoreScrub hc hu hw hp).completes (by rw [hform]) (by rw [hform]) ⟨howed, hcount, hform⟩
  · intro due t
    refine ⟨State.foldl_scrubDone_bad due s, ?_⟩
    simp only [t, State.scrubBacks]
    rw [State.foldl_scrubDone_form]

end Sys2Proof.Machine
end

section
/-! Sweeps (06_memories.md R213, R215, R217): a write of ROOT_SWEEPCTL and its refusals, and the fill pattern that a sweep leaves. -/

namespace Sys2Proof.Machine

/-! ## Activities -/

/-- Two states differ at most in the registers. -/
def State.sameButRegs (s t : State) : Prop := t = { s with regs := t.regs }

theorem State.sameButRegs_refl (s : State) : s.sameButRegs s := rfl

theorem State.sameButRegs.trans {s t u : State} (h : s.sameButRegs t) (k : t.sameButRegs u) : s.sameButRegs u := by
  unfold State.sameButRegs at *
  rw [h] at k
  exact k

theorem State.sameButRegs_setFld {f : Fld} (h : psReg f.reg = none) (s : State) (i v : Nat) : s.sameButRegs (s.setFld f i v) := by
  unfold State.sameButRegs State.setFld
  rw [State.setReg_plain h]

theorem State.sameButRegs.foldl {α : Type} {f : State → α → State} (hf : ∀ (t : State) a, t.sameButRegs (f t a)) (l : List α) (s : State) :
    s.sameButRegs (l.foldl f s) :=
  foldl_keeps (fun t => s.sameButRegs t) f (fun t a h => h.trans (hf t a)) l s s.sameButRegs_refl

theorem State.sameButRegs.memSame {s t : State} (h : s.sameButRegs t) : s.memSame t := by
  rw [h]
  exact ⟨rfl, rfl⟩

theorem State.sameButRegs.acts {s t : State} (h : s.sameButRegs t) : t.acts = s.acts := by rw [h]

/-- R582: an activity that starts takes the next number and shows in ROOT_MAINT. -/
theorem State.startAct_form (s : State) (a : Act) :
    State.sameButRegs { s with acts := s.acts ++ [{ a with id := s.nextAct }], nextAct := s.nextAct + 1 } (s.startAct a) := by
  unfold State.startAct
  exact .foldl (fun t k => ((State.sameButRegs_setFld rfl ..).trans (State.sameButRegs_setFld rfl ..)).trans (State.sameButRegs_setFld rfl ..)) ..

/-- R582: an activity that ends leaves the list, shows in ROOT_MAINT and raises source 13. -/
theorem State.endAct_form (s : State) (a : Act) (status : Nat) :
    ∃ t, State.sameButRegs { s with acts := s.acts.filter fun b => b.id != a.id } t ∧ s.endAct a status = t.raise 13 := by
  refine ⟨_, ?_, rfl⟩
  exact .foldl (fun t k => (((State.sameButRegs_setFld rfl ..).trans (State.sameButRegs_setFld rfl ..)).trans
    (State.sameButRegs_setFld rfl ..)).trans (State.sameButRegs_setFld rfl ..)) ..

/-! ## A write of ROOT_SWEEPCTL -/

theorem gives_rootSweepctlWrite {m : Nat} (hm : m % 2 ^ 64 ≠ 0) (by_ : Requester) (s : State) :
    Gives (.rootSweepctlWrite by_ m) s ((s.askSweep m).1.setFld F.ROOT_SWEEPSTAT_STATUS 0 (s.askSweep m).2) :=
  .of_done (if_neg hm)

/-- R217: a sweep refused leaves its status and nothing else. -/
theorem completes_sweep_refused {m st : Nat} {s : State} (hm : m % 2 ^ 64 ≠ 0) (by_ : Requester) (h : s.askSweep m = (s, st)) (hst : st < 2 ^ 8) :
    Completes (.rootSweepctlWrite by_ m) s fun t => t.fld F.ROOT_SWEEPSTAT_STATUS 0 = st ∧ t = { s with regs := t.regs } := by
  have hgives := gives_rootSweepctlWrite hm by_ s
  have hform : s.sameButRegs (s.setFld F.ROOT_SWEEPSTAT_STATUS 0 st) := State.sameButRegs_setFld rfl ..
  rw [h] at hgives
  exact hgives.completes (by rw [hform]) (by rw [hform]) ⟨(State.fld_setFld rfl rfl ..).trans (Nat.mod_eq_of_lt hst), hform⟩

/-- R217: a sweep that may start takes its tokens, and ROOT_SWEEPSTAT shows it. -/
theorem completes_sweep_started {m : Nat} {s : State} (hm : m % 2 ^ 64 ≠ 0) (by_ : Requester)
    (h : s.askSweep m = ((s.startAct (s.sweepAct (m % 2 ^ 64))).setFld F.ROOT_SWEEPSTAT_ACTIVE 0 1, stNOT_READY)) :
    Completes (.rootSweepctlWrite by_ m) s fun t =>
      t.fld F.ROOT_SWEEPSTAT_ACTIVE 0 = 1 ∧ t.fld F.ROOT_SWEEPSTAT_STATUS 0 = stNOT_READY
      ∧ t.acts = s.acts ++ [{ s.sweepAct (m % 2 ^ 64) with id := s.nextAct }]
      ∧ t = { s with regs := t.regs, acts := t.acts, nextAct := t.nextAct } := by
  have hgives := gives_rootSweepctlWrite hm by_ s
  rw [h] at hgives
  have hstarted := s.startAct_form (s.sweepAct (m % 2 ^ 64))
  generalize s.startAct (s.sweepAct (m % 2 ^ 64)) = u at hgives hstarted
  have hactive := State.sameButRegs_setFld (f := F.ROOT_SWEEPSTAT_ACTIVE) rfl u 0 1
  have hstatus := State.sameButRegs_setFld (f := F.ROOT_SWEEPSTAT_STATUS) rfl (u.setFld F.ROOT_SWEEPSTAT_ACTIVE 0 1) 0 stNOT_READY
  have hkept := State.fld_setFld_apart (f := F.ROOT_SWEEPSTAT_STATUS) (g := F.ROOT_SWEEPSTAT_ACTIVE) rfl rfl rfl rfl rfl
    (u.setFld F.ROOT_SWEEPSTAT_ACTIVE 0 1) 0 stNOT_READY
  have hone := hkept.trans (State.fld_setFld rfl rfl ..)
  have hnot := State.fld_setFld (f := F.ROOT_SWEEPSTAT_STATUS) rfl rfl (u.setFld F.ROOT_SWEEPSTAT_ACTIVE 0 1) 0 stNOT_READY
  have hform := (hstarted.trans hactive).trans hstatus
  dsimp only at hgives
  generalize (u.setFld F.ROOT_SWEEPSTAT_ACTIVE 0 1).setFld F.ROOT_SWEEPSTAT_STATUS 0 stNOT_READY = v at hgives hform hone hnot
  refine hgives.completes (by rw [hform]) (by rw [hform]) ⟨hone, hnot, by rw [hform], ?_⟩
  rw [hform]

/-! ## The fill pattern -/

theorem SMap.get_filter_of_pos {α : Type} (d : α) (p : Nat × α → Bool) (m : SMap α) {k : Nat} (h : ∀ v, p (k, v) = true) :
    SMap.get d (m.filter p) k = SMap.get d m k := by
  induction m with
  | nil => rfl
  | cons e r ih =>
    obtain ⟨j, v⟩ := e
    by_cases hj : j = k
    · rw [List.filter_cons_of_pos (hj ▸ h v), SMap.get, if_pos hj, SMap.get, if_pos hj]
    · rw [SMap.get, if_neg hj, ← ih, List.filter_cons]
      split
      · rw [SMap.get, if_neg hj]
      · rfl

theorem SMap.get_filter_of_neg {α : Type} (d : α) (p : Nat × α → Bool) (m : SMap α) {k : Nat} (h : ∀ v, p (k, v) = false) :
    SMap.get d (m.filter p) k = d := by
  induction m with
  | nil => rfl
  | cons e r ih =>
    obtain ⟨j, v⟩ := e
    rw [List.filter_cons]
    split
    next hp =>
      have hj : j ≠ k := fun hj => Bool.false_ne_true ((h v).symm.trans (hj ▸ hp))
      rw [SMap.get, if_neg hj, ih]
    next => exact ih

/-- R215: a swept memory reads as the fill pattern; the other memories are as before. -/
theorem State.rdByte_sweepMem (s : State) (key pat : Nat) (psn : Bool) (x : Nat) :
    (s.sweepMem key pat psn).rdByte x = if fillKey x = key then patByte pat x else s.rdByte x := by
  unfold State.rdByte State.fillByte
  split
  next hk =>
    show SMap.get (patByte (SMap.get 0 (SMap.put 0 s.fill key pat) (fillKey x)) x) (s.mem.filter fun e => fillKey e.1 != key) x = _
    rw [hk, SMap.get_put_self, SMap.get_filter_of_neg _ _ _ (by simp [hk])]
  next hk =>
    show SMap.get (patByte (SMap.get 0 (SMap.put 0 s.fill key pat) (fillKey x)) x) (s.mem.filter fun e => fillKey e.1 != key) x = _
    rw [SMap.get_put_ne _ _ _ _ hk, SMap.get_filter_of_pos _ _ _ (by simp [hk])]

/-- The memories that a sweep of a cluster fills: its core stores and its tier-columns. -/
def State.sweptKeys (s : State) (cl : Nat) : List Nat := (s.clusterCores cl).map (256 + ·) ++ s.colsOf cl

/-- The memories listed are filled. -/
def State.sweepKeys (s : State) (ks : List Nat) (pat : Nat) (psn : Bool) : State := ks.foldl (fun t k => t.sweepMem k pat psn) s

theorem State.sweepCluster_eq (s : State) (cl pat : Nat) (psn : Bool) :
    s.sweepCluster cl pat psn true = s.sweepKeys (s.sweptKeys cl) pat psn := by
  have hcols : ((s.clusterCores cl).foldl (fun t c => t.sweepMem (256 + c) pat psn) s).colsOf cl = s.colsOf cl := by
    refine foldl_keeps (fun t => t.colsOf cl = s.colsOf cl) _ (fun t c ht => ?_) _ s rfl
    exact ht
  rw [State.sweepKeys, State.sweptKeys, List.foldl_append, List.foldl_map, ← hcols]
  rfl

theorem State.sweptKeys_sweepKeys (s : State) (ks : List Nat) (pat : Nat) (psn : Bool) : (s.sweepKeys ks pat psn).sweptKeys = s.sweptKeys := by
  refine foldl_keeps (fun t => t.sweptKeys = s.sweptKeys) _ (fun t k ht => ?_) ks s rfl
  exact ht

theorem State.acts_sweepKeys (s : State) (ks : List Nat) (pat : Nat) (psn : Bool) : (s.sweepKeys ks pat psn).acts = s.acts := by
  refine foldl_keeps (fun t => t.acts = s.acts) _ (fun t k ht => ?_) ks s rfl
  exact ht

theorem State.foldl_sweepCluster_eq (s : State) (cls : List Nat) (pat : Nat) (psn : Bool) :
    cls.foldl (fun t cl => t.sweepCluster cl pat psn true) s = s.sweepKeys (cls.flatMap s.sweptKeys) pat psn := by
  induction cls generalizing s with
  | nil => rfl
  | cons cl r ih =>
    have hnext : (s.sweepCluster cl pat psn true).sweptKeys = s.sweptKeys := by
      rw [State.sweepCluster_eq, State.sweptKeys_sweepKeys]
    rw [List.foldl_cons, ih, hnext, State.sweepCluster_eq, List.flatMap_cons]
    exact List.foldl_append.symm

theorem State.rdByte_sweepKeys (s : State) (ks : List Nat) (pat : Nat) (psn : Bool) (x : Nat) :
    (s.sweepKeys ks pat psn).rdByte x = if fillKey x ∈ ks then patByte pat x else s.rdByte x := by
  induction ks generalizing s with
  | nil => rfl
  | cons k r ih =>
    have hstep : s.sweepKeys (k :: r) pat psn = (s.sweepMem k pat psn).sweepKeys r pat psn := rfl
    rw [hstep, ih, State.rdByte_sweepMem]
    by_cases hr : fillKey x ∈ r
    · rw [if_pos hr, if_pos (List.mem_cons_of_mem _ hr)]
    · simp only [hr, List.mem_cons, or_false, if_false]

theorem State.mem_sweptKeys {s : State} {cl k : Nat} : k ∈ s.sweptKeys cl ↔ (∃ c ∈ s.clusterCores cl, k = 256 + c) ∨ k ∈ s.colsOf cl := by
  simp only [State.sweptKeys, List.mem_append, List.mem_map, eq_comm]

/-! ## The end of a sweep -/

theorem State.sameButRegs_sweepOk (s : State) (a : Act) : s.sameButRegs (s.sweepOk a) := by
  unfold State.sweepOk
  split
  · exact State.sameButRegs_setFld rfl ..
  · exact s.sameButRegs_refl

/-- R217: a sweep that ends fills its memories and leaves the list of activities; source 10 is raised last. -/
theorem State.endSweep_form (s : State) (a : Act) :
    (s.sweepKeys ((clustersOf a.clusters).flatMap s.sweptKeys) a.pat a.poison).memSame (s.endSweep a)
    ∧ (s.endSweep a).occ.getLast? = some 10 ∧ (s.endSweep a).acts = s.acts.filter fun b => b.id != a.id := by
  unfold State.endSweep
  rw [State.foldl_sweepCluster_eq]
  extract_lets swept ended
  have hok : swept.sameButRegs (swept.sweepOk a) := State.sameButRegs_sweepOk ..
  obtain ⟨t, ht, hended⟩ := (swept.sweepOk a).endAct_form a stOK
  have hend : ended = t.raise 13 := hended
  have hacts : (swept.sweepOk a).acts = s.acts := hok.acts.trans (State.acts_sweepKeys ..)
  have hset := State.sameButRegs_setFld (f := F.ROOT_SWEEPSTAT_ACTIVE) rfl ended 0 (if (ended.actsOf actSweep).isEmpty then 0 else 1)
  refine ⟨?_, ?_, ?_⟩
  · have hfilled : swept.memSame ended := hend ▸ State.memSame_trans (State.memSame_trans hok.memSame ht.memSame) ⟨rfl, rfl⟩
    exact State.memSame_trans hfilled hset.memSame
  · exact List.getLast?_concat
  · refine hset.acts.trans ?_
    rw [hend, ← hacts]
    exact ht.acts

theorem gives_sweepComplete {s : State} {a : Act} (h : s.sweepDue = some a) : Gives .sweepComplete s (s.endSweep a) := by
  show execSweepComplete s = _
  rw [execSweepComplete, h]
  rfl

/-! ## The statement -/

/-- Settles O18: a write of ROOT_SWEEPCTL is refused or starts a sweep, and one that ends has put the fill pattern into the memories of its
clusters, one memory after another. -/
theorem sweeps : Obligations.Sweeps := by
  unfold Obligations.Sweeps
  refine ⟨fun by_ m s hm => ⟨fun hbusy => ?_, fun hcan hpart => ?_, fun hcan hfree => ?_⟩, fun s a hdue => ?_⟩
  · exact completes_sweep_refused hm by_ (by simp only [State.askSweep, hbusy]; rfl) (by decide)
  · exact completes_sweep_refused hm by_ (by simp only [State.askSweep, hcan, hpart]; rfl) (by decide)
  · exact completes_sweep_started hm by_ (by simp only [State.askSweep, hcan, hfree]; rfl)
  · obtain ⟨hmem, hocc, hacts⟩ := s.endSweep_form a
    refine ⟨_, gives_sweepComplete hdue, fun x cl hcl hx => ?_, fun x hx => ?_, hocc, hacts⟩
    · refine (hmem.rdByte x).trans ((State.rdByte_sweepKeys ..).trans (if_pos ?_))
      exact List.mem_flatMap.2 ⟨cl, hcl, State.mem_sweptKeys.2 hx⟩
    · refine (hmem.rdByte x).trans ((State.rdByte_sweepKeys ..).trans (if_neg fun hmem => ?_))
      obtain ⟨cl, hcl, hk⟩ := List.mem_flatMap.1 hmem
      obtain ⟨hcores, hcols⟩ := hx cl hcl
      rcases State.mem_sweptKeys.1 hk with ⟨c, hc, hkey⟩ | hcol
      · exact hcores c hc hkey
      · exact hcols hcol

end Sys2Proof.Machine
end

section
/-! The issue of a word and the words of the SEQ queue (07_core_queues.md R231, R233 to R237, R241, R242; 08_control_words.md R292): what an
issue takes from its core, what a word that completes by itself leaves, and what a rejection at the SEQ head leaves. -/

namespace Sys2Proof.Machine

/-! ## The issue of a word -/

/-- R224: the head of a queue stands in it and has a run still to issue. -/
theorem Core.head_some {k : Core} {qc : Nat} {e : QEntry} (h : k.head qc = some e) : e ∈ k.queue qc ∧ e.issued ≤ W.REPEAT e.lead :=
  ⟨List.mem_of_find?_eq_some h, by simpa using List.find?_some h⟩

/-- R241: the wait of a word at the start of a run is satisfied by the counter itself, whatever the lower queues leave of it. -/
theorem State.waitVal_le_of_waitOk {s : State} {c qc lc : Nat} {e : QEntry} (h : s.waitOk c qc lc e = true) (hp : e.phase = 0) :
    W.WAITVAL e.lead ≤ SMap.get 0 (s.core c).sync (W.WAITCTR e.lead) := by
  simp only [State.waitOk, hp, bne_self_eq_false, Bool.false_or, Bool.or_eq_true, beq_iff_eq, decide_eq_true_eq] at h
  rcases h with hzero | hleft
  · omega
  · exact hleft.trans (s.leftFor_le ..)

/-- What an issue does to its core: the wait is taken from its counter, and the queue has issued in this cycle. -/
def Core.takeWait (k : Core) (qc lc : Nat) (e : QEntry) : Core :=
  { k with
    sync := SMap.modify 0 k.sync (W.WAITCTR e.lead) (fun x => x - (if e.phase = 0 then W.WAITVAL e.lead else 0))
    lastIssue := SMap.put 0 k.lastIssue qc (lc + 1) }

theorem Core.sync_takeWait_self (k : Core) (qc lc : Nat) {e : QEntry} (hp : e.phase = 0) :
    SMap.get 0 (k.takeWait qc lc e).sync (W.WAITCTR e.lead) = SMap.get 0 k.sync (W.WAITCTR e.lead) - W.WAITVAL e.lead := by
  rw [Core.takeWait, SMap.get_modify, if_pos rfl, if_pos hp]

theorem Core.sync_takeWait_ne (k : Core) (qc lc : Nat) {e : QEntry} {n : Nat} (hn : n ≠ W.WAITCTR e.lead) :
    SMap.get 0 (k.takeWait qc lc e).sync n = SMap.get 0 k.sync n := by
  rw [Core.takeWait, SMap.get_modify, if_neg hn]

/-- R241, R242: an issue changes its core alone. -/
theorem State.issueOp_state {s : State} {c qc op : Nat} {i : Issue} (h : s.issueOp c qc op = some i) :
    i.s = s.modCore c fun k => k.takeWait qc i.lc i.e := by
  obtain ⟨-, -, -, -, -, hs⟩ := State.issueOp_some h
  exact hs

/-- Settles O2: the word that issues is the ready head of its queue, and the state it works from has its wait taken. -/
theorem issueConsumesWait : Obligations.IssueConsumesWait := by
  unfold Obligations.IssueConsumesWait
  intro s c qc op i h
  obtain ⟨hq, hlc, hready, hop, hwait, -⟩ := State.issueOp_some h
  obtain ⟨hhead, havail, -, -, -, -⟩ := State.headReady_some hready
  obtain ⟨hmem, hissued⟩ := Core.head_some hhead
  have hs := State.issueOp_state h
  have hcore : i.s.core c = (s.core c).takeWait qc i.lc i.e := by rw [hs, State.core_modCore]
  refine ⟨hmem, hop, hissued, havail, hq, hlc, fun hp => ⟨State.waitVal_le_of_waitOk hwait hp, ?_⟩, fun n hn => ?_, ?_, fun d hd => ?_, ?_⟩
  · rw [hcore, Core.sync_takeWait_self _ _ _ hp]
  · rw [hcore, Core.sync_takeWait_ne _ _ _ hn]
  · rw [hcore]; rfl
  · rw [hs, State.core_modCore_ne _ _ hd]
  · rw [hs]; rfl

/-! ## Words that complete by themselves -/

/-- A run that issues and completes from the next cycle on is counted in its entry, and only its core changes. -/
theorem completes_endRun {w : Instr} {s : State} {c qc op : Nat} {i : Issue} (hi : s.issueOp c qc op = some i)
    (hw : Gives w s (i.s.endRun c qc i.e (i.lc + 1))) :
    Completes w s fun t =>
      t.core c = (i.s.core c).modEntry qc i.e.id (fun x => { x with issued := x.issued + 1, phase := 0, runs := x.runs ++ [i.lc + 1] })
      ∧ (∀ d, d ≠ c → t.core d = s.core d) ∧ t = { s with cores := t.cores } := by
  have hs := State.issueOp_state hi
  have hsame : (i.s.endRun c qc i.e (i.lc + 1)) = { s with cores := (i.s.endRun c qc i.e (i.lc + 1)).cores } := by rw [hs]; rfl
  refine hw.completes (by rw [hsame]) (by rw [hsame]) ⟨State.core_modCore .., fun d hd => ?_, hsame⟩
  rw [State.endRun, State.core_modCore_ne _ _ hd, hs, State.core_modCore_ne _ _ hd]

/-- R232: the words of the SEQ queue, each with its opcode. -/
def seqWords (c : Nat) : List (Nat × Instr) :=
  [(0, Instr.nop c 0), (1, Instr.loop c), (2, Instr.jump c), (3, Instr.beatend c), (4, Instr.halt c)]

theorem gives_seqWord {c op : Nat} {w : Instr} (hw : (op, w) ∈ seqWords c) (s : State) : Gives w s (s.execSeqWord c op) := by
  simp only [seqWords, List.mem_cons, Prod.mk.injEq, List.not_mem_nil, or_false] at hw
  obtain ⟨rfl, rfl⟩ | ⟨rfl, rfl⟩ | ⟨rfl, rfl⟩ | ⟨rfl, rfl⟩ | ⟨rfl, rfl⟩ := hw <;> rfl

theorem opcode_of_seqWords {c op : Nat} {w : Instr} (hw : (op, w) ∈ seqWords c) : op ≤ 4 := by
  simp only [seqWords, List.mem_cons, Prod.mk.injEq, List.not_mem_nil, or_false] at hw
  omega

/-- R233: NOP issues in the queues other than SEQ by their issue conditions alone. -/
theorem gives_nop {s : State} {c qc : Nat} {i : Issue} (h1 : 1 ≤ qc) (h4 : qc ≤ 4) (h : s.issueOp c qc 0 = some i) :
    Gives (.nop c qc) s (i.s.endRun c qc i.e (i.lc + 1)) := by
  show execNop c qc s = _
  rw [execNop, if_neg (by omega), Nat.min_eq_left h4, h]
  rfl

/-- Settles O3: a SEQ word that passes its checks, and a NOP of another queue, ends its run in the next cycle. -/
theorem seqWordsIssue : Obligations.SeqWordsIssue := by
  unfold Obligations.SeqWordsIssue
  refine ⟨fun c op w s i hw hi hr => completes_endRun hi ?_, fun c qc s i h1 h4 hi => completes_endRun hi (gives_nop h1 h4 hi)⟩
  rw [← State.execSeqWord_ok hi hr]
  exact gives_seqWord hw s

/-! ## Rejection at the SEQ head -/

/-- R231: a SEQ word that fails a check is rejected. -/
theorem State.execSeqWord_rejected {s : State} {c q lc op : Nat} {e : QEntry} (hl : s.seqLive c = some (q, lc))
    (hh : s.seqHead c lc = some e) (hq : W.QUEUE e.lead = 0) (ho : W.OPCODE e.lead = op) (hr : s.headReason q c e ≠ 0) :
    s.execSeqWord c op = s.rejectHead q c e (s.headReason q c e) := by
  simp only [State.execSeqWord, hl, hh]
  rw [if_pos ⟨hq, ho⟩, if_pos hr]

/-- R292: the record of an illegal word changes registers alone. -/
theorem State.sameButRegs_recordIllegal {s : State} {c reason queue opcode addr : Nat} (h0 : s.fld F.CORECTL_ILLEGAL_REASON c = 0) :
    s.sameButRegs (s.recordIllegal c reason queue opcode addr) := by
  rw [State.recordIllegal_first h0]
  exact (((State.sameButRegs_setFld rfl ..).trans (State.sameButRegs_setFld rfl ..)).trans (State.sameButRegs_setFld rfl ..)).trans
    (State.sameButRegs_setFld rfl ..)

theorem State.fld_recordIllegal_reason {s : State} {c reason queue opcode addr : Nat} (h0 : s.fld F.CORECTL_ILLEGAL_REASON c = 0) :
    (s.recordIllegal c reason queue opcode addr).fld F.CORECTL_ILLEGAL_REASON c = reason % 2 ^ 8 := by
  rw [State.recordIllegal_first h0, State.fld_setFld_apart, State.fld_setFld_apart, State.fld_setFld_apart, State.fld_setFld]
  all_goals rfl

theorem State.fld_recordIllegal_opcode {s : State} {c reason queue opcode addr : Nat} (h0 : s.fld F.CORECTL_ILLEGAL_REASON c = 0) :
    (s.recordIllegal c reason queue opcode addr).fld F.CORECTL_ILLEGAL_OPCODE c = opcode % 2 ^ 8 := by
  rw [State.recordIllegal_first h0, State.fld_setFld_apart, State.fld_setFld]
  all_goals rfl

/-- R231: the sequencer stops, and every word it holds or has requested is discarded. -/
def Core.stopSeq (k : Core) : Core := { k with stopped := true, seq := [], inflight := [], fetchOn := false }

/-- R231, R292: the first rejection since the launch, of a core whose partition is in a cycle: the sequencer stops, the cause is recorded,
and the fault is kept for the end of the cycle. -/
theorem State.reject_first {s : State} {q c : Nat} (hlive : (s.part q).live = true) (h0 : s.fld F.CORECTL_ILLEGAL_REASON c = 0)
    (reason queue opcode addr : Nat) :
    let t := s.reject q c reason queue opcode addr
    t.core c = (s.core c).stopSeq ∧ t.fld F.CORECTL_ILLEGAL_REASON c = reason % 2 ^ 8 ∧ t.fld F.CORECTL_ILLEGAL_OPCODE c = opcode % 2 ^ 8
      ∧ (t.part q).fault.isSome = true ∧ t = { s with cores := t.cores, parts := t.parts, regs := t.regs } := by
  intro t
  let stopped := s.modCore c Core.stopSeq
  let recorded := stopped.recordIllegal c reason queue opcode addr
  have h0' : stopped.fld F.CORECTL_ILLEGAL_REASON c = 0 := h0
  have hregs : recorded = { stopped with regs := recorded.regs } := State.sameButRegs_recordIllegal h0'
  have hlive' : (recorded.part q).live = true := by rw [hregs]; exact hlive
  have ht : t = recorded.modPart q fun p => { p with fault := some (CycleFault.or ⟨caILLEGAL, stFAULTED, c, 0, recorded.gtc⟩ p.fault) } :=
    State.jobFault_cycle hlive' (by decide)
  have hfld : ∀ f i, t.fld f i = recorded.fld f i := fun f i => by rw [ht]; exact State.fld_congr rfl rfl rfl f i
  refine ⟨?_, (hfld ..).trans (State.fld_recordIllegal_reason h0'), (hfld ..).trans (State.fld_recordIllegal_opcode h0'), ?_, ?_⟩
  · calc t.core c
      _ = recorded.core c := by rw [ht]; rfl
      _ = stopped.core c := State.core_of_cores (by rw [hregs]) c
      _ = (s.core c).stopSeq := State.core_modCore ..
  · rw [ht, State.part_modPart]; rfl
  · rw [ht, hregs]; rfl

/-- Settles O4: the rejected word's cause is the first recorded, so its fields read back, and the fault waits for the cycle's end. -/
theorem seqWordsRejected : Obligations.SeqWordsRejected := by
  unfold Obligations.SeqWordsRejected
  intro c op q lc w s e hw hl hh hq ho hr h0 _
  obtain ⟨hlq, -⟩ := State.seqLive_some hl
  obtain ⟨-, hlive, -⟩ := State.liveQ_some hlq
  have hop : W.OPCODE e.lead % 2 ^ 8 = op := by
    have := opcode_of_seqWords hw
    omega
  obtain ⟨hcore, hreason, hopcode, hfault, hsame⟩ :=
    State.reject_first hlive h0 (s.headReason q c e) (W.QUEUE e.lead) (W.OPCODE e.lead) e.addr
  have hgives := gives_seqWord hw s
  rw [State.execSeqWord_rejected hl hh hq ho hr, State.rejectHead] at hgives
  refine hgives.completes (by rw [hsame]) (by rw [hsame]) ⟨?_, ?_, ?_, ?_, hreason, hopcode.trans hop, hfault, hsame⟩ <;> rw [hcore] <;> rfl

end Sys2Proof.Machine
end

section
/-! Completions, signals, and the end of a core's work (07_core_queues.md R224, R236, R237, R243, R244, R246): what an increment of a sync
counter leaves, what a completion changes of its core, and the rows of the signals and of BEATEND and HALT. -/

namespace Sys2Proof.Machine

/-! ## Increments of sync counters -/

/-- R246: an increment adds to its counter, which stops at 65,535, and leaves every other counter of every core. -/
theorem State.sync_syncAdd (s : State) (c n inc d m : Nat) :
    SMap.get 0 ((s.syncAdd c n inc).core d).sync m
      = if d = c ∧ m = n then min 65535 (SMap.get 0 (s.core d).sync m + inc) else SMap.get 0 (s.core d).sync m := by
  rw [State.core_syncAdd]
  by_cases hd : d = c
  · subst hd
    simp only [if_true, true_and, SMap.get_put]
    split
    case isTrue h => rw [h]
    case isFalse => rfl
  · rw [if_neg hd, if_neg fun h => hd h.1]

theorem State.core_syncAdd_ne (s : State) {c d : Nat} (n inc : Nat) (h : d ≠ c) : (s.syncAdd c n inc).core d = s.core d := by
  rw [State.core_syncAdd, if_neg h]

theorem State.sigs_syncAdd (s : State) (c n inc d : Nat) : ((s.syncAdd c n inc).core d).sigs = (s.core d).sigs := by
  rw [State.core_syncAdd]
  split
  case isTrue h => rw [h]
  case isFalse => rfl

/-! ## Changes that signals make to a core -/

/-- From `s` to `t` one core alone has changed, in its sync counters and the signals it holds. -/
structure State.Signalled (c : Nat) (s t : State) : Prop where
  same : s.sameButCores t
  others : ∀ d, d ≠ c → t.core d = s.core d
  core : t.core c = { s.core c with
    sync := (t.core c).sync, satAt := (t.core c).satAt, satNew := (t.core c).satNew, sigs := (t.core c).sigs, remote := (t.core c).remote }

theorem State.Signalled.refl (c : Nat) (s : State) : s.Signalled c s := ⟨s.sameButCores_refl, fun _ _ => rfl, rfl⟩

theorem State.Signalled.trans {c : Nat} {s t u : State} (h : s.Signalled c t) (k : t.Signalled c u) : s.Signalled c u := by
  refine ⟨h.same.trans k.same, fun d hd => (k.others d hd).trans (h.others d hd), ?_⟩
  rw [k.core, h.core]

theorem State.signalled_syncAdd (s : State) (c n inc : Nat) : s.Signalled c (s.syncAdd c n inc) := by
  refine ⟨State.syncAdd_form .., fun _ hd => s.core_syncAdd_ne n inc hd, ?_⟩
  rw [State.core_syncAdd, if_pos rfl]

theorem State.signalled_modCore (s : State) (c : Nat) {f : Core → Core}
    (hf : ∀ k, f k = { k with sync := (f k).sync, satAt := (f k).satAt, satNew := (f k).satNew, sigs := (f k).sigs, remote := (f k).remote }) :
    s.Signalled c (s.modCore c f) := by
  refine ⟨State.sameButCores_modCore .., fun _ hd => State.core_modCore_ne _ _ hd, ?_⟩
  rw [State.core_modCore]
  exact hf _

/-- R243: a LOCAL signal is counted, and one that goes to other cores waits in its own. -/
theorem State.signalled_signal (s : State) (c w lc : Nat) : s.Signalled c (s.signal c w lc) := by
  unfold State.signal
  extract_lets inc ctr
  split
  · exact .refl c s
  · split
    · exact s.signalled_syncAdd ..
    · exact s.signalled_modCore c fun _ => rfl
    · exact s.signalled_modCore c fun _ => rfl
    · exact .refl c s

/-- R244: a LOCAL signal adds SIGINC to its counter; a word with SIGINC 0 signals nothing. -/
theorem State.sync_signal_local (s : State) (c : Nat) {w : Nat} (lc n : Nat) (h : W.SIGTGT w = 0) :
    SMap.get 0 ((s.signal c w lc).core c).sync n
      = if n = W.SIGCTR w ∧ W.SIGINC w ≠ 0 then min 65535 (SMap.get 0 (s.core c).sync n + W.SIGINC w)
        else SMap.get 0 (s.core c).sync n := by
  rw [State.signal, h]
  by_cases hinc : W.SIGINC w = 0
  · simp only [hinc, if_true, ne_eq, not_true_eq_false, and_false, if_false]
  · simp only [hinc, if_false, State.sync_syncAdd, true_and, ne_eq, not_false_eq_true, and_true]

/-- R289: the REMOTE signals that came with the bytes of a run are counted. -/
def State.countRemote (s : State) (c key : Nat) : State :=
  (((s.core c).remote.filter fun r => r.1 == key).foldl (fun t r => t.syncAdd c r.2.1 r.2.2) s).modCore c
    fun k => { k with remote := k.remote.filter fun r => r.1 != key }

theorem State.signalled_countRemote (s : State) (c key : Nat) : s.Signalled c (s.countRemote c key) := by
  let counted := ((s.core c).remote.filter fun r => r.1 == key).foldl (fun t r => t.syncAdd c r.2.1 r.2.2) s
  have hcounted : s.Signalled c counted := foldl_keeps (s.Signalled c) _ (fun _ _ h => h.trans (State.signalled_syncAdd ..)) _ s (.refl c s)
  exact hcounted.trans (counted.signalled_modCore c fun _ => rfl)

theorem State.sync_countRemote_nil {s : State} {c : Nat} (h : (s.core c).remote = []) (key : Nat) :
    ((s.countRemote c key).core c).sync = (s.core c).sync := by
  rw [State.countRemote, h, State.core_modCore]
  rfl

/-! ## Completions -/

@[simp] theorem Core.queue_setQueue (k : Core) (qc : Nat) (es : List QEntry) : (k.setQueue qc es).queue qc = es := by
  match qc with
  | 0 | 1 | 2 | 3 | _ + 4 => rfl

@[simp] theorem Core.setQueue_beats (k : Core) (qc : Nat) (es : List QEntry) : (k.setQueue qc es).beats = k.beats := by
  unfold Core.setQueue
  split <;> rfl

@[simp] theorem Core.setQueue_remote (k : Core) (qc : Nat) (es : List QEntry) : (k.setQueue qc es).remote = k.remote := by
  unfold Core.setQueue
  split <;> rfl

@[simp] theorem Core.setQueue_sync (k : Core) (qc : Nat) (es : List QEntry) : (k.setQueue qc es).sync = k.sync := by
  unfold Core.setQueue
  split <;> rfl

/-- A queue is read from the five queue fields alone. -/
theorem Core.queue_congr {k k' : Core} (hseq : k'.seq = k.seq) (hmat : k'.mat = k.mat) (hchn : k'.chn = k.chn) (hmov : k'.mov = k.mov)
    (hlnk : k'.lnk = k.lnk) (qc : Nat) : k'.queue qc = k.queue qc := by
  simp only [Core.queue, hseq, hmat, hchn, hmov, hlnk]

/-- R224: the completion of the oldest run of the front word of a queue leaves the word with its other runs, or, of the last run, the words
behind it and its places held. -/
def Core.takeRun (k : Core) (qc lc : Nat) (e : QEntry) (rest : List QEntry) : Core :=
  if e.runs.tail.isEmpty && decide (e.issued > W.REPEAT e.lead) then
    { k.setQueue qc rest with
      held := k.held.filter (fun h => decide (lc < h.2)) ++ List.replicate (if qc = 0 then 1 else e.places) (qc, lc + 1) }
  else k.setQueue qc ({ e with runs := e.runs.tail } :: rest)

section
variable (k : Core) (qc lc : Nat) (e : QEntry) (rest : List QEntry)

@[simp] theorem Core.beats_takeRun : (k.takeRun qc lc e rest).beats = k.beats := by
  unfold Core.takeRun
  split <;> exact k.setQueue_beats ..

@[simp] theorem Core.remote_takeRun : (k.takeRun qc lc e rest).remote = k.remote := by
  unfold Core.takeRun
  split <;> exact k.setQueue_remote ..

@[simp] theorem Core.sync_takeRun : (k.takeRun qc lc e rest).sync = k.sync := by
  unfold Core.takeRun
  split <;> exact k.setQueue_sync ..

theorem Core.queue_takeRun : (k.takeRun qc lc e rest).queue qc
    = if e.runs.length ≤ 1 ∧ W.REPEAT e.lead < e.issued then rest else { e with runs := e.runs.tail } :: rest := by
  have hlast : e.runs.tail.isEmpty = true ↔ e.runs.length ≤ 1 := by
    rw [List.isEmpty_iff_length_eq_zero, List.length_tail]
    omega
  simp only [Core.takeRun, Bool.and_eq_true, hlast, decide_eq_true_eq, gt_iff_lt]
  split
  · exact (Core.queue_congr rfl rfl rfl rfl rfl qc).trans (k.queue_setQueue ..)
  · exact k.queue_setQueue ..

end

section
variable {s : State} {c qc : Nat} {e : QEntry} {rest : List QEntry} (lc : Nat)

/-- R224, R244, R289: a completion takes the run, counts the REMOTE signals that came with its bytes, and signals. -/
theorem State.completeRun_of_front (h : (s.core c).queue qc = e :: rest) :
    s.completeRun c qc lc = (((s.modCore c fun k => k.takeRun qc lc e rest).countRemote c
      (e.id * 65536 + (e.issued - e.runs.length))).signal c e.lead lc) := by
  rw [State.completeRun, h]
  rfl

/-- A completion changes its core alone, besides its queue only in counters and signals. -/
theorem State.signalled_completeRun (h : (s.core c).queue qc = e :: rest) :
    (s.modCore c fun k => k.takeRun qc lc e rest).Signalled c (s.completeRun c qc lc) := by
  rw [State.completeRun_of_front lc h]
  exact (State.signalled_countRemote ..).trans (State.signalled_signal ..)

theorem State.core_completeRun_ne (h : (s.core c).queue qc = e :: rest) {d : Nat} (hd : d ≠ c) :
    (s.completeRun c qc lc).core d = s.core d :=
  ((State.signalled_completeRun lc h).others d hd).trans (State.core_modCore_ne _ _ hd)

theorem State.queue_completeRun (h : (s.core c).queue qc = e :: rest) :
    ((s.completeRun c qc lc).core c).queue qc
      = if e.runs.length ≤ 1 ∧ W.REPEAT e.lead < e.issued then rest else { e with runs := e.runs.tail } :: rest := by
  rw [(State.signalled_completeRun lc h).core, State.core_modCore]
  exact (Core.queue_congr rfl rfl rfl rfl rfl qc).trans (Core.queue_takeRun ..)

theorem State.beats_completeRun (h : (s.core c).queue qc = e :: rest) :
    ((s.completeRun c qc lc).core c).beats = (s.core c).beats := by
  rw [(State.signalled_completeRun lc h).core, State.core_modCore]
  exact Core.beats_takeRun ..

/-- R244: the counters after a completion with a LOCAL signal and no REMOTE signal. -/
theorem State.sync_completeRun_local (h : (s.core c).queue qc = e :: rest) (hr : (s.core c).remote = []) (hl : W.SIGTGT e.lead = 0) (n : Nat) :
    SMap.get 0 ((s.completeRun c qc lc).core c).sync n
      = if n = W.SIGCTR e.lead ∧ W.SIGINC e.lead ≠ 0 then min 65535 (SMap.get 0 (s.core c).sync n + W.SIGINC e.lead)
        else SMap.get 0 (s.core c).sync n := by
  have hremote : ((s.modCore c fun k => k.takeRun qc lc e rest).core c).remote = [] := by
    rw [State.core_modCore, Core.remote_takeRun, hr]
  rw [State.completeRun_of_front lc h, State.sync_signal_local _ _ _ _ hl, State.sync_countRemote_nil hremote, State.core_modCore,
    Core.sync_takeRun]

end

/-! ## Signals that arrive -/

/-- R243: a signal that is delivered leaves those of its core. -/
def State.dropSig (s : State) (c : Nat) (g : SigFlight) : State := s.modCore c fun k => { k with sigs := k.sigs.erase g }

theorem State.sigs_dropSig (s : State) (c : Nat) (g : SigFlight) : ((s.dropSig c g).core c).sigs = (s.core c).sigs.erase g := by
  rw [State.dropSig, State.core_modCore]

theorem State.sync_dropSig (s : State) (c : Nat) (g : SigFlight) (d : Nat) : ((s.dropSig c g).core d).sync = (s.core d).sync := by
  rw [State.dropSig, State.core_modCore_if]
  split
  case isTrue h => rw [h]
  case isFalse => rfl

/-- R243: a CLUSTER signal adds to a counter of each of some cores. -/
def State.addEach (s : State) (cs : List Nat) (n inc : Nat) : State := cs.foldl (fun t c => t.syncAdd c n inc) s

theorem State.sameButCores_addEach (s : State) (cs : List Nat) (n inc : Nat) : s.sameButCores (s.addEach cs n inc) :=
  State.sameButCores_foldl (fun _ _ => State.syncAdd_form ..) ..

theorem State.sigs_addEach (s : State) (cs : List Nat) (n inc c : Nat) : ((s.addEach cs n inc).core c).sigs = (s.core c).sigs :=
  foldl_keeps (fun t : State => (t.core c).sigs = (s.core c).sigs) _ (fun _ _ h => (State.sigs_syncAdd ..).trans h) cs s rfl

theorem State.core_addEach_ne {cs : List Nat} {d : Nat} (h : d ∉ cs) (s : State) (n inc : Nat) : (s.addEach cs n inc).core d = s.core d := by
  induction cs generalizing s with
  | nil => rfl
  | cons c cs ih =>
    obtain ⟨hc, hcs⟩ := List.ne_and_not_mem_of_not_mem_cons h
    exact (ih hcs _).trans (State.core_syncAdd_ne _ _ _ hc)

/-- Each core is counted once where the list names none twice. -/
theorem State.sync_addEach {cs : List Nat} {d : Nat} (hn : cs.Nodup) (h : d ∈ cs) (s : State) (n inc : Nat) :
    SMap.get 0 ((s.addEach cs n inc).core d).sync n = min 65535 (SMap.get 0 (s.core d).sync n + inc) := by
  induction cs generalizing s with
  | nil => exact absurd h List.not_mem_nil
  | cons c cs ih =>
    obtain ⟨hc, hcs⟩ := List.nodup_cons.1 hn
    show SMap.get 0 (((s.syncAdd c n inc).addEach cs n inc).core d).sync n = _
    rcases List.mem_cons.1 h with rfl | hd
    · rw [State.core_addEach_ne hc, State.sync_syncAdd, if_pos ⟨rfl, rfl⟩]
    · have hdc : d ≠ c := fun he => hc (he ▸ hd)
      rw [ih hcs hd, State.core_syncAdd_ne _ _ _ hdc]

theorem State.nodup_clusterCores (s : State) (cl : Nat) : (s.clusterCores cl).Nodup :=
  (List.nodup_range.map fun _ _ h => Nat.add_left_cancel h).filter _

section
variable {s : State} {c q : Nat} {g : SigFlight}

theorem gives_peerSignal (hq : s.liveQ c = some q)
    (hg : ((s.core c).sigs.find? fun g => !g.toCluster && decide (g.due ≤ (s.part q).lc)) = some g) :
    Gives (.peerSignal c) s ((s.dropSig c g).syncAdd g.core g.ctr g.inc) := by
  show execPeerSignal c s = _
  simp only [execPeerSignal, hq, hg]
  rfl

theorem gives_clusterSignal (hq : s.liveQ c = some q)
    (hg : ((s.core c).sigs.find? fun g => g.toCluster && decide (g.due ≤ (s.part q).lc)) = some g) :
    Gives (.clusterSignal c) s ((s.dropSig c g).addEach (s.clusterCores (c / 8)) g.ctr g.inc) := by
  show execClusterSignal c s = _
  simp only [execClusterSignal, hq, hg]
  rfl

end

/-- Settles O9: a completion takes the run and counts its LOCAL signal; a signal that is due leaves its core and is counted in the cores it
goes to. -/
theorem signals : Obligations.Signals := by
  unfold Obligations.Signals
  refine ⟨fun s c qc lc e rest _ hq hr hl => ⟨State.queue_completeRun lc hq, ?counted, fun n hn => ?uncounted,
    fun d hd => State.core_completeRun_ne lc hq hd, State.sameButCores_completeRun ..⟩, fun c q s g hq => ⟨fun hg => ?peer, fun hg => ?cluster⟩⟩
  case counted =>
    rw [State.sync_completeRun_local lc hq hr hl]
    simp only [true_and, ne_eq, ite_not]
  case uncounted => rw [State.sync_completeRun_local lc hq hr hl, if_neg fun h => hn h.1]
  case peer =>
    have hsame : s.sameButCores ((s.dropSig c g).syncAdd g.core g.ctr g.inc) := (State.sameButCores_modCore ..).trans (State.syncAdd_form ..)
    refine (gives_peerSignal hq hg).completes hsame.pending hsame.id ⟨?_, ?_, hsame⟩
    · rw [State.sync_syncAdd, if_pos ⟨rfl, rfl⟩, State.sync_dropSig]
    · rw [State.sigs_syncAdd, State.sigs_dropSig]
  case cluster =>
    have hsame : s.sameButCores ((s.dropSig c g).addEach (s.clusterCores (c / 8)) g.ctr g.inc) :=
      (State.sameButCores_modCore ..).trans (State.sameButCores_addEach ..)
    refine (gives_clusterSignal hq hg).completes hsame.pending hsame.id ⟨fun d hd => ?_, fun d hd => ?_, ?_, hsame⟩
    · rw [State.sync_addEach (s.nodup_clusterCores _) hd, State.sync_dropSig]
    · rw [State.core_addEach_ne hd, State.sync_dropSig]
    · rw [State.sigs_addEach, State.sigs_dropSig]

/-! ## The end of a core's work -/

theorem State.frontDue_some {s : State} {c qc lc : Nat} {e : QEntry} (h : s.frontDue c qc lc = some e) :
    ∃ rest, (s.core c).queue qc = e :: rest := by
  unfold State.frontDue at h
  split at h
  case h_1 e' rest hq =>
    split at h
    case h_1 =>
      obtain ⟨-, he⟩ := Option.ite_none_right_eq_some.1 h
      exact ⟨rest, by rw [hq, Option.some.inj he]⟩
    case h_2 => cases h
  case h_2 => cases h

theorem State.completeOp_some {s : State} {c qc q lc : Nat} {ops : List Nat} {e : QEntry} (h : s.completeOp c qc ops = some (q, e, lc)) :
    ∃ rest, (s.core c).queue qc = e :: rest := by
  unfold State.completeOp at h
  split at h
  case h_1 => cases h
  case h_2 q' _ =>
    extract_lets lc' at h
    split at h
    case h_1 e' he =>
      obtain ⟨-, hx⟩ := Option.ite_none_right_eq_some.1 h
      obtain ⟨-, rfl, -⟩ : q' = q ∧ e' = e ∧ lc' = lc := by simpa using hx
      exact State.frontDue_some he
    case h_2 => cases h

/-- R236, R237: BEATEND and HALT complete from the front of the SEQ queue, over empty queues. -/
theorem State.endDue_some {s : State} {c op q lc : Nat} {e : QEntry} (h : s.endDue c op = some (q, e, lc)) :
    (s.core c).idle lc = true ∧ ∃ rest, (s.core c).queue 0 = e :: rest := by
  unfold State.endDue at h
  split at h
  case h_1 q' e' lc' hc =>
    obtain ⟨hidle, hx⟩ := Option.ite_none_right_eq_some.1 h
    obtain ⟨rfl, rfl, rfl⟩ : q' = q ∧ e' = e ∧ lc' = lc := by simpa using hx
    exact ⟨hidle, State.completeOp_some hc⟩
  case h_2 => cases h

theorem gives_beatendComplete {s : State} {c q lc : Nat} {e : QEntry} (h : s.endDue c 3 = some (q, e, lc)) :
    Gives (.beatendComplete c) s (s.endBeat q c lc e) := by
  show execBeatendComplete c s = _
  rw [execBeatendComplete, h]
  rfl

theorem gives_haltComplete {s : State} {c q lc : Nat} {e : QEntry} (h : s.endDue c 4 = some (q, e, lc)) :
    Gives (.haltComplete c) s (s.haltCore q c lc) := by
  show execHaltComplete c s = _
  rw [execHaltComplete, h]
  rfl

/-- A partition one of whose cores still works is not at the end of its work. -/
theorem State.workOver_of_working {s : State} {q d : Nat} (hd : d ∈ s.partCores q) (hh : (s.core d).halted = false)
    (hb : (s.core d).beatDone = false) : s.workOver q = false :=
  List.all_eq_false.2 ⟨d, hd, by simp [hh, hb]⟩

/-- R236: the core's work of the beat is done, and under NEXT 1 the variant table gives the next fetch address. -/
def Core.endBeat (k : Core) (e : QEntry) : Core :=
  { k with beatDone := true, beats := k.beats + 1, vtab := if W.BEATEND_NEXT e.lead = 1 then some (W.BEATEND_VTAB e.lead, e.addr) else none }

/-- R237: the core has halted in a beat. -/
def Core.haltIn (k : Core) (b : Nat) : Core := { k with halted := true, haltBeat := some b }

section
variable {s : State} {c q lc d : Nat} {e : QEntry} {rest : List QEntry} (hfront : (s.core c).queue 0 = e :: rest)
  (hdc : d ≠ c) (hd : d ∈ s.partCores q) (hh : (s.core d).halted = false) (hb : (s.core d).beatDone = false)

theorem State.sameButCores_endWord (s : State) (c lc : Nat) (f : Core → Core) : s.sameButCores ((s.completeRun c 0 lc).modCore c f) :=
  (State.sameButCores_completeRun ..).trans (State.sameButCores_modCore ..)

include hfront hdc hd hh hb

/-- The completion of a SEQ word of a core, and what it marks there, leaves the partition at work while another core works. -/
theorem State.workOver_endWord (f : Core → Core) : ((s.completeRun c 0 lc).modCore c f).workOver q = false := by
  have hsame := State.sameButCores_endWord s c lc f
  have hcores : ((s.completeRun c 0 lc).modCore c f).partCores q = s.partCores q := State.partCores_congr hsame.parts (by rw [hsame]) q
  have hcore : ((s.completeRun c 0 lc).modCore c f).core d = s.core d :=
    (State.core_modCore_ne _ _ hdc).trans (State.core_completeRun_ne lc hfront hdc)
  exact State.workOver_of_working (hcores ▸ hd) (hcore ▸ hh) (hcore ▸ hb)

theorem State.endBeat_of_working : s.endBeat q c lc e = (s.completeRun c 0 lc).modCore c fun k => k.endBeat e :=
  if_neg (Bool.eq_false_iff.1 (State.workOver_endWord hfront hdc hd hh hb _))

theorem State.haltCore_of_working : s.haltCore q c lc = (s.completeRun c 0 lc).modCore c fun k => k.haltIn (s.part q).beat := by
  have hbeat : ((s.completeRun c 0 lc).part q).beat = (s.part q).beat := by
    rw [State.part_of_parts (State.sameButCores_completeRun ..).parts]
  rw [← hbeat]
  exact if_neg (Bool.eq_false_iff.1 (State.workOver_endWord hfront hdc hd hh hb _))

end

/-- Settles O10: the completion and the mark it leaves change one core, so the core that still works keeps the partition at work. -/
theorem endWordsComplete : Obligations.EndWordsComplete := by
  unfold Obligations.EndWordsComplete
  refine fun c q lc d s e hdc hd hh hb => ⟨fun h => ?beatend, fun h => ?halt⟩
  all_goals obtain ⟨hidle, rest, hfront⟩ := State.endDue_some h
  case beatend =>
    have hgives := gives_beatendComplete h
    rw [State.endBeat_of_working hfront hdc hd hh hb] at hgives
    have hsame := State.sameButCores_endWord s c lc fun k => k.endBeat e
    refine ⟨hidle, hgives.completes hsame.pending hsame.id ?_⟩
    rw [State.core_modCore]
    exact ⟨rfl, congrArg (· + 1) (State.beats_completeRun lc hfront), rfl, hsame.parts, hsame.mem⟩
  case halt =>
    have hgives := gives_haltComplete h
    rw [State.haltCore_of_working hfront hdc hd hh hb] at hgives
    have hsame := State.sameButCores_endWord s c lc fun k => k.haltIn (s.part q).beat
    refine ⟨hidle, hgives.completes hsame.pending hsame.id ?_⟩
    rw [State.core_modCore]
    exact ⟨rfl, rfl, hsame.parts, hsame.mem⟩

end Sys2Proof.Machine
end

section
/-! Fetch and dispatch (07_core_queues.md R226 to R231, R235; 08_control_words.md R258, R613): what a request, an inspected word and a
dispatched word leave of their core, and the rows that make them. -/

namespace Sys2Proof.Machine

/-! ## Requests (R226, R228) -/

/-- R613: the check that a request of the last word of a loop's body adds to those it carries. -/
def Core.endChecks (k : Core) : List FetchCheck :=
  match k.loops with
  | f :: _ => if k.fetchAddr = f.last then [⟨2, f.loopAddr⟩] else []
  | [] => []

/-- R226, R228: a request plans the reads of its word, joins those in flight, and moves the fetch address and the loop stack on. -/
def Core.request (k : Core) (c lc : Nat) : Core :=
  let a := k.fetchAddr
  let st := loopStep k.loops a
  { k with
    plan := k.plan ++ fetchReads c k.nextKey a lc
    nextKey := k.nextKey + 1
    inflight := k.inflight ++ [⟨a, k.nextKey, lc + max (ownLat a) (ownLat (a + 1)), k.loops, k.checks ++ k.endChecks⟩]
    loops := st.1, fetchAddr := st.2.1, checks := st.2.2, lastReq := lc + 1 }

theorem State.core_fetch (s : State) (c lc : Nat) : (s.fetch c lc).core c = (s.core c).request c lc := by
  rw [State.fetch, State.core_modCore, State.planFor, State.core_modCore]
  rfl

theorem State.core_fetch_ne (s : State) {c d : Nat} (lc : Nat) (h : d ≠ c) : (s.fetch c lc).core d = s.core d :=
  (State.core_modCore_ne _ _ h).trans (State.core_modCore_ne _ _ h)

theorem gives_fetchRequest {s : State} {c q lc : Nat} (hl : s.seqLive c = some (q, lc)) (hf : (s.core c).mayFetch lc = true) :
    Gives (.fetchRequest c) s (s.fetch c lc) := by
  show execFetchRequest c s = _
  simp only [execFetchRequest, hl, hf, if_true]
  rfl

/-! ## Inspection (R227, R234, R235, R613) -/

/-- R227: the oldest request leaves those in flight, and its word enters the SEQ queue behind the others. -/
def Core.enter (k : Core) (r : FetchReq) (w pre lc : Nat) : Core :=
  { k.dropGroup r.key with
    inflight := k.inflight.tail
    seq := k.seq ++ [⟨k.nextId, w, 0, r.addr, lc + 1, 0, 0, [], pre, 0, 0⟩]
    nextId := k.nextId + 1 }

/-- R234 to R237: what inspection finds wrong with a word of SEQ opcode `o`: 0 nothing. -/
def FetchReq.pre (r : FetchReq) (w o : Nat) : Nat :=
  if o = 1 then loopPre r.snap r.addr w
  else if o = 2 then jumpPre r.snap w
  else if o = 3 ∨ o = 4 then (if r.snap.isEmpty then 0 else 0x0C)
  else 0

/-- The opcode of a word in the SEQ queue; a word of another queue steers fetch as a NOP does. -/
def seqOpcode (w : Nat) : Nat := if W.QUEUE w = 0 then W.OPCODE w else 0

/-- R234 to R237: what a word of SEQ opcode `o` does to fetch when it is inspected. -/
def Core.steer (k : Core) (r : FetchReq) (w pre o : Nat) : Core :=
  if o = 1 then (if pre = 0 ∧ W.REPEAT w = 0 then k.pushLoop r.addr w else k)
  else if o = 2 then { k.discard with fetchAddr := W.JUMP_TARGET w, checks := [⟨3, r.addr⟩] }
  else if o = 3 ∨ o = 4 then { k.discard with fetchOn := false, fetchAddr := (r.addr + 2) % 262144 }
  else k

theorem Core.discard_seq (k : Core) : k.discard.seq = k.seq ∧ k.discard.nextId = k.nextId := by
  unfold Core.discard
  split <;> exact ⟨rfl, rfl⟩

theorem Core.discard_inflight (k : Core) : k.discard.inflight = [] := by
  unfold Core.discard
  split
  case h_1 h => exact h
  case h_2 => rfl

theorem Core.pushLoop_seq (k : Core) (a w : Nat) : (k.pushLoop a w).seq = k.seq ∧ (k.pushLoop a w).nextId = k.nextId := by
  unfold Core.pushLoop
  extract_lets f tag keep
  split <;> exact ⟨rfl, rfl⟩

/-- What a word does to fetch leaves the words of the SEQ queue. -/
theorem Core.steer_seq (k : Core) (r : FetchReq) (w pre o : Nat) : (k.steer r w pre o).seq = k.seq ∧ (k.steer r w pre o).nextId = k.nextId := by
  unfold Core.steer
  split
  · split
    · exact k.pushLoop_seq ..
    · exact ⟨rfl, rfl⟩
  · split
    · exact k.discard_seq
    · split
      · exact k.discard_seq
      · exact ⟨rfl, rfl⟩

/-- R613: a word that fails a check of its request is rejected under the LOOP or JUMP that named it. -/
theorem State.inspect_rejected {s : State} {c : Nat} {r : FetchReq} {ck : FetchCheck}
    (h : r.checks.find? (checkFails ((s.core c).fetched r)) = some ck) (q lc : Nat) :
    s.inspect q c lc r = s.reject q c 7 0 (if ck.kind = 3 then 2 else 1) ck.owner := by
  rw [State.inspect]
  simp only [h]

/-- R227, R234 to R237: what inspection does to a core with the word `w` of its oldest request. -/
def Core.inspected (k : Core) (r : FetchReq) (w lc : Nat) : Core :=
  (k.enter r w (r.pre w (seqOpcode w)) lc).steer r w (r.pre w (seqOpcode w)) (seqOpcode w)

/-- R227: a word that passes the checks of its request enters the SEQ queue and steers fetch. -/
theorem State.inspect_entered {s : State} {c : Nat} {r : FetchReq}
    (h : r.checks.find? (checkFails ((s.core c).fetched r)) = none) (q lc : Nat) :
    s.inspect q c lc r = s.modCore c fun k => k.inspected r ((s.core c).fetched r) lc := by
  rw [State.inspect]
  simp only [h]
  rfl

/-- R227: the word stands behind the others in the SEQ queue, with the next number. -/
theorem Core.inspected_seq (k : Core) (r : FetchReq) (w lc : Nat) :
    (k.inspected r w lc).seq = k.seq ++ [⟨k.nextId, w, 0, r.addr, lc + 1, 0, 0, [], r.pre w (seqOpcode w), 0, 0⟩]
      ∧ (k.inspected r w lc).nextId = k.nextId + 1 :=
  Core.steer_seq ..

/-- A word of another queue leaves the fetch as it was, but for the request it came by. -/
theorem Core.inspected_otherQueue (k : Core) (r : FetchReq) {w : Nat} (hq : W.QUEUE w ≠ 0) (lc : Nat) :
    k.inspected r w lc = k.enter r w (r.pre w 0) lc := by
  rw [Core.inspected, seqOpcode, if_neg hq]
  rfl

/-- R235: behind a JUMP the words requested are discarded, and fetch goes to its TARGET. -/
theorem Core.inspected_jump (k : Core) (r : FetchReq) {w : Nat} (hq : W.QUEUE w = 0) (ho : W.OPCODE w = 2) (lc : Nat) :
    (k.inspected r w lc).inflight = [] ∧ (k.inspected r w lc).fetchAddr = W.JUMP_TARGET w := by
  rw [Core.inspected, seqOpcode, if_pos hq, ho]
  exact ⟨Core.discard_inflight _, rfl⟩

theorem gives_fetchInspect {s : State} {c q lc : Nat} {r : FetchReq} {rest : List FetchReq} (hl : s.seqLive c = some (q, lc))
    (hi : (s.core c).inflight = r :: rest) (ha : r.arr ≤ lc) : Gives (.fetchInspect c) s (s.inspect q c lc r) := by
  show execFetchInspect c s = _
  simp only [execFetchInspect, hl, hi, ha, if_true]
  rfl

/-! ## Dispatch (R229, R231, R258) -/

section
variable {s : State} {c q lc : Nat} {e : QEntry}

theorem gives_dispatch (hl : s.seqLive c = some (q, lc)) (hh : s.seqHead c lc = some e) :
    Gives (.dispatch c) s (s.dispatch q c lc e) := by
  show execDispatch c s = _
  simp only [execDispatch, hl, hh]
  rfl

theorem State.dispatch_waits (h : (s.core c).extWait e = true ∨ (s.core c).queueFull e lc = true) : s.dispatch q c lc e = s :=
  if_pos (Bool.or_eq_true_iff.2 h)

theorem State.dispatch_ready (hx : (s.core c).extWait e = false) (hf : (s.core c).queueFull e lc = false) :
    s.dispatch q c lc e = if s.headReason q c e ≠ 0 then s.rejectHead q c e (s.headReason q c e)
      else if W.QUEUE e.lead = 0 then s else s.moveHead c lc e := by
  simp only [State.dispatch, hx, hf, Bool.or_self, Bool.false_eq_true, if_false]

end

/-- R258: the words that leave the SEQ queue behind a lead: the extension of a long word. -/
def Core.extOf (k : Core) (e : QEntry) : List QEntry := if isLong e.lead then (k.behind e).toList else []

/-- R229, R258: the entry that a dispatched word has in its queue: it may issue from the next cycle, a long word from the one after. -/
def Core.dispatched (k : Core) (e : QEntry) (lc : Nat) : QEntry :=
  { e with ext := ((k.extOf e).map (·.lead)).headD 0, avail := lc + (if isLong e.lead then 2 else 1), issued := 0, phase := 0, runs := [] }

/-- R229, R258: the SEQ queue without its head and the head's extension. -/
def Core.seqWithout (k : Core) (e : QEntry) : List QEntry := k.seq.filter fun y => !((e :: k.extOf e).map (·.id)).contains y.id

/-- R258: a long word holds the place of its extension in the SEQ queue, and the SEQ queue itself, for one cycle more. -/
def Core.leaveSeq (k : Core) (e : QEntry) (lc : Nat) : Core :=
  { k with
    seq := k.seqWithout e
    held := if isLong e.lead then k.held ++ [(0, lc + 1)] else k.held
    lastIssue := SMap.put 0 k.lastIssue 0 (lc + 1 + (if isLong e.lead then 1 else 0)) }

/-- R229, R258: a word that is dispatched leaves the SEQ queue and stands last in its own. -/
theorem State.moveHead_eq (s : State) (c lc : Nat) (e : QEntry) :
    s.moveHead c lc e = s.modCore c fun k =>
      (k.leaveSeq e lc).setQueue (W.QUEUE e.lead) ((k.leaveSeq e lc).queue (W.QUEUE e.lead) ++ [k.dispatched e lc]) := by
  refine congrArg (s.modCore c) (funext fun k => ?_)
  simp only [Core.leaveSeq, Core.seqWithout, Core.dispatched, Core.extOf]
  by_cases hlong : isLong e.lead = true
  · cases hx : k.behind e <;> simp [hlong, Nat.add_assoc]
  · simp [hlong]

section
variable (k : Core) {qc : Nat} (es : List QEntry) (h1 : 1 ≤ qc) (h4 : qc ≤ 4)
include h1 h4

/-- A queue other than SEQ is not changed with the SEQ queue. -/
theorem Core.queue_leaveSeq (e : QEntry) (lc : Nat) : (k.leaveSeq e lc).queue qc = k.queue qc := by
  match qc with
  | 1 | 2 | 3 | 4 => rfl

theorem Core.setQueue_seq : (k.setQueue qc es).seq = k.seq := by
  match qc with
  | 1 | 2 | 3 | 4 => rfl

end

/-! ## The statement -/

/-- Settles O11: a request, an inspected word and a dispatched word each change their core as the rules give, and a word that fails a check is
rejected. -/
theorem fetchAndDispatch : Obligations.FetchAndDispatch := by
  unfold Obligations.FetchAndDispatch
  refine ⟨fun c q lc s hl hf => ⟨gives_fetchRequest hl hf, ?request⟩,
    fun c q lc s r rest hl hi ha => ⟨gives_fetchInspect hl hi ha, fun ck hck => ?rejected, fun hck => ?entered⟩,
    fun c q lc s e hl hh => ⟨fun hw => ?waits, fun hx hf => ⟨fun hr => ?rejectedHead, fun hr hq => ?moved, fun hr h1 h4 => ?queued⟩⟩⟩
  case request =>
    refine (gives_fetchRequest hl hf).completes rfl rfl ?_
    rw [State.core_fetch]
    exact ⟨List.map_append, rfl, rfl, rfl, rfl, fun d hd => s.core_fetch_ne lc hd, rfl⟩
  case rejected => exact State.inspect_rejected hck q lc ▸ gives_fetchInspect hl hi ha
  case entered =>
    have hgives := State.inspect_entered hck q lc ▸ gives_fetchInspect hl hi ha
    obtain ⟨hseq, hid⟩ := Core.inspected_seq (s.core c) r ((s.core c).fetched r) lc
    refine hgives.completes rfl rfl ?_
    rw [State.core_modCore]
    refine ⟨by rw [hseq]; exact List.map_append, hid, fun hq => ?_, fun hq ho => Core.inspected_jump _ r hq ho lc,
      fun d hd => State.core_modCore_ne _ _ hd, rfl⟩
    rw [Core.inspected_otherQueue _ r hq]
    exact ⟨congrArg List.tail hi, rfl, rfl⟩
  case waits =>
    have hgives := gives_dispatch hl hh
    rwa [State.dispatch_waits hw] at hgives
  all_goals
    have hgives := gives_dispatch hl hh
    rw [State.dispatch_ready hx hf] at hgives
  case rejectedHead => rwa [if_pos hr] at hgives
  case moved => rwa [if_neg (not_not.2 hr), if_neg hq] at hgives
  case queued =>
    rw [if_neg (not_not.2 hr), if_neg (by omega), State.moveHead_eq] at hgives
    refine hgives.completes rfl rfl ?_
    rw [State.core_modCore, Core.queue_setQueue, Core.queue_leaveSeq _ h1 h4, Core.setQueue_seq _ _ h1 h4]
    exact ⟨rfl, rfl, fun d hd => State.core_modCore_ne _ _ hd, rfl⟩

end Sys2Proof.Machine
end

section
/-! Late arrivals (08_control_words.md R278, R279; 09_beat_determinism.md R303, R305): a freeze for the first late arrival of an instant and
what it records, and a logical cycle that does not begin because words find no room in their send buffer. -/

namespace Sys2Proof.Machine

/-! ## What a freeze leaves alone -/

/-- Two states differ at most in one partition, of which the logical cycle stands, in registers and in the notes of hardware changes. -/
structure State.sameButPart (q : Nat) (s t : State) : Prop where
  lc : (t.part q).lc = (s.part q).lc
  others : ∀ p, p ≠ q → t.part p = s.part p
  frame : t = { s with parts := t.parts, regs := t.regs, hw := t.hw }

theorem State.sameButPart_refl (q : Nat) (s : State) : s.sameButPart q s := ⟨rfl, fun _ _ => rfl, rfl⟩

theorem State.sameButPart.trans {q : Nat} {s t u : State} (h : s.sameButPart q t) (k : t.sameButPart q u) : s.sameButPart q u where
  lc := k.lc.trans h.lc
  others p hp := (k.others p hp).trans (h.others p hp)
  frame := by
    have hframe := k.frame
    rw [h.frame] at hframe
    exact hframe

theorem State.sameButPart.pending {q : Nat} {s t : State} (h : s.sameButPart q t) : t.pending = s.pending := by rw [h.frame]
theorem State.sameButPart.id {q : Nat} {s t : State} (h : s.sameButPart q t) : t.id = s.id := by rw [h.frame]

theorem State.sameButPart_ite {q : Nat} (p : Prop) [Decidable p] {s t u : State} (ht : s.sameButPart q t) (hu : s.sameButPart q u) :
    s.sameButPart q (if p then t else u) := by
  split
  · exact ht
  · exact hu

theorem State.sameButPart_setPart {q : Nat} {s : State} {p : Part} (h : p.lc = (s.part q).lc) : s.sameButPart q (s.setPart q p) where
  lc := by rw [State.part_setPart, h]
  others _ hp := State.part_setPart_ne _ _ hp
  frame := rfl

theorem State.sameButPart_setFld {f : Fld} (h : psReg f.reg = none) (q : Nat) (s : State) (i v : Nat) :
    s.sameButPart q (s.setFld f i v) := by
  rw [State.setFld, State.setReg_plain h]
  exact ⟨rfl, fun _ _ => rfl, rfl⟩

theorem State.sameButPart_addFld {f : Fld} (h : psReg f.reg = none) (q : Nat) (s : State) (i k : Nat) :
    s.sameButPart q (s.addFld f i k) := by
  rw [State.addFld_form h]
  exact ⟨rfl, fun _ _ => rfl, rfl⟩

theorem State.sameButPart_recordFreeze (s : State) (q cause core ch : Nat) (again : Bool) :
    s.sameButPart q (s.recordFreeze q cause core ch again) := by
  unfold State.recordFreeze
  extract_lets was u
  have hu : s.sameButPart q u :=
    State.sameButPart_ite _ (s.sameButPart_refl q) ((State.sameButPart_setFld rfl ..).trans (State.sameButPart_setFld rfl ..))
  exact State.sameButPart_ite _ hu (hu.trans (State.sameButPart_setFld rfl ..))

theorem State.sameButPart_freeze (s : State) (q cause core ch : Nat) : s.sameButPart q (s.freeze q cause core ch) := by
  unfold State.freeze
  extract_lets p again u v
  have hu : s.sameButPart q u := State.sameButPart_setPart rfl
  have hv : s.sameButPart q v := hu.trans (State.sameButPart_recordFreeze ..)
  refine State.sameButPart_ite _ (s.sameButPart_refl q) (State.sameButPart_ite _ hv ?_)
  exact hv.trans ((State.sameButPart_addFld rfl ..).trans (State.sameButPart_setFld rfl ..))

theorem State.sameButPart_freezeFor (s : State) (q : Nat) (x : LateItem) : s.sameButPart q (s.freezeFor q x) :=
  State.sameButPart.trans (t := s.modPart q fun p => { p with frozen := false }) (State.sameButPart_setPart rfl)
    (State.sameButPart_freeze ..)

/-! ## A frozen partition -/

@[simp] theorem State.recordFreeze_parts (s : State) (q cause core ch : Nat) (again : Bool) :
    (s.recordFreeze q cause core ch again).parts = s.parts := by
  simp only [State.recordFreeze, apply_ite State.parts, State.setFld_parts, ite_self]

/-- R303: a partition that meets a late arrival is frozen. -/
theorem State.frozen_freeze (s : State) (q cause core ch : Nat) : ((s.freeze q cause core ch).part q).frozen = true := by
  unfold State.freeze
  extract_lets p again u v
  have hv : (v.part q).frozen = true := by rw [State.part_of_parts (State.recordFreeze_parts ..), State.part_setPart]
  split
  case isTrue h => exact h
  case isFalse =>
    split
    · exact hv
    · rw [State.part_of_parts (State.setFld_parts ..), State.part_of_parts (State.addFld_parts ..), hv]

theorem State.frozen_freezeFor (s : State) (q : Nat) (x : LateItem) : ((s.freezeFor q x).part q).frozen = true :=
  State.frozen_freeze ..

/-! ## The first late arrival of an instant -/

theorem Medium.cause_lt (m : Medium) : m.cause < 2 ^ F.TIME_FRZLAST_CAUSE.width := by cases m <;> decide

/-- The freezes whose record names no core, causes 5 and 6, are met as a beat starts. -/
theorem Medium.cause_not_atBeatStart (m : Medium) : ¬(m.cause = 5 ∨ m.cause = 6) := by cases m <;> decide

/-- A count in TIME_FRZ leaves the fields of TIME_FRZLAST. -/
theorem State.fld_addFrzCount {f : Fld} {q : Nat} (hq : q < 8) (hr : f.reg = .TIME_FRZLAST) (s : State) (k : Nat) :
    (s.addFld F.TIME_FRZ_COUNT q k).fld f q = s.fld f q := by
  rw [State.addFld, State.fld_note, State.fld_setFld_ne rfl _ _ (by omega) (by omega) (.inl (by rw [hr]; decide))]

/-- A write of a field of TIME_FRZLAST leaves the count of TIME_FRZ. -/
theorem State.frzCount_setFrzlast {f : Fld} {q : Nat} (hq : q < 8) (hr : f.reg = .TIME_FRZLAST) (s : State) (v : Nat) :
    (s.setFld f q v).fld F.TIME_FRZ_COUNT q = s.fld F.TIME_FRZ_COUNT q :=
  State.fld_setFld_ne (by rw [hr]; rfl) _ _ (by omega) (by omega) (.inl (by rw [hr]; decide))

section
variable {s : State} {q : Nat} (cause core ch : Nat) (hf : (s.part q).frozen = false) (hn : (s.part q).frzFrom ≠ some s.now)
include hf hn

/-- R305: the first freeze of an instant is counted, and TIME_FRZLAST shows its cause, its channel, its core and its beat. -/
theorem State.freeze_first : ∃ p, s.freeze q cause core ch =
    (((((s.setPart q p).setFld F.TIME_FRZLAST_CAUSE q cause).setFld F.TIME_FRZLAST_CH q (if 1 ≤ cause ∧ cause ≤ 3 then ch else 0)).setFld
      F.TIME_FRZLAST_CORE q (if cause = 5 ∨ cause = 6 then 0 else core)).addFld F.TIME_FRZ_COUNT q 1).setFld
      F.TIME_FRZLAST_BEAT q (s.part q).beat := by
  have hagain : ((s.part q).frzFrom == some s.now) = false := beq_false_of_ne hn
  simp only [State.freeze, State.recordFreeze, hf, hagain, Bool.false_eq_true, Bool.false_and, if_false]
  exact ⟨_, rfl⟩

theorem State.fld_cause_freeze_first (hq : q < 8) (hc : cause < 2 ^ F.TIME_FRZLAST_CAUSE.width) :
    (s.freeze q cause core ch).fld F.TIME_FRZLAST_CAUSE q = cause := by
  obtain ⟨p, hp⟩ := State.freeze_first cause core ch hf hn
  rw [hp, State.fld_setFld_apart (f := F.TIME_FRZLAST_BEAT) (g := F.TIME_FRZLAST_CAUSE) rfl rfl rfl rfl rfl, State.fld_addFrzCount hq rfl,
    State.fld_setFld_apart (f := F.TIME_FRZLAST_CORE) (g := F.TIME_FRZLAST_CAUSE) rfl rfl rfl rfl rfl,
    State.fld_setFld_apart (f := F.TIME_FRZLAST_CH) (g := F.TIME_FRZLAST_CAUSE) rfl rfl rfl rfl rfl, State.fld_setFld rfl rfl,
    Nat.mod_eq_of_lt hc]

theorem State.fld_core_freeze_first (hq : q < 8) (hc : ¬(cause = 5 ∨ cause = 6)) (hcore : core < 512) :
    (s.freeze q cause core ch).fld F.TIME_FRZLAST_CORE q = core := by
  obtain ⟨p, hp⟩ := State.freeze_first cause core ch hf hn
  rw [hp, State.fld_setFld_apart (f := F.TIME_FRZLAST_BEAT) (g := F.TIME_FRZLAST_CORE) rfl rfl rfl rfl rfl, State.fld_addFrzCount hq rfl,
    State.fld_setFld rfl rfl, if_neg hc]
  exact Nat.mod_eq_of_lt hcore

theorem State.fld_count_freeze_first (hq : q < 8) :
    (s.freeze q cause core ch).fld F.TIME_FRZ_COUNT q = min (2 ^ F.TIME_FRZ_COUNT.width - 1) (s.fld F.TIME_FRZ_COUNT q + 1) := by
  obtain ⟨p, hp⟩ := State.freeze_first cause core ch hf hn
  rw [hp, State.frzCount_setFrzlast hq rfl, State.fld_addFld rfl rfl, State.frzCount_setFrzlast hq rfl, State.frzCount_setFrzlast hq rfl,
    State.frzCount_setFrzlast hq rfl]
  rfl

end

/-! ## A RECV without its bytes (R278) -/

theorem State.lt_of_partOf {s : State} {cl q : Nat} (h : s.partOf cl = some q) : q < 8 :=
  List.mem_range.1 (List.mem_of_find?_eq_some h)

theorem Part.frozen_of_live {p : Part} (h : p.live = true) : p.frozen = false := by
  simp only [Part.live, Bool.and_eq_true, Bool.not_eq_true'] at h
  obtain ⟨⟨-, hfrozen⟩, -⟩ := h
  exact hfrozen

/-- R278: a RECV that issues with too few bytes in its channel freezes the partition. -/
theorem gives_recv_short {c : Nat} {s : State} {i : Issue} (hn : s.frozenNow c = none) (h : s.issueOp c 4 0x41 = some i)
    (hb : (s.chan c (W.RECV_CH i.e.lead)).bytes.length < recvNeed i.e) :
    Gives (.recv c) s (s.awaitBytes i.q c (W.RECV_CH i.e.lead)) := by
  have hrun : s.recvRun i.s i.q c i.lc i.e = s.awaitBytes i.q c (W.RECV_CH i.e.lead) := if_pos hb
  rw [← hrun, ← State.recvRow_of_issueOp h]
  exact gives_recv hn

/-! ## A cycle that does not begin (R279, R305) -/

/-- R279: words that find no room in a send buffer are among the late arrivals of the cycle. -/
theorem State.lateItems_ne_nil {s : State} {q cl lc : Nat} (hcl : cl ∈ s.partClusters q) (h : s.sendLate cl lc ≠ []) :
    s.lateItems q lc ≠ [] := by
  obtain ⟨c, hc⟩ := List.exists_mem_of_ne_nil _ h
  exact List.ne_nil_of_mem (List.mem_append_right _ (List.mem_flatMap.2 ⟨cl, hcl, List.mem_map_of_mem hc⟩))

/-- R305: a cycle with late arrivals does not begin; the partition freezes as the cycle before left it. -/
theorem State.beginCycle_late {s : State} {q lc : Nat} {x : LateItem} {l : List LateItem}
    (h : (s.retireAll q lc).lateItems q lc = x :: l) : s.beginCycle q lc = l.foldl (fun u y => u.freezeFor q y) (s.freezeFor q x) := by
  simp only [State.beginCycle, h, List.foldl_cons]

theorem State.frozen_beginCycle {s : State} {q lc : Nat} (h : (s.retireAll q lc).lateItems q lc ≠ []) :
    ((s.beginCycle q lc).part q).frozen = true := by
  obtain ⟨x, l, hl⟩ := List.exists_cons_of_ne_nil h
  rw [State.beginCycle_late hl]
  exact foldl_keeps (fun u : State => (u.part q).frozen = true) _ (fun u y _ => u.frozen_freezeFor q y) l _ (s.frozen_freezeFor q x)

theorem State.sameButPart_beginCycle {s : State} {q lc : Nat} (h : (s.retireAll q lc).lateItems q lc ≠ []) :
    s.sameButPart q (s.beginCycle q lc) := by
  obtain ⟨x, l, hl⟩ := List.exists_cons_of_ne_nil h
  rw [State.beginCycle_late hl]
  exact foldl_keeps (fun u : State => s.sameButPart q u) _ (fun u y hu => hu.trans (u.sameButPart_freezeFor q y)) l _
    (s.sameButPart_freezeFor q x)

/-- R279: the one late arrival of a cycle, a core whose words find no room, stands in TIME_FRZLAST. -/
theorem State.frzlast_beginCycle {s : State} {q lc c : Nat} (hq : q < 8) (hc : c < 512)
    (h : (s.retireAll q lc).lateItems q lc = [⟨c, 4, 0⟩]) (hn : (s.part q).frzFrom ≠ some s.now) :
    (s.beginCycle q lc).fld F.TIME_FRZLAST_CAUSE q = 4 ∧ (s.beginCycle q lc).fld F.TIME_FRZLAST_CORE q = c := by
  rw [State.beginCycle_late h, List.foldl_nil, State.freezeFor]
  have hpart := s.part_modPart q fun p => { p with frozen := false }
  have hf : ((s.modPart q fun p => { p with frozen := false }).part q).frozen = false := by rw [hpart]
  have hn' : ((s.modPart q fun p => { p with frozen := false }).part q).frzFrom ≠ some s.now := by rwa [hpart]
  exact ⟨State.fld_cause_freeze_first 4 c 0 hf hn' hq (by decide), State.fld_core_freeze_first 4 c 0 hf hn' hq (by decide) hc⟩

/-! ## The statement -/

/-- Settles O7: a RECV without its bytes and a cycle without room in a send buffer both end in `State.freeze`, from the state before them. -/
theorem lateWordsFreeze : Obligations.LateWordsFreeze := by
  unfold Obligations.LateWordsFreeze
  refine ⟨fun c s i hnow hc hfrom h hb => ?recv, fun q lc s hq => ⟨fun cl hcl hlate => ?noRoom, fun c hc hone hfrom => ?record⟩⟩
  case recv =>
    obtain ⟨hq, -⟩ := State.issueOp_some h
    obtain ⟨hpart, hlive, -⟩ := State.liveQ_some hq
    have hq8 := State.lt_of_partOf hpart
    have hf := Part.frozen_of_live hlive
    have hsame := s.sameButPart_freeze i.q (s.chan c (W.RECV_CH i.e.lead)).medium.cause c (W.RECV_CH i.e.lead)
    exact (gives_recv_short hnow h hb).completes hsame.pending hsame.id
      ⟨State.frozen_freeze .., State.fld_cause_freeze_first _ _ _ hf hfrom hq8 (Medium.cause_lt _),
        State.fld_core_freeze_first _ _ _ hf hfrom hq8 (Medium.cause_not_atBeatStart _) hc, State.fld_count_freeze_first _ _ _ hf hfrom hq8,
        hsame.others, hsame.frame⟩
  case noRoom =>
    have hitems := State.lateItems_ne_nil hcl hlate
    have hsame := State.sameButPart_beginCycle hitems
    exact ⟨State.frozen_beginCycle hitems, hsame.lc, hsame.others, hsame.frame⟩
  case record => exact State.frzlast_beginCycle hq hc hone hfrom

end Sys2Proof.Machine
end

section
/-! The package mesh and the drain of send buffers (08_control_words.md R277, R609; 10_denian_links.md R326, R339, R357): what a group that
lands leaves in its channel, and where the next flit of a send buffer's message goes. -/

namespace Sys2Proof.Machine

/-! ## A group of the package mesh that lands (R277, R609) -/

theorem gives_landingArrival {cl i : Nat} {s : State} (h : s.meshReady cl = some i) : Gives (.landingArrival cl) s (s.meshArrive cl i) := by
  show execLandingArrival cl s = _
  simp only [execLandingArrival, h]
  rfl

/-- R609: a group that may land has travelled, and its channel has room. -/
theorem State.meshReady_some {s : State} {cl i : Nat} {g : MeshGrp} (h : s.meshReady cl = some i) (hg : (s.cluster cl).mesh[i]? = some g) :
    g.left = 0 ∧ (s.chan g.dcore g.ch).bytes.length + g.bytes.length ≤ chanSize := by
  have hready := List.find?_some h
  simp only [hg, Bool.and_eq_true, beq_iff_eq, decide_eq_true_eq] at hready
  obtain ⟨⟨⟨hleft, -⟩, -⟩, hroom⟩ := hready
  exact ⟨hleft, hroom⟩

theorem State.meshArrive_of_getElem? {s : State} {cl i : Nat} {g : MeshGrp} (hg : (s.cluster cl).mesh[i]? = some g) :
    s.meshArrive cl i
      = (s.modCluster cl fun k => { k with mesh := k.mesh.eraseIdx i }).landBytes g.dcore g.ch g.bytes .mesh g.sig := by
  rw [State.meshArrive, hg]

theorem State.chan_setChan (s : State) (c ch : Nat) (v : Channel) : (s.setChan c ch v).chan c ch = v := by
  rw [State.chan, State.setChan, State.core_modCore, SMap.get_put_self]

/-- Bytes that land stand behind those of the channel. -/
theorem State.bytes_landBytes (s : State) (c ch : Nat) (bs : List Byte) (m : Medium) (sig : Option (Nat × Nat)) :
    ((s.landBytes c ch bs m sig).chan c ch).bytes = (s.chan c ch).bytes ++ bs :=
  congrArg Channel.bytes (State.chan_setChan ..)

theorem State.medium_landBytes (s : State) (c ch : Nat) (bs : List Byte) (m : Medium) (sig : Option (Nat × Nat)) :
    ((s.landBytes c ch bs m sig).chan c ch).medium = m :=
  congrArg Channel.medium (State.chan_setChan ..)

theorem State.cluster_landBytes (s : State) (c ch : Nat) (bs : List Byte) (m : Medium) (sig : Option (Nat × Nat)) (k : Nat) :
    (s.landBytes c ch bs m sig).cluster k = s.cluster k := rfl

/-! ## A flit of a send buffer (R326, R339, R357) -/

theorem gives_sendBufferDrain {cl i : Nat} {s : State} (h : s.drainNext cl = some i) :
    Gives (.sendBufferDrain cl) s (s.drainFlit cl i) := by
  show execSendBufferDrain cl s = _
  simp only [execSendBufferDrain, h]
  rfl

/-- A message whose flit has left: dropped from then on, or not. -/
def SendMsg.drainedBy (m : SendMsg) (gone : Bool) : SendMsg :=
  { m with bytes := m.bytes.drop 64, drained := m.drained + (m.bytes.take 64).length, drop := gone }

/-- Message `i` of a send buffer after a flit of it has left: it leaves with its last. -/
def Cluster.sendLeft (k : Cluster) (i : Nat) (m : SendMsg) (gone : Bool) : Cluster :=
  { k with send := if m.drained + (m.bytes.take 64).length = m.len then k.send.eraseIdx i else k.send.set i (m.drainedBy gone) }

section
variable {s : State} {cl i : Nat} {m : SendMsg} (hm : (s.cluster cl).send[i]? = some m)
include hm

/-- R339: a flit of a message that its port takes goes to the port's outbound queue. -/
theorem State.drainFlit_taken (hd : m.drop = false) (hs : s.fld F.PORT_STAT_STATE m.port = 3)
    (ho : m.drained = 0 ∨ (s.port m.port).isOpen m = true) :
    s.drainFlit cl i = (s.modCluster cl fun k => k.sendLeft i m false).modPort m.port fun p => p.takeFlit m (m.bytes.take 64) := by
  have hbad : (m.drained == 0 && s.fld F.PORT_STAT_STATE m.port != 3) = false := by simp [hs]
  have hclosed : (decide (m.drained > 0) && !(s.port m.port).isOpen m) = false := by
    rcases ho with h | h <;> simp [h]
  simp only [State.drainFlit, hm, hd, hbad, hclosed]
  rfl

/-- R357, R612: a flit of a message that its port discards enters no queue. -/
theorem State.ports_drainFlit_dropped (hd : m.drop = true) : (s.drainFlit cl i).ports = s.ports := by
  simp only [State.drainFlit, hm, hd, Bool.true_or, if_true]
  split
  · rw [State.raise_ports, State.addFld_ports, State.modCluster_ports]
  · rw [State.modCluster_ports]

end

theorem Cluster.send_sendLeft {k : Cluster} {i : Nat} {m : SendMsg} {gone : Bool} (h : m.drained + (m.bytes.take 64).length = m.len) :
    (k.sendLeft i m gone).send = k.send.eraseIdx i :=
  if_pos h

theorem State.cluster_modPort (s : State) (n : Nat) (f : Port → Port) (k : Nat) : (s.modPort n f).cluster k = s.cluster k := rfl

/-! ## The statement -/

/-- Settles O12: what lands goes by `State.landBytes`, and a flit that a port takes by `Port.takeFlit`. -/
theorem clusterLinks : Obligations.ClusterLinks := by
  unfold Obligations.ClusterLinks
  refine ⟨fun cl i s g hi hg => ⟨gives_landingArrival hi, ?lands⟩,
    fun cl i s m hi hm => ⟨gives_sendBufferDrain hi, fun hd hs ho => ?taken, fun hd => ?dropped⟩⟩
  case lands =>
    obtain ⟨hleft, hroom⟩ := State.meshReady_some hi hg
    have hgives := State.meshArrive_of_getElem? hg ▸ gives_landingArrival hi
    refine hgives.completes rfl rfl ⟨hleft, State.bytes_landBytes .., State.medium_landBytes .., ?_, ?_, rfl⟩
    · rw [State.bytes_landBytes, List.length_append]
      exact hroom
    · rw [State.cluster_landBytes, State.cluster_modCluster]
  case taken =>
    have hgives := State.drainFlit_taken hm hd hs ho ▸ gives_sendBufferDrain hi
    refine hgives.completes rfl rfl ⟨State.port_modPort .., fun n hn => State.port_modPort_ne _ _ hn, fun hlast => ?_, rfl⟩
    rw [State.cluster_modPort, State.cluster_modCluster, Cluster.send_sendLeft hlast]
  case dropped => exact ⟨_, gives_sendBufferDrain hi, State.ports_drainFlit_dropped hm hd⟩

end Sys2Proof.Machine
end

section
/-! What the writes of device memory leave alone (06_memories.md R189, R193, R206 to R212, R216, R608; 18_resets_faults_maintenance.md R563,
R572): they change memory and its marks, the tier-columns, registers, the notes of hardware changes and the occurrences, and the partitions,
the queue, the identity and every other component stay. -/

namespace Sys2Proof.Machine

/-- A step through a list leaves a component alone where each of its steps does. -/
theorem foldl_component {α β : Type} (π : State → β) {f : State → α → State} (hf : ∀ t a, π (f t a) = π t) (l : List α) (s : State) :
    π (l.foldl f s) = π s :=
  foldl_keeps (fun t => π t = π s) f (fun t a h => (hf t a).trans h) l s rfl

/-! ## The components a write of memory may change -/

/-- Two states differ at most in memory, in its error, scrub and poison marks, in the tier-columns, in registers, in the notes of hardware
changes and in the occurrences. -/
def State.sameButMemory (s t : State) : Prop :=
  t = { s with mem := t.mem, bad := t.bad, scrubs := t.scrubs, poison := t.poison, cols := t.cols, regs := t.regs, hw := t.hw, occ := t.occ }

theorem State.sameButMemory_refl (s : State) : s.sameButMemory s := rfl

theorem State.sameButMemory.trans {s t u : State} (h : s.sameButMemory t) (k : t.sameButMemory u) : s.sameButMemory u := by
  unfold State.sameButMemory at *
  rw [h] at k
  exact k

theorem State.sameButMemory.parts {s t : State} (h : s.sameButMemory t) : t.parts = s.parts := by rw [h]

theorem State.sameButLog.sameButMemory {s t : State} (h : s.sameButLog t) : s.sameButMemory t := by
  rw [h]
  rfl

theorem State.sameButMemory_ite (p : Prop) [Decidable p] {s t u : State} (ht : s.sameButMemory t) (hu : s.sameButMemory u) :
    s.sameButMemory (if p then t else u) :=
  iteInduction (motive := fun v => s.sameButMemory v) (fun _ => ht) fun _ => hu

theorem State.sameButMemory_foldl {α : Type} {f : State → α → State} (hf : ∀ (t : State) a, t.sameButMemory (f t a)) (l : List α) (s : State) :
    s.sameButMemory (l.foldl f s) :=
  foldl_keeps (fun t => s.sameButMemory t) f (fun t a h => h.trans (hf t a)) l s s.sameButMemory_refl

/-! ## Records of errors -/

theorem State.sameButLog_refl (s : State) : s.sameButLog s := rfl

theorem State.sameButLog_ite (p : Prop) [Decidable p] {s t u : State} (ht : s.sameButLog t) (hu : s.sameButLog u) :
    s.sameButLog (if p then t else u) :=
  iteInduction (motive := fun v => s.sameButLog v) (fun _ => ht) fun _ => hu

theorem State.sameButLog_poisonEvent (s : State) (w : Who) : s.sameButLog (s.poisonEvent w) := by
  cases w with
  | core c => exact (s.sameButLog_raise _).trans (State.sameButLog_addFld rfl ..)
  | thkt cl => exact s.sameButLog_raise _
  | other => exact s.sameButLog_raise _

theorem State.sameButLog_memLog (s : State) (c kind unit addr : Nat) : s.sameButLog (s.memLog c kind unit addr) :=
  State.sameButLog_ite _
    ((State.sameButLog_setFld rfl ..).trans ((State.sameButLog_setFld rfl ..).trans (State.sameButLog_setFld rfl ..)))
    (State.sameButLog_addFld rfl ..)

theorem State.sameButLog_health {f : Fld} (h : psReg f.reg = none) (s : State) (ci : Nat) : s.sameButLog (s.health f ci) :=
  State.sameButLog_ite _ ((State.sameButLog_addFld h ..).trans (State.sameButLog_raise ..)) s.sameButLog_refl

theorem State.sameButLog_failBank (s : State) (ci bank : Nat) : s.sameButLog (s.failBank ci bank) :=
  (State.sameButLog_setFld rfl ..).trans ((State.sameButLog_setFld rfl ..).trans (State.sameButLog_raise ..))

theorem State.sameButLog_scrubNext (s : State) (tc : Nat) : s.sameButLog (s.scrubNext tc) :=
  State.sameButLog_ite _ ((State.sameButLog_setFld rfl ..).trans (State.sameButLog_addFld rfl ..)) (State.sameButLog_setFld rfl ..)

/-! ## Reads and writes of bulk lines and of core stores -/

theorem State.sameButMemory_setCol (s : State) (tc : Nat) (v : TierCol) : s.sameButMemory (s.setCol tc v) := rfl

theorem State.sameButMemory_wrBytes (s : State) (a : Nat) (bs : List Byte) : s.sameButMemory (s.wrBytes a bs) := by
  induction bs generalizing s a with
  | nil => exact s.sameButMemory_refl
  | cons b r ih => exact ih (s.wrByte a b) (a + 1)

theorem State.sameButMemory_noteBadPiece (s : State) (tc line bank : Nat) : s.sameButMemory (s.noteBadPiece tc line bank) := by
  unfold State.noteBadPiece
  extract_lets c bl noted
  have hnoted : s.sameButMemory noted := State.sameButMemory_setCol ..
  exact State.sameButMemory_ite _ s.sameButMemory_refl
    (State.sameButMemory_ite _ (hnoted.trans (State.sameButLog_failBank ..).sameButMemory) hnoted)

theorem State.sameButMemory_readLine (s : State) (a : Nat) : s.sameButMemory (s.readLine a).1 := by
  unfold State.readLine
  extract_lets line tc ci failed fb live ce ue counted noted
  have hcounted : s.sameButMemory counted :=
    State.sameButMemory_ite _ s.sameButMemory_refl (State.sameButLog_addFld rfl ..).sameButMemory
  have hnoted : s.sameButMemory noted := hcounted.trans (State.sameButMemory_foldl (fun _ _ => State.sameButMemory_noteBadPiece ..) ..)
  split
  · exact hnoted.trans (State.sameButLog_health rfl ..).sameButMemory
  · split
    · exact hnoted.trans (State.sameButLog_health rfl ..).sameButMemory
    · exact hnoted

theorem State.sameButMemory_dropBack (s : State) (line : Nat) : s.sameButMemory (s.dropBack line) :=
  State.sameButMemory_ite _ ((State.sameButMemory_setCol ..).trans (State.sameButLog_scrubNext ..).sameButMemory) s.sameButMemory_refl

theorem State.sameButMemory_writeCsWord (s : State) (who : Who) (a : Nat) (bs : List Byte) :
    s.sameButMemory (s.writeCsWord who a bs).1 := by
  unfold State.writeCsWord
  extract_lets n us part ue ce psn counted warned logged merged cleared free
  have hcounted : s.sameButMemory counted :=
    State.sameButMemory_ite _ s.sameButMemory_refl (State.sameButLog_addFld rfl ..).sameButMemory
  have hwarned : s.sameButMemory warned :=
    State.sameButMemory_ite _ (hcounted.trans (State.sameButLog_poisonEvent ..).sameButMemory) hcounted
  have hlogged : s.sameButMemory logged :=
    State.sameButMemory_ite _ (hwarned.trans (State.sameButLog_memLog ..).sameButMemory) hwarned
  have hmerged : logged.sameButMemory merged := State.sameButMemory_foldl
    (fun t _ => State.sameButMemory_ite _ (State.sameButMemory_wrBytes ..) t.sameButMemory_refl) ..
  have hfree : merged.sameButMemory free := rfl
  exact hlogged.trans (hmerged.trans (hfree.trans (State.sameButMemory_wrBytes ..)))

theorem State.sameButMemory_writeBulk (s : State) (who : Who) (a : Nat) (bs : List Byte) :
    s.sameButMemory (s.writeBulk who a bs).1 := by
  unfold State.writeBulk
  extract_lets line whole psn r told filled dropped free
  have hr : s.sameButMemory r.1 := by
    simp only [r]
    split
    · exact s.sameButMemory_refl
    · exact State.sameButMemory_readLine ..
  have htold : s.sameButMemory told := State.sameButMemory_ite _ (hr.trans (State.sameButLog_poisonEvent ..).sameButMemory) hr
  have hfilled : s.sameButMemory filled := State.sameButMemory_ite _ (htold.trans (State.sameButMemory_wrBytes ..)) htold
  have hcleared : filled.sameButMemory (filled.clearBad (filled.linePieces line)) := rfl
  have hdropped : s.sameButMemory dropped := hfilled.trans (hcleared.trans (State.sameButMemory_dropBack ..))
  have hfree : dropped.sameButMemory free := rfl
  exact hdropped.trans (hfree.trans (State.sameButMemory_wrBytes ..))

theorem State.sameButMemory_writeMem (s : State) (who : Who) (a : Nat) (bs : List Byte) : s.sameButMemory (s.writeMem who a bs).1 := by
  unfold State.writeMem
  extract_lets cs
  refine foldl_keeps (fun (x : (State × Bool) × List Byte) => s.sameButMemory x.1.1) _ (fun x u hx => hx.trans ?_) _ _ s.sameButMemory_refl
  dsimp only
  split
  · exact State.sameButMemory_writeCsWord ..
  · exact State.sameButMemory_writeBulk ..

/-- R563, R572: the queued writes of RT0 that land as a job stops. -/
theorem State.sameButMemory_landLedger (s : State) (q : Nat) : s.sameButMemory (s.landLedger q) := by
  refine State.sameButMemory_foldl (fun t e => ?_) ..
  refine State.sameButMemory.trans (State.sameButMemory_foldl (fun u x => ?_) ..) (State.sameButMemory_setCol ..)
  split
  · exact State.sameButMemory_writeMem ..
  · exact u.sameButMemory_refl

end Sys2Proof.Machine
end

section
/-! The start of an awaited beat (09_beat_determinism.md R294, R303, R305): it begins, or the first late arrival freezes its partition. -/

namespace Sys2Proof.Machine

/-! ## The row -/

theorem exec_beatStart_unready {q : Nat} {s : State} (h : s.beatReady q = false) : exec (.beatStart q) s = .next s :=
  (if_neg (by simp [h]) : execBeatStart q s = done s s)

theorem gives_beatStart {q : Nat} {s : State} (hq : q < 8) (h : s.beatReady q = true) : Gives (.beatStart q) s (s.startBeat q) :=
  .of_done (if_pos ⟨hq, h⟩)

/-- R294: before its wall-grid instant a beat may not begin. -/
theorem State.beatReady_before {q : Nat} {s : State} (h : s.gtc < s.grid q (s.part q).beat) : s.beatReady q = false := by
  simp [State.beatReady, Nat.not_le.2 h]

theorem State.frozen_of_beatReady {q : Nat} {s : State} (h : s.beatReady q = true) : (s.part q).frozen = false := by
  simp only [State.beatReady, Bool.and_eq_true, Bool.not_eq_true'] at h
  obtain ⟨⟨⟨⟨⟨⟨-, hfrozen⟩, -⟩, -⟩, -⟩, -⟩, -⟩ := h
  exact hfrozen

/-! ## A beat whose start is late -/

/-- R305: what a start may meet late is its beat-start step, cause 5, or an announced request, cause 6. -/
theorem State.startLate_cause {q : Nat} {s : State} (h : s.startLate q ≠ 0) : s.startLate q = 5 ∨ s.startLate q = 6 := by
  unfold State.startLate at h ⊢
  split
  case isTrue => exact .inl rfl
  case isFalse hstep =>
    rw [if_neg hstep] at h
    split
    case isTrue => exact .inr rfl
    case isFalse hreq => exact absurd (if_neg hreq) h

/-- A freeze leaves the job's state and the cycle of its beat. -/
theorem State.freeze_keeps_beat (s : State) (q cause core ch : Nat) :
    ((s.freeze q cause core ch).part q).job = (s.part q).job ∧ ((s.freeze q cause core ch).part q).bc = (s.part q).bc := by
  unfold State.freeze
  extract_lets p again u v
  have hv : v.part q = u.part q := State.part_of_parts (State.recordFreeze_parts ..) q
  have hu : (u.part q).job = p.job ∧ (u.part q).bc = p.bc := by rw [State.part_setPart]; exact ⟨rfl, rfl⟩
  split
  case isTrue => exact ⟨rfl, rfl⟩
  case isFalse =>
    split
    · rw [hv]; exact hu
    · rw [State.part_of_parts (State.setFld_parts ..), State.part_of_parts (State.addFld_parts ..), hv]; exact hu

/-- The state in which a late start freezes: the job runs, in the first cycle of its beat. -/
def State.lateStart (s : State) (q : Nat) : State := s.modPart q fun p => { p with job := .run, gate := false, bc := 0 }

theorem State.startBeat_late {q : Nat} {s : State} (h : s.startLate q ≠ 0) : s.startBeat q = (s.lateStart q).freeze q (s.startLate q) 0 0 :=
  if_neg h

theorem State.sameButPart_lateStart (q : Nat) (s : State) : s.sameButPart q (s.lateStart q) := State.sameButPart_setPart rfl

theorem State.part_lateStart (q : Nat) (s : State) : (s.lateStart q).part q = { s.part q with job := .run, gate := false, bc := 0 } :=
  State.part_modPart ..

/-! ## The statement -/

/-- Settles O19: a late start is a freeze, and the partition of a beat that may begin is not frozen, so that freeze is its first. -/
theorem beatsBegin : Obligations.BeatsBegin := by
  unfold Obligations.BeatsBegin
  refine fun q s hq => ⟨fun hbefore => exec_beatStart_unready (State.beatReady_before hbefore),
    fun hready hnone => ?onTime, fun hready hlate hfrom => ?late⟩
  case onTime =>
    have hstart : s.startBeat q = s.beginBeat q := if_pos hnone
    exact hstart ▸ gives_beatStart hq hready
  case late =>
    have hcause := State.startLate_cause hlate
    have hwidth : s.startLate q < 2 ^ F.TIME_FRZLAST_CAUSE.width := by rcases hcause with h | h <;> rw [h] <;> decide
    have hpart := s.part_lateStart q
    have hf : ((s.lateStart q).part q).frozen = false := by rw [hpart]; exact State.frozen_of_beatReady hready
    have hn : ((s.lateStart q).part q).frzFrom ≠ some (s.lateStart q).now := by rw [hpart]; exact hfrom
    have hgives := State.startBeat_late hlate ▸ gives_beatStart hq hready
    have hsame := (s.sameButPart_lateStart q).trans ((s.lateStart q).sameButPart_freeze q (s.startLate q) 0 0)
    obtain ⟨hjob, hbc⟩ := (s.lateStart q).freeze_keeps_beat q (s.startLate q) 0 0
    rw [hpart] at hjob hbc
    exact hgives.completes hsame.pending hsame.id
      ⟨hjob, State.frozen_freeze .., hbc, hcause, State.fld_cause_freeze_first _ 0 0 hf hn hq hwidth, hsame.frame⟩

end Sys2Proof.Machine
end

section
/-! The end of a freeze and the lag of a job (09_beat_determinism.md R305, R310; 00_scope.md R12; 18_resets_faults_maintenance.md R563): what
a freeze leaves when it is over, the one LAG event, and the fault of a job above its fault limit. -/

namespace Sys2Proof.Machine

/-! ## The end of a freeze (R305) -/

theorem gives_freezeEnd {q : Nat} {s : State} (hj : (s.part q).job = .run) (hf : (s.part q).frozen = true) (he : s.atEdge q = true)
    (hk : (s.part q).thawOk = true) (ht : s.thawed q = true) : Gives (.freezeEnd q) s (s.thaw q) :=
  .of_done (if_pos ⟨beq_iff_eq.2 hj, hf, he, hk, ht⟩)

/-- A freeze lasts while an item is awaited, and to the cc edge after the last is present. -/
theorem exec_freezeEnd_lasts {q : Nat} {s : State} (h : (s.part q).thawOk = false ∨ s.thawed q = false) :
    exec (.freezeEnd q) s = .next s := by
  refine (if_neg ?_ : execFreezeEnd q s = done s s)
  rintro ⟨-, -, -, hok, hthawed⟩
  rcases h with h | h
  · rw [h] at hok; cases hok
  · rw [h] at hthawed; cases hthawed

theorem State.fld_modPart (s : State) (p : Nat) (g : Part → Part) (f : Fld) (i : Nat) : (s.modPart p g).fld f i = s.fld f i :=
  State.fld_congr rfl rfl rfl f i

theorem State.sameButPart_unfreeze (s : State) (q : Nat) : s.sameButPart q (s.unfreeze q) :=
  (State.sameButPart_addFld rfl ..).trans (State.sameButPart_setPart rfl)

theorem State.part_unfreeze (s : State) (q : Nat) :
    (s.unfreeze q).part q = { s.part q with frozen := false, frzRem := s.frzTime q % tu } := by
  rw [State.unfreeze, State.part_modPart, State.part_of_parts (State.addFld_parts ..)]

theorem State.frzTotal_unfreeze (s : State) (q : Nat) : (s.unfreeze q).fld F.TIME_FRZ_TOTAL q =
    min (2 ^ F.TIME_FRZ_TOTAL.width - 1) (s.fld F.TIME_FRZ_TOTAL q + s.frzTime q / tu) := by
  rw [State.unfreeze, State.fld_modPart, State.fld_addFld rfl rfl]

/-! ## The stop of a job (R563) -/

/-- R563: a fault with no logical cycle to end stops a live job at once. -/
theorem State.jobFault_stops {s : State} {q cause : Nat} (status core port : Nat) (hl : (s.part q).jobLive = true) (hc : 4 < cause) :
    s.jobFault q cause status core port = s.stopJob q (CycleFault.or ⟨cause, status, core, port, s.gtc⟩ (s.part q).fault) := by
  have hnot : ¬(((s.part q).job == .faulted) = true) := by
    intro h
    simp [Part.jobLive, beq_iff_eq.1 h] at hl
  simp only [State.jobFault]
  rw [if_neg hnot, if_pos hl, if_neg fun h => Nat.not_le.2 hc h.1]

/-- R563: the partition of a job that stops is FAULTED. -/
theorem State.job_stopJob (s : State) (q : Nat) (f : CycleFault) : ((s.stopJob q f).part q).job = .faulted := by
  unfold State.stopJob
  extract_lets thawed p faulted recorded lagged unsent drained stopped landed written
  have hparts : written.parts = faulted.parts := calc
    written.parts = landed.parts :=
      (State.sameButMemory_ite _ (State.sameButMemory_writeMem ..) landed.sameButMemory_refl).parts
    _ = stopped.parts := (State.sameButMemory_landLedger ..).parts
    _ = drained.parts := foldl_component State.parts (fun t c => State.modCore_parts t c _) ..
    _ = unsent.parts := foldl_component State.parts (fun t k => State.modCluster_parts t k _) ..
    _ = recorded.parts := by
      show lagged.parts = recorded.parts
      exact iteInduction (motive := fun t : State => t.parts = recorded.parts) (fun _ => State.setFld_parts ..) fun _ => rfl
    _ = faulted.parts := by simp only [recorded, State.setFld_parts]
  rw [State.part_of_parts (State.raise_parts ..), State.part_of_parts hparts, State.part_setPart]

/-- R563: the last that a stop raises is the partition's fault event. -/
theorem State.occ_stopJob (s : State) (q : Nat) (f : CycleFault) : (s.stopJob q f).occ.getLast? = some (960 + 6 * q + 1) :=
  List.getLast?_concat ..

/-! ## Lag (R310) -/

theorem gives_lagEvent {q : Nat} {s : State} (hl : (s.part q).jobLive = true) (ha : (s.part q).lagArm = true)
    (h : s.lagAbove q (s.fld F.TIME_BEAT_CFG_LAGLIM q) = true) :
    Gives (.lagEvent q) s ((s.modPart q fun p => { p with lagArm := false }).raise (960 + 6 * q)) :=
  .of_done (if_pos ⟨hl, ha, h⟩)

theorem exec_lagEvent_unarmed {q : Nat} {s : State} (h : (s.part q).lagArm = false) : exec (.lagEvent q) s = .next s :=
  (if_neg (by simp [h]) : execLagEvent q s = done s s)

/-- R310: the fault of a job whose lag is above the fault limit stops it at once. -/
theorem gives_lagFault {q : Nat} {s : State} (hl : (s.part q).jobLive = true)
    (h : s.lagAbove q (s.fld F.TIME_BEAT_CFG_FAULTLIM q) = true) :
    Gives (.lagFault q) s (s.stopJob q (CycleFault.or ⟨caLAG, stTIMEOUT, 0, 0, s.gtc⟩ (s.part q).fault)) :=
  State.jobFault_stops stTIMEOUT 0 0 hl (by decide : 4 < caLAG) ▸ .of_done (if_pos ⟨hl, h⟩)

/-! ## The statement -/

/-- Settles O20: a freeze that is over is `State.unfreeze` and then the cycle or the beat that froze; the LAG event disarms itself; the fault
of the lag is a stop of the job. -/
theorem freezesAndLag : Obligations.FreezesAndLag := by
  unfold Obligations.FreezesAndLag
  refine ⟨fun q s hjob hf hedge => ⟨fun hok hthawed => ?ends, exec_freezeEnd_lasts⟩, fun q s hq => ?finished,
    fun q s hq hl => ⟨fun harm habove => ?event, exec_lagEvent_unarmed, fun habove => ?fault⟩⟩
  case ends =>
    have hgives := gives_freezeEnd hjob hf hedge hok hthawed
    refine ⟨fun hw => ?cycle, fun hw => ?beat⟩
    case cycle =>
      have hthaw : s.thaw q = (s.unfreeze q).beginCycle q (s.part q).lc := if_neg (by simp [hw])
      exact hthaw ▸ hgives
    case beat =>
      have hthaw : s.thaw q = (s.unfreeze q).beginBeat q := if_pos hw
      exact hthaw ▸ hgives
  case finished =>
    have hsame := s.sameButPart_unfreeze q
    exact ⟨by rw [State.part_unfreeze], hsame.lc, by rw [State.part_unfreeze], s.frzTotal_unfreeze q, hsame.others, hsame.frame⟩
  case event =>
    refine (gives_lagEvent hl harm habove).completes rfl rfl ⟨rfl, ?_, ?_, rfl⟩ <;>
      rw [State.part_of_parts (State.raise_parts ..), State.part_modPart]
  case fault => exact ⟨_, gives_lagFault hl habove, State.job_stopJob .., State.occ_stopJob ..⟩

end Sys2Proof.Machine
end

section
/-! LAUNCH (09_beat_determinism.md R298, R299; 13_host_interfaces.md R443): a notice that fails a check, and what an accepted one sets. -/

namespace Sys2Proof.Machine

/-! ## The notice -/

/-- R298: a notice applies to an ARMED partition. -/
theorem State.noticePart_some {s : State} {jobid p : Nat} (h : s.noticePart jobid = some p) : p < 8 ∧ (s.part p).job = .armed := by
  have hp := List.find?_some h
  simp only [Bool.and_eq_true, beq_iff_eq] at hp
  exact ⟨List.mem_range.1 (List.mem_of_find?_eq_some h), hp.1⟩

theorem State.noticeStatus_lt (s : State) (p count mode k : Nat) : s.noticeStatus p count mode k < 2 ^ 8 := by
  unfold State.noticeStatus
  split_ifs <;> decide

section
variable {s : State} {q p : Nat} (hq : q < 8) (hp : s.noticePart (s.fld F.TIME_JOB_CFG_JOBID q) = some p)
include hq hp

/-- R298, R443: LAUNCH whose notice fails a check. -/
theorem gives_launch_refused {st : Nat} (spread : Bool)
    (hs : s.noticeStatus p (s.fld F.HQ_LAUNCHCNT_COUNT q) (s.fld F.TIME_JOB_CFG_MODE q) (s.fld F.TIME_BEAT_CFG_K q) = st)
    (hst : st ≠ stOK) :
    Gives (.launch q spread) s (((s.setFld F.TIME_JOB_STAT_LSTATUS p st).raise (960 + 6 * p + 3)).setFld F.HQ_JOB_STATUS q st) := by
  have hlaunch : s.launch q spread = ((s.setFld F.TIME_JOB_STAT_LSTATUS p st).raise (960 + 6 * p + 3)).setFld F.HQ_JOB_STATUS q st := by
    simp only [State.launch, State.notice, hp, hs, Option.some.injEq, hst, and_false, if_false]
  rw [← hlaunch]
  exact .of_done (exec_launch hq spread s)

/-- R298, R443: LAUNCH whose notice is accepted. -/
theorem gives_launch_accepted
    (hs : s.noticeStatus p (s.fld F.HQ_LAUNCHCNT_COUNT q) (s.fld F.TIME_JOB_CFG_MODE q) (s.fld F.TIME_BEAT_CFG_K q) = stOK) :
    Gives (.launch q false) s
      (((s.setFld F.TIME_JOB_STAT_LSTATUS p stOK).launchSet p (s.fld F.HQ_LAUNCHCNT_COUNT q)).launchWake.setFld F.HQ_JOB_STATUS q stOK) := by
  have hlaunch : s.launch q false =
      ((s.setFld F.TIME_JOB_STAT_LSTATUS p stOK).launchSet p (s.fld F.HQ_LAUNCHCNT_COUNT q)).launchWake.setFld F.HQ_JOB_STATUS q stOK := by
    simp only [State.launch, State.notice, hp, hs, Bool.false_eq_true, false_and, if_false, if_true]
  rw [← hlaunch]
  exact .of_done (exec_launch hq false s)

end

/-! ## What the operations of a launch leave alone -/

/-- What the operations of a launch on cores, clusters, tier-columns and registers leave alone: the partitions and memory, the queue and the
identity. -/
def State.launchFrame (s : State) : (SMap Part × SMap Byte) × List Instr × PartId := ((s.parts, s.mem), s.pending, s.id)

theorem State.launchFrame_of_eq {s t : State} (hp : t.parts = s.parts) (hm : t.mem = s.mem) (hq : t.pending = s.pending) (hi : t.id = s.id) :
    t.launchFrame = s.launchFrame := by
  rw [State.launchFrame, State.launchFrame, hp, hm, hq, hi]

theorem State.eq_of_launchFrame {s t : State} (h : t.launchFrame = s.launchFrame) :
    t.parts = s.parts ∧ t.mem = s.mem ∧ t.pending = s.pending ∧ t.id = s.id := by
  simpa only [State.launchFrame, Prod.mk.injEq, and_assoc] using h

@[simp] theorem State.launchFrame_setFld (s : State) (f : Fld) (i v : Nat) : (s.setFld f i v).launchFrame = s.launchFrame :=
  State.launchFrame_of_eq (State.setFld_parts ..) (State.setFld_mem ..) (State.setFld_pending ..) (State.setFld_id ..)

theorem State.launchFrame_modCols (s : State) (q : Nat) (f : TierCol → TierCol) : (s.modCols q f).launchFrame = s.launchFrame :=
  foldl_component State.launchFrame (fun _ _ =>
    State.launchFrame_of_eq (State.setCol_parts ..) (State.setCol_mem ..) (State.setCol_pending ..) (State.setCol_id ..)) ..

theorem State.launchFrame_foldl_clrReg (l : List RegName) (i : Nat) (s : State) :
    (l.foldl (fun t r => t.clrReg r i) s).launchFrame = s.launchFrame :=
  foldl_component State.launchFrame (fun _ _ =>
    State.launchFrame_of_eq (State.clrReg_parts ..) (State.clrReg_mem ..) (State.clrReg_pending ..) (State.clrReg_id ..)) ..

theorem State.launchFrame_launchCore (s : State) (c : Nat) : (s.launchCore c).launchFrame = s.launchFrame := by
  unfold State.launchCore
  extract_lets cleared
  have hcleared : cleared.launchFrame = s.launchFrame := State.launchFrame_foldl_clrReg launchCoreRegs c (s.clearBufMarks c)
  exact hcleared

theorem State.launchFrame_launchCluster (s : State) (cl : Nat) : (s.launchCluster cl).launchFrame = s.launchFrame :=
  State.launchFrame_of_eq rfl rfl rfl rfl

theorem State.launchFrame_startAct (s : State) (a : Act) : (s.startAct a).launchFrame = s.launchFrame := by
  rw [State.startAct_form s a]
  rfl

theorem State.launchServe_regs (s : State) (q : Nat) : (s.launchServe q).regs = s.regs := rfl

theorem State.launchFrame_launchServe (s : State) (q : Nat) : (s.launchServe q).launchFrame = s.launchFrame := rfl

/-- R485: the start of a wake. -/
theorem State.launchFrame_launchWake (s : State) : s.launchWake.launchFrame = s.launchFrame := by
  unfold State.launchWake
  split
  · exact (State.launchFrame_startAct ..).trans (State.launchFrame_setFld ..)
  · rfl

/-! ## What a launch sets (R299) -/

/-- A register returned to its default reads it, and one that reads its default still does when another is returned to its own. -/
theorem State.reg_clrReg_dflt {r : RegName} {i : Nat} (h : psReg r = none) (s : State) (r' : RegName) (hr : r = r' ∨ s.reg r i = r.dflt) :
    (s.clrReg r' i).reg r i = r.dflt := by
  rw [State.reg_plain h, State.clrReg, SMap.get_erase]
  split
  case isTrue => rfl
  case isFalse hne =>
    rcases hr with rfl | hs
    · exact absurd rfl hne
    · rwa [State.reg_plain h] at hs

theorem State.reg_foldl_clrReg {r : RegName} {i : Nat} (h : psReg r = none) {l : List RegName} (s : State)
    (hr : r ∈ l ∨ s.reg r i = r.dflt) : (l.foldl (fun t r' => t.clrReg r' i) s).reg r i = r.dflt := by
  induction l generalizing s with
  | nil => simpa using hr
  | cons r' l ih =>
    rcases hr with hmem | hs
    · rcases List.mem_cons.1 hmem with heq | hmem
      · exact ih _ (.inr (State.reg_clrReg_dflt h s r' (.inl heq)))
      · exact ih _ (.inl hmem)
    · exact ih _ (.inr (State.reg_clrReg_dflt h s r' (.inr hs)))

/-- R298, R299: a launched partition begins with beat 0 and keeps its clusters; memory, the queue and the identity stay. -/
theorem State.part_launchSet (s : State) (q count : Nat) :
    let t := s.launchSet q count
    ((t.part q).job = .launched ∧ (t.part q).beat = 0 ∧ (t.part q).lc = 0 ∧ (t.part q).mask = (s.part q).mask)
      ∧ t.mem = s.mem ∧ t.pending = s.pending ∧ t.id = s.id := by
  unfold State.launchSet
  extract_lets cored clustered served trimmed counted ledgered
  have h : ledgered.launchFrame = s.launchFrame := calc
    ledgered.launchFrame = trimmed.launchFrame := by simp only [ledgered, counted, State.launchFrame_setFld]
    _ = served.launchFrame := State.launchFrame_modCols ..
    _ = clustered.launchFrame := (State.launchFrame_launchServe ..).trans (State.launchFrame_foldl_clrReg ..)
    _ = cored.launchFrame := foldl_component State.launchFrame State.launchFrame_launchCluster ..
    _ = s.launchFrame := foldl_component State.launchFrame State.launchFrame_launchCore ..
  obtain ⟨hparts, hrest⟩ := State.eq_of_launchFrame h
  rw [State.part_modPart, State.part_of_parts hparts, State.modPart_mem, State.modPart_pending, State.modPart_id]
  exact ⟨⟨rfl, rfl, rfl, rfl⟩, hrest⟩

/-- A write of a field leaves the other registers, of the low indices that partitions and tokens have. -/
theorem State.fld_setFld_other {f g : Fld} {i j : Nat} (h : psReg f.reg = none) (hi : i < 9) (hj : j < 9) (hne : g.reg ≠ f.reg) (s : State)
    (v : Nat) : (s.setFld f i v).fld g j = s.fld g j :=
  State.fld_setFld_ne h _ _ (by omega) (by omega) (.inl hne)

theorem State.fld_modCols (s : State) (q : Nat) (g : TierCol → TierCol) (f : Fld) (i : Nat) : (s.modCols q g).fld f i = s.fld f i :=
  foldl_component (fun t => t.fld f i) (fun t tc => State.fld_congr (State.setCol_regs t tc _) rfl rfl f i) ..

/-- R299: a launch sets the launch count and clears the fault and the lag fault. -/
theorem State.fld_launchSet {q : Nat} (hq : q < 8) (s : State) (count : Nat) :
    (s.launchSet q count).fld F.TIME_LAUNCH_COUNT q = count % 2 ^ 64 ∧ (s.launchSet q count).fld F.TIME_FAULT_CAUSE q = 0
      ∧ (s.launchSet q count).fld F.TIME_JOB_STAT_LAGF q = 0 := by
  unfold State.launchSet
  extract_lets cored clustered served trimmed counted ledgered
  have hq9 : q < 9 := Nat.lt_succ_of_lt hq
  have hother {f g : Fld} (h : psReg f.reg = none) (hne : g.reg ≠ f.reg) := State.fld_setFld_other h hq9 hq9 hne
  have hcause : served.fld F.TIME_FAULT_CAUSE q = 0 := by
    have hreg := State.reg_foldl_clrReg (r := .TIME_FAULT) (i := q) rfl (l := launchPartRegs) clustered (.inl (by decide))
    exact (State.fld_congr (State.launchServe_regs ..) rfl rfl ..).trans (congrArg F.TIME_FAULT_CAUSE.get hreg)
  refine ⟨?_, ?_, ?_⟩
  · rw [State.fld_modPart, hother rfl (by decide), hother rfl (by decide), State.fld_setFld rfl rfl]
    rfl
  · rw [State.fld_modPart, hother rfl (by decide), hother rfl (by decide), hother rfl (by decide), State.fld_modCols, hcause]
  · rw [State.fld_modPart, hother rfl (by decide), State.fld_setFld rfl rfl]
    rfl

/-- The registers that the start of a wake leaves: those but PWR_STATE and ROOT_MAINT. -/
theorem State.fld_launchWake {g : Fld} {i : Nat} (hi : i < 9) (hs : g.reg ≠ .PWR_STATE) (hm : g.reg ≠ .ROOT_MAINT) (s : State) :
    s.launchWake.fld g i = s.fld g i := by
  have hother {f : Fld} {k : Nat} (h : psReg f.reg = none) (hk : k < 9) (hne : g.reg ≠ f.reg) := State.fld_setFld_other h hk hi hne
  unfold State.launchWake
  split
  case isFalse => rfl
  case isTrue =>
    unfold State.beginTrans State.startAct
    refine List.foldlRecOn (motive := fun t : State => t.fld g i = s.fld g i) _ _ ?begun fun t ht k hk => ?token
    case begun => exact (State.fld_congr rfl rfl rfl g i).trans (hother (f := F.PWR_STATE_BUSY) rfl (by decide) hs s 1)
    case token =>
      have hk : k < 9 := List.mem_range.1 (List.mem_filter.1 hk).1
      rw [hother rfl hk hm, hother rfl hk hm, hother rfl hk hm, ht]

/-! ## What LAUNCH leaves -/

theorem State.fld_raise (s : State) (n : Nat) (f : Fld) (i : Nat) : (s.raise n).fld f i = s.fld f i :=
  State.fld_congr rfl rfl rfl f i

/-- A refused LAUNCH: the status stands in two registers, and one event is raised. -/
theorem State.refusal_form {q p st : Nat} (hq : q < 8) (hp : p < 8) (hst : st < 2 ^ 8) (s : State) (n : Nat) :
    let t := ((s.setFld F.TIME_JOB_STAT_LSTATUS p st).raise n).setFld F.HQ_JOB_STATUS q st
    t.fld F.TIME_JOB_STAT_LSTATUS p = st ∧ t.fld F.HQ_JOB_STATUS q = st ∧ t.occ = s.occ ++ [n] ∧ t.parts = s.parts
      ∧ t = { s with regs := t.regs, occ := t.occ } := by
  refine ⟨?_, (State.fld_setFld rfl rfl ..).trans (Nat.mod_eq_of_lt hst), ?_⟩
  · rw [State.fld_setFld_other rfl (Nat.lt_succ_of_lt hq) (Nat.lt_succ_of_lt hp) (by decide), State.fld_raise]
    exact (State.fld_setFld rfl rfl ..).trans (Nat.mod_eq_of_lt hst)
  · simp only [State.setFld, State.setReg_plain (r := F.HQ_JOB_STATUS.reg) rfl, State.setReg_plain (r := F.TIME_JOB_STAT_LSTATUS.reg) rfl,
      State.raise, and_self]

/-- An accepted LAUNCH: what the notice has set stands when a wake has started and the status is written. -/
theorem State.acceptance_form {q p : Nat} (hq : q < 8) (hp : p < 8) (s : State) (count : Nat) :
    let t := ((s.setFld F.TIME_JOB_STAT_LSTATUS p stOK).launchSet p count).launchWake.setFld F.HQ_JOB_STATUS q stOK
    ((t.part p).job = .launched ∧ (t.part p).beat = 0 ∧ (t.part p).lc = 0 ∧ (t.part p).mask = (s.part p).mask)
      ∧ (t.mem = s.mem ∧ t.pending = s.pending ∧ t.id = s.id)
      ∧ t.fld F.TIME_LAUNCH_COUNT p = count % 2 ^ 64 ∧ t.fld F.HQ_JOB_STATUS q = stOK
      ∧ t.fld F.TIME_FAULT_CAUSE p = 0 ∧ t.fld F.TIME_JOB_STAT_LAGF p = 0 := by
  obtain ⟨hparts, hmem, hpending, hid⟩ := State.eq_of_launchFrame (s.launchFrame_setFld F.TIME_JOB_STAT_LSTATUS p stOK)
  obtain ⟨hpart, hkept⟩ := (s.setFld F.TIME_JOB_STAT_LSTATUS p stOK).part_launchSet p count
  obtain ⟨hcount, hcause, hlagf⟩ := (s.setFld F.TIME_JOB_STAT_LSTATUS p stOK).fld_launchSet hp count
  rw [State.part_of_parts hparts] at hpart
  rw [hmem, hpending, hid] at hkept
  generalize (s.setFld F.TIME_JOB_STAT_LSTATUS p stOK).launchSet p count = u at *
  intro t
  have hrest : t.launchFrame = u.launchFrame := (State.launchFrame_setFld ..).trans u.launchFrame_launchWake
  obtain ⟨htparts, htmem, htpending, htid⟩ := State.eq_of_launchFrame hrest
  have hfld {g : Fld} (hj : g.reg ≠ .HQ_JOB) (hw : g.reg ≠ .PWR_STATE) (hm : g.reg ≠ .ROOT_MAINT) : t.fld g p = u.fld g p :=
    (State.fld_setFld_other rfl (Nat.lt_succ_of_lt hq) (Nat.lt_succ_of_lt hp) hj ..).trans
      (State.fld_launchWake (Nat.lt_succ_of_lt hp) hw hm u)
  rw [State.part_of_parts htparts, htmem, htpending, htid]
  exact ⟨hpart, hkept, (hfld (by decide) (by decide) (by decide)).trans hcount, State.fld_setFld rfl rfl ..,
    (hfld (by decide) (by decide) (by decide)).trans hcause, (hfld (by decide) (by decide) (by decide)).trans hlagf⟩

/-! ## The statement -/

/-- Settles O23: a notice refused writes its status twice and raises one event; one accepted is `State.launchSet`, after which a wake and the
status of LAUNCH change other registers alone. -/
theorem launches : Obligations.Launches := by
  unfold Obligations.Launches
  refine ⟨?refused, fun q p s hq hp hs => ?accepted⟩
  case refused =>
    intro q p spread s hq hp count st hst
    obtain ⟨hp8, harmed⟩ := State.noticePart_some hp
    have hlt : st < 2 ^ 8 := State.noticeStatus_lt ..
    obtain ⟨hlstatus, hstatus, hocc, hparts, hframe⟩ := State.refusal_form hq hp8 hlt s (960 + 6 * p + 3)
    refine (gives_launch_refused hq hp spread rfl hst).completes ?_ ?_
      ⟨hlstatus, hstatus, hocc, (congrArg Part.job (State.part_of_parts hparts p)).trans harmed, hframe⟩
    · rw [State.setFld_pending, State.raise_pending, State.setFld_pending]
    · rw [State.setFld_id, State.raise_id, State.setFld_id]
  case accepted =>
    obtain ⟨hp8, -⟩ := State.noticePart_some hp
    obtain ⟨⟨hjob, hbeat, hlc, hmask⟩, ⟨hmem, hpending, hid⟩, hcount, hstatus, hcause, hlagf⟩ :=
      State.acceptance_form hq hp8 s (s.fld F.HQ_LAUNCHCNT_COUNT q)
    have hlt : s.fld F.HQ_LAUNCHCNT_COUNT q < 2 ^ 64 := s.fld_lt ..
    exact (gives_launch_accepted hq hp hs).completes hpending hid
      ⟨hjob, hbeat, hlc, hmask, hcount.trans (Nat.mod_eq_of_lt hlt), hstatus, hcause, hlagf, hmem⟩

end Sys2Proof.Machine
end



section
/-! What operations on a Denian port leave alone (10_denian_links.md): they change the ports and what is recorded of them. -/

namespace Sys2Proof.Machine

/-- Two states differ at most in the ports and in what is recorded of them: registers, the notes of hardware changes, occurrences. -/
def State.sameButPorts (s t : State) : Prop := t = { s with ports := t.ports, regs := t.regs, hw := t.hw, occ := t.occ }

theorem State.sameButPorts.trans {s t u : State} (h : s.sameButPorts t) (k : t.sameButPorts u) : s.sameButPorts u := by
  unfold State.sameButPorts at *
  rw [h] at k
  exact k

theorem State.sameButPorts.pending {s t : State} (h : s.sameButPorts t) : t.pending = s.pending := by rw [h]
theorem State.sameButPorts.id {s t : State} (h : s.sameButPorts t) : t.id = s.id := by rw [h]

theorem State.sameButPorts_setPort (s : State) (n : Nat) (p : Port) : s.sameButPorts (s.setPort n p) := rfl

theorem State.sameButLog.sameButPorts {s t : State} (h : s.sameButLog t) : s.sameButPorts t := by
  rw [h]
  rfl

theorem State.sameButLog.ports {s t : State} (h : s.sameButLog t) : t.ports = s.ports := by rw [h]
theorem State.sameButLog.refNs {s t : State} (h : s.sameButLog t) : t.refNs = s.refNs := by rw [h]

theorem State.sameButLog_hwMax {f : Fld} (h : psReg f.reg = none) (s : State) (i v : Nat) : s.sameButLog (s.hwMax f i v) :=
  (State.sameButLog_setFld h ..).trans (State.sameButLog_note ..)

/-- R374, R388: a discard of the fabric is counted and raised. -/
theorem State.sameButLog_fabDisc {f : Fld} (h : psReg f.reg = none) (s : State) : s.sameButLog (s.fabDisc f) :=
  (State.sameButLog_addFld h ..).trans (State.sameButLog_raise ..)

theorem State.port_setPort_ne (s : State) {n m : Nat} (p : Port) (h : m ≠ n) : (s.setPort n p).port m = s.port m :=
  SMap.get_put_ne _ _ _ _ h

/-- A write of a field leaves the other registers of its index alone. -/
theorem State.fld_setFld_reg {f g : Fld} (h : psReg f.reg = none) (hne : g.reg ≠ f.reg) (s : State) (n v : Nat) :
    (s.setFld f n v).fld g n = s.fld g n := by
  rw [State.fld, State.fld, State.setFld, State.setReg_plain h]
  refine congrArg g.get (State.reg_congr rfl rfl fun _ => SMap.get_put_ne _ _ _ _ fun e => hne (RegName.num_inj ?_))
  simp only [regKey] at e
  omega

end Sys2Proof.Machine
end

section
/-! Slots, groups and the forwarding of SCHED messages (10_denian_links.md R322, R324, R340, R344, R357): what a slot that goes out leaves,
how a group is refused or accepted, and where the first flit of a message goes on. -/

namespace Sys2Proof.Machine

/-! ## A slot goes out (R322) -/

/-- What the transmitter of port `n` leaves when `k` slots go out: the rest of the part as it was, and what the port has received. -/
structure State.Sends (n k : Nat) (s t : State) : Prop where
  slots : (t.port n).slots = (s.port n).slots + k
  rx : (t.port n).rx = (s.port n).rx
  mem : t.mem = s.mem
  cores : t.cores = s.cores
  parts : t.parts = s.parts

theorem State.Sends.refl (n : Nat) (s : State) : s.Sends n 0 s := ⟨rfl, rfl, rfl, rfl, rfl⟩

theorem State.Sends.trans {n k l : Nat} {s t u : State} (h : s.Sends n k t) (g : t.Sends n l u) : s.Sends n (k + l) u :=
  ⟨by rw [g.slots, h.slots, Nat.add_assoc], g.rx.trans h.rx, g.mem.trans h.mem, g.cores.trans h.cores, g.parts.trans h.parts⟩

/-- An operation that sends nothing, after others. -/
theorem State.Sends.after {n k : Nat} {s t u : State} (g : t.Sends n 0 u) (h : s.Sends n k t) : s.Sends n k u := h.trans g

theorem State.Sends.ite {n k : Nat} {p : Prop} [Decidable p] {s t u : State} (ht : s.Sends n k t) (hu : s.Sends n k u) :
    s.Sends n k (if p then t else u) :=
  iteInduction (motive := fun v => s.Sends n k v) (fun _ => ht) fun _ => hu

theorem State.sends_setPort {n k : Nat} (s : State) {p : Port} (hs : p.slots = (s.port n).slots + k) (hr : p.rx = (s.port n).rx) :
    s.Sends n k (s.setPort n p) :=
  ⟨by rw [State.port_setPort, hs], by rw [State.port_setPort, hr], rfl, rfl, rfl⟩

theorem State.sends_modPort {n k : Nat} (s : State) {f : Port → Port} (hs : ∀ p, (f p).slots = p.slots + k) (hr : ∀ p, (f p).rx = p.rx) :
    s.Sends n k (s.modPort n f) :=
  s.sends_setPort (hs _) (hr _)

/-- Changes beside the ports and the memories send nothing. -/
theorem State.Sends.same {n k : Nat} {s t u : State} (h : s.Sends n k t) (hp : u.ports = t.ports) (hm : u.mem = t.mem) (hc : u.cores = t.cores)
    (hq : u.parts = t.parts) : s.Sends n k u := by
  have hport := State.port_of_ports hp n
  exact ⟨hport ▸ h.slots, hport ▸ h.rx, hm.trans h.mem, hc.trans h.cores, hq.trans h.parts⟩

theorem State.sameButLog.sends (n : Nat) {s t : State} (h : s.sameButLog t) : s.Sends n 0 t :=
  (State.Sends.refl n s).same h.ports h.mem (by rw [h]) (by rw [h])

/-- R392: the completion of a broadcast. -/
theorem State.sends_bcastLeft (n : Nat) (s : State) : s.Sends n 0 s.bcastLeft := by
  unfold State.bcastLeft
  refine foldl_keeps (fun t => s.Sends n 0 t) _ (fun t q ht => .after ?_ ht) _ s (.refl n s)
  extract_lets _ _ _ _ freed
  have hlog : freed.sameButLog ((((freed.setFld F.ROUTE_GOPSTAT_STATUS q stOK).setFld F.ROUTE_GOPSTAT_OP q 2).setFld
      F.ROUTE_GOPSTAT_BUSY q 0).raise (16 + q)) :=
    State.sameButLog_setFld rfl .. |>.trans (State.sameButLog_setFld rfl ..) |>.trans (State.sameButLog_setFld rfl ..)
      |>.trans (State.sameButLog_raise ..)
  have hfreed : t.Sends n 0 freed := (State.Sends.refl n t).same rfl rfl rfl rfl
  exact .ite (.ite (.refl n t) ((hlog.sends n).after hfreed)) (.refl n t)

/-- R382: the timer of a request starts when its frame does. -/
theorem State.sends_frameLeaves (n : Nat) (s : State) (f : Frame) : s.Sends n 0 (s.frameLeaves f) := by
  unfold State.frameLeaves State.startTimer
  refine .ite ?_ (.refl n s)
  extract_lets
  split
  · exact (State.Sends.refl n s).same rfl rfl rfl rfl
  · exact .refl n s

theorem State.sends_ctrlPick {n : Nat} {s : State} {v : State × Slot} : s.ctrlPick n = some v → s.Sends n 0 v.1 := by
  unfold State.ctrlPick
  extract_lets p
  split
  · split
    · intro h
      rw [← Option.some.inj h]
      dsimp only
      exact (State.sends_bcastLeft ..).after (s.sends_setPort rfl rfl)
    · nofun
  · nofun

theorem State.sends_maintPick {n : Nat} {s : State} {v : State × Slot} : s.maintPick n = some v → s.Sends n 0 v.1 := by
  unfold State.maintPick
  extract_lets p
  split
  · split
    · rintro ⟨⟩
      exact s.sends_setPort rfl rfl
    · nofun
  · nofun

theorem State.sends_framePick {n : Nat} {s : State} {v : State × Slot} : s.framePick n = some v → s.Sends n 0 v.1 := by
  unfold State.framePick
  extract_lets p
  split
  · rintro ⟨⟩
    exact s.sends_setPort rfl rfl
  · nofun

theorem State.sends_schedPick {n : Nat} {s : State} {v : State × Slot} : s.schedPick n = some v → s.Sends n 0 v.1 := by
  unfold State.schedPick
  extract_lets p
  split
  · split
    · split
      · rintro ⟨⟩
        exact s.sends_setPort rfl rfl
      · nofun
    · nofun
  · nofun

theorem State.sends_dynPickVc (n vc : Nat) (s : State) : s.Sends n 0 (s.dynPickVc n vc).1 := by
  unfold State.dynPickVc
  extract_lets p
  split
  case h_2 => exact .refl n s
  case h_1 f r _ =>
    extract_lets fl
    split
    case isTrue => exact .refl n s
    case isFalse =>
      split
      case isTrue => exact (State.sends_frameLeaves ..).after (s.sends_setPort rfl rfl)
      case isFalse =>
        split
        case isTrue => exact .refl n s
        case isFalse => exact ((State.sameButLog_addFld rfl ..).sends n).after (s.sends_setPort rfl rfl)

theorem State.sends_dynPick (n : Nat) (s : State) : s.Sends n 0 (s.dynPick n).1 := by
  unfold State.dynPick
  split
  case isTrue => exact .refl n s
  case isFalse =>
    refine foldl_keeps (fun x : State × Option Slot => s.Sends n 0 x.1) _ (fun x vc hx => ?_) _ _ (.refl n s)
    split
    case isTrue => exact hx
    case isFalse => exact (State.sends_dynPickVc ..).after hx

theorem State.sends_freePick (n : Nat) (s : State) : s.Sends n 0 (s.freePick n).1 := by
  unfold State.freePick
  cases hc : s.ctrlPick n with
  | some v => exact State.sends_ctrlPick hc
  | none =>
    cases hm : s.maintPick n with
    | some v => exact State.sends_maintPick hm
    | none => exact .refl n s

theorem State.sends_slotPick (n : Nat) (s : State) : s.Sends n 0 (s.slotPick n).1 := by
  unfold State.slotPick
  split
  case isTrue => exact State.sends_freePick n s
  case isFalse =>
    split
    case h_1 r hr =>
      rcases (Option.orElse_eq_some _ _ _).1 hr with hframe | ⟨-, hsched⟩
      · exact State.sends_framePick hframe
      · exact State.sends_schedPick hsched
    case h_2 =>
      extract_lets d
      have hd : s.Sends n 0 d.1 := State.sends_dynPick n s
      split
      · exact hd
      · exact (State.sends_freePick ..).after hd

/-- R324, R343: the end of a group. -/
theorem State.sends_endGroup (n : Nat) (s : State) : s.Sends n 0 (s.endGroup n) := by
  unfold State.endGroup State.sendNull
  extract_lets p emptied q sequenced
  have hemptied : s.Sends n 0 emptied := s.sends_setPort rfl rfl
  have hsequenced : s.Sends n 0 sequenced := s.sends_setPort rfl rfl
  exact .ite (hemptied.same rfl rfl rfl rfl) (hsequenced.same rfl rfl rfl rfl)

/-- R346: a slot of a replay. -/
theorem State.sends_replaySlot (n : Nat) (r : Replaying) (s : State) : s.Sends n 1 (s.replaySlot n r) := by
  unfold State.replaySlot
  extract_lets p rp left
  have hleft : s.Sends n 1 left := s.sends_setPort rfl rfl
  exact .ite (s.sends_setPort rfl rfl) (hleft.same rfl rfl rfl rfl)

/-- R351: a changed record is queued again. -/
theorem State.sends_identChange (n : Nat) (s : State) : s.Sends n 0 (s.identChange n) :=
  .ite (s.sends_setPort rfl rfl) (.refl n s)

/-- R333: a slot of new traffic. -/
theorem State.sends_newSlot (n : Nat) (s : State) : s.Sends n 1 (s.newSlot n) := by
  unfold State.newSlot
  extract_lets begun picked put
  have hgroup : (s.identChange n).Sends n 0 ((s.identChange n).modPort n Port.beginGroup) := State.sends_modPort _ (fun _ => rfl) fun _ => rfl
  have hbegun : s.Sends n 0 begun := .ite (hgroup.after (State.sends_identChange n s)) (.refl n s)
  have hpicked : begun.Sends n 0 picked.1 := by
    simp only [picked]
    split
    · exact .refl n begun
    · exact State.sends_slotPick n begun
  have hput : picked.1.Sends n 1 put := State.sends_modPort _ (fun _ => rfl) fun _ => rfl
  have hsent : s.Sends n 1 put := (hbegun.trans hpicked).trans hput
  exact .ite ((State.sends_endGroup n put).after hsent) hsent

theorem Port.beginReplay_slots (p : Port) : p.beginReplay.slots = p.slots := by
  unfold Port.beginReplay
  split <;> rfl

theorem Port.beginReplay_rx (p : Port) : p.beginReplay.rx = p.rx := by
  unfold Port.beginReplay
  split <;> rfl

/-- R322: a slot goes out, one at a time. -/
theorem State.sends_fillSlot (n : Nat) (s : State) : s.Sends n 1 (s.fillSlot n) := by
  unfold State.fillSlot
  extract_lets replaying
  have hreplaying : s.Sends n 0 replaying := s.sends_modPort Port.beginReplay_slots Port.beginReplay_rx
  split
  case h_1 r _ => exact hreplaying.trans (State.sends_replaySlot n r replaying)
  case h_2 => exact hreplaying.trans (State.sends_newSlot n replaying)

theorem gives_slotFill {n : Nat} {s : State} (h : s.slotDue n = true) : Gives (.slotFill n) s (s.fillSlot n) :=
  .of_done (if_pos h)

theorem exec_slotFill_early {n : Nat} {s : State} (h : s.slotDue n = false) : exec (.slotFill n) s = .next s :=
  (if_neg (by simp [h]) : execSlotFill n s = done s s)

/-! ## The trailer of a group (R330, R343, R345) -/

/-- What a port keeps of the order of the groups it receives: the last accepted, and the NAK asked for since and still to issue. -/
def Port.order (p : Port) : Nat × Bool × Option Nat := (p.ackSeq, p.nakHeld, p.nakWant)

/-- What a port has received: messages, frames, CTRL and MAINT flits. -/
def Port.received (p : Port) : List RxMsg × List Frame × List CtrlFlit × List (List Byte) := (p.rx, p.frames, p.ctrlIn, p.maintIn)

theorem Port.addCredits_keeps (p : Port) (w : Nat) : (p.addCredits w).order = p.order ∧ (p.addCredits w).received = p.received := by
  unfold Port.addCredits
  refine foldl_keeps (fun q : Port => q.order = p.order ∧ q.received = p.received) _ (fun q v h => ?_) _ _ ⟨rfl, rfl⟩
  exact h

theorem Port.takeAck_keeps (p : Port) (w ns : Nat) : (p.takeAck w ns).order = p.order ∧ (p.takeAck w ns).received = p.received := by
  unfold Port.takeAck
  extract_lets typ k acked
  have hacked : acked.order = p.order ∧ acked.received = p.received := by
    simp only [acked]
    split <;> exact ⟨rfl, rfl⟩
  split
  · exact hacked
  · exact hacked

/-- The credits and the acknowledgement of a good trailer. -/
def Port.takeTrailer (p : Port) (raw : List Byte) (ns : Nat) : Port := (p.addCredits (byF raw 4228 12)).takeAck (byF raw 4226 2) ns

/-- A good trailer is no part of the group's order or of what is received. -/
theorem Port.takeTrailer_keeps (p : Port) (raw : List Byte) (ns : Nat) :
    (p.takeTrailer raw ns).order = p.order ∧ (p.takeTrailer raw ns).received = p.received := by
  obtain ⟨hcredits, hheld⟩ := p.addCredits_keeps (byF raw 4228 12)
  obtain ⟨hack, hrest⟩ := (p.addCredits (byF raw 4228 12)).takeAck_keeps (byF raw 4226 2) ns
  exact ⟨hack.trans hcredits, hrest.trans hheld⟩

/-! ## A group that is refused (R324, R344) -/

/-- R344: port `q` has refused a group that came to it as `p`. -/
def Port.Refused (p q : Port) (ns : Nat) : Prop :=
  q.nakHeld = true ∧ q.nakWant = (if p.nakHeld then p.nakWant else some (p.nakWant.getD ns)) ∧ q.ackSeq = p.ackSeq ∧ q.rx = p.rx
    ∧ q.frames = p.frames ∧ q.ctrlIn = p.ctrlIn ∧ q.maintIn = p.maintIn

theorem Port.refused_refuse {p q : Port} (ho : q.order = p.order) (hr : q.received = p.received) (ns : Nat) : p.Refused (q.refuse ns) ns := by
  simp only [Port.order, Port.received, Prod.mk.injEq] at ho hr
  obtain ⟨hseq, hheld, hwant⟩ := ho
  obtain ⟨hrx, hframes, hctrl, hmaint⟩ := hr
  unfold Port.refuse
  split
  case isTrue h => exact ⟨h, by rw [← hheld, if_pos h, hwant], hseq, hrx, hframes, hctrl, hmaint⟩
  case isFalse h => exact ⟨rfl, by rw [← hheld, if_neg h, hwant], hseq, hrx, hframes, hctrl, hmaint⟩

/-- Table 10.8: the count of good null groups begins again at a group that fails. -/
theorem Port.Refused.restart {p q : Port} {ns : Nat} (h : p.Refused q ns) : p.Refused { q with nulls := 0 } ns := h

/-- The corrections of a group are counted, and what could not be corrected (R324). -/
def State.fecCounted (s : State) (n corr uncorr : Nat) : State :=
  let t := if corr = 0 then s else s.addFld F.PORT_FEC_CORR n corr
  if uncorr = 0 then t else t.addFld F.PORT_FEC_UNCORR n uncorr

/-- Two states differ at most in the ports, in registers and in the notes of hardware changes: nothing has been raised. -/
def State.sameButCounts (s t : State) : Prop := t = { s with ports := t.ports, regs := t.regs, hw := t.hw }

theorem State.sameButCounts.trans {s t u : State} (h : s.sameButCounts t) (k : t.sameButCounts u) : s.sameButCounts u := by
  unfold State.sameButCounts at *
  rw [h] at k
  exact k

theorem State.sameButCounts.refNs {s t : State} (h : s.sameButCounts t) : t.refNs = s.refNs := by rw [h]

theorem State.sameButCounts.sameButPorts {s t : State} (h : s.sameButCounts t) : s.sameButPorts t := by
  rw [h]
  rfl

theorem State.sameButCounts_modPort (s : State) (n : Nat) (f : Port → Port) : s.sameButCounts (s.modPort n f) := rfl

theorem State.sameButCounts_addFld {f : Fld} (h : psReg f.reg = none) (s : State) (i k : Nat) : s.sameButCounts (s.addFld f i k) := by
  rw [State.addFld_form h]
  rfl

theorem State.fecCounted_form (s : State) (n corr uncorr : Nat) :
    s.sameButCounts (s.fecCounted n corr uncorr) ∧ (s.fecCounted n corr uncorr).ports = s.ports := by
  unfold State.fecCounted
  extract_lets t
  have ht : s.sameButCounts t ∧ t.ports = s.ports := by
    simp only [t]
    split
    · exact ⟨rfl, rfl⟩
    · exact ⟨State.sameButCounts_addFld rfl .., State.addFld_ports ..⟩
  split
  · exact ht
  · exact ⟨ht.1.trans (State.sameButCounts_addFld rfl ..), (State.addFld_ports ..).trans ht.2⟩

/-! ## A group that is accepted (R344) -/

/-- The slots of an accepted group leave the order of the groups as it was, and all but the ports and what is recorded of them. -/
structure State.KeepsOrder (n : Nat) (s t : State) : Prop where
  frame : s.sameButPorts t
  order : (t.port n).order = (s.port n).order

theorem State.KeepsOrder.refl (n : Nat) (s : State) : s.KeepsOrder n s := ⟨rfl, rfl⟩

theorem State.KeepsOrder.trans {n : Nat} {s t u : State} (h : s.KeepsOrder n t) (g : t.KeepsOrder n u) : s.KeepsOrder n u :=
  ⟨h.frame.trans g.frame, g.order.trans h.order⟩

theorem State.KeepsOrder.ite {n : Nat} {p : Prop} [Decidable p] {s t u : State} (ht : s.KeepsOrder n t) (hu : s.KeepsOrder n u) :
    s.KeepsOrder n (if p then t else u) :=
  iteInduction (motive := fun v => s.KeepsOrder n v) (fun _ => ht) fun _ => hu

theorem State.keepsOrder_setPort {n : Nat} (s : State) {p : Port} (h : p.order = (s.port n).order) : s.KeepsOrder n (s.setPort n p) :=
  ⟨s.sameButPorts_setPort n p, by rw [State.port_setPort, h]⟩

/-- What is recorded of a port leaves its order. -/
theorem State.KeepsOrder.log {n : Nat} {s t u : State} (h : s.KeepsOrder n t) (g : t.sameButLog u) : s.KeepsOrder n u :=
  ⟨h.frame.trans g.sameButPorts, by rw [State.port_of_ports g.ports, h.order]⟩

/-- A discard by a port is counted and raised (R341). -/
theorem State.sameButLog_discard {f : Fld} (h : psReg f.reg = none) (s : State) (n : Nat) :
    s.sameButLog ((s.addFld f n 1).raise (64 + 4 * n + 3)) :=
  (State.sameButLog_addFld h ..).trans (State.sameButLog_raise ..)

/-- R341: the counters of discards are no persistent words. -/
theorem State.schedFate_discard {s : State} {n dcore : Nat} {hops : List Nat} {f : Fld} (h : s.schedFate n hops dcore = .discard (some f)) :
    psReg f.reg = none := by
  unfold State.schedFate at h
  split at h
  case h_1 hop _ =>
    split at h <;> cases h
    rfl
  case h_2 =>
    split at h
    case h_1 => cases h; rfl
    case h_2 q _ =>
      split at h
      case isTrue => cases h; rfl
      case isFalse =>
        split at h <;> cases h
        rfl

theorem State.keepsOrder_rxSchedFirst (n : Nat) (rh flit : List Byte) (s : State) : s.KeepsOrder n (s.rxSchedFirst n rh flit) := by
  unfold State.rxSchedFirst
  extract_lets left hops dest len sig m dropped
  have hdropped : s.KeepsOrder n dropped := s.keepsOrder_setPort rfl
  split
  case h_1 => exact s.keepsOrder_setPort rfl
  case h_2 c hc =>
    cases c with
    | none => exact hdropped
    | some f => exact hdropped.log (State.sameButLog_discard (State.schedFate_discard hc) ..)

theorem State.keepsOrder_rxSchedNext (n : Nat) (flit : List Byte) (s : State) : s.KeepsOrder n (s.rxSchedNext n flit) := by
  unfold State.rxSchedNext
  extract_lets p
  split
  · exact .ite (s.keepsOrder_setPort rfl) (s.keepsOrder_setPort rfl)
  · exact s.keepsOrder_setPort rfl

theorem State.keepsOrder_rxDynFlit (n vc : Nat) (last : Bool) (flit : List Byte) (s : State) : s.KeepsOrder n (s.rxDynFlit n vc last flit) := by
  unfold State.rxDynFlit
  extract_lets p fl taken
  refine .ite (s.keepsOrder_setPort rfl) ?_
  split
  · exact s.keepsOrder_setPort rfl
  · have hfreed : s.KeepsOrder n (s.setPort n (taken.freeFlits vc fl.length)) := s.keepsOrder_setPort rfl
    exact hfreed.log (State.sameButLog_discard rfl ..)

theorem Port.order_takeProbe (p : Port) (step4 : Bool) (t : Nat) (f : List Byte) : (p.takeProbe step4 t f).order = p.order := by
  unfold Port.takeProbe
  split
  · rfl
  · split <;> rfl
  · rfl

/-- R326 to R328: a slot of an accepted group, by its channel. -/
theorem State.keepsOrder_rxSlot (n : Nat) (rh0 rh1 : List Byte) (v : Slot) (s : State) : s.KeepsOrder n (s.rxSlot n rh0 rh1 v) := by
  unfold State.rxSlot
  refine .ite (.refl n s) (.ite (s.keepsOrder_setPort rfl) ?_)
  dsimp only
  split
  case h_1 => exact .ite (s.keepsOrder_rxSchedFirst ..) (s.keepsOrder_rxSchedNext ..)
  case h_2 =>
    have hctrl : s.KeepsOrder n (s.modPort n fun p => p.freeFlits 5 1) := s.keepsOrder_setPort rfl
    exact .ite (hctrl.log (State.sameButLog_fabDisc rfl _)) (s.keepsOrder_setPort rfl)
  case h_3 => exact .ite (s.keepsOrder_setPort rfl) (s.keepsOrder_setPort (Port.order_takeProbe ..))
  case h_4 => exact s.keepsOrder_rxDynFlit ..

theorem State.keepsOrder_slots (n : Nat) (rh0 rh1 : List Byte) (l : List Slot) (s : State) :
    s.KeepsOrder n (l.foldl (fun t v => t.rxSlot n rh0 rh1 v) s) :=
  foldl_keeps (fun t => s.KeepsOrder n t) _ (fun t v ht => ht.trans (t.keepsOrder_rxSlot n rh0 rh1 v)) l s (.refl n s)

/-! ## A group is received (R324, R344) -/

theorem gives_groupReceive {n : Nat} {s : State} (h : s.slotsRun n = true) (raw : List Byte) (corr uncorr : Nat) :
    Gives (.groupReceive n raw corr uncorr) s (s.rxGroup n raw corr uncorr) :=
  .of_done (if_pos h)

section
variable {s : State} {n corr uncorr : Nat} {raw : List Byte}

theorem State.rxGroup_failed (h : uncorr ≠ 0 ∨ groupGood raw = false) :
    s.rxGroup n raw corr uncorr = (s.fecCounted n corr uncorr).modPort n fun p =>
      { p.refuse (s.fecCounted n corr uncorr).refNs with nulls := 0 } :=
  if_pos (by simpa using h)

/-- A good group that carries a sequence number is accepted where it is the next, and else refused. -/
theorem State.rxGroup_sequenced (hu : uncorr = 0) (hg : groupGood raw = true) (hw : byF raw 4224 2 / 4096 % 2 = 0) :
    s.rxGroup n raw corr uncorr =
      let t := s.fecCounted n corr uncorr
      let t := t.modPort n fun p => p.takeTrailer raw t.refNs
      if byF raw 4224 2 % 4096 = ((t.port n).ackSeq + 1) % 4096 then
        let t := t.modPort n fun p => { p with ackSeq := byF raw 4224 2 % 4096, nakHeld := false, nulls := 0 }
        (groupSlots raw).foldl (fun t v => t.rxSlot n ((raw.drop 4160).take 32) ((raw.drop 4192).take 32) v) t
      else t.modPort n fun p => p.refuse t.refNs :=
  (if_neg (by simp [hu, hg])).trans (if_neg (by simp [hw]))

/-- R344: what a refused group leaves. -/
theorem State.rxGroup_refused
    (h : uncorr ≠ 0 ∨ groupGood raw = false
      ∨ (byF raw 4224 2 / 4096 % 2 = 0 ∧ byF raw 4224 2 % 4096 ≠ ((s.port n).ackSeq + 1) % 4096)) :
    (s.port n).Refused ((s.rxGroup n raw corr uncorr).port n) s.refNs ∧ s.sameButCounts (s.rxGroup n raw corr uncorr) := by
  obtain ⟨hcounted, hports⟩ := s.fecCounted_form n corr uncorr
  have hport := State.port_of_ports hports n
  by_cases hfail : uncorr ≠ 0 ∨ groupGood raw = false
  case pos =>
    rw [State.rxGroup_failed hfail, State.port_modPort, hport, hcounted.refNs]
    have hrefused := (Port.refused_refuse (p := s.port n) rfl rfl s.refNs).restart
    exact ⟨hrefused, hcounted.trans (State.sameButCounts_modPort ..)⟩
  case neg =>
    obtain ⟨heven, hne⟩ := (h.resolve_left fun hu => hfail (.inl hu)).resolve_left fun hg => hfail (.inr hg)
    simp only [not_or, ne_eq, not_not, Bool.not_eq_false] at hfail
    obtain ⟨horder, hreceived⟩ := (s.port n).takeTrailer_keeps raw s.refNs
    have hseq : ((s.port n).takeTrailer raw s.refNs).ackSeq = (s.port n).ackSeq := congrArg Prod.fst horder
    rw [State.rxGroup_sequenced hfail.1 hfail.2 heven]
    extract_lets counted trailed accepted
    have htrailed : trailed.port n = (s.port n).takeTrailer raw s.refNs := by rw [State.port_modPort, hport, hcounted.refNs]
    rw [htrailed, hseq, if_neg hne, State.port_modPort, htrailed, State.modPort_refNs, hcounted.refNs]
    have hframe : s.sameButCounts (trailed.modPort n fun p => p.refuse s.refNs) :=
      hcounted.trans ((State.sameButCounts_modPort ..).trans (State.sameButCounts_modPort ..))
    have hrefused := Port.refused_refuse horder hreceived s.refNs
    exact ⟨hrefused, hframe⟩

/-- R344: what an accepted group leaves. -/
theorem State.rxGroup_accepted (hu : uncorr = 0) (hg : groupGood raw = true) (heven : byF raw 4224 2 / 4096 % 2 = 0)
    (hseq : byF raw 4224 2 % 4096 = ((s.port n).ackSeq + 1) % 4096) :
    ((s.rxGroup n raw corr uncorr).port n).order = (byF raw 4224 2 % 4096, false, (s.port n).nakWant)
      ∧ s.sameButPorts (s.rxGroup n raw corr uncorr) := by
  obtain ⟨hcounted, hports⟩ := s.fecCounted_form n corr uncorr
  have hport := State.port_of_ports hports n
  obtain ⟨horder, -⟩ := (s.port n).takeTrailer_keeps raw s.refNs
  simp only [Port.order, Prod.mk.injEq] at horder
  obtain ⟨hack, -, hwant⟩ := horder
  rw [State.rxGroup_sequenced hu hg heven]
  extract_lets counted trailed accepted
  have htrailed : trailed.port n = (s.port n).takeTrailer raw s.refNs := by rw [State.port_modPort, hport, hcounted.refNs]
  have haccepted : (accepted.port n).order = (byF raw 4224 2 % 4096, false, (s.port n).nakWant) := by
    rw [State.port_modPort, htrailed, ← hwant]
    rfl
  rw [htrailed, hack, if_pos hseq]
  have hslots := State.keepsOrder_slots n ((raw.drop 4160).take 32) ((raw.drop 4192).take 32) (groupSlots raw) accepted
  have hframe : s.sameButCounts accepted := hcounted.trans ((State.sameButCounts_modPort ..).trans (State.sameButCounts_modPort ..))
  exact ⟨hslots.order.trans haccepted, hframe.sameButPorts.trans hslots.frame⟩

end

/-! ## A message goes on (R340, R357) -/

theorem gives_schedForward (n : Nat) (s : State) : Gives (.schedForward n) s (s.forwardFlit n) := rfl

section
variable {s : State} {n h : Nat} {rest : List Nat} {m : RxMsg} (hm : s.rxFwd n = some m) (hh : m.hops = h :: rest)
include hm hh

theorem State.forwardFlit_gone (hg : s.fwdGone n h m = true) : s.forwardFlit n = s.modPort n fun p => p.popFlit m := by
  simp only [State.forwardFlit, hm, hh, List.headD_cons, hg, if_true]

theorem State.forwardFlit_goes (hg : s.fwdGone n h m = false) :
    s.forwardFlit n = (s.modPort n fun p => p.popFlit m).modPort h fun p => p.putFwd n m (m.flits.headD (0, [])).2 := by
  simp only [State.forwardFlit, hm, hh, List.headD_cons, hg, Bool.false_eq_true, if_false]

end

/-- A flit that leaves the receive buffer of a port leaves every outbound SCHED queue. -/
theorem State.sched_popFlit (s : State) (n k : Nat) (m : RxMsg) : ((s.modPort n fun p => p.popFlit m).port k).sched = (s.port k).sched := by
  by_cases hk : k = n
  · subst hk
    rw [State.port_modPort]
    rfl
  · rw [State.port_modPort_ne _ _ hk]

/-! ## The statement -/

/-- Settles O28: a slot is sent by operations that leave the rest; a failed group and one out of sequence are refused, and the slots of one
accepted keep the order of groups; the first flit of a message goes on by `Port.putFwd`, or is only taken from its buffer. -/
theorem slotsAndGroups : Obligations.SlotsAndGroups := by
  unfold Obligations.SlotsAndGroups
  refine ⟨fun n s => ⟨fun hdue => ⟨gives_slotFill hdue, ?sent⟩, exec_slotFill_early, fun hrun raw corr uncorr =>
      ⟨gives_groupReceive hrun raw corr uncorr, fun hbad => ?refused, fun hu hg heven hseq => ?accepted⟩⟩,
    fun n h rest m s hm hh hfirst => ⟨fun hgo => ?goes, fun hgone => ?gone⟩⟩
  case sent =>
    have hsent := s.sends_fillSlot n
    exact ⟨_, gives_slotFill hdue, hsent.slots, hsent.rx, hsent.mem, hsent.cores, hsent.parts⟩
  case refused =>
    obtain ⟨⟨hheld, hwant, hseq, hrx, hframes, hctrl, hmaint⟩, hframe⟩ := State.rxGroup_refused (corr := corr) hbad
    exact (gives_groupReceive hrun raw corr uncorr).completes hframe.sameButPorts.pending hframe.sameButPorts.id
      ⟨hheld, hwant, hseq, hrx, hframes, hctrl, hmaint, hframe⟩
  case accepted =>
    obtain ⟨horder, hframe⟩ := State.rxGroup_accepted (corr := corr) hu hg heven hseq
    simp only [Port.order, Prod.mk.injEq] at horder
    obtain ⟨hack, hheld, hwant⟩ := horder
    exact (gives_groupReceive hrun raw corr uncorr).completes hframe.pending hframe.id ⟨hack, hheld, hwant, hframe⟩
  case goes =>
    have hgives := State.forwardFlit_goes hm hh hgo ▸ gives_schedForward n s
    refine hgives.completes rfl rfl ⟨?_, fun k hn hk => ?_, rfl⟩
    · rw [State.port_modPort, Port.putFwd, if_pos hfirst, hh]
      exact congrArg (· ++ _) (s.sched_popFlit n h m)
    · rw [State.port_modPort_ne _ _ hk, State.port_modPort_ne _ _ hn]
  case gone =>
    have hgives := State.forwardFlit_gone hm hh hgone ▸ gives_schedForward n s
    exact hgives.completes rfl rfl ⟨State.port_modPort .., fun k hk => State.port_modPort_ne _ _ hk, rfl⟩

end Sys2Proof.Machine
end

section
/-! The retry of groups (10_denian_links.md R345 to R348): what a NAK that is issued and a replay that starts leave in their port, in the
slices of its engine. -/

namespace Sys2Proof.Machine

/-! ## The slices of a port (R345) -/

theorem State.sliceAfter_outside {s : State} {n : Nat} (h : s.inSlice n = false) (found : Nat) : s.sliceAfter n found = false := by
  rw [State.sliceAfter, h, Bool.false_and]

theorem State.replayLate_outside {s : State} {n : Nat} (h : s.inSlice n = false) : s.replayLate n = false := by
  unfold State.replayLate
  extract_lets p
  split
  · rw [State.sliceAfter_outside h, Bool.and_false]
  · rfl

theorem exec_nakIssue_outside {s : State} {n : Nat} (h : s.inSlice n = false) : exec (.nakIssue n) s = .next s := by
  show execNakIssue n s = done s s
  unfold execNakIssue
  split
  · rw [if_neg (by simp [State.sliceAfter_outside h])]
  · rfl

theorem exec_replayStart_outside {s : State} {n : Nat} (h : s.inSlice n = false) : exec (.replayStart n) s = .next s := by
  show execReplayStart n s = done s s
  unfold execReplayStart
  split
  · rw [if_neg (by simp [State.sliceAfter_outside h])]
  · rfl

theorem exec_replayTimeout_outside {s : State} {n : Nat} (h : s.inSlice n = false) : exec (.replayTimeout n) s = .next s :=
  (if_neg (by simp [State.replayLate_outside h]) : execReplayTimeout n s = done s s)

section
variable {s : State} {n t0 : Nat} (hs : s.sliceAfter n t0 = true)
include hs

theorem gives_nakIssue (hw : (s.port n).nakWant = some t0) :
    Gives (.nakIssue n) s (s.modPort n fun p => { p with nakWant := none, nakOut := true }) := by
  show execNakIssue n s = _
  simp only [execNakIssue, hw]
  exact if_pos hs

theorem gives_replayStart (hw : (s.port n).replayWant = some t0) : Gives (.replayStart n) s (s.replay n) := by
  show execReplayStart n s = _
  simp only [execReplayStart, hw]
  exact if_pos hs

end

theorem gives_replayTimeout {s : State} {n : Nat} (h : s.replayLate n = true) :
    Gives (.replayTimeout n) s ((s.addFld F.PORT_RETRY_RTO n 1).replay n) :=
  .of_done (if_pos h)

/-! ## A replay (R346, R348) -/

/-- R346: every group not yet acknowledged is to be sent again, and the retry is counted. -/
def Port.replaying (p : Port) : Port := { p with resend := p.replay, rep := none, replayWant := none, retryRun := p.retryRun + 1 }

/-- A counter of another register leaves the state of a port. -/
theorem State.pstate_addFld {f : Fld} (h : psReg f.reg = none) (hne : RegName.PORT_STAT ≠ f.reg) (s : State) (n k : Nat) :
    (s.addFld f n k).pstate n = s.pstate n :=
  (State.fld_note ..).trans (State.fld_setFld_reg (g := F.PORT_STAT_STATE) h hne ..)

theorem State.pstate_hwMax {f : Fld} (h : psReg f.reg = none) (hne : RegName.PORT_STAT ≠ f.reg) (s : State) (n v : Nat) :
    (s.hwMax f n v).pstate n = s.pstate n :=
  (State.fld_note ..).trans (State.fld_setFld_reg (g := F.PORT_STAT_STATE) h hne ..)

/-- R346, R348: a replay that is not the sixteenth in a row of a port that is UP. -/
theorem State.replay_form {s : State} {n : Nat} (h : s.pstate n ≠ 3 ∨ (s.port n).retryRun ≠ 15) :
    (s.replay n).ports = (s.setPort n (s.port n).replaying).ports ∧ s.sameButPorts (s.replay n) := by
  unfold State.replay
  extract_lets p run started counted risen noted
  have hrisen : started.sameButLog risen := (State.sameButLog_addFld rfl ..).trans (State.sameButLog_hwMax rfl ..)
  have hnoted : started.sameButLog noted := State.sameButLog_ite _ (hrisen.trans (State.sameButLog_raise ..)) hrisen
  have hstate : risen.pstate n = s.pstate n := calc
    risen.pstate n = counted.pstate n := State.pstate_hwMax rfl (by decide) ..
    _ = started.pstate n := State.pstate_addFld rfl (by decide) ..
    _ = s.pstate n := State.fld_congr rfl rfl rfl ..
  have hup : ¬(run = 16 ∧ noted.pstate n = 3) := by
    rintro ⟨hrun, hthree⟩
    have hraise : noted.pstate n = risen.pstate n := by
      show State.fld (if run = 4 then _ else _) _ _ = _
      split
      · exact State.fld_raise ..
      · rfl
    rcases h with h | h
    · exact h (hstate ▸ hraise ▸ hthree)
    · exact h (Nat.succ_injective hrun)
  rw [if_neg hup]
  exact ⟨hnoted.ports, (s.sameButPorts_setPort n _).trans hnoted.sameButPorts⟩

/-- What a replay leaves in the ports. -/
theorem State.port_replay {s : State} {n : Nat} (h : s.pstate n ≠ 3 ∨ (s.port n).retryRun ≠ 15) :
    (s.replay n).port n = (s.port n).replaying ∧ ∀ m, m ≠ n → (s.replay n).port m = s.port m := by
  obtain ⟨hports, -⟩ := State.replay_form h
  refine ⟨?_, fun m hm => ?_⟩
  · rw [State.port_of_ports hports, State.port_setPort]
  · rw [State.port_of_ports hports, State.port_setPort_ne _ _ hm]

/-! ## The statement -/

/-- Settles O29: a NAK issued changes its port alone; a replay, after a NAK or a timeout, is `Port.replaying` and what is recorded of it. -/
theorem retriesRun : Obligations.RetriesRun := by
  unfold Obligations.RetriesRun
  refine fun n s => ⟨fun t0 hw hs => ?issued, fun t0 hw hs => ⟨gives_replayStart hs hw, fun h => ?started⟩,
    fun hl => ⟨gives_replayTimeout hl, fun h _ => ?timeout⟩, fun hout c hc => ?outside⟩
  case issued =>
    exact (gives_nakIssue hs hw).completes rfl rfl ⟨State.port_modPort .., fun m hm => State.port_modPort_ne _ _ hm, rfl⟩
  case started =>
    obtain ⟨-, hframe⟩ := State.replay_form h
    obtain ⟨hport, hothers⟩ := State.port_replay h
    refine (gives_replayStart hs hw).completes hframe.pending hframe.id ?_
    rw [hport]
    exact ⟨rfl, rfl, rfl, rfl, hothers, hframe⟩
  case timeout =>
    have hlog : s.sameButLog (s.addFld F.PORT_RETRY_RTO n 1) := State.sameButLog_addFld rfl ..
    have hsame (m : Nat) : (s.addFld F.PORT_RETRY_RTO n 1).port m = s.port m := State.port_of_ports hlog.ports m
    have h' : (s.addFld F.PORT_RETRY_RTO n 1).pstate n ≠ 3 ∨ ((s.addFld F.PORT_RETRY_RTO n 1).port n).retryRun ≠ 15 := by
      rwa [State.pstate_addFld rfl (by decide), hsame]
    obtain ⟨-, hframe⟩ := State.replay_form h'
    obtain ⟨hport, hothers⟩ := State.port_replay h'
    have hframe := hlog.sameButPorts.trans hframe
    refine (gives_replayTimeout hl).completes hframe.pending hframe.id ?_
    rw [hport, hsame]
    exact ⟨rfl, rfl, fun m hm => (hothers m hm).trans (hsame m), hframe⟩
  case outside =>
    simp only [List.mem_cons, List.not_mem_nil, or_false] at hc
    rcases hc with rfl | rfl | rfl
    · exact exec_nakIssue_outside hout
    · exact exec_replayStart_outside hout
    · exact exec_replayTimeout_outside hout

end Sys2Proof.Machine
end

section
/-! Training of a port and the ways it goes DOWN (10_denian_links.md R349 to R352, R356): the steps of training, the identity records, and
what a port that goes DOWN leaves. -/

namespace Sys2Proof.Machine

/-- Two states differ at most in the ports, in registers and in occurrences: no counter of the part has moved. -/
def State.sameButStates (s t : State) : Prop := t = { s with ports := t.ports, regs := t.regs, occ := t.occ }

theorem State.sameButStates.trans {s t u : State} (h : s.sameButStates t) (k : t.sameButStates u) : s.sameButStates u := by
  unfold State.sameButStates at *
  rw [h] at k
  exact k

theorem State.sameButStates.pending {s t : State} (h : s.sameButStates t) : t.pending = s.pending := by rw [h]
theorem State.sameButStates.id {s t : State} (h : s.sameButStates t) : t.id = s.id := by rw [h]
theorem State.sameButStates.refNs {s t : State} (h : s.sameButStates t) : t.refNs = s.refNs := by rw [h]
theorem State.sameButStates.acts {s t : State} (h : s.sameButStates t) : t.acts = s.acts := by rw [h]

theorem State.sameButStates_modPort (s : State) (n : Nat) (f : Port → Port) : s.sameButStates (s.modPort n f) := rfl

theorem State.sameButStates_raise (s : State) (k : Nat) : s.sameButStates (s.raise k) := rfl

theorem State.sameButRegs.sameButStates {s t : State} (h : s.sameButRegs t) : s.sameButStates t := by
  rw [h]
  rfl

theorem State.sameButStates_setFld {f : Fld} (h : psReg f.reg = none) (s : State) (i v : Nat) : s.sameButStates (s.setFld f i v) :=
  (State.sameButRegs_setFld h ..).sameButStates

/-- R359: a change of a port's state is shown and raised. -/
theorem State.setPState_form (s : State) (n : Nat) {st : Nat} (h : st < 2 ^ 4) :
    (s.setPState n st).pstate n = st ∧ s.sameButStates (s.setPState n st) ∧ (s.setPState n st).ports = s.ports := by
  unfold State.setPState
  split
  case isTrue hst => exact ⟨hst, rfl, rfl⟩
  case isFalse =>
    have hshown : s.sameButStates (s.setFld F.PORT_STAT_STATE n st) := State.sameButStates_setFld rfl ..
    refine ⟨?_, hshown.trans (State.sameButStates_raise ..), by rw [State.raise_ports, State.setFld_ports]⟩
    rw [State.pstate, State.fld_raise, State.fld_setFld rfl rfl]
    exact Nat.mod_eq_of_lt h

theorem State.fld_modPort (s : State) (n : Nat) (g : Port → Port) (f : Fld) (i : Nat) : (s.modPort n g).fld f i = s.fld f i :=
  State.fld_congr rfl rfl rfl f i

/-! ## A port goes DOWN (R356, R357) -/

/-- R357: a port that was not UP when it went DOWN: nothing is queued for it, and it keeps when it stopped and the cause shown before. -/
def Port.downAt (p : Port) (ns old : Nat) : Port := { p.discardOut with step := 0, stopped := some (ns, old) }

theorem State.endRetrain_none {s : State} {n : Nat} (h : ∀ a ∈ s.acts, a.ports.contains n = false) (status : Nat) :
    s.endRetrain n status = s := by
  have hnone : (s.acts.find? fun a => a.code == actRetrain && a.ports.contains n) = none :=
    List.find?_eq_none.2 fun a ha => by rw [h a ha, Bool.and_false]; exact Bool.false_ne_true
  rw [State.endRetrain, hnone]

/-- R356, R357: a port that is not UP and has no activity of RETRAIN goes DOWN. -/
theorem State.portDown_form {s : State} {n cause : Nat} (hup : s.pstate n ≠ 3) (hacts : ∀ a ∈ s.acts, a.ports.contains n = false)
    (hc : cause < 2 ^ 4) :
    ((s.portDown n cause).pstate n = 7 ∧ (s.portDown n cause).fld F.PORT_STAT_DOWNCAUSE n = cause)
      ∧ (s.portDown n cause).port n = (s.port n).downAt s.refNs (s.fld F.PORT_STAT_DOWNCAUSE n)
      ∧ (∀ m, m ≠ n → (s.portDown n cause).port m = s.port m) ∧ s.sameButStates (s.portDown n cause) := by
  unfold State.portDown State.portStop
  extract_lets up old changed caused emptied stopped
  have hup' : up = false := by simp [up, hup]
  obtain ⟨hstate, hchanged, hports⟩ := s.setPState_form n (st := 7) (by decide)
  have hcaused : caused = changed.setFld F.PORT_STAT_DOWNCAUSE n cause := if_pos rfl
  have hemptied : emptied = caused.modPort n Port.discardOut := if_neg (by simp [hup'])
  have hcausedFrame : s.sameButStates caused := by rw [hcaused]; exact hchanged.trans (State.sameButStates_setFld rfl ..)
  have hcausedPorts : caused.ports = s.ports := by rw [hcaused, State.setFld_ports, hports]
  have hframe : s.sameButStates stopped := by
    simp only [stopped, hemptied]
    exact hcausedFrame.trans ((State.sameButStates_modPort ..).trans (State.sameButStates_modPort ..))
  have hfld (f : Fld) : stopped.fld f n = caused.fld f n := by
    simp only [stopped, hemptied, State.fld_modPort]
  rw [State.endRetrain_none (by rwa [hframe.acts])]
  refine ⟨⟨?_, ?_⟩, ?_, fun m hm => ?_, hframe⟩
  · rw [State.pstate, hfld, hcaused, State.fld_setFld_apart (f := F.PORT_STAT_DOWNCAUSE) (g := F.PORT_STAT_STATE) rfl rfl rfl rfl rfl]
    exact hstate
  · rw [hfld, hcaused, State.fld_setFld rfl rfl]
    exact Nat.mod_eq_of_lt hc
  · rw [State.port_modPort, hemptied, State.port_modPort, State.port_of_ports hcausedPorts, State.modPort_refNs, hcausedFrame.refNs, if_pos rfl]
    rfl
  · rw [State.port_modPort_ne _ _ hm, hemptied, State.port_modPort_ne _ _ hm, State.port_of_ports hcausedPorts]

/-- The ways a port that is in use, or in training, goes DOWN, each with its cause (Table 10.11). -/
def DownRow (n cause : Nat) (w : Instr) (s : State) : Prop :=
  w = .portLockLoss n ∧ cause = 1 ∧ n < s.id.ports ∧ s.pstate n ≠ 0 ∧ s.pstate n ≠ 7
    ∨ w = .trainTimeout n ∧ cause = 3 ∧ s.trainLate n = true
    ∨ w = .identTimeout n ∧ cause = (if s.trainLate n then 3 else 5) ∧ s.pstate n = 2 ∧ (s.port n).heard = false
      ∧ (s.port n).ident + 10000000 ≤ s.refNs

theorem DownRow.gives {n cause : Nat} {w : Instr} {s : State} (h : DownRow n cause w s) : Gives w s (s.portDown n cause) := by
  rcases h with ⟨rfl, rfl, hn, hoff, hdown⟩ | ⟨rfl, rfl, hlate⟩ | ⟨rfl, rfl, hstate, hheard, hlong⟩
  · exact .of_done (if_pos ⟨hn, hoff, hdown⟩)
  · exact .of_done (if_pos hlate)
  · exact .of_done (if_pos ⟨hstate, hheard, hlong⟩)

theorem DownRow.cause_lt {n cause : Nat} {w : Instr} {s : State} (h : DownRow n cause w s) : cause < 2 ^ 4 := by
  rcases h with ⟨-, rfl, -⟩ | ⟨-, rfl, -⟩ | ⟨-, rfl, -⟩
  · decide
  · decide
  · split <;> decide

/-! ## The identity record of a part (R351) -/

section
variable {s t : State} (hf : ∀ g i, i < 2 ^ 24 → g.reg ≠ RegName.PORT_STAT → t.fld g i = s.fld g i)
include hf

theorem State.fwVersion_congr : t.fwVersion = s.fwVersion := by
  have hprimary : t.primary = s.primary := hf _ _ (by decide) (by decide)
  have hstate (m : Nat) : t.mcState m = s.mcState m := hf _ _ (by decide) (by split <;> decide)
  have hslot (m : Nat) : t.mcSlot m = s.mcSlot m := hf _ _ (by decide) (by split <;> decide)
  have hversion (m : Nat) : t.fld F.ROOT_IMG_VERSION (s.mcSlot m) = s.fld F.ROOT_IMG_VERSION (s.mcSlot m) := by
    refine hf _ _ ((s.fld_lt _ _).trans_le ?_) (by decide)
    split <;> decide
  rw [State.fwVersion, State.fwVersion, hprimary, hstate, hslot, hversion]

theorem State.role_congr {n : Nat} (hn : n < 48) (hr : (t.port n).role = (s.port n).role) : t.role n = s.role n := by
  have hreg : t.roleReg n = s.roleReg n := by
    rw [State.roleReg, State.roleReg, hf _ _ (by omega) (by decide)]
  rw [State.role, State.role, hr, hreg]

/-- R351: the record of a port reads no state of a port. -/
theorem State.ownRec_congr {n : Nat} (hn : n < 48) (hi : t.id = s.id) (hr : (t.port n).role = (s.port n).role) :
    t.ownRec n = s.ownRec n := by
  have hnode : t.node = s.node := hf _ _ (by decide) (by decide)
  have hsys : t.sysNo = s.sysNo := hf _ _ (by decide) (by decide)
  rw [State.ownRec, State.ownRec, State.role_congr hf hn hr, State.fwVersion_congr hf, hnode, hsys, hi,
    hf F.ROOT_BOOT_MINIMAL 0 (by decide) (by decide), hf F.TIME_MASTER_MASTER 0 (by decide) (by decide),
    hf F.ROUTE_NODE_ORIENT 0 (by decide) (by decide)]

end

/-! ## The steps of training (R349, R350) -/

theorem gives_laneLock {n : Nat} {s : State} (hp : s.pstate n = 1) (hs : (s.port n).step = 1) (lanes : Nat) :
    Gives (.laneLock n lanes) s (s.lanesPlaced n lanes) :=
  .of_done (if_pos ⟨hp, hs⟩)

theorem State.lanesPlaced_form (s : State) (n lanes : Nat) :
    (s.lanesPlaced n lanes).port n = { s.port n with lanes := lanes, step := 3, nulls := 0, epoch := s.refNs, slots := 0, cur := [] }
      ∧ s.lanesPlaced n lanes = { s with ports := (s.lanesPlaced n lanes).ports, regs := (s.lanesPlaced n lanes).regs } := by
  unfold State.lanesPlaced
  extract_lets placed
  refine ⟨?_, ?_⟩
  · rw [State.port_of_ports (State.setFld_ports ..), State.port_modPort]
  · rw [State.setFld, State.setReg_plain rfl]
    rfl

/-- R350: the oldest pair that has come is taken. -/
def State.pairTaken (s : State) (n t1 t2 t3 t4 : Nat) : State :=
  s.modPort n fun p => { p with probes := p.probes ++ [probePair t1 t2 t3 t4], pairs := p.pairs.drop 1 }

section
variable {n t1 t2 t3 t4 : Nat} {r : List (Nat × Nat × Nat × Nat)} {s : State}

theorem gives_probeExchange (hp : s.pstate n = 1) (hs : (s.port n).step = 4) (hr : (s.port n).pairs = (t1, t2, t3, t4) :: r) :
    Gives (.probeExchange n t1 t2 t3 t4) s (s.probe n t1 t2 t3 t4) :=
  .of_done (if_pos ⟨hp, hs, by rw [hr]; rfl⟩)

/-- R350: a pair before the sixteenth. -/
theorem State.probe_early (hl : (s.port n).probes.length < 15) : s.probe n t1 t2 t3 t4 = s.pairTaken n t1 t2 t3 t4 :=
  if_pos (by rw [List.length_append, List.length_singleton]; omega)

/-- R350: the sixteenth pair of a port whose latency is in bounds: IDENT begins. -/
theorem State.probe_last (hl : (s.port n).probes.length = 15)
    (hb : leastInt ((s.port n).probes ++ [probePair t1 t2 t3 t4]) ≤ 4000) :
    s.probe n t1 t2 t3 t4 = ((s.pairTaken n t1 t2 t3 t4).setFld F.PORT_STAT_LAT n
      (leastInt ((s.port n).probes ++ [probePair t1 t2 t3 t4]) * 500).toNat).enterIdent n :=
  (if_neg (by rw [List.length_append, List.length_singleton]; omega)).trans (if_neg (by omega))

end

/-- R349: IDENT begins with the port's record. -/
theorem State.enterIdent_form (s : State) (n : Nat) :
    (s.enterIdent n).pstate n = 2 ∧ ((s.enterIdent n).port n).step = 6 ∧ ((s.enterIdent n).port n).maint = (s.port n).maint ++ [s.ownRec n]
      ∧ s.sameButStates (s.enterIdent n) := by
  unfold State.enterIdent
  extract_lets p r ready
  obtain ⟨hstate, hframe, hports⟩ := ready.setPState_form n (st := 2) (by decide)
  have hready : s.sameButStates ready := rfl
  refine ⟨hstate, ?_, ?_, hready.trans hframe⟩ <;>
    rw [State.port_of_ports hports, State.port_setPort]

/-- R350: the latency of a port is measured. -/
theorem State.sameButStates_measured (s : State) (n t1 t2 t3 t4 v : Nat) :
    s.sameButStates ((s.pairTaken n t1 t2 t3 t4).setFld F.PORT_STAT_LAT n v) := by
  have hpair : s.sameButStates (s.pairTaken n t1 t2 t3 t4) := rfl
  exact hpair.trans (State.sameButStates_setFld rfl ..)

/-- R350: the record that the sixteenth pair sends is the one from before. -/
theorem State.ownRec_pairTaken {n : Nat} (hn : n < 48) (s : State) (t1 t2 t3 t4 v : Nat) :
    ((s.pairTaken n t1 t2 t3 t4).setFld F.PORT_STAT_LAT n v).ownRec n = s.ownRec n := by
  have hport : ((s.pairTaken n t1 t2 t3 t4).setFld F.PORT_STAT_LAT n v).port n = (s.pairTaken n t1 t2 t3 t4).port n :=
    State.port_of_ports (State.setFld_ports ..) n
  refine State.ownRec_congr (fun g i hi hg => ?_) hn (s.sameButStates_measured n t1 t2 t3 t4 v).id ?_
  · rw [State.fld_setFld_ne rfl _ _ (by omega) hi (.inl hg), State.pairTaken, State.fld_modPort]
  · rw [hport, State.pairTaken, State.port_modPort]

/-! ## Identity records (R349, R351, R352) -/

theorem gives_identityResend {n : Nat} {s : State} (hp : s.pstate n = 2) (hh : (s.port n).heard = false)
    (hl : (s.port n).sentId + 1000000 ≤ s.refNs) : Gives (.identityResend n) s (s.resendIdent n) :=
  .of_done (if_pos ⟨hp, hh, hl⟩)

section
variable {n : Nat} {s : State} {rec : List Byte} (hp : s.pstate n ∈ [2, 3, 4, 5, 6])
include hp

/-- R352: a record that fails its checks leaves the buffer it lay in. -/
theorem gives_neighbourRecord_bad (hr : recGood rec = false) : Gives (.neighbourRecord n rec) s (s.maintTake n rec) :=
  .of_done ((if_pos hp).trans (congrArg (done s) (if_neg (by rw [hr]; exact Bool.false_ne_true))))

theorem gives_neighbourRecord_good (hr : recGood rec = true) :
    Gives (.neighbourRecord n rec) s ((s.maintTake n rec).takeRecord n rec) :=
  .of_done ((if_pos hp).trans (congrArg (done s) (if_pos hr)))

end

theorem State.maintTake_form (s : State) (n : Nat) (rec : List Byte) :
    ((s.maintTake n rec).port n).nbr = (s.port n).nbr ∧ s.maintTake n rec = { s with ports := (s.maintTake n rec).ports } := by
  unfold State.maintTake
  extract_lets p
  split
  · exact ⟨by rw [State.port_setPort]; rfl, rfl⟩
  · exact ⟨rfl, rfl⟩

/-! ## The statement -/

/-- Settles O30: each row of training is its own operation, the record sent being that of the state before; each way DOWN is
`State.portDown`, which of a port that is not UP leaves the rest. -/
theorem portStates : Obligations.PortStates := by
  unfold Obligations.PortStates
  refine ⟨fun n s hn => ⟨fun hp hs lanes => ?locked, fun t1 t2 t3 t4 r hp hs hr => ⟨gives_probeExchange hp hs hr, fun hl => ?early,
      fun hl hb => ?last⟩, fun hp hh hl => ?resent, fun hp rec => ⟨fun hr => ?bad, gives_neighbourRecord_good hp⟩⟩,
    fun n cause w s _ (hrow : DownRow n cause w s) => ⟨hrow.gives, fun hup hacts => ?down⟩⟩
  case locked =>
    obtain ⟨hport, hframe⟩ := s.lanesPlaced_form n lanes
    refine (gives_laneLock hp hs lanes).completes (by rw [hframe]) (by rw [hframe]) ?_
    rw [hport]
    exact ⟨rfl, rfl, rfl, rfl, hframe⟩
  case early =>
    have hgives := State.probe_early hl ▸ gives_probeExchange hp hs hr
    have hport : (s.pairTaken n t1 t2 t3 t4).port n = _ := State.port_modPort ..
    refine hgives.completes rfl rfl ?_
    rw [hport, hr]
    exact ⟨rfl, rfl, hs, rfl⟩
  case last =>
    have hgives := State.probe_last hl hb ▸ gives_probeExchange hp hs hr
    generalize hv : (leastInt ((s.port n).probes ++ [probePair t1 t2 t3 t4]) * 500).toNat = v at hgives
    obtain ⟨hstate, hstep, hmaint, hframe⟩ := ((s.pairTaken n t1 t2 t3 t4).setFld F.PORT_STAT_LAT n v).enterIdent_form n
    have hframe := (s.sameButStates_measured n t1 t2 t3 t4 v).trans hframe
    refine hgives.completes hframe.pending hframe.id ⟨hstate, hstep, ?_⟩
    rw [hmaint, State.ownRec_pairTaken hn, State.port_of_ports (State.setFld_ports ..), State.pairTaken, State.port_modPort]
  case resent =>
    refine (gives_identityResend hp hh hl).completes rfl rfl ?_
    rw [State.resendIdent, State.port_modPort]
    exact ⟨rfl, rfl, rfl⟩
  case bad =>
    obtain ⟨hnbr, hframe⟩ := s.maintTake_form n rec
    exact (gives_neighbourRecord_bad hp hr).completes (by rw [hframe]) (by rw [hframe]) ⟨hnbr, hframe⟩
  case down =>
    obtain ⟨⟨hstate, hcause⟩, hport, hothers, hframe⟩ := State.portDown_form hup hacts hrow.cause_lt
    exact hrow.gives.completes hframe.pending hframe.id ⟨hstate, hcause, hport, hothers, hframe⟩

end Sys2Proof.Machine
end

section
/-! Control of a port (10_denian_links.md R349, R358, R360): writes of PORT_CTL and PORT_WIN that act, and those that are refused. -/

namespace Sys2Proof.Machine

/-! ## The rows -/

section
variable {s : State} {n : Nat} (hn : n < s.id.ports) (r : Requester)
include hn

theorem gives_portCtlEnable (on : Bool) : Gives (.portCtlEnable r n on) s (s.enablePort n on) := .of_done (if_pos hn)

theorem gives_portCtlReset : Gives (.portCtlReset r n) s (s.resetPort n) := .of_done (if_pos hn)

theorem gives_portWinWrite (v : Nat) : Gives (.portWinWrite r n v) s (s.writeWin n v) := .of_done (if_pos hn)

end

/-! ## Refusals (R358) -/

/-- R358: a port that the part lacks, or that a job uses. -/
def State.portForbidden (s : State) (n : Nat) : Prop := s.id.ports ≤ n ∨ s.schedBusy n = true

/-- A row that refuses a port the part lacks, and does what refuses a port that a job uses. -/
theorem State.portForbidden.gives {s u : State} {n : Nat} {c : Instr} {r : RegName} (h : s.portForbidden n)
    (hc : exec c s = if n < s.id.ports then done s u else done s (s.refuseWrite r n)) (hu : s.schedBusy n = true → u = s.refuseWrite r n) :
    Gives c s (s.refuseWrite r n) := by
  refine .of_done (hc.trans ?_)
  split
  case isTrue hn => rw [hu (h.resolve_left (Nat.not_le.2 hn))]
  case isFalse => rfl

theorem State.resetPort_busy {s : State} {n : Nat} (h : s.schedBusy n = true) : s.resetPort n = s.refuseWrite .PORT_CTL n :=
  if_pos (by rw [h, Bool.true_or])

theorem State.enablePort_busy {s : State} {n : Nat} (h : s.schedBusy n = true) : s.enablePort n false = s.refuseWrite .PORT_CTL n :=
  (if_neg Bool.false_ne_true).trans (if_pos h)

theorem State.writeWin_busy {s : State} {n : Nat} (h : s.schedBusy n = true) (v : Nat) : s.writeWin n v = s.refuseWrite .PORT_WIN n :=
  if_pos h

/-! ## Writes of PORT_CTL (R349, R358) -/

section
variable {s : State} {n : Nat}

theorem State.enablePort_trains (h0 : s.fld F.PORT_CTL_ENABLE n = 0) (hc : s.canAct (retrainAct n) = true) :
    s.enablePort n true = ((s.setFld F.PORT_CTL_ENABLE n 1).startAct (retrainAct n)).startTraining n :=
  (if_pos rfl).trans ((if_neg (by rw [h0]; decide)).trans (if_pos hc))

theorem State.enablePort_again (h1 : s.fld F.PORT_CTL_ENABLE n = 1) : s.enablePort n true = s := (if_pos rfl).trans (if_pos h1)

/-- The write of ENABLE leaves what the port shows of its state. -/
theorem State.pstate_disabled (s : State) (n : Nat) : (s.setFld F.PORT_CTL_ENABLE n 0).pstate n = s.pstate n :=
  State.fld_setFld_reg (g := F.PORT_STAT_STATE) rfl (by decide) ..

theorem State.downNow_disabled (s : State) (n : Nat) : (s.setFld F.PORT_CTL_ENABLE n 0).downNow n = s.downNow n := by
  rw [State.downNow, State.downNow, State.pstate_disabled, State.port_of_ports (State.setFld_ports ..), State.setFld_refNs]

/-- R349: a port that did not go DOWN in this ns is disabled: it stops where it is not off. -/
theorem State.enablePort_disables (hb : s.schedBusy n = false) (hd : s.downNow n = false) :
    s.enablePort n false =
      if s.pstate n = 0 then s.setFld F.PORT_CTL_ENABLE n 0 else (s.setFld F.PORT_CTL_ENABLE n 0).portStop n 0 0 := by
  simp only [State.enablePort, hb, State.downNow_disabled, hd, State.pstate_disabled, Bool.false_eq_true, if_false]

theorem State.resetPort_trains (hb : s.schedBusy n = false) (hc : s.canAct (retrainAct n) = true) (he : s.fld F.PORT_CTL_ENABLE n ≠ 0) :
    s.resetPort n = ((if s.pstate n == 3 then s.leaveUp n else s).startAct (retrainAct n)).startTraining n :=
  (if_neg (by simp [hb, hc])).trans (if_neg he)

theorem State.downNow_off (h : s.pstate n = 0) : s.downNow n = false := by
  rw [State.downNow, h]
  rfl

end

/-! ## Writes of PORT_WIN (R360) -/

theorem State.writeWin_taken {s : State} {n v w : Nat} (hb : s.schedBusy n = false) (hw : winAfter (s.reg .PORT_WIN n).toNat v = some w) :
    s.writeWin n v = s.setReg .PORT_WIN n (BitVec.ofNat 64 w) := by
  simp only [State.writeWin, hb, hw, Bool.false_eq_true, if_false]

/-! ## The statement -/

/-- Settles O31: a write of PORT_CTL that may act is the operation its value names, and one of PORT_WIN writes that register alone; the rows
of a port that a job uses, or that the part lacks, refuse. -/
theorem portControl : Obligations.PortControl := by
  unfold Obligations.PortControl
  refine fun r n v s h48 => ⟨fun hn => ⟨fun h0 hc => State.enablePort_trains h0 hc ▸ gives_portCtlEnable hn r true, fun h1 => ?again,
      fun hb hoff => ?off, fun hb hin hd => ?disabled, fun hb hc he => ⟨fun hup => ?reset, fun hup => ?leaves⟩, fun w hb hw => ?window⟩,
    fun (h : s.portForbidden n) => ⟨h.gives rfl State.resetPort_busy, h.gives rfl State.enablePort_busy,
      h.gives rfl fun hb => State.writeWin_busy hb v⟩⟩
  case again =>
    have hgives := gives_portCtlEnable hn r true
    rw [State.enablePort_again h1] at hgives
    exact hgives
  case off =>
    have hgives := gives_portCtlEnable hn r false
    rw [State.enablePort_disables hb (State.downNow_off hoff), if_pos hoff] at hgives
    exact hgives.completes (State.setFld_pending ..) (State.setFld_id ..) ⟨State.fld_setFld rfl rfl .., State.sameButRegs_setFld rfl ..⟩
  case disabled =>
    have hgives := gives_portCtlEnable hn r false
    rwa [State.enablePort_disables hb hd, if_neg hin] at hgives
  case reset =>
    have hgives := gives_portCtlReset hn r
    rwa [State.resetPort_trains hb hc he, if_neg (by simpa using hup)] at hgives
  case leaves =>
    have hgives := gives_portCtlReset hn r
    rwa [State.resetPort_trains hb hc he, if_pos (by simpa using hup)] at hgives
  case window =>
    have hgives := gives_portWinWrite hn r v
    rw [State.writeWin_taken hb hw] at hgives
    refine hgives.completes (State.setReg_pending ..) (State.setReg_id ..) ⟨State.reg_setReg rfl .., fun r' i hi hne => ?_, ?_⟩
    · refine State.reg_setReg_ne rfl _ _ (by omega) hi ?_
      by_contra! hsame
      exact hne (Prod.ext hsame.1 hsame.2)
    · rw [State.setReg_plain rfl]

end Sys2Proof.Machine
end

section
/-! What the operations of the fabric leave alone (11_fabric.md): its discards and counts, the tags, the networks and the completions. -/

namespace Sys2Proof.Machine

theorem Gives.of_eq {c : Instr} {s t u : State} (h : Gives c s t) (e : t = u) : Gives c s u := e ▸ h

/-! ## Discards and counts (R374, R388) -/

theorem State.sameButLog.fab {s t : State} (h : s.sameButLog t) : t.fab = s.fab := by rw [h]

theorem State.fabDisc_occ {f : Fld} (h : psReg f.reg = none) (s : State) : (s.fabDisc f).occ = s.occ ++ [12] := by
  rw [State.fabDisc, State.addFld_form h]
  rfl

theorem State.fld_fabDisc {f : Fld} (h : psReg f.reg = none) (hf : f.fits = true) (s : State) :
    (s.fabDisc f).fld f 0 = min (2 ^ f.width - 1) (s.fld f 0 + 1) :=
  State.fld_addFld h hf s 0 1

/-- Two states differ at most in registers and in the notes of hardware changes: something is counted, and nothing raised. -/
def State.sameButTally (s t : State) : Prop := t = { s with regs := t.regs, hw := t.hw }

theorem State.sameButTally_refl (s : State) : s.sameButTally s := rfl

theorem State.sameButTally.trans {s t u : State} (h : s.sameButTally t) (k : t.sameButTally u) : s.sameButTally u := by
  unfold State.sameButTally at *
  rw [h] at k
  exact k

theorem State.sameButTally.fab {s t : State} (h : s.sameButTally t) : t.fab = s.fab := by rw [h]

theorem State.sameButTally.ite (p : Prop) [Decidable p] {s t u : State} (ht : s.sameButTally t) (hu : s.sameButTally u) :
    s.sameButTally (if p then t else u) :=
  iteInduction (motive := fun v => s.sameButTally v) (fun _ => ht) fun _ => hu

theorem State.sameButTally_addFld {f : Fld} (h : psReg f.reg = none) (s : State) (i k : Nat) : s.sameButTally (s.addFld f i k) :=
  State.addFld_form h s i k

theorem State.sameButTally_choice {f : Fld} (h : psReg f.reg = none) (s : State) (q : Nat) : s.sameButTally (s.choice q f) :=
  (State.sameButTally_addFld rfl ..).trans (State.sameButTally_addFld h ..)

/-! ## Tags and networks -/

/-- Two states differ at most in the tags. -/
def State.sameButTags (s t : State) : Prop := t = { s with fab := { s.fab with tags := t.fab.tags } }

@[simp] theorem State.tag_setTag (s : State) (g : Nat) (v : Tag) : (s.setTag g v).tag g = v := SMap.get_put_self ..

theorem State.tag_setTag_ne (s : State) {g k : Nat} (v : Tag) (h : k ≠ g) : (s.setTag g v).tag k = s.tag k := SMap.get_put_ne _ _ _ _ h

theorem State.tag_of_tags {s t : State} (h : t.fab.tags = s.fab.tags) (k : Nat) : t.tag k = s.tag k := by rw [State.tag, State.tag, h]

@[simp] theorem State.net_setNet (s : State) (k : Nat) (v : Net) : (s.setNet k v).net k = v := SMap.get_put_self ..

theorem State.net_setNet_ne (s : State) {k j : Nat} (v : Net) (h : j ≠ k) : (s.setNet k v).net j = s.net j := SMap.get_put_ne _ _ _ _ h

/-! ## Deliveries (R374) -/

/-- A request is delivered to this part. -/
def State.withRequest (s : State) (e : Option Nat × Bool × Frame) : State := { s with fab := { s.fab with inReq := s.fab.inReq ++ [e] } }

/-- A reply is delivered to this part. -/
def State.withReply (s : State) (f : Frame) : State := { s with fab := { s.fab with inRsp := s.fab.inRsp ++ [f] } }

/-! ## Completions (R383, R313, R314) -/

/-- R313: a delivered completion counts choices, and does no more. -/
theorem State.sameButTally_countDelivery (s : State) (r : ReqSpec) (status : Nat) : s.sameButTally (s.countDelivery r status) := by
  unfold State.countDelivery
  split
  · exact s.sameButTally_refl
  · refine .ite _ ?_ s.sameButTally_refl
    extract_lets t
    have ht : s.sameButTally t := .ite _ (State.sameButTally_choice rfl ..) s.sameButTally_refl
    exact .ite _ (ht.trans (State.sameButTally_choice rfl ..)) ht

/-- A timeout and a lost link are counted where they complete a request. -/
def State.outcomeCounted (s : State) (status : Nat) : State :=
  if status = stTIMEOUT then s.addFld F.ROUTE_ERR1_TIMEOUT 0 1
  else if status = stLINK_LOST then s.addFld F.ROUTE_ERR1_LINKLOST 0 1 else s

theorem State.sameButTally_outcomeCounted (s : State) (status : Nat) : s.sameButTally (s.outcomeCounted status) :=
  .ite _ (State.sameButTally_addFld rfl ..) (.ite _ (State.sameButTally_addFld rfl ..) s.sameButTally_refl)

/-- A completion is delivered. -/
def State.withDone (s : State) (d : ReqDone) : State := { s with fab := { s.fab with dones := s.fab.dones ++ [d] } }

theorem State.sameButTally.withDone {s t : State} (h : s.sameButTally t) (d : ReqDone) : (s.withDone d).sameButTally (t.withDone d) := by
  rw [h]
  rfl

theorem State.complete_eq (s : State) (r : ReqSpec) (status : Nat) (data : List Byte) :
    s.complete r status data =
      if (s.releaseAt r).beat.isSome ∧ (s.releaseAt r).q.isSome then (s.outcomeCounted status).withDone ⟨s.releaseAt r, status, data⟩
      else (((s.outcomeCounted status).withDone ⟨s.releaseAt r, status, data⟩).landRead ⟨s.releaseAt r, status, data⟩).countDelivery
        (s.releaseAt r) status := rfl

theorem State.landRead_fab (s : State) (d : ReqDone) : (s.landRead d).fab = s.fab := by
  have h : s.sameButMemory (s.landRead d) := State.sameButMemory_ite _ (s.sameButMemory_writeMem ..) s.sameButMemory_refl
  rw [h]

/-- R383: of the fabric a completion changes the completions alone. -/
theorem State.complete_fab (s : State) (r : ReqSpec) (status : Nat) (data : List Byte) :
    (s.complete r status data).fab = (s.withDone ⟨s.releaseAt r, status, data⟩).fab := by
  have hdone := (s.sameButTally_outcomeCounted status).withDone ⟨s.releaseAt r, status, data⟩
  rw [State.complete_eq]
  split
  · exact hdone.fab
  · rw [(State.sameButTally_countDelivery ..).fab, State.landRead_fab, hdone.fab]

theorem State.complete_tag (s : State) (r : ReqSpec) (status : Nat) (data : List Byte) (k : Nat) :
    (s.complete r status data).tag k = s.tag k :=
  State.tag_of_tags (congrArg Fabric.tags (s.complete_fab r status data)) k

/-- R383: a request that fails lands nothing: it is delivered and counted. -/
theorem State.complete_failed (s : State) (r : ReqSpec) {status : Nat} (h : status ≠ stOK) (data : List Byte) :
    (s.withDone ⟨s.releaseAt r, status, data⟩).sameButTally (s.complete r status data) := by
  have hdone := (s.sameButTally_outcomeCounted status).withDone ⟨s.releaseAt r, status, data⟩
  rw [State.complete_eq]
  refine .ite _ hdone (hdone.trans ?_)
  rw [State.landRead, if_neg fun hland => h hland.2.1]
  exact State.sameButTally_countDelivery ..

/-! ## Timers (R382) -/

theorem State.startTimer_of_req {s : State} {g : Nat} {r : ReqSpec} (h : (s.tag g).req = some r) :
    s.startTimer g = s.setTag g { s.tag g with sent := some s.gtc, expires := tickAt (s.gtc + s.reqNs r) } := by
  simp only [State.startTimer, h]

end Sys2Proof.Machine
end

section
/-! Requests that take tags (11_fabric.md R376, R381): the tag taken, and where the frame of the request goes. -/

namespace Sys2Proof.Machine

theorem gives_requestInject (r : ReqSpec) (s : State) : Gives (.requestInject r) s (s.request r) := .of_done rfl

/-! ## The lowest free tag (R381) -/

theorem State.freeTag_eq_none_iff (s : State) : s.freeTag = none ↔ ∀ g < 4096, (s.tag g).state ≠ .free := by
  simp [State.freeTag, List.find?_eq_none]

theorem State.freeTag_eq_some {s : State} {g : Nat} (h : s.freeTag = some g) :
    g < 4096 ∧ (s.tag g).state = .free ∧ ∀ k < g, (s.tag k).state ≠ .free := by
  obtain ⟨hfree, hlt, hlow⟩ := List.find?_range_eq_some.1 h
  exact ⟨List.mem_range.1 hlt, by simpa using hfree, fun k hk => by simpa using hlow k hk⟩

/-! ## A tag is taken -/

/-- R381: the generation a request carries in a tag. -/
def State.nextGen (s : State) (g : Nat) : Nat := ((s.tag g).gen + 1) % 16

/-- The tag is taken by the request, which leaves by a port or stays within the part. -/
def State.tagTaken (s : State) (r : ReqSpec) (g : Nat) (port : Option Nat) : State :=
  s.setTag g ⟨.out, s.nextGen g, some r, port, none, 0, 0⟩

/-- R381: a request has taken a tag: it is in OUT under the next generation, and no other tag has changed. -/
structure State.TagOut (s : State) (r : ReqSpec) (g : Nat) (t : State) : Prop where
  state : (t.tag g).state = .out
  gen : (t.tag g).gen = s.nextGen g
  req : (t.tag g).req = some r
  others : ∀ k, k ≠ g → t.tag k = s.tag k

section
variable (s : State) (r : ReqSpec) (g : Nat)

theorem State.tagOut_tagTaken (port : Option Nat) : s.TagOut r g (s.tagTaken r g port) := by
  refine ⟨?_, ?_, ?_, fun k hk => State.tag_setTag_ne _ _ hk⟩ <;> rw [State.tagTaken, State.tag_setTag]

/-- R382: the timer of a request that stays within the part starts as it takes its tag. -/
theorem State.startTimer_tagTaken (port : Option Nat) :
    s.TagOut r g ((s.tagTaken r g port).startTimer g) ∧ s.sameButTags ((s.tagTaken r g port).startTimer g) := by
  obtain ⟨hstate, hgen, hreq, hothers⟩ := s.tagOut_tagTaken r g port
  rw [State.startTimer_of_req hreq]
  refine ⟨⟨?_, ?_, ?_, fun k hk => (State.tag_setTag_ne _ _ hk).trans (hothers k hk)⟩, rfl⟩ <;> rwa [State.tag_setTag]

end

theorem State.TagOut.of_tags {s t u : State} {r : ReqSpec} {g : Nat} (h : s.TagOut r g t) (hu : u.fab.tags = t.fab.tags) : s.TagOut r g u := by
  obtain ⟨hstate, hgen, hreq, hothers⟩ := h
  constructor <;> simpa only [State.tag_of_tags hu]

/-! ## Injection (R336, R381) -/

section
variable {s : State} {r : ReqSpec}

theorem State.request_injects (h : s.injecting = true) : s.request r = s.inject r := if_pos h

theorem State.request_held (h : s.injecting = false) : s.request r = s.setNet 0 { s.net 0 with held := (s.net 0).held ++ [r] } := by
  rw [State.request, h]
  rfl

theorem State.inject_noTag (h : s.freeTag = none) : s.inject r = s.complete r stNO_RESOURCE [] := by
  unfold State.inject
  rw [h]

variable {g : Nat} (hg : s.freeTag = some g)
include hg

theorem State.inject_here (h : s.route (s.reqFrame r g (s.nextGen g)) = .here) :
    s.inject r = ((s.tagTaken r g none).startTimer g).withRequest (none, false, s.reqFrame r g (s.nextGen g)) := by
  unfold State.inject
  rw [hg]
  dsimp only
  rw [State.nextGen] at h
  rw [h]
  rfl

theorem State.inject_discard (h : s.route (s.reqFrame r g (s.nextGen g)) = .discard) :
    s.inject r = ((s.tagTaken r g none).startTimer g).noRoute := by
  unfold State.inject
  rw [hg]
  dsimp only
  rw [State.nextGen] at h
  rw [h]
  rfl

theorem State.inject_port {n : Nat} (h : s.route (s.reqFrame r g (s.nextGen g)) = .port n)
    (hfit : frameFlitCount (s.reqFrame r g (s.nextGen g)).bytes ≤ s.dynSlots n) :
    s.inject r = (s.tagTaken r g (some n)).modPort n fun p =>
      p.putFrame { s.reqFrame r g (s.nextGen g) with cls := s.hopClass none 0 n } s.refNs 1024 := by
  unfold State.inject
  rw [hg]
  dsimp only
  rw [State.nextGen] at h
  rw [h]
  exact if_neg (Nat.not_lt.2 hfit)

end

/-! ## The statement -/

/-- Settles O32: the request is injected with the lowest free tag by the lemma for its route, or completes, or is held. -/
theorem requestsTakeTags : Obligations.RequestsTakeTags := by
  unfold Obligations.RequestsTakeTags
  refine fun r s => ⟨s.freeTag_eq_none_iff, fun hi => ⟨fun hn => ?none, fun g hg => ?tag⟩, fun hi => ?held⟩
  all_goals have hgives := gives_requestInject r s
  case none =>
    have hfab := s.complete_fab r stNO_RESOURCE []
    have hsame := s.complete_failed r (status := stNO_RESOURCE) (by decide) []
    rw [State.request_injects hi, State.inject_noTag hn] at hgives
    refine hgives.completes (by rw [hsame]; rfl) (by rw [hsame]; rfl) ⟨⟨_, congrArg Fabric.dones hfab, rfl, rfl, rfl⟩,
      hfab ▸ rfl, by rw [hsame]; rfl, hfab ▸ rfl, ?_⟩
    rw [hsame]
    rfl
  case tag =>
    obtain ⟨hlt, hfree, hlow⟩ := State.freeTag_eq_some hg
    obtain ⟨hout, hsame⟩ := s.startTimer_tagTaken r g none
    rw [State.request_injects hi] at hgives
    refine ⟨hlt, hfree, hlow, rfl, rfl, fun hr => ?here, fun hr => ?discard, fun n hr hfit => ?port⟩
    case here =>
      rw [State.inject_here hg hr] at hgives
      obtain ⟨hstate, hgen, hreq, hothers⟩ := hout
      refine hgives.completes ?_ ?_ ⟨hstate, hgen, hreq, ?_, hothers, ?_⟩ <;> rw [hsame] <;> rfl
    case discard =>
      rw [State.inject_discard hg hr] at hgives
      generalize (s.tagTaken r g none).startTimer g = t at hgives hout hsame
      have hlog : t.sameButLog t.noRoute := State.sameButLog_fabDisc rfl t
      obtain ⟨hstate, hgen, hreq, hothers⟩ := hout.of_tags (congrArg Fabric.tags hlog.fab)
      have hocc : t.noRoute.occ = s.occ ++ [12] := (State.fabDisc_occ rfl t).trans (by rw [hsame])
      refine hgives.completes (hlog.pending.trans ?_) (hlog.id.trans ?_) ⟨hstate, hgen, hreq, hocc, hlog.ports.trans ?_, hothers,
        by rw [hlog, hsame]⟩ <;> rw [hsame]
    case port =>
      rw [State.inject_port hg hr hfit] at hgives
      obtain ⟨hstate, hgen, hreq, hothers⟩ := s.tagOut_tagTaken r g (some n)
      exact hgives.completes rfl rfl ⟨hstate, hgen, hreq, congrArg Tag.port (State.tag_setTag ..), State.port_modPort .., hothers, rfl⟩
  case held =>
    rw [State.request_held hi] at hgives
    exact hgives.completes rfl rfl ⟨by rw [State.net_setNet], rfl, rfl⟩

end Sys2Proof.Machine
end

section
/-! The routing stage (11_fabric.md R369, R372 to R374): a frame that comes by a port is delivered, goes on, or is discarded. -/

namespace Sys2Proof.Machine

section
variable {s : State} {n : Nat} {f : Frame}

theorem gives_frameArrive (hup : s.frameUp n = true) : Gives (.frameArrive (some n) f) s (s.frameArrive n f) := .of_done (if_pos hup)

/-- A frame that does not stand in its port's buffer goes through the routing stage and frees no place there. -/
theorem State.frameArrive_fresh (h : (s.port n).frames.contains f = false) : s.frameArrive n f = s.frameFrom n false f :=
  if_neg (by rw [h]; decide)

/-- R373, R374: a request, or a reply, is delivered to this part. -/
theorem State.frameFrom_delivered (hd : f.dst = s.node) (hop : opOk f.net f.op = true) :
    s.frameFrom n false f =
      if f.net = 0 then s.withRequest (some n, false, f) else s.withReply f := by
  simp only [State.frameFrom, if_pos hd, State.frameHere, hop, Bool.not_true, Bool.false_eq_true, if_false]
  rfl

variable (hd : f.dst ≠ s.node) (hr : s.role n ≠ 0x10)
include hd hr

/-- R369: a frame that has made its last hop is discarded. -/
theorem State.frameFrom_hopLimit (h : 192 ≤ f.hops) : s.frameFrom n false f = s.fabDisc F.ROUTE_ERR1_HOPLIMIT := by
  simp only [State.frameFrom, if_neg hd, if_neg hr, if_pos h, Bool.false_eq_true, if_false]

theorem State.frameFrom_noRoute (h : f.hops < 192) (hroute : s.route f = .discard) : s.frameFrom n false f = s.noRoute := by
  simp only [State.frameFrom, if_neg hd, if_neg hr, if_neg (Nat.not_le.2 h), hroute, Bool.false_eq_true, if_false]

theorem State.frameFrom_port {m : Nat} (h : f.hops < 192) (hroute : s.route f = .port m) (hfit : frameFlitCount f.bytes ≤ s.dynSlots m) :
    s.frameFrom n false f =
      s.modPort m fun p => p.putFrame { f with hops := f.hops + 1, cls := s.hopClass (some n) f.cls m } s.refNs n := by
  simp only [State.frameFrom, if_neg hd, if_neg hr, if_neg (Nat.not_le.2 h), hroute, if_neg (Nat.not_lt.2 hfit), Bool.false_eq_true, if_false]

end

/-- A row that ends in a discard of the fabric counts it and raises source 12. -/
theorem Gives.discards {c : Instr} {s : State} {e : Fld} (he : psReg e.reg = none) (h : Gives c s (s.fabDisc e)) :
    Completes c s fun t => t.occ = s.occ ++ [12] ∧ t = { s with regs := t.regs, hw := t.hw, occ := t.occ } :=
  have hsame := s.sameButLog_fabDisc he
  h.completes hsame.pending hsame.id ⟨s.fabDisc_occ he, hsame⟩

/-! ## The statement -/

/-- Settles O33: a frame that does not stand in its port's buffer goes through the routing stage, a lemma above for each of its ends. -/
theorem framesRouted : Obligations.FramesRouted := by
  unfold Obligations.FramesRouted
  refine fun n f s hup hfresh => ⟨fun hd hop => ?delivered, fun hd hr => ⟨fun hlimit => ?limit, fun hhops hroute => ?discard,
    fun m hhops hroute hfit => ?port⟩⟩
  all_goals
    have hgives := gives_frameArrive (f := f) hup
    rw [State.frameArrive_fresh hfresh] at hgives
  case delivered =>
    rw [State.frameFrom_delivered hd hop] at hgives
    split at hgives
    case isTrue h0 => exact hgives.completes rfl rfl ⟨fun _ => ⟨rfl, rfl⟩, fun h => absurd h0 h, rfl, rfl⟩
    case isFalse h0 => exact hgives.completes rfl rfl ⟨fun h => absurd h h0, fun _ => ⟨rfl, rfl⟩, rfl, rfl⟩
  case limit =>
    rw [State.frameFrom_hopLimit hd hr hlimit] at hgives
    exact hgives.discards rfl
  case discard =>
    rw [State.frameFrom_noRoute hd hr hhops hroute] at hgives
    exact hgives.discards rfl
  case port =>
    rw [State.frameFrom_port hd hr hhops hroute hfit] at hgives
    exact hgives.completes rfl rfl ⟨State.port_modPort .., fun k hk => State.port_modPort_ne _ _ hk, rfl⟩

end Sys2Proof.Machine
end

section
/-! How tags leave OUT and RETIRE (11_fabric.md R382, R383, Table 11.7): by their reply, by their timer, and by the end of their time. -/

namespace Sys2Proof.Machine

section
variable {s : State}

/-! ## Rows -/

theorem gives_replyArrive {f : Frame} (hnet : f.net = 1) (hop : opOk 1 f.op = true) (hd : f.dst = s.node) :
    Gives (.replyArrive none f) s (s.takeReply f) :=
  .of_done ((if_pos ⟨hnet, hop⟩).trans (if_pos (.inl hd)))

theorem gives_requestTimeout {g : Nat} (h : s.timerDue g = true) : Gives (.requestTimeout g) s (s.retireTag g stTIMEOUT) :=
  .of_done (if_pos h)

theorem gives_retireExpiry {g : Nat} (hs : (s.tag g).state = .retire) (hu : (s.tag g).until_ ≤ s.gtc) :
    Gives (.retireExpiry g) s (s.setTag g { s.tag g with state := .free, req := none, port := none, sent := none }) :=
  .of_done (if_pos ⟨hs, hu⟩)

/-! ## Replies (R383) -/

/-- A reply leaves the delivered replies. -/
def State.replyTaken (s : State) (f : Frame) : State := { s with fab := { s.fab with inRsp := s.fab.inRsp.erase f } }

/-- R383: a reply of the generation of its tag in OUT frees the tag and completes its request. -/
theorem State.takeReply_matched {f : Frame} {r : ReqSpec} (hs : (s.tag f.tag).state = .out) (hr : (s.tag f.tag).req = some r)
    (hg : (s.tag f.tag).gen = f.gen) :
    s.takeReply f = ((s.replyTaken f).setTag f.tag { s.tag f.tag with state := .free, req := none, port := none, sent := none }).complete
      r f.status f.payload := by
  have hv : (s.replyTaken f).tag f.tag = s.tag f.tag := rfl
  rw [State.replyTaken] at hv
  simp only [State.takeReply, hv, hs, hr, if_pos hg]
  rfl

/-- R383: any other reply is late, and counted. -/
theorem State.takeReply_late {f : Frame} (h : (s.tag f.tag).state ≠ .out ∨ (s.tag f.tag).gen ≠ f.gen) :
    s.takeReply f = (s.replyTaken f).addFld F.ROUTE_ERR0_LATE_COMPLETION 0 1 := by
  unfold State.takeReply
  extract_lets t v
  split
  case h_1 r hs hr => exact if_neg (h.resolve_left fun hne => hne hs)
  case h_2 => rfl

/-! ## Timers (R382) -/

theorem State.retireTag_of_req {g status : Nat} {r : ReqSpec} (h : (s.tag g).req = some r) :
    s.retireTag g status = (s.setTag g { s.tag g with state := .retire, until_ := s.gtc + s.reqNs r }).complete r status [] := by
  simp only [State.retireTag, h]

end

/-! ## The statement -/

/-- Settles O35: the tag is set by the row's own operation, and the completion that follows leaves the tags alone. -/
theorem tagsMove : Obligations.TagsMove := by
  unfold Obligations.TagsMove
  refine fun s => ⟨fun f hnet hop hd => ⟨fun r hs hr hg => ?matched, fun hlate => ?late⟩, fun g r hdue hr => ?timeout,
    fun g hs hu => ?expiry⟩
  case matched =>
    have hgives := gives_replyArrive hnet hop hd
    rw [State.takeReply_matched hs hr hg] at hgives
    refine ⟨_, hgives, ?_, ?_, congrArg Fabric.dones (State.complete_fab ..),
      fun k hk => (State.complete_tag ..).trans (State.tag_setTag_ne _ _ hk)⟩
    · exact congrArg Tag.state ((State.complete_tag ..).trans (State.tag_setTag ..))
    · exact (congrArg Tag.gen ((State.complete_tag ..).trans (State.tag_setTag ..))).trans hg
  case late =>
    have hgives := gives_replyArrive hnet hop hd
    have hsame := State.sameButTally_addFld (f := F.ROUTE_ERR0_LATE_COMPLETION) rfl (s.replyTaken f) 0 1
    rw [State.takeReply_late hlate] at hgives
    exact hgives.completes (State.addFld_pending ..) (State.addFld_id ..)
      ⟨by rw [hsame.fab]; rfl, by rw [hsame.fab]; rfl, State.fld_addFld rfl rfl .., by rw [hsame]; rfl⟩
  case timeout =>
    have hgives := gives_requestTimeout hdue
    have hsame := State.complete_failed (s.setTag g { s.tag g with state := .retire, until_ := s.gtc + s.reqNs r }) r
      (status := stTIMEOUT) (by decide) []
    rw [State.retireTag_of_req hr] at hgives
    refine hgives.completes (by rw [hsame]; rfl) (by rw [hsame]; rfl) ⟨?_, congrArg Fabric.dones (State.complete_fab ..), ?_,
      fun k hk => (State.complete_tag ..).trans (State.tag_setTag_ne _ _ hk), by rw [hsame]; rfl⟩ <;>
    rw [State.complete_tag, State.tag_setTag]
  case expiry =>
    exact (gives_retireExpiry hs hu).completes rfl rfl ⟨by rw [State.tag_setTag], by rw [State.tag_setTag],
      fun k hk => State.tag_setTag_ne _ _ hk, rfl⟩

end Sys2Proof.Machine
end

section
/-! The service of requests at their target (11_fabric.md R379, R380; 17_mailbox.md R534): the slots that an access waits for, the checks
that turn a request away, and the RD, WR and MSG that are served. -/

namespace Sys2Proof.Machine

/-! ## What the checks of the target look at (R380) -/

/-- Two states differ at most in the fabric, in the ports and in the tier-columns, none of which the target's checks look at. -/
def State.sameTarget (s t : State) : Prop := t = { s with fab := t.fab, ports := t.ports, cols := t.cols }

section
variable {s t : State}

theorem State.sameTarget.trans {u : State} (h : s.sameTarget t) (k : t.sameTarget u) : s.sameTarget u := by
  unfold State.sameTarget at *
  rw [h] at k
  exact k

theorem State.sameTarget.targetStatus (h : s.sameTarget t) (a n jobid : Nat) : t.targetStatus a n jobid = s.targetStatus a n jobid := by
  rw [h]
  rfl

theorem State.sameTarget.frameSlots (h : s.sameTarget t) (from_ : Option Nat) (a : Nat) : t.frameSlots from_ a = s.frameSlots from_ a := by
  rw [h]
  rfl

theorem State.sameTarget_takeReq (s : State) (e : Option Nat × Bool × Frame) : s.sameTarget (s.takeReq e) := by
  unfold State.takeReq
  split <;> rfl

end

/-! ## Slots (R201, R380) -/

theorem State.sameTarget_passedSlot {s t : State} {tc owner : Nat} (h : s.passedSlot tc owner = some t) : s.sameTarget t := by
  unfold State.passedSlot at h
  split at h
  case h_1 => cases h
  case h_2 =>
    split at h
    case isFalse => cases h
    case isTrue =>
      split at h
      case h_2 => cases h
      case h_1 =>
        split at h
        case isFalse => cases h
        case isTrue =>
          cases h
          rfl

/-- R380: the slots that an access takes are marked in their tier-columns. -/
theorem State.sameTarget_takeUpTo (s : State) (need : List (Nat × Nat)) (got : Nat) : s.sameTarget (s.takeUpTo need got).1 := by
  refine foldl_keeps (fun acc : State × Nat × Bool => s.sameTarget acc.1) _ (fun acc u hacc => ?_) _ (s, got, false) rfl
  split
  · exact hacc
  · split
    case h_1 t ht => exact hacc.trans (State.sameTarget_passedSlot ht)
    case h_2 => exact hacc

theorem State.takeUpTo_nil (s : State) (got : Nat) : s.takeUpTo [] got = (s, got) := by
  rw [State.takeUpTo, List.drop_nil]
  rfl

/-- R380: a row serves its request once the slots in `need` have come, and else keeps the count of those that have; `got` of them had come
before, and `note` writes the count. -/
def State.slotRow (s : State) (need : List (Nat × Nat)) (got : Nat) (note : State → Nat → State) (serve : State → State) : Res :=
  let r := s.takeUpTo need got
  if need.length ≤ r.2 then done s (serve (note r.1 0)) else done s (note r.1 r.2)

section
variable {c : Instr} {s : State} {need : List (Nat × Nat)} {got : Nat} {note : State → Nat → State} {serve : State → State}
  (h : exec c s = s.slotRow need got note serve)
include h

/-- A row of a request that is turned away serves it at once. -/
theorem Gives.of_slotRow_noNeed (hneed : need = []) : Gives c s (serve (note s 0)) := by
  rw [hneed, State.slotRow, State.takeUpTo_nil] at h
  exact .of_done (h.trans (if_pos (Nat.zero_le _)))

theorem Gives.of_slotRow_waits (hlt : (s.takeUpTo need got).2 < need.length) :
    Gives c s (note (s.takeUpTo need got).1 (s.takeUpTo need got).2) :=
  .of_done (h.trans (if_neg (Nat.not_le.2 hlt)))

theorem Gives.of_slotRow_serves (hle : need.length ≤ (s.takeUpTo need got).2) :
    Gives c s (serve (note (s.takeUpTo need got).1 0)) :=
  .of_done (h.trans (if_pos hle))

end

/-! ## RD (R380) -/

/-- R380: the status of a read: a LEN out of range is a BAD_ARG. -/
def State.rdStatus (s : State) (f : Frame) : Nat :=
  if frameLen f = 0 ∨ 4064 < frameLen f then stBAD_ARG else s.targetStatus f.addr (frameLen f) (frameJob f)

/-- R380: the slots that a read needs, none where it is turned away. -/
def State.rdNeed (s : State) (e : Option Nat × Bool × Frame) : List (Nat × Nat) :=
  if s.rdStatus e.2.2 = stOK ∧ s.frameSlots e.1 e.2.2.addr = true then s.slotNeed e.1 e.2.2.addr (frameLen e.2.2) false else []

/-- A read has taken `n` of its slots. -/
def State.withRdGot (s : State) (n : Nat) : State := { s with fab := { s.fab with rdGot := n } }

theorem State.sameTarget_withRdGot (s : State) (n : Nat) : s.sameTarget (s.withRdGot n) := rfl

section
variable {s : State}

theorem State.rdStatus_badLen {f : Frame} (h : frameLen f = 0 ∨ 4064 < frameLen f) : s.rdStatus f = stBAD_ARG := if_pos h

theorem State.rdStatus_goodLen {f : Frame} (h1 : 1 ≤ frameLen f) (h2 : frameLen f ≤ 4064) :
    s.rdStatus f = s.targetStatus f.addr (frameLen f) (frameJob f) :=
  if_neg (by omega)

theorem State.sameTarget.rdStatus {t : State} (h : s.sameTarget t) (f : Frame) : t.rdStatus f = s.rdStatus f := by
  rw [State.rdStatus, State.rdStatus, h.targetStatus]

theorem exec_rd {e : Option Nat × Bool × Frame} (he : s.firstReq 1 = some e) :
    exec .rd s = s.slotRow (s.rdNeed e) s.fab.rdGot State.withRdGot fun t => t.serveRd e := by
  show execRd s = _
  unfold execRd
  split
  case h_2 hnone => cases he.symm.trans hnone
  case h_1 e' he' =>
    obtain rfl := Option.some.inj (he.symm.trans he')
    extract_lets f ok need r got
    have hok : ok = true ↔ s.rdStatus f = stOK ∧ s.frameSlots e.1 f.addr = true := by
      by_cases hlen : 1 ≤ frameLen f ∧ frameLen f ≤ 4064
      · simp [ok, State.rdStatus_goodLen hlen.1 hlen.2, Nat.pos_iff_ne_zero.2 (Nat.one_le_iff_ne_zero.1 hlen.1), hlen.2]
      · have hbad : ¬(0 < frameLen f ∧ frameLen f ≤ 4064) := hlen
        simp [ok, State.rdStatus_badLen (s := s) (f := f) (by omega), hbad, stBAD_ARG, stOK]
    have hneed : need = s.rdNeed e := if_congr hok rfl rfl
    simp only [r, hneed]
    rfl

/-- R380: a read is answered with the status of the check it fails, with NO_RESOURCE where it has no slot, and else with the bytes at its
address, or FAULTED where they cannot be read. -/
theorem State.sameTarget.serveRd {t : State} (h : s.sameTarget t) (e : Option Nat × Bool × Frame) :
    t.serveRd e =
      let u := t.takeReq e
      let r := u.readMem .other e.2.2.addr (frameLen e.2.2)
      if s.rdStatus e.2.2 ≠ stOK then u.reply e.2.2 (s.rdStatus e.2.2) 0 []
      else if s.frameSlots e.1 e.2.2.addr = false then u.reply e.2.2 stNO_RESOURCE 0 []
      else r.1.reply e.2.2 (if r.2.2 then stFAULTED else stOK) 0 (if r.2.2 then [] else r.2.1) := by
  have htake := h.trans (t.sameTarget_takeReq e)
  rw [← htake.rdStatus, ← htake.frameSlots]
  refine if_congr Iff.rfl rfl (if_congr (by simp) rfl ?_)
  extract_lets r
  split <;> rfl

section
variable {e : Option Nat × Bool × Frame} (he : s.firstReq 1 = some e)
include he

theorem gives_rd_fails (hst : s.rdStatus e.2.2 ≠ stOK) :
    Gives .rd s (((s.withRdGot 0).takeReq e).reply e.2.2 (s.rdStatus e.2.2) 0 []) :=
  (Gives.of_slotRow_noNeed (exec_rd he) (if_neg fun h => hst h.1)).of_eq (((s.sameTarget_withRdGot 0).serveRd e).trans (if_pos hst))

variable (hst : s.rdStatus e.2.2 = stOK)
include hst

theorem gives_rd_noSlot (hslots : s.frameSlots e.1 e.2.2.addr = false) :
    Gives .rd s (((s.withRdGot 0).takeReq e).reply e.2.2 stNO_RESOURCE 0 []) :=
  (Gives.of_slotRow_noNeed (exec_rd he) (if_neg fun h => by simp [hslots] at h)).of_eq
    (((s.sameTarget_withRdGot 0).serveRd e).trans ((if_neg (not_not_intro hst)).trans (if_pos hslots)))

variable (hslots : s.frameSlots e.1 e.2.2.addr = true)
include hslots

theorem exec_rd_passes :
    exec .rd s = s.slotRow (s.slotNeed e.1 e.2.2.addr (frameLen e.2.2) false) s.fab.rdGot State.withRdGot fun t => t.serveRd e := by
  rw [exec_rd he, State.rdNeed, if_pos ⟨hst, hslots⟩]

theorem gives_rd_reads {need : List (Nat × Nat)} (hneed : s.slotNeed e.1 e.2.2.addr (frameLen e.2.2) false = need)
    (h : need.length ≤ (s.takeUpTo need s.fab.rdGot).2) :
    let u := ((s.takeUpTo need s.fab.rdGot).1.withRdGot 0).takeReq e
    let r := u.readMem .other e.2.2.addr (frameLen e.2.2)
    Gives .rd s (r.1.reply e.2.2 (if r.2.2 then stFAULTED else stOK) 0 (if r.2.2 then [] else r.2.1)) := by
  have hrow := exec_rd_passes he hst hslots
  rw [hneed] at hrow
  have htaken := (s.sameTarget_takeUpTo need s.fab.rdGot).trans (State.sameTarget_withRdGot _ 0)
  refine (Gives.of_slotRow_serves hrow h).of_eq ((htaken.serveRd e).trans ((if_neg (not_not_intro hst)).trans (if_neg ?_)))
  rw [hslots]
  decide

end

end

/-! ## WR (R380) -/

/-- R380: the status of a write. -/
def State.wrStatus (s : State) (f : Frame) : Nat := s.targetStatus f.addr f.bytes (frameJob f)

/-- R380: the slots that a write needs, none where it is turned away. -/
def State.wrNeed (s : State) (e : Option Nat × Bool × Frame) : List (Nat × Nat) :=
  if s.wrStatus e.2.2 = stOK ∧ s.frameSlots e.1 e.2.2.addr = true then s.slotNeed e.1 e.2.2.addr e.2.2.bytes true else []

/-- A write has taken `n` of its slots. -/
def State.withWrGot (s : State) (n : Nat) : State := { s with fab := { s.fab with wrGot := n } }

theorem State.sameTarget_withWrGot (s : State) (n : Nat) : s.sameTarget (s.withWrGot n) := rfl

section
variable {s : State}

theorem State.sameTarget.wrStatus {t : State} (h : s.sameTarget t) (f : Frame) : t.wrStatus f = s.wrStatus f := h.targetStatus ..

theorem exec_wr {e : Option Nat × Bool × Frame} (he : s.firstReq 2 = some e) :
    exec .wr s = s.slotRow (s.wrNeed e) s.fab.wrGot State.withWrGot fun t => t.serveWr e := by
  show execWr s = _
  unfold execWr
  split
  case h_2 hnone => cases he.symm.trans hnone
  case h_1 e' he' =>
    obtain rfl := Option.some.inj (he.symm.trans he')
    extract_lets f ok need r got
    have hneed : need = s.wrNeed e := if_congr (by simp [ok, State.wrStatus, f]) rfl rfl
    simp only [r, hneed]
    rfl

/-- R380: a write is answered with the status of the check it fails, with NO_RESOURCE where it has no slot, and else lands its bytes, and is
answered with FAULTED where they meet an error. -/
theorem State.sameTarget.serveWr {t : State} (h : s.sameTarget t) (e : Option Nat × Bool × Frame) :
    t.serveWr e =
      let u := t.takeReq e
      let r := u.writeMem .other e.2.2.addr (fitBytes e.2.2.bytes e.2.2.payload)
      if s.wrStatus e.2.2 ≠ stOK then u.reply e.2.2 (s.wrStatus e.2.2) 0 []
      else if s.frameSlots e.1 e.2.2.addr = false then u.reply e.2.2 stNO_RESOURCE 0 []
      else r.1.reply e.2.2 (if r.2 then stFAULTED else stOK) 0 [] := by
  have htake := h.trans (t.sameTarget_takeReq e)
  rw [← htake.wrStatus, ← htake.frameSlots]
  exact if_congr Iff.rfl rfl (if_congr (by simp) rfl rfl)

section
variable {e : Option Nat × Bool × Frame} (he : s.firstReq 2 = some e)
include he

theorem gives_wr_fails (hst : s.wrStatus e.2.2 ≠ stOK) :
    Gives .wr s (((s.withWrGot 0).takeReq e).reply e.2.2 (s.wrStatus e.2.2) 0 []) :=
  (Gives.of_slotRow_noNeed (exec_wr he) (if_neg fun h => hst h.1)).of_eq (((s.sameTarget_withWrGot 0).serveWr e).trans (if_pos hst))

variable (hst : s.wrStatus e.2.2 = stOK)
include hst

theorem gives_wr_noSlot (hslots : s.frameSlots e.1 e.2.2.addr = false) :
    Gives .wr s (((s.withWrGot 0).takeReq e).reply e.2.2 stNO_RESOURCE 0 []) :=
  (Gives.of_slotRow_noNeed (exec_wr he) (if_neg fun h => by simp [hslots] at h)).of_eq
    (((s.sameTarget_withWrGot 0).serveWr e).trans ((if_neg (not_not_intro hst)).trans (if_pos hslots)))

variable (hslots : s.frameSlots e.1 e.2.2.addr = true)
include hslots

theorem exec_wr_passes :
    exec .wr s = s.slotRow (s.slotNeed e.1 e.2.2.addr e.2.2.bytes true) s.fab.wrGot State.withWrGot fun t => t.serveWr e := by
  rw [exec_wr he, State.wrNeed, if_pos ⟨hst, hslots⟩]

theorem gives_wr_writes {need : List (Nat × Nat)} (hneed : s.slotNeed e.1 e.2.2.addr e.2.2.bytes true = need)
    (h : need.length ≤ (s.takeUpTo need s.fab.wrGot).2) :
    let u := ((s.takeUpTo need s.fab.wrGot).1.withWrGot 0).takeReq e
    let r := u.writeMem .other e.2.2.addr (fitBytes e.2.2.bytes e.2.2.payload)
    Gives .wr s (r.1.reply e.2.2 (if r.2 then stFAULTED else stOK) 0 []) := by
  have hrow := exec_wr_passes he hst hslots
  rw [hneed] at hrow
  have htaken := (s.sameTarget_takeUpTo need s.fab.wrGot).trans (State.sameTarget_withWrGot _ 0)
  refine (Gives.of_slotRow_serves hrow h).of_eq ((htaken.serveWr e).trans ((if_neg (not_not_intro hst)).trans (if_neg ?_)))
  rw [hslots]
  decide

end

end

/-! ## MSG (R379, R534) -/

theorem gives_msg {s : State} {e : Option Nat × Bool × Frame} (he : s.firstReq 3 = some e) : Gives .msg s (s.msgIn e) := by
  refine .of_done ?_
  show execMsg s = _
  unfold execMsg
  rw [he]

theorem State.takeReq_form (s : State) (e : Option Nat × Bool × Frame) :
    s.takeReq e = { s with fab := { s.fab with inReq := s.fab.inReq.erase e }, ports := (s.takeReq e).ports } := by
  unfold State.takeReq
  split <;> rfl

theorem State.msgIn_taken {s : State} {e : Option Nat × Bool × Frame} (hfree : s.mbox.ch2 = none)
    (h : e.2.2.opspec % 2 ^ 16 = mqCmd e.2.2.payload) :
    s.msgIn e = (s.takeReq e).modMbox fun m => { m with ch2 := some e, posted := m.posted ++ [2] } := by
  have hch2 : (s.takeReq e).mbox.ch2 = none := by rwa [State.takeReq_form]
  exact if_neg (not_or_intro (by rw [hch2]; decide) (not_not_intro h))

theorem State.msgIn_dropped {s : State} {e : Option Nat × Bool × Frame} (h : e.2.2.opspec % 2 ^ 16 ≠ mqCmd e.2.2.payload) :
    s.msgIn e = s.takeReq e :=
  if_pos (.inr h)

/-! ## Replies -/

theorem State.reply_mem (s : State) (f : Frame) (status opspec : Nat) (data : List Byte) : (s.reply f status opspec data).mem = s.mem := by
  unfold State.reply State.sendFrame
  split
  case h_1 => rfl
  case h_2 => exact (State.sameButLog_fabDisc rfl s).mem
  case h_3 =>
    split
    case isTrue => exact State.addFld_mem ..
    case isFalse => rfl

theorem State.targetStatus_absent {s : State} {a : Nat} (h : s.absent a = true) (n jobid : Nat) : s.targetStatus a n jobid = stBAD_ARG :=
  if_pos (.inl h)

/-! ## The statement -/

/-- Settles O34: a request that a check turns away is answered at once, and one that passes is served once its slots have come; the checks
look at nothing that the taking of slots changes. -/
theorem requestsServed : Obligations.RequestsServed := by
  unfold Obligations.RequestsServed
  refine ⟨fun e s => ⟨fun he => ?rd, fun he => ?wr, fun ha n j => State.targetStatus_absent ha n j, fun st op d v => State.reply_mem ..⟩,
    fun e s he hfree => ⟨fun h => ?msg, fun h => ?dropped⟩⟩
  case rd =>
    refine ⟨fun hlen => ?badLen, fun h1 h2 => ?goodLen⟩
    case badLen =>
      have hst := State.rdStatus_badLen (s := s) hlen
      exact hst ▸ gives_rd_fails he (by rw [hst]; decide)
    case goodLen =>
      rw [← State.rdStatus_goodLen h1 h2]
      exact ⟨gives_rd_fails he, gives_rd_noSlot he, fun hst hslots => ⟨Gives.of_slotRow_waits (exec_rd_passes he hst hslots),
        gives_rd_reads he hst hslots rfl⟩⟩
  case wr =>
    exact ⟨gives_wr_fails he, gives_wr_noSlot he, fun hst hslots => ⟨Gives.of_slotRow_waits (exec_wr_passes he hst hslots),
      gives_wr_writes he hst hslots rfl⟩⟩
  case msg =>
    have hgives := gives_msg he
    have hform := s.takeReq_form e
    rw [State.msgIn_taken hfree h] at hgives
    generalize s.takeReq e = t at hgives hform
    refine hgives.completes ?_ ?_ ⟨rfl, ?_, ?_, ?_⟩ <;> rw [hform] <;> rfl
  case dropped =>
    have hgives := gives_msg he
    rwa [State.msgIn_dropped h] at hgives

end Sys2Proof.Machine
end

section
/-! The commands of ROUTE_CTL (11_fabric.md R376): a command that acts on its network, one that is refused, and DRAINED. -/

namespace Sys2Proof.Machine

/-! ## The rows -/

/-- R376: the commands of ROUTE_CTL, each with the drain state of the networks it acts on and its effect on one. -/
def routeRows (nets : Nat) : List (Instr × Nat × (State → Nat → State)) :=
  [(.drain nets, 0, fun t k => t.setNet k { t.net k with state := 1 }),
    (.change nets, 0, fun t k => t.setNet k { t.net k with state := 1, change := true }),
    (.swap nets, 2, State.swapNet), (.resume nets, 2, State.resumeNet)]

theorem gives_routeRow {c : Instr} {nets st : Nat} {eff : State → Nat → State} (h : (c, st, eff) ∈ routeRows nets) (s : State) :
    Gives c s (s.routeCmd nets st eff) := by
  simp only [routeRows, List.mem_cons, List.not_mem_nil, or_false, Prod.mk.injEq] at h
  rcases h with ⟨rfl, rfl, rfl⟩ | ⟨rfl, rfl, rfl⟩ | ⟨rfl, rfl, rfl⟩ | ⟨rfl, rfl, rfl⟩ <;> exact .of_done rfl

/-- A row that ends in a status of ROUTE_STAT does no more than give it. -/
theorem Gives.routeStatus {c : Instr} {s : State} {v : Nat} (hv : v < 2 ^ 8) (h : Gives c s (s.setFld F.ROUTE_STAT_STATUS 0 v)) :
    Completes c s fun t => t.fld F.ROUTE_STAT_STATUS 0 = v ∧ t = { s with regs := t.regs } :=
  h.completes (State.setFld_pending ..) (State.setFld_id ..)
    ⟨(State.fld_setFld rfl rfl ..).trans (Nat.mod_eq_of_lt hv), State.sameButRegs_setFld rfl ..⟩

/-! ## A command for one network -/

theorem netsOf_two_pow {k : Nat} (h : k < 2) : netsOf (2 ^ k) = [k] := by
  interval_cases k <;> decide

section
variable {s : State} {k st : Nat} {eff : State → Nat → State}

/-- R376: during a CHANGE of either network a command gives BUSY. -/
theorem State.routeCmd_busy (nets : Nat) (h : (s.net 0).change = true ∨ (s.net 1).change = true) :
    s.routeCmd nets st eff = s.setFld F.ROUTE_STAT_STATUS 0 stBUSY :=
  if_pos (by simpa using h)

/-- R376: otherwise it acts where its network is in the state it needs, and is not permitted elsewhere. -/
theorem State.routeCmd_one (hk : k < 2) (h0 : (s.net 0).change = false) (h1 : (s.net 1).change = false) :
    s.routeCmd (2 ^ k) st eff =
      if (s.net k).state = st then (eff s k).setFld F.ROUTE_STAT_STATUS 0 stOK else s.setFld F.ROUTE_STAT_STATUS 0 stNOT_PERMITTED := by
  unfold State.routeCmd
  rw [netsOf_two_pow hk]
  refine (if_neg (by simp [h0, h1])).trans ?_
  by_cases hst : (s.net k).state = st
  · rw [if_pos hst]
    exact if_neg (by simp [hst])
  · rw [if_neg hst]
    exact if_pos (by simp [hst])

theorem State.net_noChange (hk : k < 2) (h0 : (s.net 0).change = false) (h1 : (s.net 1).change = false) : (s.net k).change = false := by
  interval_cases k <;> assumption

theorem gives_route_acts {c : Instr} (hrow : (c, st, eff) ∈ routeRows (2 ^ k)) (hk : k < 2) (h0 : (s.net 0).change = false)
    (h1 : (s.net 1).change = false) (hst : (s.net k).state = st) : Gives c s ((eff s k).setFld F.ROUTE_STAT_STATUS 0 stOK) := by
  have hgives := gives_routeRow hrow s
  rwa [State.routeCmd_one hk h0 h1, if_pos hst] at hgives

theorem completes_route_refused {c : Instr} (hrow : (c, st, eff) ∈ routeRows (2 ^ k)) (hk : k < 2) (h0 : (s.net 0).change = false)
    (h1 : (s.net 1).change = false) (hst : (s.net k).state ≠ st) :
    Completes c s fun t => t.fld F.ROUTE_STAT_STATUS 0 = stNOT_PERMITTED ∧ t = { s with regs := t.regs } := by
  have hgives := gives_routeRow hrow s
  rw [State.routeCmd_one hk h0 h1, if_neg hst] at hgives
  exact hgives.routeStatus (by decide)

/-- A row that begins the draining of a network changes that network and gives OK. -/
theorem Gives.drains {c : Instr} {v : Net} (h : Gives c s ((s.setNet k v).setFld F.ROUTE_STAT_STATUS 0 stOK)) (hst : v.state = 1)
    (hh : v.held = (s.net k).held) :
    Completes c s fun t =>
      (t.net k).state = 1 ∧ (t.net k).change = v.change ∧ (t.net k).held = (s.net k).held ∧ t.fld F.ROUTE_STAT_STATUS 0 = stOK
      ∧ (∀ j, j ≠ k → t.net j = s.net j) ∧ t = { s with fab := t.fab, regs := t.regs } := by
  have hsame := State.sameButRegs_setFld (f := F.ROUTE_STAT_STATUS) rfl (s.setNet k v) 0 stOK
  have hnet : ∀ j, ((s.setNet k v).setFld F.ROUTE_STAT_STATUS 0 stOK).net j = (s.setNet k v).net j := fun j => by
    rw [State.net, State.net, State.setFld_fab]
  refine h.completes (State.setFld_pending ..) (State.setFld_id ..) ⟨?_, ?_, ?_, State.fld_setFld rfl rfl ..,
    fun j hj => (hnet j).trans (State.net_setNet_ne _ _ hj), by rw [hsame]; rfl⟩ <;> rw [hnet, State.net_setNet]
  · exact hst
  · exact hh

/-! ## DRAINED -/

theorem gives_drained (hk : k < 2) (hst : (s.net k).state = 1) (hout : s.tagsOut = []) : Gives (.drained k) s (s.drained k) :=
  .of_done (if_pos ⟨hk, hst, by rw [hout]; rfl⟩)

theorem exec_drained_waits (hout : s.tagsOut ≠ []) : exec (.drained k) s = .next s :=
  if_neg fun h => hout (List.isEmpty_iff.1 h.2.2)

/-- R376: a network that drains under no CHANGE stays DRAINED. -/
theorem State.drained_stays (hc : (s.net k).change = false) :
    s.drained k = (s.setNet k { s.net k with state := 2 }).raise 11 := by
  refine if_neg ?_
  show ¬((s.setNet k { s.net k with state := 2 }).net k).change = true
  rw [State.net_setNet, hc]
  decide

end

/-! ## The statement -/

/-- Settles O36: a row is a command of ROUTE_CTL for one network, which acts on it or gives the status of its refusal. -/
theorem routesChange : Obligations.RoutesChange := by
  unfold Obligations.RoutesChange
  refine fun k s hk => ⟨fun hbusy c hc => ?busy, fun h0 h1 => ⟨fun c hc hst => ?drains, fun hst => ⟨?swap, ?resume⟩,
    fun hst c hc => ?notActive, fun hst c hc => ?notDrained, fun hst hout => ?drained, exec_drained_waits⟩⟩
  case busy =>
    obtain ⟨st, eff, hrow⟩ : ∃ st eff, (c, st, eff) ∈ routeRows (2 ^ k) := by
      fin_cases hc <;> simp [routeRows]
    have hgives := gives_routeRow hrow s
    rw [State.routeCmd_busy _ hbusy] at hgives
    exact hgives.routeStatus (by decide)
  case drains =>
    cases c with
    | false =>
      have hdrains := (gives_route_acts (.head _) hk h0 h1 hst).drains rfl rfl
      dsimp only at hdrains
      rwa [State.net_noChange hk h0 h1] at hdrains
    | true => exact (gives_route_acts (st := 0) (.tail _ (.head _)) hk h0 h1 hst).drains rfl rfl
  case swap => exact gives_route_acts (.tail _ (.tail _ (.head _))) hk h0 h1 hst
  case resume => exact gives_route_acts (.tail _ (.tail _ (.tail _ (.head _)))) hk h0 h1 hst
  case notActive =>
    obtain ⟨eff, hrow⟩ : ∃ eff, (c, 0, eff) ∈ routeRows (2 ^ k) := by
      fin_cases hc <;> simp [routeRows]
    exact completes_route_refused hrow hk h0 h1 hst
  case notDrained =>
    obtain ⟨eff, hrow⟩ : ∃ eff, (c, 2, eff) ∈ routeRows (2 ^ k) := by
      fin_cases hc <;> simp [routeRows]
    exact completes_route_refused hrow hk h0 h1 hst
  case drained =>
    have hgives := gives_drained hk hst hout
    rw [State.drained_stays (State.net_noChange hk h0 h1)] at hgives
    exact hgives.completes rfl rfl ⟨congrArg Net.state (State.net_setNet ..), rfl, rfl⟩

end Sys2Proof.Machine
end

section
/-! CTRL flits that a part receives (11_fabric.md R388, R391): one for a job of the part goes on to the children of the tree and acts here, one
for no job of the part is discarded and counted, and an ARRIVE is kept for a barrier that the part has not entered. -/

namespace Sys2Proof.Machine

/-! ## A flit leaves its port's receive buffer -/

/-- R388: taking a flit changes its port alone. -/
theorem State.ctrlTake_form (s : State) (n : Nat) (f : CtrlFlit) : s.ctrlTake n f = { s with ports := (s.ctrlTake n f).ports } := by
  unfold State.ctrlTake
  extract_lets p
  split <;> rfl

theorem State.jobPart_ctrlTake (s : State) (n : Nat) (f : CtrlFlit) (jobid : Nat) : (s.ctrlTake n f).jobPart jobid = s.jobPart jobid := by
  rw [State.ctrlTake_form]
  rfl

theorem State.gop_of_gops {s t : State} (h : t.fab.gops = s.fab.gops) (q : Nat) : t.gop q = s.gop q := by rw [State.gop, State.gop, h]

@[simp] theorem State.gop_setGop (s : State) (q : Nat) (g : Gop) : (s.setGop q g).gop q = g := SMap.get_put_self ..

/-! ## Flits of a job (R388) -/

/-- R388: the rows of job-scoped flits, each with what it does for the partition of its job. -/
def ctrlJobRows (n : Nat) (f : CtrlFlit) : List (Instr × (State → Nat → State)) :=
  [(.launchReceive n f, fun t _ => (t.notice f.jobid (byF f.body 0 8) (byF f.body 8 1) (byF f.body 9 1)).1),
    (.release n f, fun t q => t.takeRelease q f), (.bcastReceive n f, fun t q => t.takeBcast q f),
    (.snapReceive n f, fun t q => t.takeSnap q f), (.resetReceive n f, fun t q => t.partReset q),
    (.admitReceive n f, fun t q => t.takeAdmit q f), (.stepReceive n f, fun t q => t.stepFlit q f)]

theorem gives_ctrlJobRow {w : Instr} {n : Nat} {f : CtrlFlit} {act : State → Nat → State} (h : (w, act) ∈ ctrlJobRows n f) (s : State) :
    Gives w s (s.ctrlJob n f act) := by
  simp only [ctrlJobRows, List.mem_cons, List.not_mem_nil, or_false, Prod.mk.injEq] at h
  rcases h with ⟨rfl, rfl⟩ | ⟨rfl, rfl⟩ | ⟨rfl, rfl⟩ | ⟨rfl, rfl⟩ | ⟨rfl, rfl⟩ | ⟨rfl, rfl⟩ | ⟨rfl, rfl⟩ <;>
  exact .of_done rfl

section
variable {s : State} {f : CtrlFlit}

theorem State.ctrlJob_of_jobPart (n : Nat) {q : Nat} (act : State → Nat → State) (h : s.jobPart f.jobid = some q) :
    s.ctrlJob n f act = act ((s.ctrlTake n f).toChildren q f.node f n) q := by
  simp only [State.ctrlJob, State.jobPart_ctrlTake, h]

theorem State.ctrlJob_of_noJob (n : Nat) (act : State → Nat → State) (h : s.jobPart f.jobid = none) :
    s.ctrlJob n f act = (s.ctrlTake n f).fabDisc F.ROUTE_ERR0_CTRLDISC := by
  simp only [State.ctrlJob, State.jobPart_ctrlTake, h]

/-! ## ARRIVE (R391) -/

/-- R391: the arrival of node `m` at barrier `bid` is kept, once. -/
def Gop.keeping (g : Gop) (m bid : Nat) : Gop :=
  { g with kept := if g.kept.contains m then g.kept else g.kept ++ [m], keptBid := some bid }

theorem Gop.mem_keeping (g : Gop) (m bid : Nat) : m ∈ (g.keeping m bid).kept := by
  unfold Gop.keeping
  split
  case isTrue h => simpa using h
  case isFalse => simp

theorem Gop.kept_subset_keeping (g : Gop) (m bid : Nat) : g.kept ⊆ (g.keeping m bid).kept := by
  unfold Gop.keeping
  split
  case isTrue => exact fun _ h => h
  case isFalse => exact List.subset_append_left ..

/-- R391: a gather step waits for a barrier to be entered. -/
theorem State.gatherStep_idle {q : Nat} (h : (s.gop q).op = 0) : s.gatherStep q = s :=
  if_neg fun hg => by
    rw [h] at hg
    exact absurd hg.1 (by decide)

/-- R391: with no operation held, an ARRIVE of the first BID or of the BID kept is kept, and nothing follows from it yet. -/
theorem State.takeArrive_keeps {q : Nat} (h0 : (s.gop q).op = 0)
    (hbid : (s.gop q).keptBid = none ∨ (s.gop q).keptBid = some (byF f.body 0 2)) :
    s.takeArrive q f = s.setGop q ((s.gop q).keeping f.node (byF f.body 0 2)) := by
  unfold State.takeArrive
  extract_lets bid g held
  have hheld : held = true := by
    refine (if_neg (by simp [g, h0])).trans ?_
    rcases hbid with hfirst | hsame
    · simp [g, hfirst]
    · simp [g, bid, hsame]
  refine (if_pos hheld).trans (State.gatherStep_idle ?_)
  exact (congrArg Gop.op (State.gop_setGop ..)).trans h0

theorem gives_arrive (n : Nat) {q : Nat} (h : s.jobPart f.jobid = some q) : Gives (.arrive n f) s ((s.ctrlTake n f).takeArrive q f) := by
  refine .of_done ?_
  show execArrive n f s = _
  unfold execArrive
  rw [h]

end

/-! ## The statement -/

/-- Settles O25: a job-scoped flit is one of the rows of `State.ctrlJob`, and an ARRIVE is kept in its partition's group operations. -/
theorem ctrlFlitsAct : Obligations.CtrlFlitsAct := by
  unfold Obligations.CtrlFlitsAct
  refine ⟨fun n q f w act s hrow => ⟨fun hq => ?acts, fun hq => ?discarded⟩, fun n q f s hq h0 hbid => ?arrive⟩
  case acts =>
    have hgives := gives_ctrlJobRow hrow s
    rwa [State.ctrlJob_of_jobPart n act hq] at hgives
  case discarded =>
    have hgives := gives_ctrlJobRow hrow s
    have htake := s.ctrlTake_form n f
    rw [State.ctrlJob_of_noJob n act hq] at hgives
    generalize s.ctrlTake n f = t at hgives htake
    have hsame := State.sameButLog_fabDisc (f := F.ROUTE_ERR0_CTRLDISC) rfl t
    refine hgives.completes (hsame.pending.trans (by rw [htake])) (hsame.id.trans (by rw [htake])) ⟨?_, ?_, ?_⟩
    · rw [State.fld_fabDisc rfl rfl, htake]
      rfl
    · rw [State.fabDisc_occ rfl, htake]
    · rw [hsame, htake]
  case arrive =>
    have hgives := gives_arrive n hq
    have htake := s.ctrlTake_form n f
    generalize s.ctrlTake n f = t at hgives htake
    have hgop : t.gop q = s.gop q := State.gop_of_gops (by rw [htake]) q
    rw [State.takeArrive_keeps (hgop ▸ h0) (hgop ▸ hbid), hgop] at hgives
    refine hgives.completes (by rw [htake]; rfl) (by rw [htake]; rfl) ⟨?_, fun m hm => ?_, ?_, ?_⟩
    · rw [State.gop_setGop]
      exact Gop.mem_keeping ..
    · rw [State.gop_setGop]
      exact Gop.kept_subset_keeping _ _ _ hm
    · rw [State.gop_setGop]
      rfl
    · rw [htake]
      rfl

end Sys2Proof.Machine
end

section
/-! Group operations (11_fabric.md R385, R391 to R395): a write of ROUTE_GOPCMD that is refused or acts, and the timeouts of a barrier. -/

namespace Sys2Proof.Machine

/-! ## Rows -/

section
variable {s : State} {q : Nat}

/-- R395, R385: the status with which an operation is refused. -/
theorem State.gopBlocked_refuses (h : (s.gop q).op ≠ 0 ∨ s.hasBox q = false) :
    s.gopBlocked q = some (if (s.gop q).op ≠ 0 then stBUSY else stNOT_PERMITTED) := by
  unfold State.gopBlocked
  split
  case isTrue => rfl
  case isFalse h0 => rw [h.resolve_left h0]; rfl

theorem State.gopBlocked_free (h0 : (s.gop q).op = 0) (hbox : s.hasBox q = true) : s.gopBlocked q = none := by
  rw [State.gopBlocked, if_neg (not_not_intro h0), hbox]
  rfl

/-- R391 to R394: the operations of ROUTE_GOPCMD, each with its number and with what it does where nothing stands in its way. -/
def gopRows (q : Nat) : List (Nat × Instr × (State → State)) :=
  [(1, .barrier q, fun t => t.enterBarrier q), (2, .bcast q, fun t => t.originateBcast q), (3, .snap q, fun t => t.originateSnap q),
    (4, .reset q, fun t => t.gopReset q)]

theorem exec_gopRow (hq : q < 8) {op : Nat} {w : Instr} {act : State → State} (h : (op, w, act) ∈ gopRows q) (s : State) :
    exec w s = (s.gopBlocked q).elim (done s (act s)) fun st => done s (s.gopRefuse q op st) := by
  simp only [gopRows, List.mem_cons, List.not_mem_nil, or_false, Prod.mk.injEq] at h
  rcases h with ⟨rfl, rfl, rfl⟩ | ⟨rfl, rfl, rfl⟩ | ⟨rfl, rfl, rfl⟩ | ⟨rfl, rfl, rfl⟩
  · show execBarrier q s = _
    unfold execBarrier
    cases s.gopBlocked q <;> rfl
  · show execBcast q s = _
    unfold execBcast
    cases s.gopBlocked q <;> rfl
  · show execSnap q s = _
    unfold execSnap
    cases s.gopBlocked q <;> rfl
  · refine (if_neg (Nat.not_le.2 hq)).trans ?_
    cases s.gopBlocked q <;> rfl

theorem gives_gopRow (hq : q < 8) (h0 : (s.gop q).op = 0) (hbox : s.hasBox q = true) {op : Nat} {w : Instr} {act : State → State}
    (h : (op, w, act) ∈ gopRows q) : Gives w s (act s) :=
  .of_done (by rw [exec_gopRow hq h, State.gopBlocked_free h0 hbox]; rfl)

theorem gives_gopRow_refused (hq : q < 8) (hb : (s.gop q).op ≠ 0 ∨ s.hasBox q = false) {op : Nat} {w : Instr} {act : State → State}
    (h : (op, w, act) ∈ gopRows q) : Gives w s (s.gopRefuse q op (if (s.gop q).op ≠ 0 then stBUSY else stNOT_PERMITTED)) :=
  .of_done (by rw [exec_gopRow hq h, State.gopBlocked_refuses hb]; rfl)

theorem gives_barrierRootTimeout (hroot : s.jobRoot q = s.node) (h : s.barrierLate q 1 = true) :
    Gives (.barrierRootTimeout q) s (s.originateRelease q stTIMEOUT) :=
  .of_done (if_pos ⟨hroot, h⟩)

theorem gives_barrierTimeout (hroot : s.jobRoot q ≠ s.node) (h : s.barrierLate q 2 = true) :
    Gives (.barrierTimeout q) s (s.gopDone q stTIMEOUT) :=
  .of_done (if_pos ⟨hroot, h⟩)

end

/-! ## An operation that ends (R395, R396) -/

/-- What ROUTE_GOPSTAT shows of an operation that has ended: its status and its number, with the partition's event. -/
structure State.GopShown (s : State) (q op status : Nat) (t : State) : Prop where
  status : t.fld F.ROUTE_GOPSTAT_STATUS q = status
  op : t.fld F.ROUTE_GOPSTAT_OP q = op
  busy : t.fld F.ROUTE_GOPSTAT_BUSY q = s.fld F.ROUTE_GOPSTAT_BUSY q
  event : t.occ = s.occ ++ [16 + q]
  frame : t = { s with regs := t.regs, occ := t.occ }

theorem State.gopShown_gopShow (s : State) (q : Nat) {op status : Nat} (hop : op < 2 ^ 4) (hst : status < 2 ^ 8) :
    s.GopShown q op status (s.gopShow q op status) where
  status := by
    rw [State.gopShow, State.fld_raise,
      State.fld_setFld_apart (f := F.ROUTE_GOPSTAT_OP) (g := F.ROUTE_GOPSTAT_STATUS) rfl rfl rfl rfl rfl, State.fld_setFld rfl rfl]
    exact Nat.mod_eq_of_lt hst
  op := by
    rw [State.gopShow, State.fld_raise, State.fld_setFld rfl rfl]
    exact Nat.mod_eq_of_lt hop
  busy := by
    rw [State.gopShow, State.fld_raise,
      State.fld_setFld_apart (f := F.ROUTE_GOPSTAT_OP) (g := F.ROUTE_GOPSTAT_BUSY) rfl rfl rfl rfl rfl,
      State.fld_setFld_apart (f := F.ROUTE_GOPSTAT_STATUS) (g := F.ROUTE_GOPSTAT_BUSY) rfl rfl rfl rfl rfl]
  event := by
    rw [State.gopShow, State.raise, State.setFld_occ rfl, State.setFld_occ rfl]
  frame := by
    have hstatus := State.sameButRegs_setFld (f := F.ROUTE_GOPSTAT_STATUS) rfl s q status
    have hop := State.sameButRegs_setFld (f := F.ROUTE_GOPSTAT_OP) rfl (s.setFld F.ROUTE_GOPSTAT_STATUS q status) q op
    rw [State.gopShow, hstatus.trans hop]
    rfl

/-- R391: the group operations of a partition after the one held has ended. -/
def Gop.ended (g : Gop) : Gop :=
  { (if g.op = 1 then { g with kept := [], keptBid := none } else g) with op := 0, entered := false }

/-- R395: the held operation has ended, and ROUTE_GOPSTAT no longer shows it busy. -/
def State.gopEnded (s : State) (q : Nat) : State := (s.setGop q (s.gop q).ended).setFld F.ROUTE_GOPSTAT_BUSY q 0

theorem State.gopDone_eq (s : State) (q status : Nat) : s.gopDone q status = (s.gopEnded q).gopShow q (s.gop q).op status := rfl

theorem State.op_of_barrierLate {s : State} {q k : Nat} (h : s.barrierLate q k = true) : (s.gop q).op = 1 := by
  simp only [State.barrierLate, Bool.and_eq_true, beq_iff_eq] at h
  exact h.1.1

/-! ## The statement -/

/-- Settles O26: each operation is a row of ROUTE_GOPCMD, refused or done, and a barrier that is late ends with TIMEOUT. -/
theorem globalOperations : Obligations.GlobalOperations := by
  unfold Obligations.GlobalOperations
  refine ⟨fun q op w s hq hrow hb => ?refused, fun q s hq => ⟨fun h0 hbox => ?acts, gives_barrierRootTimeout,
    fun hroot hlate => ?late⟩⟩
  case refused =>
    obtain ⟨hop, act, hrow⟩ : op < 2 ^ 4 ∧ ∃ act, (op, w, act) ∈ gopRows q := by
      fin_cases hrow <;> simp [gopRows]
    have hgives := gives_gopRow_refused hq hb hrow
    have hshown := s.gopShown_gopShow q hop (status := if (s.gop q).op ≠ 0 then stBUSY else stNOT_PERMITTED) (by split <;> decide)
    exact hgives.completes (by rw [State.gopRefuse, hshown.frame]) (by rw [State.gopRefuse, hshown.frame])
      ⟨hshown.status, hshown.op, hshown.event, hshown.frame⟩
  case acts =>
    have hgives : ∀ row ∈ gopRows q, Gives row.2.1 s (row.2.2 s) := fun row hrow => gives_gopRow hq h0 hbox hrow
    simpa only [gopRows, List.forall_mem_cons, List.not_mem_nil, false_implies, implies_true, and_true] using hgives
  case late =>
    have hgives := gives_barrierTimeout hroot hlate
    have hshown := (s.gopEnded q).gopShown_gopShow q (op := (s.gop q).op) (status := stTIMEOUT)
      (by rw [State.op_of_barrierLate hlate]; decide) (by decide)
    have hended : (s.setGop q (s.gop q).ended).sameButRegs (s.gopEnded q) := State.sameButRegs_setFld rfl ..
    rw [State.gopDone_eq] at hgives
    generalize (s.gopEnded q).gopShow q (s.gop q).op stTIMEOUT = t at hgives hshown
    have hgop : t.gop q = (s.gop q).ended := by
      refine (State.gop_of_gops (s := s.setGop q (s.gop q).ended) ?_ q).trans (State.gop_setGop ..)
      rw [hshown.frame, hended]
    refine hgives.completes ?_ ?_ ⟨congrArg Gop.op hgop, congrArg Gop.entered hgop, hshown.status, ?_, hshown.event.trans ?_, ?_⟩
    · rw [hshown.frame, hended]
      rfl
    · rw [hshown.frame, hended]
      rfl
    · exact hshown.busy.trans (State.fld_setFld rfl rfl ..)
    · rw [hended]
      rfl
    · rw [hshown.frame, hended]
      rfl

end Sys2Proof.Machine
end

section
/-! The beat-start step of SERVE and the step change of a partition's clocks (12_serving.md R409; 14_time_clocks_power.md R478): what a step
shows when it has run, and the stop of the clocks. -/

namespace Sys2Proof.Machine

/-! ## The beat-start step (R409) -/

/-- R409: the step is one command once its notices are there and its moves are over; that it is one is the model's choice (log 25). -/
theorem gives_beatStartStep {q : Nat} {s : State} (h : s.stepReady q = true) :
    Gives (.beatStartStep q) s (s.beatStep q (s.part q).beat) :=
  .of_done (if_pos h)

/-- The step that may run is that of the awaited beat. -/
theorem State.next_of_stepReady {q : Nat} {s : State} (h : s.stepReady q = true) : (s.srv q).next = (s.part q).beat := by
  simp only [State.stepReady, Bool.and_eq_true, beq_iff_eq] at h
  obtain ⟨⟨⟨-, hnext⟩, -⟩, -⟩ := h
  exact hnext

/-- What no event changes, an event raised on a condition leaves alone. -/
theorem State.component_raiseIf {β : Type} (π : State → β) (hπ : ∀ t k, π (State.raise t k) = π t) (p : Prop) [Decidable p] (s : State)
    (k : Nat) : π (if p then s.raise k else s) = π s :=
  (apply_ite π p _ _).trans (ite_eq_right_iff.2 fun _ => hπ s k)

/-- A step writes its beat into SERVE_SEQ last, and the events that follow leave the register alone. -/
theorem State.seqBeat_beatStep (s : State) (q n : Nat) : (s.beatStep q n).fld F.SERVE_SEQ_BEAT q = n % 2 ^ 32 := by
  have hraise : ∀ (t : State) k, (t.raise k).fld F.SERVE_SEQ_BEAT q = t.fld F.SERVE_SEQ_BEAT q := fun t k => t.fld_raise k ..
  unfold State.beatStep
  extract_lets x applied pdp var r planned written noted shown seq finished
  calc
    _ = finished.fld F.SERVE_SEQ_BEAT q := State.component_raiseIf (fun t => t.fld F.SERVE_SEQ_BEAT q) hraise ..
    _ = seq.fld F.SERVE_SEQ_BEAT q := State.component_raiseIf (fun t => t.fld F.SERVE_SEQ_BEAT q) hraise ..
    _ = n % 2 ^ 32 % 2 ^ F.SERVE_SEQ_BEAT.width := State.fld_setFld rfl rfl ..
    _ = n % 2 ^ 32 := Nat.mod_mod ..

theorem State.srv_of_serve {s t : State} (h : t.serve = s.serve) (q : Nat) : t.srv q = s.srv q := by
  simp only [State.srv, h]

/-- After a step the serving sequencer awaits the step of the next beat, and nothing of it is late. -/
theorem State.srv_beatStep (s : State) (q n : Nat) : ((s.beatStep q n).srv q).next = n + 1 ∧ ((s.beatStep q n).srv q).late = false := by
  unfold State.beatStep
  extract_lets x applied pdp var r planned written noted shown seq finished
  have hseq : seq.serve = noted.serve := by simp only [seq, shown, State.setFld_serve]
  have hfinished : finished.serve = seq.serve := State.component_raiseIf State.serve State.raise_serve ..
  have hnoted : noted.srv q =
      { written.srv q with slots := r.2.map fun p => (p.e, p.count), next := n + 1, late := false } := SMap.get_put_self ..
  have hended := State.component_raiseIf State.serve State.raise_serve r.1.odd finished (960 + 6 * q + 5)
  rw [State.srv_of_serve (hended.trans (hfinished.trans hseq)), hnoted]
  exact ⟨rfl, rfl⟩

/-! ## The step change (R478) -/

/-- R478: the stop of a partition's clocks, for 5,000 ns from this instant. -/
def State.stopClocks (s : State) (q : Nat) : State := s.modPart q fun p => { p with stopUntil := some (s.now + 5000 * tu) }

theorem gives_stepChangeRun {q : Nat} {s : State} (hr : s.stepRuns q = true) (he : s.atEdge q = true) :
    Gives (.stepChangeRun q) s (s.stopClocks q) :=
  .of_done (if_pos ⟨hr, he⟩)

theorem exec_stepChangeRun_offEdge {q : Nat} {s : State} (h : s.atEdge q = false) : exec (.stepChangeRun q) s = .next s :=
  (if_neg (by simp [h]) : execStepChangeRun q s = done s s)

theorem State.part_stopClocks (s : State) (q : Nat) :
    (s.stopClocks q).part q = { s.part q with stopUntil := some (s.now + 5000 * tu) } :=
  State.part_modPart ..

/-- A partition whose clocks are stopped runs no logical cycle. -/
theorem Part.live_of_stopped {p : Part} {t : Nat} (h : p.stopUntil = some t) : p.live = false := by
  simp [Part.live, h]

/-! ## The statement -/

/-- Settles O21: a step that is ready runs for the awaited beat, and its last writes are what it shows; a step change that runs sets the end of
its partition's stop, and away from a cc edge it changes nothing. -/
theorem beatAndStepChange : Obligations.BeatAndStepChange := by
  unfold Obligations.BeatAndStepChange
  refine ⟨fun q s hready => ⟨State.next_of_stepReady hready, ?step⟩,
    fun q s => ⟨fun hruns hedge => ?stops, exec_stepChangeRun_offEdge⟩⟩
  case step =>
    have hgives := gives_beatStartStep hready
    have hbeat := s.seqBeat_beatStep q (s.part q).beat
    obtain ⟨hnext, hlate⟩ := s.srv_beatStep q (s.part q).beat
    generalize s.beatStep q (s.part q).beat = t at hgives hbeat hnext hlate
    exact ⟨_, hgives, hbeat, hnext, hlate⟩
  case stops =>
    have hstop := congrArg Part.stopUntil (s.part_stopClocks q)
    exact (gives_stepChangeRun hruns hedge).completes rfl rfl
      ⟨hstop, Part.live_of_stopped hstop, fun p hp => State.part_modPart_ne s _ hp, rfl⟩

end Sys2Proof.Machine
end

section
/-! A step (00_scope.md R29; 95_what_each_step_holds.md): it runs the command in front, every command answers a next state, and the clock goes
on where no command waits. -/

namespace Sys2Proof.Machine

/-- The answer is a next state that has the queue and the identity of `s`. -/
def Res.Answers (s : State) (r : Res) : Prop := ∃ u, r = done s u

theorem Res.Answers.done {s u : State} : Res.Answers s (done s u) := ⟨u, rfl⟩

theorem Res.Answers.ite {s : State} {p : Prop} {_ : Decidable p} {r u : Res} (hr : Res.Answers s r) (hu : Res.Answers s u) :
    Res.Answers s (if p then r else u) := by
  split <;> assumption

/-- The meaning of every command ends in `done`, at once or in each of its branches. -/
theorem exec_answers (c : Instr) (s : State) : Res.Answers s (exec c s) := by
  cases c
  case copyComplete | scrubSlot | coreStoreScrub | rootSweepctlWrite | slotFill | replayTimeout | groupReceive | laneLock | probeExchange |
      identityResend | neighbourRecord | trainTimeout | identTimeout | portCtlEnable | portCtlReset | portWinWrite | requestTimeout |
      retireExpiry | drained | barrierRootTimeout | barrierTimeout | beatStartStep | serveAbortWrite | pwrPdeclWrite | pwrStepcmd |
      stepChangeRun | pllLockLoss | pllRelock | wakeFrame | wakeReceive | denianWakeBeacon | beatStart | freezeEnd | lagEvent | lagFault |
      launch | load | hqRhposWrite | pcieLinkUp | ethLinkUp | ethLinkDown | telem | slewStep | beaconSend | beaconTimeout | holdover |
      ppsInEdge | ptpSync | ptmRequest | ptmResponse | refclkReturn | timeBaseFailover | timeAlarmFire | wirePulseLatch | eventTick |
      startAttempt | bootOk | watchdogExpire | watchdogKick | mcRunning | powerLoss | wakeComplete | perstAssert | perstRelease |
      thermalAlert | thermalAlertClear | thermalTrip | lowHalfRead | mboxPost | mgmtMessage =>
    exact .ite .done .done
  case portLockLoss | ppsOutEdge => exact .ite .done (.ite .done .done)
  case ethResend => exact .ite .done .done
  case coldReset => exact .ite .done (.ite (.ite .done .done) .done)
  case fetchRequest | fetchInspect | dispatch | nop | peerSignal | clusterSignal | loadw | chain | setk | copy | push | pop | send |
      pleach | landingArrival | sendBufferDrain | tsub | tsubAccept | thktComplete | untimedPick | untimedComplete | bulkSlotTransfer |
      sweepComplete | nakIssue | replayStart | frameArrive | rd | wr | replyArrive | barrier | arrive | bcast | snap | submit |
      stagingComplete | beatendComplete | haltComplete | reset | h2d | d2h | h2l | digestSlice | dmaComplete | ethSlot | ethAck | parkd |
      solicit | offer | data | readResend | serverLost | stageOverrun | mcRestartTimeout | imageVerified | psWriteComplete |
      powerStateEntered | maintActivityEnd | msg =>
    simp only [exec, execFetchRequest, execFetchInspect, execDispatch, execNop, execPeerSignal, execClusterSignal, execLoadw, execChain,
      execSetk, execCopy, execPush, execPop, execSend, execPleach, execLandingArrival, execSendBufferDrain, execTsub, execTsubAccept,
      execThktComplete, execUntimedPick, execUntimedComplete, execBulkSlotTransfer, execSweepComplete, execNakIssue, execReplayStart,
      execFrameArrive, execRd, execWr, execReplyArrive, execBarrier, execArrive, execBcast, execSnap, execSubmit, execStagingComplete,
      execBeatendComplete, execHaltComplete, execReset, execH2d, execD2h, execH2l, execDigestSlice, execDmaComplete, execEthSlot,
      execEthAck, execParkd, execSolicit, execOffer, execData, execReadResend, execServerLost, execStageOverrun, execMcRestartTimeout,
      execImageVerified, execPsWriteComplete, execPowerStateEntered, execMaintActivityEnd, execMsg]
    repeat' split
    all_goals exact .done
  all_goals exact .done

/-- On an empty queue time passes to the next edge of a clock. -/
theorem step_of_nil {s : State} (h : s.pending = []) : step s = done s s.tick := by rw [step, h]

/-- The front command runs with the queue's rest behind it. -/
theorem step_of_cons {s : State} {c : Instr} {rest : List Instr} (h : s.pending = c :: rest) :
    step s = exec c { s with pending := rest } := by rw [step, h]

/-- Settles O1: the queue's front is what a step takes apart. -/
theorem stepRunsFront : Obligations.StepRunsFront := by
  unfold Obligations.StepRunsFront
  exact fun _ _ _ h => step_of_cons h

/-- Settles O56: every command answers a next state, and so does the passing of time on an empty queue. -/
theorem stepsAnswer : Obligations.StepsAnswer := by
  unfold Obligations.StepsAnswer
  intro s
  cases h : s.pending with
  | nil => exact ⟨{ s.tick with pending := s.pending, id := s.id }, step_of_nil h, h, rfl⟩
  | cons c rest =>
    obtain ⟨u, hu⟩ := exec_answers c { s with pending := rest }
    exact ⟨{ u with pending := rest, id := s.id }, (step_of_cons h).trans hu, rfl, rfl⟩

end Sys2Proof.Machine
end

section
/-! Loads, guarded rings and the boundary-scan port (13_host_interfaces.md R434, R442, R457; 16_boot_firmware.md R512). -/

namespace Sys2Proof.Machine

/-- A field reads the value written where it fits. -/
theorem State.fld_setFld_of_lt {f : Fld} (h : psReg f.reg = none) (hf : f.fits = true) (s : State) (i : Nat) {v : Nat} (hv : v < 2 ^ f.width) :
    (s.setFld f i v).fld f i = v :=
  (State.fld_setFld h hf s i v).trans (Nat.mod_eq_of_lt hv)

@[simp] theorem State.part_raise (s : State) (n q : Nat) : (s.raise n).part q = s.part q := rfl

/-! ## LOAD (R442, R512) -/

theorem gives_load {q : Nat} (hq : q < 8) (s : State) : Gives (.load q) s (s.load q) := .of_done (if_pos hq)

theorem State.loadStatus_lt (s : State) (q : Nat) : s.loadStatus q < 2 ^ 8 := by
  unfold State.loadStatus
  extract_lets p
  split_ifs <;> decide

theorem State.loadStatus_beforeBoot {s : State} (h : s.fld F.ROOT_BOOT_BOOT_OK 0 = 0) (q : Nat) : s.loadStatus q = stNOT_READY := if_pos h

theorem State.loadStatus_jobHeld {s : State} {q : Nat} (hb : s.fld F.ROOT_BOOT_BOOT_OK 0 ≠ 0) (hi : (s.part q).job ≠ .idle)
    (he : (s.part q).job ≠ .ended) : s.loadStatus q = stNOT_PERMITTED := by
  rw [State.loadStatus, if_neg hb, if_pos (by simp [hi, he])]

theorem State.load_accepted {s : State} {q : Nat} (h : s.loadStatus q = stOK) :
    s.load q = ((s.setFld F.HQ_JOB_STATUS q stOK).modPart q fun p => { p with job := .armed }).raise 323 := by
  rw [State.load, h]
  rfl

theorem State.load_refused {s : State} {q : Nat} (h : s.loadStatus q ≠ stOK) : s.load q = s.setFld F.HQ_JOB_STATUS q (s.loadStatus q) :=
  if_neg h

/-- Settles O22: `State.load` writes the status of its checks, and arms the partition where that is OK. -/
theorem loads : Obligations.Loads := by
  unfold Obligations.Loads
  intro q s hq
  have hgives := gives_load hq s
  refine ⟨fun hok => ?armed, fun hbad => ?refused, fun hb => State.loadStatus_beforeBoot hb q, State.loadStatus_jobHeld⟩
  case armed =>
    rw [State.load_accepted hok] at hgives
    have hocc := State.setFld_occ (f := F.HQ_JOB_STATUS) rfl s q stOK
    refine hgives.completes (by simp) (by simp) ⟨?_, ?_, ?_, fun p hp => ?_, ?_⟩
    · rw [State.part_raise, State.part_modPart]
    · rw [State.fld_raise, State.fld_modPart]
      exact State.fld_setFld rfl rfl ..
    · rw [State.raise, State.modPart_occ, hocc]
    · rw [State.part_raise, State.part_modPart_ne _ _ hp]
      exact State.part_of_parts (State.setFld_parts ..) p
    · simp only [State.raise, State.modPart, State.setPart, State.setFld, State.setReg_plain (r := F.HQ_JOB_STATUS.reg) rfl]
  case refused =>
    rw [State.load_refused hbad] at hgives
    have hframe := State.sameButRegs_setFld (f := F.HQ_JOB_STATUS) rfl s q (s.loadStatus q)
    exact hgives.completes (State.setFld_pending ..) (State.setFld_id ..)
      ⟨State.fld_setFld_of_lt rfl rfl s q (s.loadStatus_lt q), hframe⟩

/-! ## Ring positions (R434) -/

theorem gives_hqRhposWrite {k : Nat} (hk : k < 64) (r : Requester) (v : Nat) (l : List (List Byte)) (s : State) :
    Gives (.hqRhposWrite r k v l) s (s.writeHpos k v l) := .of_done (if_pos hk)

/-- A violation of a ring: `f` is a bit of HQ_RSTAT. -/
theorem State.ringViolated_form {f : Fld} (hr : f.reg = .HQ_RSTAT) (hf : f.fits = true) (hw : f.width = 1) {k : Nat} (hk : k < 64) (s : State) :
    let t := (s.hwSet f k 1).raise 321
    t.hpos k = s.hpos k ∧ t.fld f k = 1 ∧ t.occ = s.occ ++ [321] ∧ t.parts = s.parts ∧ s.sameButLog t := by
  have hps : psReg f.reg = none := by rw [hr]; rfl
  have hk24 : k < 2 ^ 24 := by omega
  refine ⟨?_, ?_, ?_, ?_, (State.sameButLog_hwSet hps ..).trans (State.sameButLog_raise ..)⟩
  · rw [State.hpos, State.fld_raise, State.hwSet, State.fld_note, State.fld_setFld_ne hps _ _ hk24 hk24 (.inl (by rw [hr]; decide)),
      State.hpos]
  · rw [State.fld_raise, State.hwSet, State.fld_note, State.fld_setFld hps hf, hw]
    rw [Nat.or_mod_two_pow]
    rcases Nat.mod_two_eq_zero_or_one (s.fld f k) with h | h <;> rw [pow_one, h] <;> rfl
  · rw [State.raise, State.hwSet, State.note_occ, State.setFld_occ hps]
  · rw [State.raise_parts, State.hwSet_parts]

section
variable {s : State} {k v : Nat} (hv : v < 2 ^ 32) (l : List (List Byte))
include hv

theorem State.writeHpos_overrun (hin : s.ringIsOut k = false) (hfull : s.ringSlots k < (v + 2 ^ 32 - s.dpos k) % 2 ^ 32) :
    s.writeHpos k v l = s.ringOvr k := by
  simp only [State.writeHpos, Nat.mod_eq_of_lt hv, hin, if_pos hfull, Bool.false_eq_true, if_false]

theorem State.writeHpos_underrun (hout : s.ringIsOut k = true) (hfull : s.ringSlots k < (s.dpos k + 2 ^ 32 - v) % 2 ^ 32) :
    s.writeHpos k v l = s.ringUnd k := by
  simp only [State.writeHpos, Nat.mod_eq_of_lt hv, hout, if_pos hfull, if_true]

theorem State.writeHpos_taken (hout : s.ringIsOut k = true) (hroom : (s.dpos k + 2 ^ 32 - v) % 2 ^ 32 ≤ s.ringSlots k) :
    s.writeHpos k v l = s.setFld F.HQ_RHPOS_HPOS k v := by
  simp only [State.writeHpos, Nat.mod_eq_of_lt hv, hout, if_neg (Nat.not_lt.2 hroom), if_true]

end

/-- Settles O46: a write that leaves the depth within the ring sets HPOS, and any other sets a bit of HQ_RSTAT and raises source 321. -/
theorem ringsGuarded : Obligations.RingsGuarded := by
  unfold Obligations.RingsGuarded
  intro r k v l s hk hv
  have hgives := gives_hqRhposWrite hk r v l s
  refine ⟨fun hin hfull => ?overrun, fun hout hfull => ?underrun, fun hout hroom => ?taken⟩
  case overrun =>
    rw [State.writeHpos_overrun hv l hin hfull] at hgives
    obtain ⟨hpos, hbit, hocc, hparts, hframe⟩ := State.ringViolated_form (f := F.HQ_RSTAT_OVR) rfl rfl rfl hk s
    exact hgives.completes hframe.pending hframe.id ⟨hpos, hbit, hocc, hparts, hframe⟩
  case underrun =>
    rw [State.writeHpos_underrun hv l hout hfull] at hgives
    obtain ⟨hpos, hbit, hocc, hparts, hframe⟩ := State.ringViolated_form (f := F.HQ_RSTAT_UND) rfl rfl rfl hk s
    exact hgives.completes hframe.pending hframe.id ⟨hpos, hbit, hocc, hparts, hframe⟩
  case taken =>
    rw [State.writeHpos_taken hv l hout hroom] at hgives
    exact hgives.completes (State.setFld_pending ..) (State.setFld_id ..)
      ⟨State.fld_setFld_of_lt rfl rfl s k hv, State.sameButRegs_setFld rfl ..⟩

/-! ## The boundary-scan port (R457) -/

theorem State.scanDrive_form (s : State) (ir drive : Nat) :
    s.scanDrive ir drive = s.modPins fun p => { p with ir := ir, drive := if s.pins.perst then drive else 0 } := by
  unfold State.scanDrive
  split <;> rfl

/-- Settles O51: each instruction changes the pins alone. -/
theorem boundaryScan : Obligations.BoundaryScan := by
  unfold Obligations.BoundaryScan
  intro s
  refine ⟨fun c w hw => ?idle, ?sample, fun c d w hw => ?drives⟩
  case idle =>
    have hgives : Gives w s (s.scan c) := by
      simp only [List.mem_cons, Prod.mk.injEq, List.not_mem_nil, or_false] at hw
      obtain ⟨rfl, rfl⟩ | ⟨rfl, rfl⟩ := hw <;> rfl
    exact hgives.completes rfl rfl ⟨rfl, rfl⟩
  case sample =>
    have hgives : Gives .samplePreload s ((s.scan 2).modPins fun p => { p with boundary := s.pinLevels }) := rfl
    exact hgives.completes rfl rfl ⟨rfl, rfl, rfl⟩
  case drives =>
    have hgives : Gives w s (s.scanDrive c d) := by
      simp only [List.mem_cons, Prod.mk.injEq, List.not_mem_nil, or_false] at hw
      obtain ⟨rfl, rfl, rfl⟩ | ⟨rfl, rfl, rfl⟩ | ⟨rfl, rfl, rfl⟩ := hw <;> rfl
    rw [State.scanDrive_form] at hgives
    exact hgives.completes rfl rfl ⟨rfl, rfl, rfl⟩

end Sys2Proof.Machine
end

section
/-! Corrections of GTC (14_time_clocks_power.md R463 to R465, R471, Table 14.1): what a correction leaves, one ns of a slew, and writes of
TIME_SET. -/

namespace Sys2Proof.Machine

/-! ## Registers after changes of the time base -/

@[simp] theorem State.fld_modTm (s : State) (m : TimeSt → TimeSt) (f : Fld) (i : Nat) : (s.modTm m).fld f i = s.fld f i :=
  State.fld_congr rfl rfl rfl f i

@[simp] theorem State.modTm_tm (s : State) (m : TimeSt → TimeSt) : (s.modTm m).tm = m s.tm := rfl

theorem State.fld_stepBy (s : State) (e : Nat) (f : Fld) (i : Nat) : (s.stepBy e).fld f i = s.fld f i := State.fld_congr rfl rfl rfl f i

/-- Two states differ at most in GTC and what goes with it: registers and their notes, the time base, the event controller, occurrences. -/
def State.sameButClock (s t : State) : Prop :=
  t = { s with regs := t.regs, hw := t.hw, tm := t.tm, evc := t.evc, gtc := t.gtc, occ := t.occ }

theorem State.sameButClock.trans {s t u : State} (h : s.sameButClock t) (k : t.sameButClock u) : s.sameButClock u := by
  unfold State.sameButClock at *
  rw [h] at k
  exact k

theorem State.sameButClock.pending {s t : State} (h : s.sameButClock t) : t.pending = s.pending := by rw [h]
theorem State.sameButClock.id {s t : State} (h : s.sameButClock t) : t.id = s.id := by rw [h]
theorem State.sameButClock.free {s t : State} (h : s.sameButClock t) : t.free = s.free := by rw [h]

theorem State.sameButLog.sameButClock {s t : State} (h : s.sameButLog t) : s.sameButClock t := by
  rw [h]
  rfl

theorem State.sameButRegs.sameButLog {s t : State} (h : s.sameButRegs t) : s.sameButLog t := by
  rw [h]
  rfl

theorem State.sameButClock_modTm (s : State) (m : TimeSt → TimeSt) : s.sameButClock (s.modTm m) := rfl

theorem State.sameButClock_stepBy (s : State) (e : Nat) : s.sameButClock (s.stepBy e) := rfl

/-! ## A slew (R463, R464) -/

theorem State.setSlew_tm (s : State) (r : Int) : (s.setSlew r).tm = { s.tm with slew := r } := by
  rw [State.setSlew, State.setFld_tm, State.modTm_tm]

theorem State.sameButClock_setSlew (s : State) (r : Int) : s.sameButClock (s.setSlew r) :=
  (s.sameButClock_modTm _).trans (State.sameButRegs_setFld rfl ..).sameButLog.sameButClock

/-- A correction handled by a slew: R is the correction, and GTC stays. -/
theorem State.slewBy_form (s : State) (e : Int) :
    (s.slewBy e).gtc = s.gtc ∧ (s.slewBy e).tm.slew = e ∧ (s.slewBy e).occ = s.occ ∧ s.sameButClock (s.slewBy e) := by
  unfold State.slewBy
  refine ⟨?_, ?_, ?_, ?_⟩
  · rw [State.setSlew, State.setFld_gtc, State.modTm_gtc]
    split <;> rfl
  · rw [State.setSlew_tm]
  · rw [State.setSlew, State.setFld_occ rfl, State.modTm_occ]
    split <;> rfl
  · refine State.sameButClock.trans ?_ (State.sameButClock_setSlew ..)
    split <;> rfl

/-- A slew shows in TIME_ERR.REMAIN alone. -/
theorem State.fld_slewBy {f : Fld} (h : F.TIME_ERR_REMAIN.apart f = true) (hf : f.fits = true) (s : State) (e : Int) :
    (s.slewBy e).fld f 0 = s.fld f 0 := by
  have hstart : (if s.tm.slew = 0 then s.modTm fun t => { t with slewAt := s.refNs } else s).fld f 0 = s.fld f 0 := by
    split
    · exact State.fld_modTm ..
    · rfl
  rw [State.slewBy, State.setSlew]
  by_cases hr : f.reg = F.TIME_ERR_REMAIN.reg
  · rw [State.fld_setFld_apart rfl hr rfl hf h, State.fld_modTm, hstart]
  · rw [State.fld_setFld_reg rfl hr, State.fld_modTm, hstart]

/-! ## Corrections (Table 14.1) -/

/-- A correction that is not 0 shows in TIME_ERR.LAST and sets TIME_STAT.INIT. -/
def State.noteCorrection (s : State) (e : Int) : State := (s.setFld F.TIME_ERR_LAST 0 (sat32 e)).setFld F.TIME_STAT_INIT 0 1

theorem State.sameButRegs_noteCorrection (s : State) (e : Int) : s.sameButRegs (s.noteCorrection e) :=
  (State.sameButRegs_setFld rfl ..).trans (State.sameButRegs_setFld rfl ..)

/-- Table 14.1: a correction that is not 0 is a step, a slew, or a slew with its step refused. -/
inductive State.Corrected (s : State) (e : Int) (t : State) : Prop
  | steps (h : t = (s.noteCorrection e).stepBy e.toNat) (h0 : 0 < e)
      (hrow : s.fld F.TIME_STAT_INIT 0 = 0 ∨ e ≤ 1000000 ∧ s.anyBusy = false)
  | slews (h : t = (s.noteCorrection e).slewBy e) (hrow : e < 0 ∨ e ≤ 1000000 ∧ s.anyBusy = true ∧ s.fld F.TIME_STAT_INIT 0 ≠ 0)
  | refused (h : t = ((s.noteCorrection e).slewBy e).stepRefused) (hrow : e < 0 ∨ 1000000 < e ∧ s.fld F.TIME_STAT_INIT 0 ≠ 0)

theorem State.correct_zero (s : State) (own : Bool) : s.correct 0 own = s.setFld F.TIME_ERR_LAST 0 (sat32 0) := by
  rw [State.correct]
  exact if_pos rfl

theorem State.anyBusy_of_parts {s t : State} (h : t.parts = s.parts) : t.anyBusy = s.anyBusy :=
  congrArg (List.range 8).any (funext fun q => congrArg Part.jobLive (State.part_of_parts h q))

theorem State.corrected_correct {e : Int} (h : e ≠ 0) (s : State) (own : Bool) : s.Corrected e (s.correct e own) := by
  have hinit : (s.setFld F.TIME_ERR_LAST 0 (sat32 e)).fld F.TIME_STAT_INIT 0 = s.fld F.TIME_STAT_INIT 0 :=
    State.fld_setFld_reg rfl (by decide) ..
  have hbusy : (s.setFld F.TIME_ERR_LAST 0 (sat32 e)).anyBusy = s.anyBusy :=
    State.anyBusy_of_parts (State.setFld_parts ..)
  simp only [State.correct, if_neg h, hinit, hbusy, ← State.noteCorrection.eq_def]
  split_ifs with hfirst hneg hown hfar hbusy
  · exact .steps rfl hfirst.2 (.inl hfirst.1)
  · exact .refused rfl (.inl hneg)
  · exact .slews rfl (.inl hneg)
  · exact .refused rfl (.inr ⟨hfar, by omega⟩)
  · exact .slews rfl (.inr ⟨by omega, hbusy, by omega⟩)
  · exact .steps rfl (by omega) (.inr ⟨by omega, by simpa using hbusy⟩)

section
variable (s : State) (e : Int)

theorem State.noteCorrection_gtc : (s.noteCorrection e).gtc = s.gtc := by rw [State.noteCorrection, State.setFld_gtc, State.setFld_gtc]
theorem State.noteCorrection_tm : (s.noteCorrection e).tm = s.tm := by rw [State.noteCorrection, State.setFld_tm, State.setFld_tm]
theorem State.noteCorrection_occ : (s.noteCorrection e).occ = s.occ := by
  rw [State.noteCorrection, State.setFld_occ rfl, State.setFld_occ rfl]

theorem State.fld_noteCorrection_init : (s.noteCorrection e).fld F.TIME_STAT_INIT 0 = 1 := State.fld_setFld_of_lt rfl rfl _ _ (by decide)

theorem sat32_lt : sat32 e < 2 ^ 32 := by
  unfold sat32
  omega

theorem State.fld_noteCorrection_last : (s.noteCorrection e).fld F.TIME_ERR_LAST 0 = sat32 e := by
  rw [State.noteCorrection, State.fld_setFld_reg rfl (by decide)]
  exact State.fld_setFld_of_lt rfl rfl _ _ (sat32_lt e)

theorem State.stepRefused_occ : s.stepRefused.occ = s.occ ++ [32] := by
  rw [State.stepRefused, State.raise, State.addFld, State.note_occ, State.setFld_occ rfl]

theorem State.fld_stepRefused {f : Fld} (h : f.reg ≠ F.TIME_SLEW_REFUSED.reg) : s.stepRefused.fld f 0 = s.fld f 0 := by
  rw [State.stepRefused, State.fld_raise, State.addFld, State.fld_note, State.fld_setFld_reg rfl h]

theorem State.sameButLog_stepRefused : s.sameButLog s.stepRefused := (State.sameButLog_addFld rfl ..).trans (State.sameButLog_raise ..)

theorem State.stepRefused_tm : s.stepRefused.tm = s.tm := by rw [s.sameButLog_stepRefused]
theorem State.stepRefused_gtc : s.stepRefused.gtc = s.gtc := by rw [s.sameButLog_stepRefused]

end

section
variable {s t : State} {e : Int} (h : s.Corrected e t)
include h

theorem State.Corrected.sameButClock : s.sameButClock t := by
  have hnoted := (s.sameButRegs_noteCorrection e).sameButLog.sameButClock
  have hslewed := hnoted.trans ((s.noteCorrection e).slewBy_form e).2.2.2
  cases h with
  | steps h => rw [h]; exact hnoted.trans (State.sameButClock_stepBy ..)
  | slews h => rw [h]; exact hslewed
  | refused h => rw [h]; exact hslewed.trans (State.sameButLog_stepRefused _).sameButClock

/-- A correction that is not 0 sets the register fields of its note; a slew and a refusal change other fields. -/
theorem State.Corrected.fld {f : Fld} (hf : f.fits = true) (hremain : F.TIME_ERR_REMAIN.apart f = true) (href : f.reg ≠ F.TIME_SLEW_REFUSED.reg) :
    t.fld f 0 = (s.noteCorrection e).fld f 0 := by
  cases h with
  | steps h => rw [h, State.fld_stepBy]
  | slews h => rw [h, State.fld_slewBy hremain hf]
  | refused h => rw [h, State.fld_stepRefused _ href, State.fld_slewBy hremain hf]

end

section
variable (s : State) (e : Int)

/-- A step: GTC goes forward, and the slew stays. -/
theorem State.noted_stepBy (n : Nat) :
    ((s.noteCorrection e).stepBy n).gtc = s.gtc + n ∧ ((s.noteCorrection e).stepBy n).tm = s.tm
      ∧ ((s.noteCorrection e).stepBy n).occ = s.occ := by
  simp only [State.stepBy, s.noteCorrection_gtc, s.noteCorrection_tm, s.noteCorrection_occ, and_self]

/-- A slew: GTC stays, and the correction is the slew. -/
theorem State.noted_slewBy :
    ((s.noteCorrection e).slewBy e).gtc = s.gtc ∧ ((s.noteCorrection e).slewBy e).tm.slew = e
      ∧ ((s.noteCorrection e).slewBy e).occ = s.occ := by
  obtain ⟨hgtc, hslew, hocc, -⟩ := (s.noteCorrection e).slewBy_form e
  exact ⟨hgtc.trans (s.noteCorrection_gtc e), hslew, hocc.trans (s.noteCorrection_occ e)⟩

/-- A slew whose step was refused raises source 32. -/
theorem State.noted_stepRefused :
    ((s.noteCorrection e).slewBy e).stepRefused.gtc = s.gtc ∧ ((s.noteCorrection e).slewBy e).stepRefused.tm.slew = e
      ∧ ((s.noteCorrection e).slewBy e).stepRefused.occ = s.occ ++ [32] := by
  obtain ⟨hgtc, hslew, hocc⟩ := s.noted_slewBy e
  rw [State.stepRefused_gtc, State.stepRefused_tm, State.stepRefused_occ, hocc]
  exact ⟨hgtc, hslew, rfl⟩

end

/-- What a correction leaves of GTC, of the slew and of the occurrences (Table 14.1). -/
theorem State.Corrected.table {s t : State} {e : Int} (h : s.Corrected e t) :
    s.gtc ≤ t.gtc
      ∧ (0 < e → s.fld F.TIME_STAT_INIT 0 = 0 → t.gtc = s.gtc + e.toNat ∧ t.tm = s.tm)
      ∧ (e < 0 → t.gtc = s.gtc ∧ t.tm.slew = e)
      ∧ (1000000 < e → s.fld F.TIME_STAT_INIT 0 = 1 → t.gtc = s.gtc ∧ t.tm.slew = e ∧ t.occ = s.occ ++ [32])
      ∧ (0 < e → e ≤ 1000000 → s.fld F.TIME_STAT_INIT 0 = 1 → (s.anyBusy = true → t.gtc = s.gtc ∧ t.tm.slew = e ∧ t.occ = s.occ)
        ∧ (s.anyBusy = false → t.gtc = s.gtc + e.toNat ∧ t.tm = s.tm ∧ t.occ = s.occ)) := by
  cases h with
  | steps h h0 hrow =>
    obtain ⟨hgtc, htm, hocc⟩ := s.noted_stepBy e e.toNat
    rw [← h] at hgtc htm hocc
    refine ⟨by omega, fun _ _ => ⟨hgtc, htm⟩, fun hn => by omega, fun hfar h1 => by omega, fun _ _ h1 => ⟨fun hb => ?_, fun _ => ⟨hgtc, htm, hocc⟩⟩⟩
    obtain hrow | ⟨-, hrow⟩ := hrow
    · omega
    · rw [hb] at hrow
      contradiction
  | slews h hrow =>
    obtain ⟨hgtc, hslew, hocc⟩ := s.noted_slewBy e
    rw [← h] at hgtc hslew hocc
    refine ⟨by omega, fun _ _ => by omega, fun _ => ⟨hgtc, hslew⟩, fun _ _ => by omega,
      fun _ _ _ => ⟨fun _ => ⟨hgtc, hslew, hocc⟩, fun hb => ?_⟩⟩
    obtain hrow | ⟨-, hrow, -⟩ := hrow
    · omega
    · rw [hb] at hrow
      contradiction
  | refused h hrow =>
    obtain ⟨hgtc, hslew, hocc⟩ := s.noted_stepRefused e
    rw [← h] at hgtc hslew hocc
    exact ⟨by omega, fun _ _ => by omega, fun _ => ⟨hgtc, hslew⟩, fun _ _ => ⟨hgtc, hslew, hocc⟩, fun _ _ _ => by omega⟩

/-! ## One ns of a slew (R464) -/

theorem gives_slewStep {s : State} (hr : s.tm.slew ≠ 0) (hd : s.tm.slewAt + s.slewPeriod ≤ s.refNs) : Gives .slewStep s s.slewNs :=
  .of_done (if_pos ⟨hr, hd⟩)

/-- The time base after one ns of a slew. -/
def TimeSt.slewed (t : TimeSt) (period : Nat) : TimeSt :=
  if 0 < t.slew then { t with slewAt := t.slewAt + period, slew := t.slew - 1 }
  else { t with slewAt := t.slewAt + period, hold := t.hold + 1, slew := t.slew + 1 }

theorem State.slewNs_form (s : State) :
    s.slewNs.gtc = (if 0 < s.tm.slew then s.gtc + 1 else s.gtc) ∧ s.slewNs.tm = s.tm.slewed s.slewPeriod
      ∧ s.slewNs = { s with gtc := s.slewNs.gtc, tm := s.slewNs.tm, regs := s.slewNs.regs } := by
  unfold State.slewNs TimeSt.slewed
  extract_lets u
  have hu : u.tm.slew = s.tm.slew := rfl
  rw [hu]
  split <;>
  · refine ⟨?_, State.setSlew_tm .., ?_⟩
    · rw [State.setSlew, State.setFld_gtc]
      rfl
    · simp only [u, State.setSlew, State.modTm, State.setFld, State.setReg_plain (r := F.TIME_ERR_REMAIN.reg) rfl]

/-! ## The statements -/

/-- Settles O39: a correction is a row of Table 14.1 (`State.Corrected`), and one ns of a slew changes the time base as `TimeSt.slewed`. -/
theorem correctionsApply : Obligations.CorrectionsApply := by
  unfold Obligations.CorrectionsApply
  refine ⟨fun e own s => ?correction, fun s hr hd => ?slew⟩
  case correction =>
    intro t
    by_cases h : e = 0
    · subst h
      have ht : t = s.setFld F.TIME_ERR_LAST 0 (sat32 0) := s.correct_zero own
      rw [ht]
      exact ⟨(State.setFld_gtc ..).ge, fun _ => State.sameButRegs_setFld rfl .., fun h0 => absurd rfl h0, fun h0 => by omega, fun h0 => by omega,
        fun h0 => by omega, fun h0 => by omega⟩
    · have hc : s.Corrected e t := State.corrected_correct h s own
      obtain ⟨hle, htable⟩ := hc.table
      exact ⟨hle, fun h0 => absurd h0 h, fun _ => (hc.fld rfl rfl (by decide)).trans (s.fld_noteCorrection_init e), htable⟩
  case slew =>
    obtain ⟨hgtc, htm, hframe⟩ := s.slewNs_form
    refine (gives_slewStep hr hd).completes (by rw [hframe]) (by rw [hframe]) ⟨fun hp => ?_, fun hn => ?_, ?_, hframe⟩
    · rw [hgtc, htm, if_pos hp, TimeSt.slewed, if_pos hp]
      exact ⟨rfl, rfl, rfl⟩
    · have hnp : ¬ 0 < s.tm.slew := by omega
      rw [hgtc, htm, if_neg hnp, TimeSt.slewed, if_neg hnp]
      exact ⟨rfl, rfl, rfl⟩
    · rw [htm, TimeSt.slewed]
      split <;> rfl

/-- Settles O38: the row is `State.writeTimeSet` of the value cut to the width of the register. -/
theorem timeSetCorrects : Obligations.TimeSetCorrects := by
  unfold Obligations.TimeSetCorrects
  intro r v s hv
  have hgives : Gives (.timeSetWrite r v) s (s.writeTimeSet (v % 2 ^ 64)) := rfl
  rw [Nat.mod_eq_of_lt hv] at hgives
  refine ⟨fun hm hsrc => ?_, fun hno => ?_⟩
  · rwa [State.writeTimeSet, if_pos ⟨hm, hsrc⟩] at hgives
  · rw [State.writeTimeSet, if_neg (by rintro ⟨hm, hsrc⟩; simp [hm, hsrc] at hno)] at hgives
    exact hgives

end Sys2Proof.Machine
end

section
/-! Beacons (14_time_clocks_power.md R466 to R468): what the master sends, what it discards, and the loss of the parent. -/

namespace Sys2Proof.Machine

/-! ## CTRL flits put into outbound queues (R333) -/

theorem mem_tiePut {α : Type} (l : List α) (keys : List Nat) (from_ : Nat) {x y : α} :
    y ∈ (tiePut l keys from_ x).1 ↔ y = x ∨ y ∈ l := by
  simp only [tiePut, List.mem_append, List.mem_cons]
  conv_rhs => rw [← List.take_append_drop (l.length - (keys.drop (keys.length - l.length)).length
    + ((keys.drop (keys.length - l.length)).takeWhile fun y => decide (y ≤ from_)).length) l, List.mem_append]
  tauto

theorem State.mem_ctrl_ctrlOut (s : State) (n k : Nat) (f : CtrlFlit) (from_ : Nat) {b : CtrlFlit} :
    b ∈ ((s.ctrlOut n f from_).port k).ctrl ↔ (k = n ∧ b = f) ∨ b ∈ (s.port k).ctrl := by
  rw [State.ctrlOut]
  by_cases h : k = n
  · rw [h, State.port_modPort, Port.putCtrl, mem_tiePut]
    simp only [true_and]
  · rw [State.port_modPort_ne s _ h]
    simp only [h, false_and, false_or]

/-- A flit put into several queues stands in each of them. -/
theorem State.mem_ctrl_foldl_ctrlOut (f : CtrlFlit) {k : Nat} (l : List Nat) (s : State) (h : k ∈ l ∨ f ∈ (s.port k).ctrl) :
    f ∈ ((l.foldl (fun t n => t.ctrlOut n f) s).port k).ctrl := by
  induction l generalizing s with
  | nil => simpa using h
  | cons n ns ih =>
    refine ih _ ?_
    rw [State.mem_ctrl_ctrlOut]
    rcases h with h | h
    · rcases List.mem_cons.1 h with rfl | h
      · exact .inr (.inl ⟨rfl, rfl⟩)
      · exact .inl h
    · exact .inr (.inr h)

theorem State.foldl_ctrlOut_form (f : CtrlFlit) (l : List Nat) (s : State) :
    l.foldl (fun t n => t.ctrlOut n f) s = { s with ports := (l.foldl (fun t n => t.ctrlOut n f) s).ports } := by
  refine foldl_keeps (fun t => t = { s with ports := t.ports }) _ (fun t n ht => ?_) l s rfl
  rw [ht]
  rfl

/-! ## Beacons of the master (R466) -/

/-- The BEACON that the master sends next. -/
def State.nextBeacon (s : State) : CtrlFlit :=
  beaconFlit (s.fld F.TIME_STAT_HOLDOVER 0) 0 (s.tm.beaconSeq % 2 ^ 32) s.node s.sysNo

theorem State.beacon_form (s : State) :
    (∀ k ∈ s.beaconPorts, s.nextBeacon ∈ (s.beacon.port k).ctrl)
      ∧ s.beacon.tm = { s.tm with beaconSeq := s.tm.beaconSeq + 1, sentAt := some s.gtc }
      ∧ s.beacon = { s with ports := s.beacon.ports, tm := s.beacon.tm } := by
  have hform : s.beacon = { s with
      ports := (s.beaconPorts.foldl (fun t n => t.ctrlOut n s.nextBeacon) s).ports
      tm := { s.tm with beaconSeq := s.tm.beaconSeq + 1, sentAt := some s.gtc } } := by
    rw [State.beacon, ← State.nextBeacon.eq_def, State.foldl_ctrlOut_form]
    rfl
  refine ⟨fun k hk => ?_, by rw [hform], by rw [hform]⟩
  have hmem := State.mem_ctrl_foldl_ctrlOut s.nextBeacon s.beaconPorts s (.inl hk)
  rwa [State.port_of_ports (t := s.beacon) (by rw [hform])]

theorem gives_beaconSend {s : State} (hm : s.isMaster = true) (hg : s.gtc % 100000 = 0) (hs : s.tm.sentAt ≠ some s.gtc) :
    Gives .beaconSend s s.beacon := .of_done (if_pos ⟨hm, hg, hs⟩)

/-! ## Beacons received (R467) -/

theorem gives_beaconReceive (n : Nat) (f : CtrlFlit) (s : State) : Gives (.beaconReceive n f) s ((s.ctrlTake n f).takeBeacon n f) := rfl

section
variable (s : State) (n : Nat) (f : CtrlFlit)

theorem State.fld_ctrlTake (g : Fld) (i : Nat) : (s.ctrlTake n f).fld g i = s.fld g i := by
  rw [State.ctrlTake_form]
  rfl

theorem State.isMaster_ctrlTake : (s.ctrlTake n f).isMaster = s.isMaster := by rw [State.isMaster, State.isMaster, State.fld_ctrlTake]

theorem State.sysNo_ctrlTake : (s.ctrlTake n f).sysNo = s.sysNo := State.fld_ctrlTake ..

theorem State.node_ctrlTake : (s.ctrlTake n f).node = s.node := State.fld_ctrlTake ..

end

section
variable {s : State} {n : Nat} {f : CtrlFlit}

/-- R467: the master discards a beacon; source 35 shows one that is not its own. -/
theorem State.takeBeacon_master (hm : s.isMaster = true) :
    (s.ctrlTake n f).takeBeacon n f
      = { s.ctrlTake n f with occ := s.occ ++ (if f.node = s.node ∧ f.sys = s.sysNo then [] else [35]) } := by
  have hocc : (s.ctrlTake n f).occ = s.occ := by rw [State.ctrlTake_form]
  rw [State.takeBeacon, State.isMaster_ctrlTake, if_pos hm, State.sysNo_ctrlTake, State.node_ctrlTake, ← hocc]
  split
  · rw [List.append_nil]
  · rfl

theorem State.takeBeacon_follower (hm : s.isMaster = false) : (s.ctrlTake n f).takeBeacon n f = (s.ctrlTake n f).beaconIn n f :=
  if_neg (by rw [State.isMaster_ctrlTake, hm]; decide)

theorem State.beaconIn_otherSystem (h : f.sys ≠ s.sysNo) : (s.ctrlTake n f).beaconIn n f = s.ctrlTake n f :=
  if_pos (by rwa [State.sysNo_ctrlTake])

end

/-! ## SYNC (R468) -/

/-- SYNC is as asked afterwards; a change raises source 34. -/
theorem State.setSync_form (s : State) (on : Bool) :
    (s.setSync on).fld F.TIME_STAT_SYNC 0 = (if on then 1 else 0) ∧ (s.setSync on) = { s with regs := (s.setSync on).regs, occ := (s.setSync on).occ } := by
  have hv : (if on then 1 else 0) < 2 ^ F.TIME_STAT_SYNC.width := by split <;> decide
  unfold State.setSync
  extract_lets v
  split
  case isTrue h => exact ⟨h, rfl⟩
  case isFalse =>
    refine ⟨(State.fld_raise ..).trans (State.fld_setFld_of_lt rfl rfl _ _ hv), ?_⟩
    simp only [State.raise, State.setFld, State.setReg_plain (r := F.TIME_STAT_SYNC.reg) rfl]

theorem gives_beaconTimeout {s : State} (hm : s.isMaster = false) (hp : s.tm.parent = true) (h : s.tm.heardP + 1000000 ≤ s.gtc) :
    Gives .beaconTimeout s (s.setSync false) := .of_done (if_pos ⟨by rw [hm]; rfl, hp, h⟩)

/-! ## The statement -/

/-- Settles O37: the rows of `BEACON_SEND`, `BEACON_RECEIVE` and `BEACON_TIMEOUT`, by the part's place in the tree of beacons. -/
theorem beaconsMove : Obligations.BeaconsMove := by
  unfold Obligations.BeaconsMove
  intro n f s
  refine ⟨fun hm hg hs => ?sends, fun hg => ?idle, fun hm => ?master, fun hm hsys => ?foreign, fun hm _ => ?follower, fun hm hp h => ?timeout⟩
  case sends =>
    obtain ⟨hmem, htm, hform⟩ := s.beacon_form
    refine (gives_beaconSend hm hg hs).completes (by rw [hform]) (by rw [hform]) ⟨fun k hk => ?_, by rw [htm], by rw [htm], hform⟩
    exact ⟨s.nextBeacon, hmem k hk, rfl, rfl, rfl, rfl⟩
  case idle => exact if_neg fun h => hg h.2.1
  case master =>
    have hgives := gives_beaconReceive n f s
    rw [State.takeBeacon_master hm, State.ctrlTake_form] at hgives
    exact hgives.completes rfl rfl ⟨rfl, rfl⟩
  case foreign =>
    have hgives := gives_beaconReceive n f s
    rwa [State.takeBeacon_follower hm, State.beaconIn_otherSystem hsys] at hgives
  case follower =>
    have hgives := gives_beaconReceive n f s
    rwa [State.takeBeacon_follower hm] at hgives
  case timeout =>
    obtain ⟨hsync, hform⟩ := s.setSync_form false
    exact (gives_beaconTimeout hm hp h).completes (by rw [hform]) (by rw [hform]) ⟨hsync, hform⟩

end Sys2Proof.Machine
end

section
/-! The part's sources and clocks (14_time_clocks_power.md R459, R462, R469, R470, R472, R487): what holdover, a loss of reference and the
alarm leave, and the frame of a wake. -/

namespace Sys2Proof.Machine

/-! ## Fields that a write leaves -/

/-- A write of a field leaves the other fields of its index: those of other registers and those that lie apart. -/
theorem State.fld_setFld_beside {f g : Fld} (h : psReg f.reg = none) (hf : f.fits = true) (hg : g.fits = true)
    (hne : g.reg ≠ f.reg ∨ f.apart g = true) (s : State) (i v : Nat) : (s.setFld f i v).fld g i = s.fld g i := by
  by_cases hr : g.reg = f.reg
  · exact State.fld_setFld_apart h hr hf hg (hne.resolve_left fun hn => hn hr) ..
  · exact State.fld_setFld_reg h hr ..

/-- Two states differ at most in the registers and in the occurrences. -/
def State.sameButEvents (s t : State) : Prop := t = { s with regs := t.regs, occ := t.occ }

theorem State.sameButEvents_refl (s : State) : s.sameButEvents s := rfl

theorem State.sameButEvents.trans {s t u : State} (h : s.sameButEvents t) (k : t.sameButEvents u) : s.sameButEvents u := by
  unfold State.sameButEvents at *
  rw [h] at k
  exact k

theorem State.sameButRegs.sameButEvents {s t : State} (h : s.sameButRegs t) : s.sameButEvents t := by
  rw [h]
  rfl

theorem State.sameButEvents.sameButClock {s t : State} (h : s.sameButEvents t) : s.sameButClock t := by
  rw [h]
  rfl

theorem State.sameButEvents.pending {s t : State} (h : s.sameButEvents t) : t.pending = s.pending := by rw [h]
theorem State.sameButEvents.id {s t : State} (h : s.sameButEvents t) : t.id = s.id := by rw [h]
theorem State.sameButEvents.gtc {s t : State} (h : s.sameButEvents t) : t.gtc = s.gtc := by rw [h]
theorem State.sameButEvents.tm {s t : State} (h : s.sameButEvents t) : t.tm = s.tm := by rw [h]

theorem State.sameButEvents.with_tm {s t : State} {m : TimeSt} (h : State.sameButEvents { s with tm := m } t) :
    t = { s with regs := t.regs, tm := t.tm, occ := t.occ } := by rw [h]

theorem State.sameButEvents_setFld {f : Fld} (h : psReg f.reg = none) (s : State) (i v : Nat) : s.sameButEvents (s.setFld f i v) :=
  (State.sameButRegs_setFld h ..).sameButEvents

theorem State.sameButEvents_raise (s : State) (n : Nat) : s.sameButEvents (s.raise n) := rfl

/-! ## SYNC and holdover (R468, R469) -/

theorem State.sameButEvents_setSync (s : State) (on : Bool) : s.sameButEvents (s.setSync on) := (s.setSync_form on).2

theorem State.fld_setSync {f : Fld} (hf : f.fits = true) (h : f.reg ≠ F.TIME_STAT_SYNC.reg ∨ F.TIME_STAT_SYNC.apart f = true) (s : State)
    (on : Bool) : (s.setSync on).fld f 0 = s.fld f 0 := by
  unfold State.setSync
  extract_lets v
  split
  · rfl
  · rw [State.fld_raise, State.fld_setFld_beside rfl rfl hf h]

theorem State.mem_occ_setSync {s : State} {n : Nat} (h : n ∈ s.occ) (on : Bool) : n ∈ (s.setSync on).occ := by
  unfold State.setSync
  extract_lets v
  split
  · exact h
  · rw [State.raise, State.setFld_occ rfl]
    exact List.mem_append_left _ h

theorem State.sameButEvents_setHoldover (s : State) (on : Bool) : s.sameButEvents (s.setHoldover on) := by
  unfold State.setHoldover
  extract_lets v
  split
  · rfl
  · exact (State.sameButEvents_setFld rfl ..).trans (State.sameButEvents_raise ..)

theorem State.fld_setHoldover {f : Fld} (hf : f.fits = true) (h : f.reg ≠ F.TIME_STAT_HOLDOVER.reg ∨ F.TIME_STAT_HOLDOVER.apart f = true)
    (s : State) (on : Bool) : (s.setHoldover on).fld f 0 = s.fld f 0 := by
  unfold State.setHoldover
  extract_lets v
  split
  · rfl
  · rw [State.fld_raise, State.fld_setFld_beside rfl rfl hf h]

/-- Holdover shows when it begins, with source 33. -/
theorem State.setHoldover_begins (s : State) :
    (s.setHoldover true).fld F.TIME_STAT_HOLDOVER 0 = 1 ∧ (s.fld F.TIME_STAT_HOLDOVER 0 = 0 → 33 ∈ (s.setHoldover true).occ) := by
  unfold State.setHoldover
  extract_lets v
  split
  case isTrue h => exact ⟨h, fun h0 => absurd (h.symm.trans h0) (by decide)⟩
  case isFalse =>
    refine ⟨(State.fld_raise ..).trans (State.fld_setFld_of_lt rfl rfl _ _ (by decide)), fun _ => ?_⟩
    exact List.mem_append_right _ (List.mem_singleton.2 rfl)

theorem State.isMaster_of_fld {s t : State} (h : t.fld F.TIME_MASTER_MASTER 0 = s.fld F.TIME_MASTER_MASTER 0) : t.isMaster = s.isMaster := by
  rw [State.isMaster, State.isMaster, h]

theorem State.masterSync_master {s : State} (h : s.isMaster = true) :
    s.masterSync = s.setSync (s.fld F.TIME_STAT_HOLDOVER 0 == 0 && !s.tm.refLost) := if_pos h

theorem State.sameButEvents_masterSync (s : State) : s.sameButEvents s.masterSync := by
  unfold State.masterSync
  split
  · exact s.sameButEvents_setSync _
  · rfl

theorem State.fld_masterSync {f : Fld} (hf : f.fits = true) (h : f.reg ≠ F.TIME_STAT_SYNC.reg ∨ F.TIME_STAT_SYNC.apart f = true) (s : State) :
    s.masterSync.fld f 0 = s.fld f 0 := by
  unfold State.masterSync
  split
  · exact State.fld_setSync hf h ..
  · rfl

theorem gives_holdover {s : State} (hm : s.isMaster = true) (h : s.srcSilent = true) :
    Gives .holdover s (s.setHoldover true).masterSync := .of_done (if_pos ⟨hm, h⟩)

/-- A master in holdover does not hold SYNC. -/
theorem State.masterSync_holdover {s : State} (hm : s.isMaster = true) : (s.setHoldover true).masterSync = (s.setHoldover true).setSync false := by
  have hmaster : (s.setHoldover true).isMaster = true :=
    (State.isMaster_of_fld (State.fld_setHoldover rfl (.inl (by decide)) ..)).trans hm
  rw [State.masterSync_master hmaster, s.setHoldover_begins.1]
  rfl

/-! ## A source that is heard (R469, R470) -/

theorem State.sameButClock_srcHeard (s : State) : s.sameButClock s.srcHeard :=
  (s.sameButClock_modTm _).trans ((State.sameButEvents_setHoldover ..).trans (State.sameButEvents_masterSync _)).sameButClock

theorem State.srcHeard_gtc (s : State) : s.srcHeard.gtc = s.gtc := by
  have h := (State.sameButEvents_setHoldover (s.modTm fun t => { t with srcAt := s.refNs, ptmOut := 0 }) false).trans
    (State.sameButEvents_masterSync _)
  rw [State.srcHeard, h]
  rfl

theorem State.fld_srcHeard {f : Fld} (hf : f.fits = true) (h : f.reg ≠ .TIME_STAT) (s : State) : s.srcHeard.fld f 0 = s.fld f 0 := by
  rw [State.srcHeard, State.fld_masterSync hf (.inl h), State.fld_setHoldover hf (.inl h), State.fld_modTm]

/-- R469: the time from GTC to the nearest later second of the reference. -/
def State.ppsDistance (s : State) : Nat := (s.fld F.TIME_PPS_OFFSET 0 + 1000000000 - s.gtc % 1000000000) % 1000000000

theorem State.ppsDistance_srcHeard (s : State) : s.srcHeard.ppsDistance = s.ppsDistance := by
  rw [State.ppsDistance, State.ppsDistance, State.fld_srcHeard rfl (by decide), State.srcHeard_gtc]

section
variable {s : State}

theorem State.ppsCorrection_forward (h : s.ppsDistance < 500000000) : s.ppsCorrection = (s, Int.ofNat s.ppsDistance) := if_pos h

theorem State.ppsCorrection_back (h : 500000000 < s.ppsDistance) : s.ppsCorrection = (s, Int.ofNat s.ppsDistance - 1000000000) :=
  (if_neg (Nat.lt_asymm h)).trans (if_pos h)

theorem State.ppsCorrection_tie (h : s.ppsDistance = 500000000) :
    s.ppsCorrection = ({ s with free := s.free + 1 }, if Config.freeValue s.free % 2 = 0 then 500000000 else -500000000) :=
  (if_neg (by rw [← State.ppsDistance.eq_def, h]; decide)).trans (if_neg (by rw [← State.ppsDistance.eq_def, h]; decide))

theorem gives_ppsInEdge (hm : s.isMaster = true) (hs : s.timeSrc = 1) : Gives .ppsInEdge s s.ppsIn := .of_done (if_pos ⟨hm, hs⟩)

/-- A correction shows in TIME_ERR.LAST. -/
theorem State.fld_correct_last (s : State) (e : Int) (own : Bool) : (s.correct e own).fld F.TIME_ERR_LAST 0 = sat32 e := by
  by_cases h : e = 0
  · rw [h, State.correct_zero]
    exact State.fld_setFld_of_lt rfl rfl _ _ (sat32_lt 0)
  · exact ((State.corrected_correct h s own).fld rfl rfl (by decide)).trans (s.fld_noteCorrection_last e)

theorem State.sameButClock_correct (s : State) (e : Int) (own : Bool) : s.sameButClock (s.correct e own) := by
  by_cases h : e = 0
  · rw [h, State.correct_zero]
    exact (State.sameButRegs_setFld rfl ..).sameButLog.sameButClock
  · exact (State.corrected_correct h s own).sameButClock

/-- R469: where two instants are equally near, a free choice says which is taken. -/
theorem completes_ppsInEdge_tie (hm : s.isMaster = true) (hs : s.timeSrc = 1) (hd : s.ppsDistance = 500000000) :
    Completes .ppsInEdge s fun t => t.free = s.free + 1 ∧
      t.fld F.TIME_ERR_LAST 0 = (if Config.freeValue s.free % 2 = 0 then sat32 500000000 else sat32 (-500000000)) := by
  have hheard := s.sameButClock_srcHeard
  have hgives := gives_ppsInEdge hm hs
  rw [State.ppsIn, State.ppsCorrection_tie (s.ppsDistance_srcHeard.trans hd), hheard.free] at hgives
  dsimp only at hgives
  have hfree := State.sameButClock_correct { s.srcHeard with free := s.free + 1 }
    (if Config.freeValue s.free % 2 = 0 then 500000000 else -500000000) true
  refine hgives.completes (hfree.pending.trans hheard.pending) (hfree.id.trans hheard.id) ⟨hfree.free, ?_⟩
  rw [State.fld_correct_last, apply_ite sat32]

theorem gives_ptpSync (hm : s.isMaster = true) (hs : s.timeSrc = 2) (hl : s.linkUp 3 = true) (x : Int) :
    Gives (.ptpSync x) s (s.srcHeard.correct (-x) true) := .of_done (if_pos ⟨hm, hs, hl⟩)

theorem gives_ptmRequest (hm : s.isMaster = true) (hs : s.timeSrc = 3) (h : s.tm.ptmAt + 10000000 ≤ s.refNs) : Gives .ptmRequest s s.ptmAsk :=
  .of_done (if_pos ⟨hm, hs, h⟩)

theorem gives_ptmResponse (hm : s.isMaster = true) (hs : s.timeSrc = 3) (h : 0 < s.tm.ptmOut) (x : Int) :
    Gives (.ptmResponse x) s (s.srcHeard.correct (x - Int.ofNat s.tm.ptmGtc) true) := .of_done (if_pos ⟨hm, hs, h⟩)

/-! ## References and the 1PPS output (R459, R462, R472) -/

/-- R462: the loss of the reference shows, and SYNC is clear. -/
def State.refLoss (s : State) : State := ((s.setFld F.TIME_STAT_REFLOSS 0 1).modTm fun t => { t with refLost := true }).setSync false

theorem gives_refclkLoss (s : State) : Gives .refclkLoss s s.refLoss := .of_done rfl

theorem gives_refclkReturn (h : s.tm.refLost = true) : Gives .refclkReturn s s.refBack := .of_done (if_pos h)

theorem gives_timeBaseFailover (h : s.fld F.TIME_STAT_PRIMARY 0 = 0) :
    Gives .timeBaseFailover s ((s.setFld F.TIME_STAT_PRIMARY 0 1).raise 37) := .of_done (if_pos h)

theorem gives_ppsOutEdge_high (hg : s.gtc % 1000000000 = 0) (h : s.tm.ppsHigh = false) : Gives .ppsOutEdge s (s.setPps true) :=
  .of_done (if_pos ⟨hg, h⟩)

theorem gives_ppsOutEdge_low (hg : 100000000 ≤ s.gtc % 1000000000) (h : s.tm.ppsHigh = true) : Gives .ppsOutEdge s (s.setPps false) :=
  .of_done ((if_neg (by omega)).trans (if_pos ⟨hg, h⟩))

end

theorem State.sameButEvents_modTm_setFld {f : Fld} (h : psReg f.reg = none) (s : State) (v : Nat) (m : TimeSt → TimeSt) :
    State.sameButEvents { s with tm := m s.tm } ((s.setFld f 0 v).modTm m) := by
  simp only [State.sameButEvents, State.modTm, State.setFld, State.setReg_plain h]

theorem State.refLoss_form (s : State) :
    s.refLoss.fld F.TIME_STAT_REFLOSS 0 = 1 ∧ s.refLoss.fld F.TIME_STAT_SYNC 0 = 0
      ∧ State.sameButEvents { s with tm := { s.tm with refLost := true } } s.refLoss := by
  refine ⟨?_, (State.setSync_form _ false).1, ?_⟩
  · rw [State.refLoss, State.fld_setSync rfl (.inr rfl), State.fld_modTm]
    exact State.fld_setFld_of_lt rfl rfl _ _ (by decide)
  · exact (s.sameButEvents_modTm_setFld rfl 1 _).trans (State.sameButEvents_setSync _ false)

/-- A reference that is back shows no longer as lost, and phases count anew. -/
theorem State.refBack_form (s : State) :
    s.refBack.fld F.TIME_STAT_REFLOSS 0 = 0
      ∧ State.sameButEvents { s with tm := { s.tm with refLost := false, phase := s.refNs } } s.refBack := by
  refine ⟨?_, ?_⟩
  · rw [State.refBack, State.fld_masterSync rfl (.inr rfl), State.fld_modTm]
    exact State.fld_setFld_of_lt rfl rfl _ _ (by decide)
  · exact (s.sameButEvents_modTm_setFld rfl 0 _).trans (State.sameButEvents_masterSync _)

/-! ## Wakes (R487) -/

/-- Two states differ at most in the power state, the activities and the registers. -/
def State.sameButWake (s t : State) : Prop := t = { s with pow := t.pow, acts := t.acts, nextAct := t.nextAct, regs := t.regs }

theorem State.sameButWake.trans {s t u : State} (h : s.sameButWake t) (k : t.sameButWake u) : s.sameButWake u := by
  unfold State.sameButWake at *
  rw [h] at k
  exact k

theorem State.sameButRegs.sameButWake {s t : State} (h : s.sameButRegs t) : s.sameButWake t := by
  rw [h]
  rfl

theorem State.sameButWake.pending {s t : State} (h : s.sameButWake t) : t.pending = s.pending := by rw [h]
theorem State.sameButWake.id {s t : State} (h : s.sameButWake t) : t.id = s.id := by rw [h]
theorem State.sameButWake.tm {s t : State} (h : s.sameButWake t) : t.tm = s.tm := by rw [h]
theorem State.sameButWake.occ {s t : State} (h : s.sameButWake t) : t.occ = s.occ := by rw [h]

theorem State.sameButWake_setFld {f : Fld} (h : psReg f.reg = none) (s : State) (i v : Nat) : s.sameButWake (s.setFld f i v) :=
  (State.sameButRegs_setFld h ..).sameButWake

theorem State.sameButWake_modPow (s : State) (f : PowSt → PowSt) : s.sameButWake (s.modPow f) := rfl

theorem State.sameButWake_startAct (s : State) (a : Act) : s.sameButWake (s.startAct a) :=
  State.sameButWake.trans (t := { s with acts := s.acts ++ [{ a with id := s.nextAct }], nextAct := s.nextAct + 1 }) rfl
    (s.startAct_form a).sameButWake

theorem State.sameButWake_beginTrans (s : State) (t : Nat) : s.sameButWake (s.beginTrans t) :=
  ((State.sameButWake_setFld rfl ..).trans (State.sameButWake_modPow ..)).trans (State.sameButWake_startAct ..)

theorem State.sameButWake_beginWake (s : State) (code : Nat) : s.sameButWake (s.beginWake code) :=
  ((State.sameButWake_beginTrans ..).trans (State.sameButWake_setFld rfl ..)).trans (State.sameButWake_modPow ..)

theorem State.sameButWake_wakeBy (s : State) (code : Nat) (flood : Bool) : s.sameButWake (s.wakeBy code flood) := by
  unfold State.wakeBy
  extract_lets tick
  split
  · rfl
  · split
    · split
      · rfl
      · exact (State.sameButWake_setFld rfl ..).trans (State.sameButWake_modPow ..)
    · rfl
    · split
      · rfl
      · exact (State.sameButWake_beginWake ..).trans (State.sameButWake_modPow ..)

/-! ## The alarm (R472, R487) -/

theorem gives_timeAlarmFire {s : State} (ha : s.tm.alarmed = false) (h : s.fld F.TIME_ALARM_AT 0 ≤ s.gtc) :
    Gives .timeAlarmFire s (((s.modTm fun t => { t with alarmed := true }).raise 36).wakeBy 3 false) := .of_done (if_pos ⟨ha, h⟩)

/-! ## The statement -/

/-- Settles O40: each row's operation, read through its effect on TIME_STAT, TIME_ERR and the time base. -/
theorem sourcesAndClocks : Obligations.SourcesAndClocks := by
  unfold Obligations.SourcesAndClocks
  refine ⟨fun x s hm => ⟨fun hs => ?pps, fun hs hl => gives_ptpSync hm hs hl x, fun hs => ⟨fun h => ?request, fun h => gives_ptmResponse hm hs h x⟩,
    fun h => ?holdover⟩, fun s => ⟨?loss, fun h => ?back, fun h => ?failover, fun hg h => ?high, fun hg h => ?low, fun ha h => ?alarm, fun ha => ?quiet⟩⟩
  case pps =>
    have hgives := gives_ppsInEdge hm hs
    rw [State.ppsIn] at hgives
    refine ⟨fun hd => ?_, fun hd => ?_, fun hd => completes_ppsInEdge_tie hm hs hd⟩
    · rwa [State.ppsCorrection_forward (by rwa [State.ppsDistance_srcHeard]), State.ppsDistance_srcHeard] at hgives
    · rwa [State.ppsCorrection_back (by rwa [State.ppsDistance_srcHeard]), State.ppsDistance_srcHeard] at hgives
  case request => exact (gives_ptmRequest hm hs h).completes rfl rfl ⟨rfl, rfl, rfl⟩
  case holdover =>
    have hgives := gives_holdover hm h
    rw [State.masterSync_holdover hm] at hgives
    obtain ⟨hhold, hocc⟩ := s.setHoldover_begins
    obtain ⟨hsync, hset⟩ := (s.setHoldover true).setSync_form false
    have hform := (s.sameButEvents_setHoldover true).trans hset
    refine hgives.completes hform.pending hform.id ⟨?_, hsync, fun h0 => State.mem_occ_setSync (hocc h0) _, hform⟩
    exact (State.fld_setSync rfl (.inr rfl) ..).trans hhold
  case loss =>
    obtain ⟨hloss, hsync, hform⟩ := s.refLoss_form
    exact (gives_refclkLoss s).completes hform.pending hform.id ⟨hloss, congrArg TimeSt.refLost hform.tm, hsync, hform.gtc, hform.with_tm⟩
  case back =>
    obtain ⟨hback, hform⟩ := s.refBack_form
    exact (gives_refclkReturn h).completes hform.pending hform.id ⟨hback, congrArg TimeSt.refLost hform.tm, hform.gtc, hform.with_tm⟩
  case failover =>
    have hform := (State.sameButEvents_setFld (f := F.TIME_STAT_PRIMARY) rfl s 0 1).trans (State.sameButEvents_raise _ 37)
    refine (gives_timeBaseFailover h).completes hform.pending hform.id ⟨?_, ?_, hform.gtc, hform⟩
    · exact (State.fld_raise ..).trans (State.fld_setFld_of_lt rfl rfl _ _ (by decide))
    · rw [State.raise, State.setFld_occ rfl]
  case high => exact (gives_ppsOutEdge_high hg h).completes rfl rfl ⟨rfl, rfl, rfl⟩
  case low => exact (gives_ppsOutEdge_low hg h).completes rfl rfl ⟨rfl, rfl, rfl⟩
  case alarm =>
    have hwake := State.sameButWake_wakeBy ((s.modTm fun t => { t with alarmed := true }).raise 36) 3 false
    refine (gives_timeAlarmFire ha h).completes hwake.pending hwake.id ⟨congrArg TimeSt.alarmed hwake.tm, ?_⟩
    rw [hwake.occ]
    exact List.mem_append_right _ (List.mem_singleton.2 rfl)
  case quiet => exact if_neg fun h => by rw [ha] at h; exact absurd h.1 (by decide)

end Sys2Proof.Machine
end

section
/-! The event tick (15_events.md R495 to R498): the writes that wait, then the occurrences; what a tick keeps pending. -/

namespace Sys2Proof.Machine

/-! ## The writes that wait (R495, R500) -/

theorem State.setPlain_occ (s : State) (f : Fld) (v : Nat) : (s.setPlain f v).occ = s.occ := by rw [State.setPlain_form]

theorem State.mem_occ_psSet {s : State} {n : Nat} (h : n ∈ s.occ) (w v : Nat) : n ∈ (s.psSet w v).occ := by
  by_cases hsame : v % 2 ^ 32 = s.psWord w
  · rwa [State.psSet, if_pos hsame]
  · by_cases hworn : psLimit ≤ SMap.get 0 s.psCount w + s.psWaiting w
    · rw [State.psSet, if_neg hsame, if_pos hworn]
      simp only [State.setPlain_occ]
      exact List.mem_append_left _ h
    · rw [State.psSet, if_neg hsame, if_neg hworn]
      simpa only [State.setPlain_occ] using h

theorem State.mem_occ_setReg {s : State} {n : Nat} (h : n ∈ s.occ) (r : RegName) (i : Nat) (w : Word) : n ∈ (s.setReg r i w).occ := by
  unfold State.setReg
  split
  · extract_lets t
    have ht : n ∈ t.occ := State.mem_occ_psSet h ..
    split
    · exact State.mem_occ_psSet ht ..
    · exact ht
  · exact h

/-- Writes of EVC registers have been applied: no occurrence is lost, and the part's identity, its cores and its time stay. -/
structure State.Applied (s t : State) : Prop where
  pending : t.pending = s.pending
  id : t.id = s.id
  topo : t.topo = s.topo
  gtc : t.gtc = s.gtc
  writes : t.evc.writes = s.evc.writes
  occ : ∀ n ∈ s.occ, n ∈ t.occ

theorem State.Applied.refl (s : State) : s.Applied s := ⟨rfl, rfl, rfl, rfl, rfl, fun _ h => h⟩

theorem State.Applied.trans {s t u : State} (h : s.Applied t) (k : t.Applied u) : s.Applied u :=
  ⟨k.pending.trans h.pending, k.id.trans h.id, k.topo.trans h.topo, k.gtc.trans h.gtc, k.writes.trans h.writes, fun n hn => k.occ n (h.occ n hn)⟩

theorem State.Applied.foldl {α : Type} {f : State → α → State} (hf : ∀ (t : State) a, t.Applied (f t a)) (l : List α) (s : State) :
    s.Applied (l.foldl f s) :=
  foldl_keeps (fun t => s.Applied t) f (fun t a h => h.trans (hf t a)) l s (.refl s)

theorem State.applied_applyEvc (s : State) (w : EvcWrite) : s.Applied (s.applyEvc w) := by
  unfold State.applyEvc
  extract_lets old t
  have ht : s.Applied t :=
    ⟨State.setReg_pending .., State.setReg_id .., State.setReg_topo .., State.setReg_gtc .., congrArg Evc.writes (State.setReg_evc ..),
      fun n hn => State.mem_occ_setReg hn ..⟩
  split
  · exact ht.trans ⟨rfl, rfl, rfl, rfl, rfl, fun _ h => h⟩
  · exact ht

theorem State.applied_applyWrites (s : State) : State.Applied { s with evc := { s.evc with writes := [] } } s.applyWrites :=
  .foldl (fun t _ => .foldl State.applied_applyEvc _ t) ..

/-! ## Sources (R492) -/

theorem State.evcSource_congr {s t : State} (hi : t.id = s.id) (ht : t.topo = s.topo) (n : Nat) : t.evcSource n = s.evcSource n := by
  have hcore (c : Nat) : t.coreExists c = s.coreExists c := by
    rw [State.coreExists, State.coreExists, State.physSlot, State.physSlot, State.topiary, State.topiary, ht]
  simp only [State.evcSource, hi, hcore]

theorem State.evcSource_lt {s : State} {n : Nat} (h : s.evcSource n = true) : n < 1020 := by
  by_contra hn
  rw [State.evcSource, if_neg (by omega), if_neg (by omega), if_neg (by omega), if_neg (by omega), if_neg (by omega)] at h
  exact hn (of_decide_eq_true h)

/-! ## What the steps of a tick keep -/

/-- A source that is pending stays so, no occurrence waits anew, and the part's identity, its cores and its time stay. -/
structure State.TickKeeps (s t : State) : Prop where
  pending : t.pending = s.pending
  id : t.id = s.id
  topo : t.topo = s.topo
  gtc : t.gtc = s.gtc
  writes : t.evc.writes = s.evc.writes
  occ : t.occ = s.occ
  pend : ∀ w < 16, ∀ b, (s.fld F.EVC_PEND_PEND w).testBit b = true → (t.fld F.EVC_PEND_PEND w).testBit b = true

theorem State.TickKeeps.refl (s : State) : s.TickKeeps s := ⟨rfl, rfl, rfl, rfl, rfl, rfl, fun _ _ _ h => h⟩

theorem State.TickKeeps.trans {s t u : State} (h : s.TickKeeps t) (k : t.TickKeeps u) : s.TickKeeps u :=
  ⟨k.pending.trans h.pending, k.id.trans h.id, k.topo.trans h.topo, k.gtc.trans h.gtc, k.writes.trans h.writes, k.occ.trans h.occ,
    fun w hw b hb => k.pend w hw b (h.pend w hw b hb)⟩

theorem State.TickKeeps.foldl {α : Type} {f : State → α → State} (l : List α) (hf : ∀ (t : State), ∀ a ∈ l, t.TickKeeps (f t a)) (s : State) :
    s.TickKeeps (l.foldl f s) :=
  List.foldlRecOn (motive := fun t => s.TickKeeps t) l f (.refl s) fun t h a ha => h.trans (hf t a ha)

/-- A change that leaves the registers, and the writes that wait. -/
theorem State.tickKeeps_of_regs {s : State} (e : Evc) (o : List Out) (h : HostIf) (he : e.writes = s.evc.writes) :
    s.TickKeeps { s with evc := e, out := o, host := h } :=
  ⟨rfl, rfl, rfl, rfl, he, rfl, fun _ _ _ h => h⟩

theorem State.tickKeeps_modEvc (s : State) (f : Evc → Evc) (h : (f s.evc).writes = s.evc.writes) : s.TickKeeps (s.modEvc f) :=
  State.tickKeeps_of_regs _ s.out s.host h

/-- A write of a field of another register. -/
theorem State.tickKeeps_setFld {f : Fld} (h : psReg f.reg = none) (hne : f.reg ≠ .EVC_PEND) (s : State) {i : Nat} (hi : i < 2 ^ 24) (v : Nat) :
    s.TickKeeps (s.setFld f i v) := by
  refine ⟨State.setFld_pending .., State.setFld_id .., State.setFld_topo .., State.setFld_gtc .., congrArg Evc.writes (State.setFld_evc ..),
    State.setFld_occ h .., fun w hw b hb => ?_⟩
  rwa [State.fld_setFld_ne h s v hi (by omega) (.inl hne.symm)]

theorem State.tickKeeps_addFld {f : Fld} (h : psReg f.reg = none) (hne : f.reg ≠ .EVC_PEND) (s : State) {i : Nat} (hi : i < 2 ^ 24) (k : Nat) :
    s.TickKeeps (s.addFld f i k) :=
  (State.tickKeeps_setFld h hne s hi _).trans ⟨rfl, rfl, rfl, rfl, rfl, rfl, fun _ _ _ h => h⟩

/-- R495: the pending bit of a source is set, and the others stay. -/
theorem State.tickKeeps_setPend (s : State) {i : Nat} (hi : i < 16) (k : Nat) :
    s.TickKeeps (s.setFld F.EVC_PEND_PEND i (s.fld F.EVC_PEND_PEND i ||| k)) := by
  refine ⟨State.setFld_pending .., State.setFld_id .., State.setFld_topo .., State.setFld_gtc .., congrArg Evc.writes (State.setFld_evc ..),
    State.setFld_occ rfl .., fun w hw b hb => ?_⟩
  by_cases hwi : w = i
  · have hb64 : b < 64 := Nat.lt_of_not_le fun hle =>
      absurd hb (by rw [Nat.testBit_lt_two_pow (Nat.lt_of_lt_of_le (State.fld_lt ..) (Nat.pow_le_pow_right (by decide) hle))]; decide)
    subst hwi
    rw [State.fld_setFld rfl rfl, Nat.testBit_mod_two_pow, Nat.testBit_or, hb]
    simpa [F.EVC_PEND_PEND, Fld.width] using hb64
  · rwa [State.fld_setFld_ne rfl s _ (by omega) (by omega) (.inr hwi)]

theorem State.tickKeeps_occur (s : State) (n : Nat) : s.TickKeeps (s.occur n) := by
  unfold State.occur
  split
  case isTrue => exact .refl s
  case isFalse h =>
    have hn : n < 1020 := State.evcSource_lt (by simpa using h)
    extract_lets p c k
    exact (s.tickKeeps_setPend (by omega) _).trans (State.tickKeeps_setFld rfl (by decide) _ (by omega) _)

/-- R495: an occurrence makes its source pending. -/
theorem State.pend_occur {s : State} {n : Nat} (h : s.evcSource n = true) :
    ((s.occur n).fld F.EVC_PEND_PEND (n / 64)).testBit (n % 64) = true := by
  have hn := State.evcSource_lt h
  rw [State.occur, if_neg (by rw [h]; decide)]
  extract_lets p c k
  rw [State.fld_setFld_ne rfl _ _ (by omega) (by omega) (.inl (by decide)), State.fld_setFld rfl rfl, Nat.testBit_mod_two_pow, Nat.testBit_or,
    Nat.testBit_two_pow_self, Bool.or_true, Bool.and_true]
  exact decide_eq_true (Nat.mod_lt n (by decide))

/-- Every occurrence of a list is applied. -/
theorem State.pend_foldl_occur {n : Nat} (l : List Nat) (s : State) (h : s.evcSource n = true) (hn : n ∈ l) :
    ((l.foldl State.occur s).fld F.EVC_PEND_PEND (n / 64)).testBit (n % 64) = true := by
  induction l generalizing s with
  | nil => cases hn
  | cons m l ih =>
    have hm := s.tickKeeps_occur m
    rcases List.mem_cons.1 hn with rfl | hn
    · have hlt := State.evcSource_lt h
      exact (State.TickKeeps.foldl l (fun t k _ => t.tickKeeps_occur k) _).pend _ (by omega) _ (State.pend_occur h)
    · exact ih _ ((State.evcSource_congr hm.id hm.topo n).trans h) hn

/-! ## Wires, delivery and rings (R436, R498, R501, R503, R504) -/

theorem State.tickKeeps_setWire (s : State) (j : Nat) (w : WireIn) : s.TickKeeps (s.setWire j w) :=
  State.tickKeeps_of_regs _ s.out s.host rfl

theorem State.tickKeeps_wireOccur (s : State) (j a r : Nat) : s.TickKeeps (s.wireOccur j a r) :=
  .foldl _ (fun t _ _ => t.tickKeeps_occur _) s

theorem State.tickKeeps_sampleWire (s : State) {j : Nat} (hj : j < 12) (v : Bool) : s.TickKeeps (s.sampleWire j v) := by
  have hset (f : Fld) (h : psReg f.reg = none) (hne : f.reg ≠ .EVC_PEND) (t : State) (k : Nat) : t.TickKeeps (t.setFld f j k) :=
    State.tickKeeps_setFld h hne t (by omega) k
  unfold State.sampleWire
  extract_lets w raw old n run u set p
  have hu : s.TickKeeps u := (hset F.EVC_WIRE_RAW rfl (by decide) s _).trans (State.tickKeeps_setWire ..)
  have hfilt : s.TickKeeps (set u) := hu.trans (hset F.EVC_WIRE_FILT rfl (by decide) u _)
  split
  · exact hfilt
  · split
    · exact hfilt.trans (State.tickKeeps_wireOccur ..)
    · exact hu

theorem State.tickKeeps_sendVector (s : State) (v : Nat) : s.TickKeeps (s.sendVector v) := by
  unfold State.sendVector
  split
  · exact State.tickKeeps_of_regs s.evc s.out _ rfl
  · exact State.tickKeeps_of_regs s.evc _ _ rfl

theorem State.tickKeeps_setNext (s : State) {d : Nat} (hd : d < 3) (l : List Nat) : s.TickKeeps (s.setNext d l) := by
  cases l <;>
  exact (State.tickKeeps_setFld rfl (by decide) s (by omega) _).trans (State.tickKeeps_setFld rfl (by decide) _ (by omega) _)

theorem State.tickKeeps_deliverMc (s : State) {m : Nat} (hm : m < 2) (l : List Nat) : s.TickKeeps (s.deliverMc m l) := by
  have hnext : s.TickKeeps (s.setNext m l) := s.tickKeeps_setNext (by omega) l
  unfold State.deliverMc
  extract_lets was t
  split
  · split
    · exact hnext.trans (State.tickKeeps_of_regs _ _ _ rfl)
    · exact hnext
  · exact hnext

theorem State.tickKeeps_deliverHost (s : State) (l : List Nat) : s.TickKeeps (s.deliverHost l) :=
  ((s.tickKeeps_setNext (d := 2) (by decide) l).trans (State.tickKeeps_modEvc _ _ rfl)).trans
    (.foldl _ (fun t v _ => t.tickKeeps_sendVector v) _)

theorem State.tickKeeps_greenEntry (s : State) (n : Nat) : s.TickKeeps (s.greenEntry n) := by
  have hk : s.fld F.EVC_GLOGPOS_NEXT 0 < 2 ^ 24 := Nat.lt_of_lt_of_le (State.fld_lt ..) (by decide)
  have hlogged : s.TickKeeps _ := (State.tickKeeps_setFld (f := F.EVC_GLOG_TICK) rfl (by decide) s hk (s.gtc / 1024)).trans
    (State.tickKeeps_setFld (f := F.EVC_GLOG_SRC) rfl (by decide) _ hk n)
  exact (hlogged.trans (State.tickKeeps_setFld rfl (by decide) _ (by decide) _)).trans (State.tickKeeps_addFld rfl (by decide) _ (by decide) 1)

theorem State.tickKeeps_deliverGreen (s : State) (l : List Nat) : s.TickKeeps (s.deliverGreen l) :=
  (State.tickKeeps_modEvc s _ rfl).trans (.foldl _ (fun t n _ => t.tickKeeps_greenEntry n) _)

theorem State.tickKeeps_deliver (s : State) : s.TickKeeps s.deliver :=
  ((s.tickKeeps_deliverMc (by decide) _).trans (State.tickKeeps_deliverMc _ (by decide) _)).trans
    ((State.tickKeeps_deliverHost ..).trans (State.tickKeeps_deliverGreen ..))

theorem State.tickKeeps_ringIrqs (s : State) : s.TickKeeps s.ringIrqs := by
  refine .foldl _ (fun t r _ => ?_) s
  dsimp only
  split
  · exact (State.tickKeeps_of_regs _ _ _ rfl).trans (State.tickKeeps_sendVector ..)
  · exact .refl t

theorem State.sendVector_evc (s : State) (v : Nat) : (s.sendVector v).evc = s.evc := by
  unfold State.sendVector
  split <;> rfl

theorem State.ringIrqs_evc (s : State) : s.ringIrqs.evc = s.evc := by
  refine foldl_component State.evc (fun t r => ?_) _ s
  dsimp only
  split
  · exact State.sendVector_evc ..
  · rfl

/-! ## The tick (R495) -/

/-- The first half of a tick: the writes that wait, then the occurrences. -/
def State.occurred (s : State) : State := s.applyWrites.occ.foldl State.occur { s.applyWrites with occ := [] }

/-- The wires of a tick. -/
def State.sampled (s : State) (wires : Nat) : State := (List.range 12).foldl (fun t j => t.sampleWire j (wires.testBit j)) s

/-- The rest of a tick: delivery, and the tick itself. -/
def State.ticked (s : State) : State :=
  (s.deliver.modEvc fun e => { e with tick := if s.gtc % 64 = 0 then some s.gtc else e.tick, stepped := false }).ringIrqs

theorem State.eventTick_eq (s : State) (wires : Nat) : s.eventTick wires = (s.occurred.sampled wires).ticked := rfl

theorem State.tickKeeps_sampled (s : State) (wires : Nat) : s.TickKeeps (s.sampled wires) :=
  .foldl _ (fun t _ hj => t.tickKeeps_sampleWire (List.mem_range.1 hj) _) s

theorem State.tickKeeps_ticked (s : State) : s.TickKeeps s.ticked :=
  (s.tickKeeps_deliver.trans (State.tickKeeps_modEvc _ _ rfl)).trans (State.tickKeeps_ringIrqs _)

theorem State.ticked_stepped (s : State) : s.ticked.evc.stepped = false := congrArg Evc.stepped (State.ringIrqs_evc _)

/-- The occurrences of a tick are those of the state and of the writes. -/
theorem State.pend_occurred {s : State} {n : Nat} (hn : n ∈ s.occ) (h : s.evcSource n = true) :
    (s.occurred.fld F.EVC_PEND_PEND (n / 64)).testBit (n % 64) = true := by
  have hwrites := s.applied_applyWrites
  refine State.pend_foldl_occur _ _ ?_ (hwrites.occ n hn)
  exact (State.evcSource_congr (s := s) hwrites.id hwrites.topo n).trans h

theorem State.applied_occurred (s : State) :
    State.Applied { s with occ := [], evc := { s.evc with writes := [] } } s.occurred ∧ s.occurred.occ = [] := by
  have hwrites := s.applied_applyWrites
  have hoccurs : State.TickKeeps { s.applyWrites with occ := [] } s.occurred := .foldl _ (fun t n _ => t.tickKeeps_occur n) _
  exact ⟨⟨hoccurs.pending.trans hwrites.pending, hoccurs.id.trans hwrites.id, hoccurs.topo.trans hwrites.topo,
    hoccurs.gtc.trans hwrites.gtc, hoccurs.writes.trans hwrites.writes, fun _ h => nomatch h⟩, hoccurs.occ⟩

/-- Every occurrence since the last tick takes effect, and nothing waits for the next. -/
theorem State.eventTick_form (s : State) (wires : Nat) :
    State.Applied { s with occ := [], evc := { s.evc with writes := [] } } (s.eventTick wires) ∧ (s.eventTick wires).occ = []
      ∧ (s.eventTick wires).evc.stepped = false
      ∧ ∀ n ∈ s.occ, s.evcSource n = true → ((s.eventTick wires).fld F.EVC_PEND_PEND (n / 64)).testBit (n % 64) = true := by
  rw [State.eventTick_eq]
  obtain ⟨happlied, hocc⟩ := s.applied_occurred
  have hafter := (s.occurred.tickKeeps_sampled wires).trans (State.tickKeeps_ticked _)
  refine ⟨?_, hafter.occ.trans hocc, State.ticked_stepped _, fun n hn hsrc => ?_⟩
  · exact happlied.trans ⟨hafter.pending, hafter.id, hafter.topo, hafter.gtc, hafter.writes, fun n hn => hafter.occ ▸ hn⟩
  · have hlt := State.evcSource_lt hsrc
    exact hafter.pend _ (by omega) _ (State.pend_occurred hn hsrc)

theorem State.wire_setWire (s : State) (j : Nat) (w : WireIn) :
    (s.setWire j w).wire j = w ∧ (∀ k, k ≠ j → (s.setWire j w).wire k = s.wire k) ∧ s.setWire j w = { s with evc := (s.setWire j w).evc } :=
  ⟨SMap.get_put_self .., fun _ hk => SMap.get_put_ne _ _ _ _ hk, rfl⟩

theorem gives_eventTick {s : State} (h : s.tickDue = true) (wires : Nat) : Gives (.eventTick wires) s (s.eventTick wires) := .of_done (if_pos h)

theorem gives_wirePulseLatch {s : State} {j : Nat} (hj : j < 12) (hn : s.fld F.EVC_WIRE_N j = 0) :
    Gives (.wirePulseLatch j) s (s.latchPulse j) := .of_done (if_pos ⟨hj, hn⟩)

/-- Settles O41: a tick applies the writes, then the occurrences (`State.eventTick_form`); a pulse is kept in its wire's record. -/
theorem eventsTick : Obligations.EventsTick := by
  unfold Obligations.EventsTick
  refine fun s => ⟨fun h wires => ?tick, fun h wires => ?idle, fun j hj hn => ?pulse⟩
  case tick =>
    obtain ⟨happlied, hocc, hstepped, hpend⟩ := s.eventTick_form wires
    refine (gives_eventTick h wires).completes happlied.pending happlied.id ⟨hocc, happlied.writes, hstepped, happlied.gtc, fun n hn hsrc => ?_⟩
    exact hpend n hn ((State.evcSource_congr (s := s) happlied.id happlied.topo n).symm.trans hsrc)
  case idle => exact if_neg (by rw [h]; decide)
  case pulse => exact (gives_wirePulseLatch hj hn).completes rfl rfl (s.wire_setWire j _)

end Sys2Proof.Machine
end

section
/-! Faults that stop jobs at once (18_resets_faults_maintenance.md R563, R567): what they leave of the state, and the registers that they do
not write. -/

namespace Sys2Proof.Machine

/-! ## The registers that the stop of a job may write -/

/-- The registers of the records of a stop and of the errors that its ledger may meet. -/
def stopRegs : List RegName :=
  [.TIME_FRZ, .TIME_FAULT, .TIME_JOB_STAT, .CORECTL_MEMSTAT, .CORECTL_MEMLOG, .CAL_COLSTAT, .CAL_SCRUB]

theorem psReg_of_mem_stopRegs : ∀ r ∈ stopRegs, psReg r = none := by decide

/-- A register of the part reads the same. -/
def State.sameReg (r : RegName) (s t : State) : Prop := t.reg r 0 = s.reg r 0

theorem State.sameReg.fld {f : Fld} {s t : State} (h : State.sameReg f.reg s t) : t.fld f 0 = s.fld f 0 := congrArg f.get h

theorem State.sameReg_refl (r : RegName) (s : State) : State.sameReg r s s := rfl

theorem State.sameReg.trans {r : RegName} {s t u : State} (h : State.sameReg r s t) (k : State.sameReg r t u) : State.sameReg r s u :=
  Eq.trans k h

theorem State.sameReg_of_regs {s t : State} (r : RegName) (h : t.regs = s.regs) (hp : t.ps = s.ps) (hi : t.id = s.id) : State.sameReg r s t :=
  State.reg_congr hp hi fun _ => by rw [h]

theorem State.sameReg_foldl {α : Type} {r : RegName} {f : State → α → State} (l : List α) (hf : ∀ (t : State), ∀ a ∈ l, State.sameReg r t (f t a))
    (s : State) : State.sameReg r s (l.foldl f s) :=
  List.foldlRecOn (motive := fun t => State.sameReg r s t) l f (s.sameReg_refl r) fun t h a ha => h.trans (hf t a ha)

theorem State.sameReg_ite {r : RegName} (p : Prop) [Decidable p] {s t u : State} (ht : State.sameReg r s t) (hu : State.sameReg r s u) :
    State.sameReg r s (if p then t else u) :=
  iteInduction (motive := fun v => State.sameReg r s v) (fun _ => ht) fun _ => hu

section
variable {r : RegName} (hr : r ∉ stopRegs)
include hr

theorem State.sameReg_setFld {f : Fld} (hf : f.reg ∈ stopRegs) (s : State) {i : Nat} (hi : i < 2 ^ 24) (v : Nat) :
    State.sameReg r s (s.setFld f i v) :=
  State.reg_setReg_ne (psReg_of_mem_stopRegs _ hf) s _ hi (by decide) (.inl (ne_of_mem_of_not_mem hf hr).symm)

theorem State.sameReg_addFld {f : Fld} (hf : f.reg ∈ stopRegs) (s : State) {i : Nat} (hi : i < 2 ^ 24) (k : Nat) :
    State.sameReg r s (s.addFld f i k) :=
  (State.sameReg_setFld hr hf s hi _).trans (State.sameReg_of_regs r (State.note_regs ..) (State.note_ps ..) (State.note_id ..))

/-! ## Reads and writes of memory -/

omit hr in
theorem daTc_lt (a : Nat) : daTc a < 2 ^ 24 := by
  unfold daTc bits
  omega

omit hr in
theorem daCore_lt (a : Nat) : daCore a < 2 ^ 24 := by
  unfold daCore bits
  omega

omit hr in
theorem State.sameReg_raise (s : State) (n : Nat) : State.sameReg r s (s.raise n) := State.sameReg_of_regs r rfl rfl rfl

theorem State.sameReg_health {f : Fld} (hf : f.reg ∈ stopRegs) (s : State) {ci : Nat} (hi : ci < 2 ^ 24) : State.sameReg r s (s.health f ci) :=
  State.sameReg_ite _ ((State.sameReg_addFld hr hf s hi 1).trans (State.sameReg_raise ..)) (s.sameReg_refl r)

theorem State.sameReg_failBank (s : State) {ci : Nat} (hi : ci < 2 ^ 24) (bank : Nat) : State.sameReg r s (s.failBank ci bank) :=
  ((State.sameReg_setFld hr (by decide) s hi 1).trans (State.sameReg_setFld hr (by decide) _ hi bank)).trans (State.sameReg_raise ..)

theorem State.sameReg_noteBadPiece (s : State) {tc : Nat} (hi : tc < 2 ^ 24) (line bank : Nat) : State.sameReg r s (s.noteBadPiece tc line bank) := by
  unfold State.noteBadPiece
  extract_lets c bl noted
  have hnoted : State.sameReg r s noted := State.sameReg_of_regs r rfl rfl rfl
  exact State.sameReg_ite _ (s.sameReg_refl r) (State.sameReg_ite _ (hnoted.trans (State.sameReg_failBank hr _ hi _)) hnoted)

theorem State.sameReg_readLine (s : State) (a : Nat) : State.sameReg r s (s.readLine a).1 := by
  unfold State.readLine
  extract_lets line tc ci failed fb live ce ue counted noted
  have hi : tc < 2 ^ 24 := daTc_lt a
  have hcounted : State.sameReg r s counted := State.sameReg_ite _ (s.sameReg_refl r) (State.sameReg_addFld hr (by decide) s hi ce)
  have hnoted : State.sameReg r s noted := hcounted.trans (State.sameReg_foldl _ (fun t p _ => State.sameReg_noteBadPiece hr t hi _ _) _)
  split
  · exact hnoted.trans (State.sameReg_health hr (by decide) _ hi)
  · split
    · exact hnoted.trans (State.sameReg_health hr (by decide) _ hi)
    · exact hnoted

theorem State.sameReg_scrubNext (s : State) {tc : Nat} (hi : tc < 2 ^ 24) : State.sameReg r s (s.scrubNext tc) :=
  State.sameReg_ite _ ((State.sameReg_setFld hr (by decide) s hi 0).trans (State.sameReg_addFld hr (by decide) _ hi 1))
    (State.sameReg_setFld hr (by decide) s hi _)

theorem State.sameReg_dropBack (s : State) (line : Nat) : State.sameReg r s (s.dropBack line) :=
  State.sameReg_ite _ ((State.sameReg_of_regs r (State.setCol_regs ..) rfl rfl).trans (State.sameReg_scrubNext hr _ (daTc_lt line)))
    (s.sameReg_refl r)

omit hr in
theorem State.sameReg_wrBytes (s : State) (a : Nat) (bs : List Byte) : State.sameReg r s (s.wrBytes a bs) := by
  induction bs generalizing s a with
  | nil => exact s.sameReg_refl r
  | cons b bs ih => exact (State.sameReg_of_regs (s := s) (t := s.wrByte a b) r rfl rfl rfl).trans (ih (s.wrByte a b) (a + 1))

theorem State.sameReg_memLog (s : State) {c : Nat} (hc : c < 2 ^ 24) (kind unit addr : Nat) : State.sameReg r s (s.memLog c kind unit addr) :=
  State.sameReg_ite _
    ((State.sameReg_setFld hr (by decide) s hc _).trans ((State.sameReg_setFld hr (by decide) _ hc _).trans (State.sameReg_setFld hr (by decide) _ hc _)))
    (State.sameReg_addFld hr (by decide) s hc 1)

theorem State.sameReg_writeCsWord (s : State) (a : Nat) (bs : List Byte) : State.sameReg r s (s.writeCsWord .other a bs).1 := by
  unfold State.writeCsWord
  extract_lets n us part ue ce psn counted warned logged merged cleared free
  have hcounted : State.sameReg r s counted :=
    State.sameReg_ite _ (s.sameReg_refl r) (State.sameReg_addFld hr (by decide) s (daCore_lt a) ce)
  have hwarned : State.sameReg r s warned := State.sameReg_ite _ (hcounted.trans (State.sameReg_raise ..)) hcounted
  have hlogged : State.sameReg r s logged := State.sameReg_ite _ (hwarned.trans (State.sameReg_memLog hr _ (daCore_lt a) _ _ _)) hwarned
  have hmerged : State.sameReg r logged merged :=
    State.sameReg_foldl _ (fun t _ _ => State.sameReg_ite _ (t.sameReg_wrBytes ..) (t.sameReg_refl r)) _
  have hfree : State.sameReg r merged free := State.sameReg_of_regs r rfl rfl rfl
  exact hlogged.trans (hmerged.trans (hfree.trans (State.sameReg_wrBytes ..)))

theorem State.sameReg_writeBulk (s : State) (a : Nat) (bs : List Byte) : State.sameReg r s (s.writeBulk .other a bs).1 := by
  unfold State.writeBulk
  extract_lets line whole psn read told filled dropped free
  have hread : State.sameReg r s read.1 := by
    simp only [read]
    split
    · exact s.sameReg_refl r
    · exact State.sameReg_readLine hr ..
  have htold : State.sameReg r s told := State.sameReg_ite _ (hread.trans (State.sameReg_raise ..)) hread
  have hfilled : State.sameReg r s filled := State.sameReg_ite _ (htold.trans (State.sameReg_wrBytes ..)) htold
  have hdropped : State.sameReg r filled dropped :=
    (State.sameReg_of_regs (t := filled.clearBad (filled.linePieces line)) r rfl rfl rfl).trans (State.sameReg_dropBack hr ..)
  have hfree : State.sameReg r dropped free := State.sameReg_of_regs r rfl rfl rfl
  exact hfilled.trans (hdropped.trans (hfree.trans (State.sameReg_wrBytes ..)))

theorem State.sameReg_writeMem (s : State) (a : Nat) (bs : List Byte) : State.sameReg r s (s.writeMem .other a bs).1 := by
  unfold State.writeMem
  extract_lets cs
  refine foldl_keeps (fun (x : (State × Bool) × List Byte) => State.sameReg r s x.1.1) _ (fun x u hx => hx.trans ?_) _ _ (s.sameReg_refl r)
  dsimp only
  split
  · exact State.sameReg_writeCsWord hr ..
  · exact State.sameReg_writeBulk hr ..

theorem State.sameReg_landLedger (s : State) (q : Nat) : State.sameReg r s (s.landLedger q) := by
  refine State.sameReg_foldl _ (fun t e _ => ?_) _
  refine State.sameReg.trans (State.sameReg_foldl _ (fun u x _ => ?_) _) (State.sameReg_of_regs r (State.setCol_regs ..) rfl rfl)
  split
  · exact State.sameReg_writeMem hr ..
  · exact u.sameReg_refl r

/-! ## The stop of a job (R563) -/

theorem State.sameReg_unfreeze (s : State) {q : Nat} (hq : q < 8) : State.sameReg r s (s.unfreeze q) :=
  (State.sameReg_addFld hr (by decide) s (by omega) _).trans (State.sameReg_of_regs r rfl rfl rfl)

end

/-- Two states differ at most in what the stop of a job changes: partitions, cores and clusters, memory and its marks, what ports have to
send, registers and events. -/
def State.sameButStop (s t : State) : Prop :=
  t = { s with
    parts := t.parts, cores := t.cores, clusters := t.clusters, ports := t.ports, mem := t.mem, bad := t.bad, scrubs := t.scrubs
    poison := t.poison, cols := t.cols, regs := t.regs, hw := t.hw, occ := t.occ }

theorem State.sameButStop_refl (s : State) : s.sameButStop s := rfl

theorem State.sameButStop.trans {s t u : State} (h : s.sameButStop t) (k : t.sameButStop u) : s.sameButStop u := by
  unfold State.sameButStop at *
  rw [h] at k
  exact k

theorem State.sameButStop.pending {s t : State} (h : s.sameButStop t) : t.pending = s.pending := by rw [h]
theorem State.sameButStop.id {s t : State} (h : s.sameButStop t) : t.id = s.id := by rw [h]
theorem State.sameButStop.pow {s t : State} (h : s.sameButStop t) : t.pow = s.pow := by rw [h]
theorem State.sameButStop.pins {s t : State} (h : s.sameButStop t) : t.pins = s.pins := by rw [h]

theorem State.sameButMemory.sameButStop {s t : State} (h : s.sameButMemory t) : s.sameButStop t := by
  rw [h]
  rfl

theorem State.sameButTally.sameButStop {s t : State} (h : s.sameButTally t) : s.sameButStop t := by
  rw [h]
  rfl

theorem State.sameButRegs.sameButStop {s t : State} (h : s.sameButRegs t) : s.sameButStop t := by
  rw [h]
  rfl

theorem State.sameButStop_foldl {α : Type} {f : State → α → State} (hf : ∀ (t : State) a, t.sameButStop (f t a)) (l : List α) (s : State) :
    s.sameButStop (l.foldl f s) :=
  foldl_keeps (fun t => s.sameButStop t) f (fun t a h => h.trans (hf t a)) l s s.sameButStop_refl

theorem State.sameButStop_ite (p : Prop) [Decidable p] {s t u : State} (ht : s.sameButStop t) (hu : s.sameButStop u) :
    s.sameButStop (if p then t else u) :=
  iteInduction (motive := fun v => s.sameButStop v) (fun _ => ht) fun _ => hu

/-- What the stop of a job leaves: the other partitions, the registers that it does not write, and the rest of the part. -/
structure State.Stops (q : Nat) (s t : State) : Prop where
  frame : s.sameButStop t
  others : ∀ p, p ≠ q → t.part p = s.part p
  regs : q < 8 → ∀ r, r ∉ stopRegs → State.sameReg r s t

theorem State.Stops.refl (q : Nat) (s : State) : State.Stops q s s := ⟨s.sameButStop_refl, fun _ _ => rfl, fun _ r _ => s.sameReg_refl r⟩

theorem State.Stops.trans {q : Nat} {s t u : State} (h : State.Stops q s t) (k : State.Stops q t u) : State.Stops q s u :=
  ⟨h.frame.trans k.frame, fun p hp => (k.others p hp).trans (h.others p hp), fun hq r hr => (h.regs hq r hr).trans (k.regs hq r hr)⟩

section
variable (q : Nat) (s : State)

theorem State.stops_setFld {f : Fld} (hf : f.reg ∈ stopRegs) (v : Nat) : State.Stops q s (s.setFld f q v) :=
  ⟨(State.sameButRegs_setFld (psReg_of_mem_stopRegs _ hf) ..).sameButStop, fun _ _ => State.part_of_parts (State.setFld_parts ..) _,
    fun hq _ hr => State.sameReg_setFld hr hf s (by omega) v⟩

theorem State.stops_addFld {f : Fld} (hf : f.reg ∈ stopRegs) (k : Nat) : State.Stops q s (s.addFld f q k) :=
  ⟨(State.sameButLog_addFld (psReg_of_mem_stopRegs _ hf) ..).sameButMemory.sameButStop, fun _ _ => State.part_of_parts (State.addFld_parts ..) _,
    fun hq _ hr => State.sameReg_addFld hr hf s (by omega) k⟩

theorem State.stops_setPart (v : Part) : State.Stops q s (s.setPart q v) :=
  ⟨rfl, fun _ hp => State.part_setPart_ne s v hp, fun _ r _ => State.sameReg_of_regs r rfl rfl rfl⟩

theorem State.stops_unfreeze : State.Stops q s (s.unfreeze q) :=
  (State.stops_addFld q s (by decide) _).trans (State.stops_setPart q _ _)

theorem State.stops_dropSched : State.Stops q s (s.dropSched q) := ⟨rfl, fun _ _ => rfl, fun _ r _ => State.sameReg_of_regs r rfl rfl rfl⟩

theorem State.stops_modCluster (k : Nat) (f : Cluster → Cluster) : State.Stops q s (s.modCluster k f) :=
  ⟨rfl, fun _ _ => rfl, fun _ r _ => State.sameReg_of_regs r rfl rfl rfl⟩

theorem State.stops_modCore (c : Nat) (f : Core → Core) : State.Stops q s (s.modCore c f) :=
  ⟨rfl, fun _ _ => rfl, fun _ r _ => State.sameReg_of_regs r rfl rfl rfl⟩

theorem State.stops_raise (n : Nat) : State.Stops q s (s.raise n) :=
  ⟨rfl, fun _ _ => rfl, fun _ r _ => State.sameReg_of_regs r rfl rfl rfl⟩

theorem State.Stops.foldl {α : Type} {f : State → α → State} (hf : ∀ (t : State) a, State.Stops q t (f t a)) (l : List α) (s : State) :
    State.Stops q s (l.foldl f s) :=
  foldl_keeps (fun t => State.Stops q s t) f (fun t a h => h.trans (hf t a)) l s (.refl q s)

theorem State.stops_landLedger : State.Stops q s (s.landLedger q) :=
  ⟨(s.sameButMemory_landLedger q).sameButStop, fun _ _ => State.part_of_parts (s.sameButMemory_landLedger q).parts _,
    fun _ _ hr => State.sameReg_landLedger hr s q⟩

theorem State.stops_writeMem (a : Nat) (bs : List Byte) : State.Stops q s (s.writeMem .other a bs).1 :=
  ⟨(State.sameButMemory_writeMem ..).sameButStop, fun _ _ => State.part_of_parts (State.sameButMemory_writeMem ..).parts _,
    fun _ _ hr => State.sameReg_writeMem hr s a bs⟩

theorem State.Stops.ite {p : Prop} [Decidable p] {t u : State} (ht : State.Stops q s t) (hu : State.Stops q s u) :
    State.Stops q s (if p then t else u) :=
  iteInduction (motive := fun v => State.Stops q s v) (fun _ => ht) fun _ => hu

/-- R563: the stop of a job, step by step. -/
theorem State.stops_stopJob (f : CycleFault) : State.Stops q s (s.stopJob q f) := by
  have hset (t : State) {g : Fld} (hg : g.reg ∈ stopRegs) (v : Nat) := State.stops_setFld q t hg v
  unfold State.stopJob
  extract_lets thawed p faulted recorded lagged unsent drained stopped landed written
  have hfaulted : State.Stops q s faulted := (State.Stops.ite q s (s.stops_unfreeze q) (.refl q s)).trans (State.stops_setPart ..)
  have hrecorded : State.Stops q faulted recorded :=
    ((((hset faulted (by decide) f.cause).trans (hset _ (by decide) f.status)).trans (hset _ (by decide) f.core)).trans
      (hset _ (by decide) f.port)).trans (hset _ (by decide) p.beat)
  have hlagged : State.Stops q recorded lagged := .ite q _ (hset recorded (by decide) 1) (.refl q _)
  have hdrained : State.Stops q unsent drained := .foldl q (fun t k => t.stops_modCluster q k _) ..
  have hstopped : State.Stops q drained stopped := .foldl q (fun t c => t.stops_modCore q c _) ..
  have hwritten : State.Stops q landed written := .ite q _ (landed.stops_writeMem q ..) (.refl q _)
  have hunsent : State.Stops q s unsent := (hfaulted.trans hrecorded).trans (hlagged.trans (lagged.stops_dropSched q))
  exact (hunsent.trans (hdrained.trans hstopped)).trans ((stopped.stops_landLedger q).trans (hwritten.trans (written.stops_raise q _)))

end

/-! ## Faults that stop at once (R563, R564) -/

/-- A fault met with no logical cycle to end stops a live job, is recorded for one that is faulted, and is nothing where there is no job. -/
inductive State.Faults (q : Nat) (s t : State) : Prop
  | records (h : (s.part q).job = .faulted) (hs : State.Stops q s t) (hp : t.part q = s.part q) (ht : s.sameButTally t)
  | stops (h : (s.part q).jobLive = true) (f : CycleFault) (ht : t = s.stopJob q f)
  | none (h : (s.part q).jobLive = false) (ht : t = s)

theorem State.sameButTally_setFld {f : Fld} (h : psReg f.reg = none) (s : State) (i v : Nat) : s.sameButTally (s.setFld f i v) := by
  unfold State.sameButTally State.setFld
  rw [State.setReg_plain h]

theorem State.sameButTally.parts {s t : State} (h : s.sameButTally t) : t.parts = s.parts := by rw [h]

theorem State.faults_jobFault (s : State) {q cause : Nat} (hc : 4 < cause) (status core port : Nat) :
    State.Faults q s (s.jobFault q cause status core port) := by
  by_cases hl : (s.part q).jobLive = true
  · exact .stops hl _ (State.jobFault_stops status core port hl hc)
  · by_cases hj : (s.part q).job = .faulted
    · have hset (t : State) {g : Fld} (hg : g.reg ∈ stopRegs) (v : Nat) := State.stops_setFld q t hg v
      simp only [State.jobFault, hj, beq_self_eq_true, if_true]
      split
      · split
        · have hs := (((hset s (g := F.TIME_FAULT_CAUSE) (by decide) cause).trans (hset _ (g := F.TIME_FAULT_STATUS) (by decide) status)).trans
            (hset _ (g := F.TIME_FAULT_CORE) (by decide) core)).trans (hset _ (g := F.TIME_FAULT_PORT) (by decide) port)
          have ht : s.sameButTally ((((s.setFld F.TIME_FAULT_CAUSE q cause).setFld F.TIME_FAULT_STATUS q status).setFld F.TIME_FAULT_CORE q
              core).setFld F.TIME_FAULT_PORT q port) :=
            ((State.sameButTally_setFld rfl ..).trans (State.sameButTally_setFld rfl ..)).trans
              ((State.sameButTally_setFld rfl ..).trans (State.sameButTally_setFld rfl ..))
          exact .records hj hs (State.part_of_parts ht.parts q) ht
        · exact .records hj (.refl q s) rfl rfl
      · have ht : s.sameButTally (s.addFld F.TIME_FAULT_MORE q 1) := State.sameButTally_addFld rfl ..
        exact .records hj (s.stops_addFld q (by decide) 1) (State.part_of_parts ht.parts q) ht
    · have hnot : (s.part q).jobLive = false := by simpa using hl
      refine .none hnot ?_
      simp [State.jobFault, hj, hnot]

theorem State.Faults.toStops {q : Nat} {s t : State} (h : State.Faults q s t) : State.Stops q s t := by
  cases h with
  | records _ hs => exact hs
  | stops _ f ht => exact ht ▸ s.stops_stopJob q f
  | none _ ht => exact ht ▸ .refl q s

/-- A partition that is FAULTED, or whose job is live, is FAULTED after the fault. -/
theorem State.Faults.job {q : Nat} {s t : State} (h : State.Faults q s t) (hl : (s.part q).jobLive = true ∨ (s.part q).job = .faulted) :
    (t.part q).job = .faulted := by
  cases h with
  | records hj _ hp => rw [hp, hj]
  | stops _ f ht => rw [ht, State.job_stopJob]
  | none hn ht =>
    rw [ht]
    exact hl.resolve_left (by rw [hn]; decide)

/-! ## Every job faults (R482, R567) -/

/-- What a fault of every job leaves. -/
structure State.FaultsAll (s t : State) : Prop where
  frame : s.sameButStop t
  regs : ∀ r, r ∉ stopRegs → State.sameReg r s t
  jobs : ∀ q < 8, (s.part q).jobLive = true → (t.part q).job = .faulted

theorem State.faultsAll_faultAll (s : State) {cause : Nat} (hc : 4 < cause) (status : Nat) : s.FaultsAll (s.faultAll cause status) := by
  have hstep (t : State) (p : Nat) (hp : p < 8) : State.Stops p t (if (t.part p).jobLive then t.jobFault p cause status 0 0 else t) :=
    .ite p t (t.faults_jobFault hc status 0 0).toStops (.refl p t)
  have hfaults (t : State) (p : Nat) (h : (t.part p).jobLive = true ∨ (t.part p).job = .faulted) :
      (State.part (if (t.part p).jobLive then t.jobFault p cause status 0 0 else t) p).job = .faulted := by
    split
    · exact (t.faults_jobFault hc status 0 0).job h
    case isFalse hn => exact h.resolve_left hn
  have hkept (q : Nat) (l : List Nat) (hl : ∀ p ∈ l, p < 8) (t : State) (h : q ∈ l ∧ (t.part q).jobLive = true ∨ (t.part q).job = .faulted) :
      (State.part (l.foldl (fun t p => if (t.part p).jobLive then t.jobFault p cause status 0 0 else t) t) q).job = .faulted := by
    induction l generalizing t with
    | nil => exact h.resolve_left fun hn => nomatch hn.1
    | cons p l ih =>
      refine ih (fun p hp => hl p (List.mem_cons_of_mem _ hp)) _ ?_
      by_cases hpq : p = q
      · subst hpq
        exact .inr (hfaults t p (h.imp_left And.right))
      · have hsame := (hstep t p (hl p List.mem_cons_self)).others q (Ne.symm hpq)
        rw [hsame]
        exact h.imp_left fun hq => ⟨(List.mem_cons.1 hq.1).resolve_left (Ne.symm hpq), hq.2⟩
  refine ⟨?_, fun r hr => ?_, fun q hq hl => hkept q _ (fun p hp => List.mem_range.1 hp) s (.inl ⟨List.mem_range.2 hq, hl⟩)⟩
  · exact List.foldlRecOn (motive := fun t => s.sameButStop t) _ _ s.sameButStop_refl
      fun t ht p hp => ht.trans (hstep t p (List.mem_range.1 hp)).frame
  · exact State.sameReg_foldl _ (fun t p hp => (hstep t p (List.mem_range.1 hp)).regs (List.mem_range.1 hp) r hr) s

end Sys2Proof.Machine
end

section
/-! Caps, declarations, measurements, step changes and PLL locks (14_time_clocks_power.md R475 to R477, R481, R482). -/

namespace Sys2Proof.Machine

/-! ## The cap (R481) -/

theorem State.psWord_psSet {s : State} {w : Nat} (h : SMap.get 0 s.psCount w + s.psWaiting w < psLimit) (v : Nat) :
    (s.psSet w v).psWord w = v % 2 ^ 32 := by
  by_cases hsame : v % 2 ^ 32 = s.psWord w
  · rw [State.psSet, if_pos hsame, ← hsame]
  · rw [State.psSet, if_neg hsame, if_neg (Nat.not_le.2 h), State.setPlain_form]
    exact SMap.get_put_self ..

/-- A persistent word that may be written takes its value with no event. -/
theorem State.psSet_taken {s : State} {w : Nat} (h : SMap.get 0 s.psCount w + s.psWaiting w < psLimit) (v : Nat) :
    s.psSet w v = { s with regs := (s.psSet w v).regs, ps := (s.psSet w v).ps, psQ := (s.psSet w v).psQ } := by
  by_cases hsame : v % 2 ^ 32 = s.psWord w
  · rw [State.psSet, if_pos hsame]
  · rw [State.psSet, if_neg hsame, if_neg (Nat.not_le.2 h), State.setPlain_form]

theorem State.setFld_cap (s : State) (c : Nat) :
    s.setFld F.PWR_CAP_CAP 0 c = s.psSet 0x12 ((F.PWR_CAP_CAP.put (s.reg .PWR_CAP 0) c).toNat % 2 ^ 32) := rfl

theorem State.powerCap_psWord (s : State) : s.powerCap = s.psWord 0x12 % 2 ^ 64 % 2 ^ 11 := by
  have hreg : s.reg .PWR_CAP 0 = BitVec.ofNat 64 (s.psWord 0x12) := rfl
  rw [State.powerCap, State.fld]
  show F.PWR_CAP_CAP.get (s.reg .PWR_CAP 0) = _
  rw [hreg, Fld.get, BitVec.toNat_ofNat]
  exact congrArg (· % 2 ^ 11) (Nat.div_one _)

theorem State.powerCap_setFld_cap {s : State} (h : SMap.get 0 s.psCount 0x12 + s.psWaiting 0x12 < psLimit) (c : Nat) :
    (s.setFld F.PWR_CAP_CAP 0 c).powerCap = c % 2 ^ 11 := by
  have hput := Fld.get_put (f := F.PWR_CAP_CAP) rfl (s.reg .PWR_CAP 0) c
  have hget (w : Word) : F.PWR_CAP_CAP.get w = w.toNat % 2 ^ 11 := congrArg (· % 2 ^ 11) (Nat.div_one _)
  rw [hget] at hput
  rw [State.powerCap_psWord, State.setFld_cap, State.psWord_psSet h]
  change _ = c % 2 ^ 11 at hput
  omega

theorem State.powerCap_of_fld {s t : State} (h : t.fld F.PWR_CAP_CAP 0 = s.fld F.PWR_CAP_CAP 0) : t.powerCap = s.powerCap := h

theorem State.powerCap_setFld {f : Fld} (h : psReg f.reg = none) (hne : .PWR_CAP ≠ f.reg) (s : State) (v : Nat) :
    (s.setFld f 0 v).powerCap = s.powerCap := State.fld_setFld_reg h hne ..

/-- A write of PWR_CAP out of its range, above the budget, and below it. -/
theorem exec_pwrCapWrite_range {v : Nat} (h : v % 2 ^ 11 < 250 ∨ 1200 < v % 2 ^ 11) (r : Requester) (s : State) :
    exec (.pwrCapWrite r v) s = .next s := congrArg (done s) (if_pos h)

theorem gives_pwrCapWrite_taken {v : Nat} {s : State} (hlo : 250 ≤ v % 2 ^ 11) (hhi : v % 2 ^ 11 ≤ 1200) (hb : s.powerBudget ≤ v % 2 ^ 11)
    (r : Requester) : Gives (.pwrCapWrite r v) s ((s.setFld F.PWR_CAP_CAP 0 (v % 2 ^ 11)).setFld F.PWR_BUDGET_STATUS 0 stOK) :=
  .of_done (congrArg (done s) ((if_neg (by omega)).trans (if_neg (Nat.not_lt.2 hb))))

theorem gives_pwrCapWrite_refused {v : Nat} {s : State} (hlo : 250 ≤ v % 2 ^ 11) (hhi : v % 2 ^ 11 ≤ 1200) (hb : v % 2 ^ 11 < s.powerBudget)
    (r : Requester) : Gives (.pwrCapWrite r v) s (s.setFld F.PWR_BUDGET_STATUS 0 stNOT_PERMITTED) :=
  .of_done (congrArg (done s) ((if_neg (by omega)).trans (if_pos hb)))

/-- R481: a cap that the budget does not exceed is in force. -/
theorem completes_pwrCapWrite_taken {v : Nat} {s : State} (hlo : 250 ≤ v % 2 ^ 11) (hhi : v % 2 ^ 11 ≤ 1200) (hb : s.powerBudget ≤ v % 2 ^ 11)
    (hps : SMap.get 0 s.psCount 0x12 + s.psWaiting 0x12 < psLimit) (r : Requester) : Completes (.pwrCapWrite r v) s fun t =>
      t.powerCap = v % 2 ^ 11 ∧ t.fld F.PWR_BUDGET_STATUS 0 = stOK ∧ t = { s with regs := t.regs, ps := t.ps, psQ := t.psQ } := by
  have hset := State.psSet_taken hps ((F.PWR_CAP_CAP.put (s.reg .PWR_CAP 0) (v % 2 ^ 11)).toNat % 2 ^ 32)
  rw [← State.setFld_cap] at hset
  have hframe (t : State) (ht : t = { s with regs := t.regs, ps := t.ps, psQ := t.psQ }) : t.setFld F.PWR_BUDGET_STATUS 0 stOK =
      { s with regs := (t.setFld F.PWR_BUDGET_STATUS 0 stOK).regs, ps := (t.setFld F.PWR_BUDGET_STATUS 0 stOK).ps,
               psQ := (t.setFld F.PWR_BUDGET_STATUS 0 stOK).psQ } := by
    rw [ht]
    simp only [State.setFld, State.setReg_plain (r := F.PWR_BUDGET_STATUS.reg) rfl]
  refine (gives_pwrCapWrite_taken hlo hhi hb r).completes (by simp) (by simp) ⟨?_, State.fld_setFld_of_lt rfl rfl _ _ (by decide), hframe _ hset⟩
  rw [State.powerCap_setFld rfl (by decide), State.powerCap_setFld_cap hps, Nat.mod_mod]

/-! ## Declarations (R481) -/

section
variable {q v : Nat} {s : State} (hq : q < 8) (r : Requester)
include hq

theorem gives_pwrPdeclWrite_launched (hl : (s.part q).jobLive = true) : Gives (.pwrPdeclWrite r q v) s (s.refuseWrite .PWR_PDECL q) :=
  .of_done ((if_pos hq).trans (congrArg (done s) (if_pos hl)))

theorem gives_pwrPdeclWrite_taken (hl : (s.part q).jobLive = false)
    (hb : (s.setFld F.PWR_PDECL_W q (v % 2 ^ 11)).powerBudget ≤ s.powerCap ∨ (s.setFld F.PWR_PDECL_W q (v % 2 ^ 11)).powerBudget ≤ s.powerBudget) :
    Gives (.pwrPdeclWrite r q v) s ((s.setFld F.PWR_PDECL_W q (v % 2 ^ 11)).setFld F.PWR_BUDGET_STATUS 0 stOK) :=
  .of_done ((if_pos hq).trans (congrArg (done s) ((if_neg (by rw [hl]; decide)).trans (if_neg (by omega)))))

theorem gives_pwrPdeclWrite_refused (hl : (s.part q).jobLive = false) (hcap : s.powerCap < (s.setFld F.PWR_PDECL_W q (v % 2 ^ 11)).powerBudget)
    (hb : s.powerBudget < (s.setFld F.PWR_PDECL_W q (v % 2 ^ 11)).powerBudget) :
    Gives (.pwrPdeclWrite r q v) s (s.setFld F.PWR_BUDGET_STATUS 0 stNOT_PERMITTED) :=
  .of_done ((if_pos hq).trans (congrArg (done s) ((if_neg (by rw [hl]; decide)).trans (if_pos ⟨hcap, hb⟩))))

end

/-! ## Measurements (R482) -/

/-- A measurement: the average of the last ten shows. -/
def State.measured (s : State) (w : Nat) : State :=
  let l := (w :: s.pow.samples).take 10
  (s.modPow fun p => { p with samples := l }).setFld F.PWR_BUDGET_NOW 0 (min 2047 (l.sum / l.length))

theorem State.measured_form (s : State) (w : Nat) :
    (s.measured w).fld F.PWR_BUDGET_NOW 0 = min 2047 (((w :: s.pow.samples).take 10).sum / ((w :: s.pow.samples).take 10).length)
      ∧ (s.measured w).powerCap = s.powerCap
      ∧ s.measured w = { s with pow := { s.pow with samples := (w :: s.pow.samples).take 10 }, regs := (s.measured w).regs } := by
  refine ⟨State.fld_setFld_of_lt rfl rfl _ _ (Nat.lt_of_le_of_lt (Nat.min_le_left ..) (by decide)), ?_, ?_⟩
  · exact (State.powerCap_setFld rfl (by decide) ..).trans (State.powerCap_of_fld (State.fld_congr rfl rfl rfl ..))
  · simp only [State.measured, State.modPow, State.setFld, State.setReg_plain (r := F.PWR_BUDGET_NOW.reg) rfl]

theorem State.fld_modPow (s : State) (m : PowSt → PowSt) (f : Fld) (i : Nat) : (s.modPow m).fld f i = s.fld f i := State.fld_congr rfl rfl rfl f i

theorem gives_powerMeasure (w : Nat) (s : State) : Gives (.powerMeasure w) s
    (if s.powerCap * ((w :: s.pow.samples).take 10).length < ((w :: s.pow.samples).take 10).sum then (s.measured w).powerTrip else s.measured w) := by
  rw [← (s.measured_form w).2.1]
  exact .of_done rfl

theorem State.sameButStop_raise (s : State) (n : Nat) : s.sameButStop (s.raise n) := (State.sameButLog_raise ..).sameButMemory.sameButStop

/-- R482: the trip shows, every job is faulted, and source 354 is raised. -/
theorem State.powerTrip_form (s : State) :
    s.powerTrip.fld F.PWR_BUDGET_TRIP 0 = 1 ∧ s.powerTrip.fld F.PWR_BUDGET_NOW 0 = s.fld F.PWR_BUDGET_NOW 0 ∧ s.powerTrip.occ.getLast? = some 354
      ∧ s.sameButStop s.powerTrip ∧ ∀ p < 8, (s.part p).jobLive = true → (s.powerTrip.part p).job = .faulted := by
  have hall := State.faultsAll_faultAll (s.hwSet F.PWR_BUDGET_TRIP 0 1) (cause := caPOWER) (by decide) stNOT_PERMITTED
  have hfld (f : Fld) (hf : f.reg = .PWR_BUDGET) : s.powerTrip.fld f 0 = (s.hwSet F.PWR_BUDGET_TRIP 0 1).fld f 0 := by
    rw [State.powerTrip, State.fld_raise]
    exact (hall.regs f.reg (by rw [hf]; decide)).fld
  refine ⟨?_, ?_, List.getLast?_concat .., ?_, fun p hp hl => ?_⟩
  · rw [hfld _ rfl, State.hwSet, State.fld_note]
    have htrip : s.fld F.PWR_BUDGET_TRIP 0 < 2 ^ 1 := State.fld_lt ..
    refine State.fld_setFld_of_lt rfl rfl s 0 (v := s.fld F.PWR_BUDGET_TRIP 0 ||| 1) ?_ |>.trans ?_
    · exact Nat.or_lt_two_pow htrip (by decide)
    · generalize s.fld F.PWR_BUDGET_TRIP 0 = k at htrip
      interval_cases k <;> rfl
  · rw [hfld _ rfl, State.hwSet, State.fld_note]
    exact State.fld_setFld_apart (f := F.PWR_BUDGET_TRIP) (g := F.PWR_BUDGET_NOW) rfl rfl rfl rfl rfl ..
  · exact ((State.sameButLog_hwSet rfl ..).sameButMemory.sameButStop.trans hall.frame).trans (State.sameButStop_raise ..)
  · rw [State.powerTrip, State.part_raise]
    exact hall.jobs p hp (by rwa [State.part_of_parts (State.hwSet_parts ..)])

/-- R482: what a measurement leaves. -/
theorem completes_powerMeasure (w : Nat) (s : State) :
    let l := (w :: s.pow.samples).take 10
    Completes (.powerMeasure w) s fun t =>
      t.pow.samples = l ∧ t.fld F.PWR_BUDGET_NOW 0 = min 2047 (l.sum / l.length)
      ∧ (l.sum ≤ s.powerCap * l.length → t = { s with pow := t.pow, regs := t.regs })
      ∧ (s.powerCap * l.length < l.sum →
        t.fld F.PWR_BUDGET_TRIP 0 = 1 ∧ t.occ.getLast? = some 354 ∧ ∀ p < 8, (s.part p).jobLive = true → (t.part p).job = .faulted) := by
  intro l
  obtain ⟨hnow, -, hform⟩ := s.measured_form w
  have hgives := gives_powerMeasure w s
  by_cases hcap : s.powerCap * l.length < l.sum
  · rw [if_pos hcap] at hgives
    obtain ⟨htrip, htripNow, hocc, hframe, hjobs⟩ := (s.measured w).powerTrip_form
    refine hgives.completes ?_ ?_ ⟨?_, htripNow.trans hnow, fun hle => absurd hcap (Nat.not_lt.2 hle), fun _ => ⟨htrip, hocc, fun p hp hl => ?_⟩⟩
    · rw [hframe.pending, hform]
    · rw [hframe.id, hform]
    · rw [hframe.pow, hform]
    · exact hjobs p hp (by rwa [State.part_of_parts (s := s) (by rw [hform])])
  · rw [if_neg hcap] at hgives
    refine hgives.completes (by rw [hform]) (by rw [hform]) ⟨by rw [hform], hnow, fun _ => ?_, fun h => absurd h hcap⟩
    rw [hform]

/-! ## Step changes (R475 to R477) -/

section
variable {q v : Nat} {s : State}

theorem gives_pwrStepcmd (hq : q < 8) (r : Requester) (v : Nat) (s : State) : Gives (.pwrStepcmd r q v) s
    ((s.askStep q (bits v 47 0) (bits v 50 48) (v.testBit 63)).1.setFld F.PWR_STEP_STATUS q
      (s.askStep q (bits v 47 0) (bits v 50 48) (v.testBit 63)).2) :=
  .of_done (if_pos hq)

theorem State.askStep_failed {n step : Nat} (spread : Bool) (h : s.checkStep q step ≠ stOK) :
    s.askStep q n step spread = (s, s.checkStep q step) := by
  simp only [State.askStep, h, false_and, if_false, ne_eq, not_false_eq_true, if_true]

theorem State.askStep_late {n step : Nat} (spread : Bool) (h : s.checkStep q step = stOK) (hl : s.stepLate q n = true) :
    s.askStep q n step spread = (s, stLATE) := by
  simp only [State.askStep, h, hl, and_self, if_true]
  rfl

theorem State.askStep_passed {n step : Nat} (spread : Bool) (h : s.checkStep q step = stOK) (hl : s.stepLate q n = false) :
    s.askStep q n step spread =
      (if spread && (s.part q).jobLive then (s.takeStep q n step).sendStep q n step else s.takeStep q n step, stOK) := by
  simp only [State.askStep, h, hl, Bool.false_eq_true, and_false, if_false, ne_eq, not_true_eq_false]

theorem State.checkStep_lt (q step : Nat) (s : State) : s.checkStep q step < 2 ^ 8 := by
  unfold State.checkStep
  extract_lets p
  split_ifs <;> decide

/-- A step change changes its partition, activities, registers and events. -/
def State.sameButStep (q : Nat) (s t : State) : Prop :=
  (∀ p, p ≠ q → t.part p = s.part p)
    ∧ t = { s with parts := t.parts, regs := t.regs, acts := t.acts, nextAct := t.nextAct, occ := t.occ }

theorem State.sameButStep.trans {s t u : State} (h : State.sameButStep q s t) (k : State.sameButStep q t u) : State.sameButStep q s u := by
  obtain ⟨hparts, hform⟩ := h
  obtain ⟨kparts, kform⟩ := k
  refine ⟨fun p hp => (kparts p hp).trans (hparts p hp), ?_⟩
  rw [hform] at kform
  exact kform

theorem State.sameButStep.pending {s t : State} (h : State.sameButStep q s t) : t.pending = s.pending := by rw [h.2]
theorem State.sameButStep.id {s t : State} (h : State.sameButStep q s t) : t.id = s.id := by rw [h.2]
theorem State.sameButStep.mem {s t : State} (h : State.sameButStep q s t) : t.mem = s.mem := by rw [h.2]

theorem State.sameButRegs.sameButStep {s t : State} (h : s.sameButRegs t) : State.sameButStep q s t := by
  rw [h]
  exact ⟨fun _ _ => rfl, rfl⟩

theorem State.sameButStep_setFld {f : Fld} (h : psReg f.reg = none) (s : State) (i v : Nat) : State.sameButStep q s (s.setFld f i v) :=
  (State.sameButRegs_setFld h ..).sameButStep

theorem State.sameButStep_setPart (s : State) (v : Part) : State.sameButStep q s (s.setPart q v) := ⟨fun _ hp => State.part_setPart_ne s v hp, rfl⟩

theorem State.sameButStep_startAct (s : State) (a : Act) : State.sameButStep q s (s.startAct a) :=
  State.sameButStep.trans (t := { s with acts := s.acts ++ [{ a with id := s.nextAct }], nextAct := s.nextAct + 1 }) ⟨fun _ _ => rfl, rfl⟩
    (s.startAct_form a).sameButStep

theorem State.sameButStep_endAct (s : State) (a : Act) (st : Nat) : State.sameButStep q s (s.endAct a st) := by
  obtain ⟨t, ht, hend⟩ := s.endAct_form a st
  rw [hend]
  have hfirst : State.sameButStep q s { s with acts := s.acts.filter fun b => b.id != a.id } := ⟨fun _ _ => rfl, rfl⟩
  exact (hfirst.trans ht.sameButStep).trans ⟨fun _ _ => rfl, rfl⟩

theorem State.part_startAct (s : State) (a : Act) (q : Nat) : (s.startAct a).part q = s.part q := by
  rw [State.part_of_parts (s := s)]
  rw [s.startAct_form a]

/-- A change that has passed its checks is pending: the partition, the other partitions, and the occurrences. -/
def State.stepTaken (s : State) (q n step : Nat) : State :=
  (((s.startAct (s.stepAct q)).modPart q fun p => { p with stepPend := some (n, step) }).setFld F.PWR_STEP_BEAT q (n % 2 ^ 32)).setFld
    F.PWR_STEP_NEXT q step

theorem State.stepTaken_form (s : State) (q n step : Nat) :
    (s.stepTaken q n step).part q = { s.part q with stepPend := some (n, step) } ∧ (s.stepTaken q n step).occ = s.occ
      ∧ State.sameButStep q s (s.stepTaken q n step) := by
  refine ⟨?_, ?_, ?_⟩
  · rw [State.stepTaken, State.part_of_parts (State.setFld_parts ..), State.part_of_parts (State.setFld_parts ..), State.part_modPart,
      State.part_startAct]
  · rw [State.stepTaken, State.setFld_occ rfl, State.setFld_occ rfl, State.modPart_occ, s.startAct_form]
  · exact ((State.sameButStep_startAct ..).trans (State.sameButStep_setPart ..)).trans
      ((State.sameButStep_setFld rfl ..).trans (State.sameButStep_setFld rfl ..))

theorem State.takeStep_launched {n step : Nat} (h : (s.part q).jobLive = true) : s.takeStep q n step = s.stepTaken q n step := by
  have hlive : ((s.stepTaken q n step).part q).jobLive = true := by rw [(s.stepTaken_form q n step).1]; exact h
  exact if_pos hlive

theorem State.takeStep_idle {n step : Nat} (h : (s.part q).jobLive = false) : s.takeStep q n step = (s.stepTaken q n step).stepDone q := by
  have hidle : ¬ ((s.stepTaken q n step).part q).jobLive = true := by
    rw [(s.stepTaken_form q n step).1]
    exact fun ht => absurd (h.symm.trans ht) (by decide)
  exact if_neg hidle

/-- R478: a change that is complete is in force, and source 353 is raised. -/
theorem State.stepDone_form {n step : Nat} (h : (s.part q).stepPend = some (n, step)) :
    (s.stepDone q).part q = { s.part q with step := step, stepPend := none, stopUntil := none } ∧ (s.stepDone q).occ.getLast? = some 353
      ∧ State.sameButStep q s (s.stepDone q) := by
  have hset := State.sameButStep_setPart (q := q) s { s.part q with step := step, stepPend := none, stopUntil := none }
  simp only [State.stepDone, h]
  split
  case h_1 a hfind =>
    have hend := State.sameButStep_endAct (q := q) (s.setPart q { s.part q with step := step, stepPend := none, stopUntil := none }) a stOK
    refine ⟨?_, List.getLast?_concat .., (hset.trans hend).trans ⟨fun _ _ => rfl, rfl⟩⟩
    obtain ⟨t, ht, hform⟩ := State.endAct_form (s.setPart q { s.part q with step := step, stepPend := none, stopUntil := none }) a stOK
    rw [hform, State.part_raise, State.part_raise, State.part_of_parts (s := s.setPart q _) (by rw [ht]), State.part_setPart]
  case h_2 => exact ⟨(State.part_raise ..).trans (State.part_setPart ..), List.getLast?_concat .., hset.trans ⟨fun _ _ => rfl, rfl⟩⟩

/-- R476: a change where no job is launched is made at once. -/
theorem completes_pwrStepcmd_idle (hq : q < 8) (r : Requester) (hc : s.checkStep q (bits v 50 48) = stOK)
    (hl : s.stepLate q (bits v 47 0) = false) (hj : (s.part q).jobLive = false) : Completes (.pwrStepcmd r q v) s fun t =>
      (t.part q).step = bits v 50 48 ∧ (t.part q).stepPend = none ∧ t.fld F.PWR_STEP_STATUS q = stOK ∧ t.occ.getLast? = some 353
      ∧ (∀ p, p ≠ q → t.part p = s.part p) ∧ t.mem = s.mem := by
  have hgives := gives_pwrStepcmd hq r v s
  rw [State.askStep_passed _ hc hl, hj, Bool.and_false, if_neg Bool.false_ne_true, State.takeStep_idle hj] at hgives
  dsimp only at hgives
  obtain ⟨hpart, -, htaken⟩ := s.stepTaken_form q (bits v 47 0) (bits v 50 48)
  obtain ⟨hdone, hocc, hmade⟩ := State.stepDone_form (s := s.stepTaken q (bits v 47 0) (bits v 50 48)) (congrArg Part.stepPend hpart)
  have hframe := (htaken.trans hmade).trans (State.sameButStep_setFld (f := F.PWR_STEP_STATUS) rfl _ q stOK)
  have hafter := (State.part_of_parts (State.setFld_parts ((s.stepTaken q (bits v 47 0) (bits v 50 48)).stepDone q) F.PWR_STEP_STATUS q stOK) q).trans hdone
  refine hgives.completes hframe.pending hframe.id ⟨by rw [hafter], by rw [hafter], ?_, ?_, hframe.1, hframe.mem⟩
  · exact State.fld_setFld_of_lt rfl rfl _ _ (by decide)
  · rw [State.setFld_occ rfl]
    exact hocc

/-- R476, R477: a change of a launched job is pending for its beat. -/
theorem completes_pwrStepcmd_launched (hq : q < 8) (r : Requester) (hc : s.checkStep q (bits v 50 48) = stOK)
    (hl : s.stepLate q (bits v 47 0) = false) (hj : (s.part q).jobLive = true) (hspread : v.testBit 63 = false) :
    Completes (.pwrStepcmd r q v) s fun t =>
      (t.part q).step = (s.part q).step ∧ (t.part q).stepPend = some (bits v 47 0, bits v 50 48) ∧ t.fld F.PWR_STEP_STATUS q = stOK
      ∧ t.occ = s.occ ∧ (∀ p, p ≠ q → t.part p = s.part p) ∧ t.mem = s.mem := by
  have hgives := gives_pwrStepcmd hq r v s
  rw [State.askStep_passed _ hc hl, hspread, Bool.false_and, if_neg Bool.false_ne_true, State.takeStep_launched hj] at hgives
  dsimp only at hgives
  obtain ⟨hpart, hocc, htaken⟩ := s.stepTaken_form q (bits v 47 0) (bits v 50 48)
  have hframe := htaken.trans (State.sameButStep_setFld (f := F.PWR_STEP_STATUS) rfl _ q stOK)
  have hafter := (State.part_of_parts (State.setFld_parts (s.stepTaken q (bits v 47 0) (bits v 50 48)) F.PWR_STEP_STATUS q stOK) q).trans hpart
  refine hgives.completes hframe.pending hframe.id ⟨by rw [hafter], by rw [hafter], ?_, ?_, hframe.1, hframe.mem⟩
  · exact State.fld_setFld_of_lt rfl rfl _ _ (by decide)
  · rw [State.setFld_occ rfl]
    exact hocc

/-- R476: a request refused leaves its status alone. -/
theorem completes_pwrStepcmd_refused (hq : q < 8) (r : Requester) {st : Nat} (hst : st < 2 ^ 8)
    (h : s.askStep q (bits v 47 0) (bits v 50 48) (v.testBit 63) = (s, st)) : Completes (.pwrStepcmd r q v) s fun t =>
      t.fld F.PWR_STEP_STATUS q = st ∧ t = { s with regs := t.regs } := by
  have hgives := gives_pwrStepcmd hq r v s
  rw [h] at hgives
  dsimp only at hgives
  exact hgives.completes (State.setFld_pending ..) (State.setFld_id ..)
    ⟨State.fld_setFld_of_lt rfl rfl _ _ hst, State.sameButRegs_setFld (f := F.PWR_STEP_STATUS) rfl s q st⟩

end

/-! ## Locks (R475) -/

section
variable (s : State) (g : Nat)

/-- The loss of lock shows, before jobs fault. -/
def State.unlock : State :=
  (s.hwSet F.PWR_PLL_LOST 0 (2 ^ g)).modPow fun p => { p with unlocked := if p.unlocked.contains g then p.unlocked else p.unlocked ++ [g] }

/-- The job of a partition that runs on a region faults. -/
def State.unlockFault (t : State) (q : Nat) : State :=
  if (regionClusters g).any (t.inPart q) then t.jobFault q caPLL stFAULTED 0 0 else t

theorem State.pllLost_eq : s.pllLost g = ((List.range 8).foldl (State.unlockFault g) (s.unlock g)).raise 356 := rfl

theorem State.mem_unlocked_unlock : g ∈ (s.unlock g).pow.unlocked := by
  show g ∈ if s.pow.unlocked.contains g then s.pow.unlocked else s.pow.unlocked ++ [g]
  split
  case isTrue h => simpa using h
  case isFalse => exact List.mem_append_right _ (List.mem_singleton.2 rfl)

theorem State.fld_unlock {g : Nat} (hg : g < 32) : ((s.unlock g).fld F.PWR_PLL_LOST 0).testBit g = true := by
  have hread : (s.unlock g).fld F.PWR_PLL_LOST 0 = (s.fld F.PWR_PLL_LOST 0 ||| 2 ^ g) % 2 ^ 32 := by
    rw [State.unlock, State.fld_modPow, State.hwSet, State.fld_note]
    exact State.fld_setFld rfl rfl ..
  rw [hread, Nat.testBit_mod_two_pow, Nat.testBit_or, Nat.testBit_two_pow_self, Bool.or_true, Bool.and_true]
  exact decide_eq_true hg

theorem State.unlock_form : s.unlock g = { s with pow := (s.unlock g).pow, regs := (s.unlock g).regs, hw := (s.unlock g).hw } := by
  simp only [State.unlock, State.modPow, State.hwSet, State.note, State.setFld, State.setReg_plain (r := F.PWR_PLL_LOST.reg) rfl]

theorem State.stops_unlockFault (q : Nat) : State.Stops q s (s.unlockFault g q) :=
  .ite q s (s.faults_jobFault (by decide) stFAULTED 0 0).toStops (.refl q s)

/-- Where no job is launched nothing stops: what has faulted may count the fault. -/
theorem State.unlockFault_noJob {t : State} (q : Nat) (h : (t.part q).jobLive = false) : t.sameButTally (t.unlockFault g q) := by
  refine State.sameButTally.ite _ ?_ t.sameButTally_refl
  cases t.faults_jobFault (q := q) (cause := caPLL) (by decide) stFAULTED 0 0 with
  | records _ _ _ ht => exact ht
  | stops hl => exact absurd (h.symm.trans hl) (by decide)
  | none _ ht =>
    rw [ht]
    exact t.sameButTally_refl

theorem State.foldl_unlockFault_noJob (h : ∀ p < 8, (s.part p).jobLive = false) :
    (s.unlock g).sameButTally ((List.range 8).foldl (State.unlockFault g) (s.unlock g)) := by
  refine List.foldlRecOn (motive := fun t => (s.unlock g).sameButTally t) _ _ (State.sameButTally_refl _) fun t ht q hq => ht.trans ?_
  refine State.unlockFault_noJob g q ?_
  rw [State.part_of_parts ht.parts, State.part_of_parts (s := s) (by rw [s.unlock_form])]
  exact h q (List.mem_range.1 hq)

theorem State.foldl_unlockFault_form :
    (s.unlock g).sameButStop ((List.range 8).foldl (State.unlockFault g) (s.unlock g))
      ∧ ((List.range 8).foldl (State.unlockFault g) (s.unlock g)).fld F.PWR_PLL_LOST 0 = (s.unlock g).fld F.PWR_PLL_LOST 0 := by
  refine ⟨State.sameButStop_foldl (fun t q => (t.stops_unlockFault g q).frame) .., ?_⟩
  exact (State.sameReg_foldl (r := F.PWR_PLL_LOST.reg) _
    (fun t q hq => (t.stops_unlockFault g q).regs (List.mem_range.1 hq) _ (by decide)) _).fld

/-- R475: what the loss of lock leaves. -/
theorem completes_pllLockLoss {g : Nat} (hg : g < 32) : Completes (.pllLockLoss g) s fun t =>
    (t.fld F.PWR_PLL_LOST 0).testBit g = true ∧ g ∈ t.pow.unlocked ∧ t.occ.getLast? = some 356
    ∧ ((∀ p < 8, (s.part p).jobLive = false) → t = { s with pow := t.pow, regs := t.regs, hw := t.hw, occ := t.occ }) := by
  have hgives : Gives (.pllLockLoss g) s (s.pllLost g) := .of_done (if_pos hg)
  rw [State.pllLost_eq] at hgives
  obtain ⟨hframe, hfld⟩ := s.foldl_unlockFault_form g
  have hform := s.unlock_form g
  refine hgives.completes (hframe.pending.trans (by rw [hform])) (hframe.id.trans (by rw [hform])) ⟨?_, ?_, List.getLast?_concat .., fun h => ?_⟩
  · rw [State.fld_raise, hfld]
    exact s.fld_unlock hg
  · have hpow : ((List.range 8).foldl (State.unlockFault g) (s.unlock g)).pow = (s.unlock g).pow := hframe.pow
    exact hpow ▸ s.mem_unlocked_unlock g
  · have htally := s.foldl_unlockFault_noJob g h
    generalize (List.range 8).foldl (State.unlockFault g) (s.unlock g) = t at htally ⊢
    generalize s.unlock g = u at htally hform
    rw [htally, hform]
    rfl

theorem completes_pllRelock (h : s.tm.refLost = false) : Completes (.pllRelock g) s fun t =>
    g ∉ t.pow.unlocked ∧ (∀ k ∈ s.pow.unlocked, k ≠ g → k ∈ t.pow.unlocked) ∧ t = { s with pow := t.pow } := by
  have hgives : Gives (.pllRelock g) s (s.modPow fun p => { p with unlocked := p.unlocked.filter fun r => r != g }) :=
    .of_done (if_neg (by rw [h]; decide))
  refine hgives.completes rfl rfl ⟨fun hmem => ?_, fun k hk hne => List.mem_filter.2 ⟨hk, by simpa using hne⟩, rfl⟩
  exact absurd (List.mem_filter.1 hmem).2 (by simp)

end

/-! ## The statement -/

/-- Settles O42: each request is taken or refused by its checks; a trip and a loss of lock are faults that stop jobs at once. -/
theorem powerRequests : Obligations.PowerRequests := by
  unfold Obligations.PowerRequests
  refine ⟨fun r q v s hq => ⟨⟨fun h => exec_pwrCapWrite_range h r s, fun hlo hhi hb hps => completes_pwrCapWrite_taken hlo hhi hb hps r,
      fun hlo hhi hb => gives_pwrCapWrite_taken hlo hhi hb r, fun hlo hhi hb => ?capRefused⟩, gives_pwrPdeclWrite_launched hq r,
      fun hl => ⟨fun hb => ?pdecl, fun hcap hb => ?pdeclRefused⟩, completes_powerMeasure v s⟩,
    fun r q v s hq => ⟨⟨fun hc => ?stepFailed, fun hc hl => ?stepLate, fun hc hl => ⟨completes_pwrStepcmd_idle hq r hc hl,
      completes_pwrStepcmd_launched hq r hc hl, fun hj hspread => ?stepSpread⟩⟩, fun g hg => completes_pllLockLoss s hg,
      fun g hg => completes_pllRelock s g hg⟩⟩
  case capRefused =>
    refine (gives_pwrCapWrite_refused hlo hhi hb r).completes (State.setFld_pending ..) (State.setFld_id ..) ⟨?_, ?_, ?_⟩
    · exact State.powerCap_setFld rfl (by decide) ..
    · exact State.fld_setFld_of_lt rfl rfl _ _ (by decide)
    · exact State.sameButRegs_setFld (f := F.PWR_BUDGET_STATUS) rfl s 0 stNOT_PERMITTED
  case pdecl =>
    have hframe := (State.sameButRegs_setFld (f := F.PWR_PDECL_W) rfl s q (v % 2 ^ 11)).trans
      (State.sameButRegs_setFld (f := F.PWR_BUDGET_STATUS) rfl _ 0 stOK)
    refine (gives_pwrPdeclWrite_taken hq r hl hb).completes (by rw [hframe]) (by rw [hframe]) ⟨?_, ?_, hframe⟩
    · rw [State.fld_setFld_other rfl (by decide) (by omega) (by decide)]
      exact State.fld_setFld_of_lt rfl rfl _ _ (Nat.mod_lt _ (by decide))
    · exact State.fld_setFld_of_lt rfl rfl _ _ (by decide)
  case pdeclRefused =>
    refine (gives_pwrPdeclWrite_refused hq r hl hcap hb).completes (State.setFld_pending ..) (State.setFld_id ..) ⟨?_, ?_, ?_⟩
    · rw [State.fld_setFld_other rfl (by decide) (by omega) (by decide)]
    · exact State.fld_setFld_of_lt rfl rfl _ _ (by decide)
    · exact State.sameButRegs_setFld (f := F.PWR_BUDGET_STATUS) rfl s 0 stNOT_PERMITTED
  case stepFailed => exact completes_pwrStepcmd_refused hq r (State.checkStep_lt ..) (State.askStep_failed _ hc)
  case stepLate => exact completes_pwrStepcmd_refused hq r (by decide) (State.askStep_late _ hc hl)
  case stepSpread =>
    have hgives := gives_pwrStepcmd hq r v s
    rwa [State.askStep_passed _ hc hl, hspread, hj, Bool.and_true, if_pos rfl] at hgives

end Sys2Proof.Machine
end

section
/-! Power states, wakes and temperatures (14_time_clocks_power.md R484 to R488; 18_resets_faults_maintenance.md R567). -/

namespace Sys2Proof.Machine

/-! ## Registers that activities and transitions leave -/

theorem State.fld_startAct {f : Fld} {i : Nat} (hi : i < 9) (h : f.reg ≠ .ROOT_MAINT) (s : State) (a : Act) : (s.startAct a).fld f i = s.fld f i := by
  unfold State.startAct
  refine List.foldlRecOn (motive := fun t : State => t.fld f i = s.fld f i) _ _ (State.fld_congr rfl rfl rfl f i) fun t ht k hk => ?_
  have hk : k < 9 := List.mem_range.1 (List.mem_filter.1 hk).1
  rw [State.fld_setFld_other rfl hk hi h, State.fld_setFld_other rfl hk hi h, State.fld_setFld_other rfl hk hi h, ht]

theorem State.fld_endAct {f : Fld} {i : Nat} (hi : i < 9) (h : f.reg ≠ .ROOT_MAINT) (s : State) (a : Act) (st : Nat) :
    (s.endAct a st).fld f i = s.fld f i := by
  unfold State.endAct
  extract_lets u v
  refine (State.fld_raise ..).trans ?_
  refine List.foldlRecOn (motive := fun t : State => t.fld f i = s.fld f i) _ _ (State.fld_congr rfl rfl rfl f i) fun t ht k hk => ?_
  have hk : k < 9 := List.mem_range.1 (List.mem_filter.1 hk).1
  rw [State.fld_setFld_other rfl hk hi h, State.fld_setFld_other rfl hk hi h, State.fld_setFld_other rfl hk hi h,
    State.fld_setFld_other rfl hk hi h, ht]

/-- The fields that a transition that begins does not write. -/
theorem State.fld_beginTrans {f : Fld} (hf : f.fits = true) (hm : f.reg ≠ .ROOT_MAINT)
    (h : f.reg ≠ F.PWR_STATE_BUSY.reg ∨ F.PWR_STATE_BUSY.apart f = true) (s : State) (k : Nat) : (s.beginTrans k).fld f 0 = s.fld f 0 := by
  rw [State.beginTrans, State.fld_startAct (by decide) hm, State.fld_modPow, State.fld_setFld_beside rfl rfl hf h]

theorem State.beginTrans_form (s : State) (k : Nat) :
    (s.beginTrans k).pow = { s.pow with trans := some k } ∧ (s.beginTrans k).fld F.PWR_STATE_BUSY 0 = 1 := by
  refine ⟨?_, ?_⟩
  · rw [State.beginTrans, State.startAct_form]
    simp only [State.modPow, State.setFld_pow]
  · rw [State.beginTrans, State.fld_startAct (by decide) (by decide), State.fld_modPow]
    exact State.fld_setFld_of_lt rfl rfl _ _ (by decide)

/-! ## Requests (R484) -/

theorem State.checkState_lt (s : State) (k : Nat) : s.checkState k < 2 ^ 8 := by
  unfold State.checkState
  split_ifs <;> decide

/-- The rows of the requests, each with the state it asks for. -/
theorem exec_stateRequest {r : Requester} {k : Nat} {c : Instr}
    (h : (k, c) ∈ [(1, Instr.statecmdRest r), (2, .statecmdDeep r), (3, .statecmdDormant r)]) (s : State) :
    k ≠ 0 ∧ exec c s = done s (s.stateCmd k) := by
  simp only [List.mem_cons, List.not_mem_nil, or_false, Prod.mk.injEq] at h
  rcases h with ⟨rfl, rfl⟩ | ⟨rfl, rfl⟩ | ⟨rfl, rfl⟩ <;>
  exact ⟨by decide, rfl⟩

theorem State.stateCmd_asked {s : State} {k : Nat} (hk : k ≠ 0) (hp : s.power ≠ 3) :
    s.stateCmd k = ((s.askState k).1).setFld F.PWR_STATE_STATUS 0 (s.askState k).2 := by
  rw [State.stateCmd, if_neg hp, State.writeState, if_neg hk]

theorem State.stateCmd_dormant {s : State} (hp : s.power = 3) (k : Nat) : s.stateCmd k = s := if_pos hp

theorem State.askState_passed {s : State} {k : Nat} (h : s.checkState k = stOK) : s.askState k = (s.beginTrans k, stOK) := by
  rw [State.askState, h]
  rfl

theorem State.askState_failed {s : State} {k : Nat} (h : s.checkState k ≠ stOK) : s.askState k = (s, s.checkState k) := by
  rw [State.askState, if_neg h]

/-! ## Transitions that end (R484, R487) -/

/-- Two states differ at most in what the end of a transition changes. -/
def State.sameButReach (s t : State) : Prop := t = { s with regs := t.regs, pow := t.pow, acts := t.acts, occ := t.occ }

theorem State.sameButReach.pending {s t : State} (h : s.sameButReach t) : t.pending = s.pending := by rw [h]
theorem State.sameButReach.id {s t : State} (h : s.sameButReach t) : t.id = s.id := by rw [h]
theorem State.sameButReach.mem {s t : State} (h : s.sameButReach t) : t.mem = s.mem := by rw [h]
theorem State.sameButReach.parts {s t : State} (h : s.sameButReach t) : t.parts = s.parts := by rw [h]

/-- The transition shows as ended, before its activity ends. -/
def State.reached (s : State) (k : Nat) : State :=
  ((s.setFld F.PWR_STATE_CUR 0 k).setFld F.PWR_STATE_BUSY 0 0).modPow fun p => { p with trans := none }

theorem State.reached_form (s : State) {k : Nat} (hk : k < 4) :
    (s.reached k).power = k ∧ (s.reached k).fld F.PWR_STATE_BUSY 0 = 0 ∧ (s.reached k).pow = { s.pow with trans := none }
      ∧ s.sameButReach (s.reached k) := by
  refine ⟨?_, ?_, ?_, ?_⟩
  · rw [State.power, State.reached, State.fld_modPow, State.fld_setFld_beside rfl rfl rfl (.inr rfl)]
    exact State.fld_setFld_of_lt rfl rfl _ _ hk
  · rw [State.reached, State.fld_modPow]
    exact State.fld_setFld_of_lt rfl rfl _ _ (by decide)
  · simp only [State.reached, State.modPow, State.setFld_pow]
  · simp only [State.sameButReach, State.reached, State.modPow, State.setFld, State.setReg_plain (r := F.PWR_STATE_CUR.reg) rfl,
      State.setReg_plain (r := F.PWR_STATE_BUSY.reg) rfl]

theorem State.reach_eq (s : State) (k : Nat) :
    s.reach k = State.raise (match (s.reached k).actsOf actState with | a :: _ => (s.reached k).endAct a stOK | [] => s.reached k) 352 := rfl

theorem State.sameButReach_endAct {s t : State} (h : s.sameButReach t) (a : Act) (st : Nat) :
    s.sameButReach (t.endAct a st) ∧ (t.endAct a st).pow = t.pow := by
  obtain ⟨u, hu, hend⟩ := t.endAct_form a st
  rw [hend]
  unfold State.sameButReach at *
  rw [hu, h]
  exact ⟨rfl, rfl⟩

/-- R484: a transition that ends shows its state, and source 352 is raised. -/
theorem State.reach_form (s : State) {k : Nat} (hk : k < 4) :
    (s.reach k).power = k ∧ (s.reach k).fld F.PWR_STATE_BUSY 0 = 0 ∧ (s.reach k).pow = { s.pow with trans := none }
      ∧ (s.reach k).occ.getLast? = some 352 ∧ s.sameButReach (s.reach k) := by
  obtain ⟨hpower, hbusy, hpow, hform⟩ := s.reached_form hk
  rw [State.reach_eq]
  split
  case h_1 a _ _ =>
    have hend := State.sameButReach_endAct hform a stOK
    have hfld {f : Fld} (h : f.reg ≠ .ROOT_MAINT) := State.fld_endAct (i := 0) (by decide) h (s.reached k) a stOK
    refine ⟨?_, ?_, ?_, List.getLast?_concat .., ?_⟩
    · rw [State.power, State.fld_raise, hfld (by decide)]
      exact hpower
    · rw [State.fld_raise, hfld (by decide), hbusy]
    · exact hend.2.trans hpow
    · exact congrArg (State.raise · 352) hend.1
  case h_2 =>
    refine ⟨?_, ?_, hpow, List.getLast?_concat .., congrArg (State.raise · 352) hform⟩
    · rw [State.power, State.fld_raise]
      exact hpower
    · rw [State.fld_raise, hbusy]

theorem gives_powerStateEntered {s : State} {k : Nat} (h : s.pow.trans = some k) (hk : k ≠ 0) : Gives .powerStateEntered s (s.entered k) := by
  refine .of_done ?_
  show execPowerStateEntered s = _
  rw [execPowerStateEntered, h]
  exact if_neg hk

theorem gives_wakeComplete {s : State} (h : s.pow.trans = some 0) : Gives .wakeComplete s s.woken := .of_done (if_pos h)

/-- R484: with no wake waiting and no launched job, nothing follows a state. -/
theorem State.thenWake_none {s : State} (h : s.pow.wakeNext = none) (hl : ∀ q < 8, (s.part q).job ≠ .launched) : s.thenWake = s := by
  simp only [State.thenWake, h]
  refine if_neg fun hany => ?_
  obtain ⟨q, hq, hj⟩ := List.any_eq_true.1 hany
  exact hl q (List.mem_range.1 hq) (beq_iff_eq.1 hj)

theorem State.entered_rest {s : State} (h : s.pow.wakeNext = none) (hl : ∀ q < 8, (s.part q).job ≠ .launched) : s.entered 1 = s.reach 1 := by
  obtain ⟨-, -, hpow, -, hform⟩ := s.reach_form (k := 1) (by decide)
  show (s.reach 1).thenWake = _
  refine State.thenWake_none (by rw [hpow, h]) fun q hq => ?_
  rw [State.part_of_parts hform.parts]
  exact hl q hq

theorem State.enableWakePorts_none {s : State} (h : s.fld F.PWR_WAKESEL_PORTS 0 = 0) : s.enableWakePorts = s := by
  have hnone : (List.range s.id.ports).filter s.wakePort = [] := by
    refine List.filter_eq_nil_iff.2 fun n _ => ?_
    simp [State.wakePort, h]
  rw [State.enableWakePorts, hnone, List.foldl_nil]

theorem State.floodWake_none {s : State} (h : s.pow.flood = false) : s.floodWake = s := if_neg (by rw [h]; decide)

/-- A wake from REST shows RUN. -/
theorem State.woken_rest {s : State} (hp : s.power = 1) (hports : s.fld F.PWR_WAKESEL_PORTS 0 = 0) (hflood : s.pow.flood = false) :
    s.woken = s.reach 0 := by
  obtain ⟨-, -, hpow, -, hform⟩ := s.reach_form (k := 0) (by decide)
  have hsel : (s.reach 0).fld F.PWR_WAKESEL_PORTS 0 = 0 :=
    (congrArg F.PWR_WAKESEL_PORTS.get
      (State.reg_congr (s := s) (by rw [hform]) (by rw [hform]) fun h => absurd h (by decide))).trans hports
  have hflood' : (s.reach 0).pow.flood = false := by rw [hpow, hflood]
  simp only [State.woken, hp, State.enableWakePorts_none hsel, State.floodWake_none hflood']

/-! ## Wakes that begin (R487) -/

/-- What a wake that begins leaves. -/
theorem State.wakeBy_begins {s : State} {code : Nat} (hcode : code < 8) (flood : Bool) (hon : s.wakeOn code = true) (hp : s.power ≠ 0)
    (ht : s.pow.trans = none) :
    (s.wakeBy code flood).pow.trans = some 0 ∧ (s.wakeBy code flood).fld F.PWR_STATE_WAKESRC 0 = code
      ∧ (s.wakeBy code flood).fld F.PWR_STATE_BUSY 0 = 1 ∧ (s.wakeBy code flood).power = s.power := by
  have hwake : s.wakeBy code flood = (s.beginWake code).modPow fun p => { p with flood := flood, wakeTick := s.gtc / 64 } := by
    simp only [State.wakeBy, hon, Bool.not_true, Bool.false_eq_true, if_false, ht, hp]
  obtain ⟨hpow, hbusy⟩ := s.beginTrans_form 0
  rw [hwake, State.power, State.fld_modPow, State.fld_modPow, State.fld_modPow, State.beginWake, State.fld_modPow, State.fld_modPow, State.fld_modPow]
  refine ⟨?_, State.fld_setFld_of_lt rfl rfl _ _ hcode, ?_, ?_⟩
  · simp only [State.modPow, State.setFld_pow, hpow]
  · rw [State.fld_setFld_beside rfl rfl rfl (.inr rfl), hbusy]
  · rw [State.fld_setFld_beside rfl rfl rfl (.inr rfl), State.fld_beginTrans rfl (by decide) (.inr rfl)]
    rfl

theorem State.wakeBy_off {s : State} {code : Nat} (h : s.wakeOn code = false) (flood : Bool) : s.wakeBy code flood = s :=
  if_pos (by rw [h]; rfl)

/-- The registers that a wake leaves. -/
theorem State.fld_wakeBy {f : Fld} (hf : f.fits = true) (hm : f.reg ≠ .ROOT_MAINT) (hp : f.reg ≠ .PWR_STATE) (s : State) (code : Nat)
    (flood : Bool) : (s.wakeBy code flood).fld f 0 = s.fld f 0 := by
  unfold State.wakeBy
  extract_lets tick
  split
  · rfl
  · split
    · split
      · rfl
      · rw [State.fld_modPow, State.fld_setFld_beside rfl rfl hf (.inl hp)]
    · rfl
    · split
      · rfl
      · rw [State.fld_modPow, State.beginWake, State.fld_modPow, State.fld_setFld_beside rfl rfl hf (.inl hp),
          State.fld_beginTrans hf hm (.inl hp)]

/-- R487: the rows of wake sources: each is the wake by its code, and the write of RUN shows its status as well. -/
def wakeRows (n : Nat) (s : State) (code : Nat) (w : Instr) : Prop :=
  code = 0 ∧ w = .wakePin ∨ code = 1 ∧ (∃ r, w = .statecmdRun r) ∧ s.power ≠ 3 ∨ code = 5 ∧ w = .wakeFrame s.id.serial
    ∨ code = 2 ∧ w = .denianWakeBeacon n ∧ s.power = 3 ∧ s.wakePort n = true
    ∨ code = 2 ∧ (∃ f, w = .wakeReceive n f ∧ (s.port n).ctrlIn.contains f = false) ∧ s.power ≠ 3 ∧ s.wakePort n = true

theorem wakeRows_gives {n code : Nat} {s : State} {w : Instr} (h : wakeRows n s code w) :
    code < 8 ∧ ∃ flood, Gives w s (s.wakeBy code flood) ∨ Gives w s ((s.wakeBy code flood).setFld F.PWR_STATE_STATUS 0 stOK) := by
  rcases h with ⟨rfl, rfl⟩ | ⟨rfl, ⟨r, rfl⟩, hp⟩ | ⟨rfl, rfl⟩ | ⟨rfl, rfl, hp, hport⟩ | ⟨rfl, ⟨f, rfl, hf⟩, hp, hport⟩
  · exact ⟨by decide, false, .inl (.of_done rfl)⟩
  · have hcmd : s.stateCmd 0 = (s.wakeBy 1 false).setFld F.PWR_STATE_STATUS 0 stOK := if_neg hp
    exact ⟨by decide, false, .inr (.of_done (congrArg (done s) hcmd))⟩
  · exact ⟨by decide, false, .inl (.of_done (if_pos rfl))⟩
  · exact ⟨by decide, false, .inl (.of_done (if_pos ⟨hp, hport⟩))⟩
  · have htake : s.ctrlTake n f = s := if_neg (by rw [hf]; decide)
    refine ⟨by decide, f.flags.testBit 0, .inl (.of_done ?_)⟩
    show execWakeReceive n f s = _
    rw [execWakeReceive, htake]
    exact if_pos ⟨hport, hp⟩

/-- A selected source of a part that is not in RUN and makes no transition begins a wake. -/
theorem completes_wake {n code : Nat} {s : State} {w : Instr} (h : wakeRows n s code w) (hon : s.wakeOn code = true) (hp : s.power ≠ 0)
    (ht : s.pow.trans = none) : Completes w s fun t =>
      t.pow.trans = some 0 ∧ t.fld F.PWR_STATE_WAKESRC 0 = code ∧ t.fld F.PWR_STATE_BUSY 0 = 1 ∧ t.power = s.power
      ∧ t = { s with pow := t.pow, regs := t.regs, acts := t.acts, nextAct := t.nextAct } := by
  obtain ⟨hcode, flood, hgives⟩ := wakeRows_gives h
  obtain ⟨htrans, hsrc, hbusy, hpower⟩ := State.wakeBy_begins hcode flood hon hp ht
  have hframe := s.sameButWake_wakeBy code flood
  rcases hgives with hgives | hgives
  · exact hgives.completes hframe.pending hframe.id ⟨htrans, hsrc, hbusy, hpower, hframe⟩
  · have hset := hframe.trans (State.sameButWake_setFld (f := F.PWR_STATE_STATUS) rfl _ 0 stOK)
    refine hgives.completes hset.pending hset.id ⟨?_, ?_, ?_, ?_, hset⟩
    · rw [State.setFld_pow, htrans]
    · rw [State.fld_setFld_beside rfl rfl rfl (.inr rfl), hsrc]
    · rw [State.fld_setFld_beside rfl rfl rfl (.inr rfl), hbusy]
    · rw [State.power, State.fld_setFld_beside rfl rfl rfl (.inr rfl)]
      exact hpower

/-- A source that is not selected does nothing; the write of RUN shows its status. -/
theorem completes_wake_off {n code : Nat} {s : State} {w : Instr} (h : wakeRows n s code w) (hoff : s.wakeOn code = false) :
    Completes w s fun t => t.pow = s.pow ∧ t.power = s.power ∧ t = { s with regs := t.regs } := by
  obtain ⟨-, flood, hgives⟩ := wakeRows_gives h
  rw [State.wakeBy_off hoff] at hgives
  rcases hgives with hgives | hgives
  · exact hgives.completes rfl rfl ⟨rfl, rfl, rfl⟩
  · refine hgives.completes (State.setFld_pending ..) (State.setFld_id ..) ⟨State.setFld_pow .., ?_, ?_⟩
    · rw [State.power, State.fld_setFld_beside rfl rfl rfl (.inr rfl)]
      rfl
    · exact State.sameButRegs_setFld (f := F.PWR_STATE_STATUS) rfl s 0 stOK

/-! ## Temperatures (R487, R567, R591) -/

theorem tempWord_lt (x : Int) : tempWord x < 2 ^ 16 := Nat.lt_of_le_of_lt (Nat.min_le_left ..) (by decide)

/-- The temperature shows, before what reaching the threshold brings. -/
theorem State.alertAt_setTemp (s : State) (v : Nat) : (s.setFld F.PWR_THERM_TEMP 0 v).alertAt = s.alertAt :=
  congrArg (10 * ·) (State.fld_setFld_apart (f := F.PWR_THERM_TEMP) (g := F.PWR_THERM_ALERT) rfl rfl rfl rfl rfl ..)

theorem State.heat_reaches {s : State} {x : Int} (h : s.fld F.PWR_THERM_TEMP 0 < s.alertAt ∧ s.alertAt ≤ tempWord x) :
    s.heat x = ((s.setFld F.PWR_THERM_TEMP 0 (tempWord x)).raise 355).wakeBy 4 false := by
  rw [← State.alertAt_setTemp s (tempWord x)] at h
  exact if_pos h

theorem State.heat_stays {s : State} {x : Int} (h : ¬(s.fld F.PWR_THERM_TEMP 0 < s.alertAt ∧ s.alertAt ≤ tempWord x)) :
    s.heat x = s.setFld F.PWR_THERM_TEMP 0 (tempWord x) := by
  rw [← State.alertAt_setTemp s (tempWord x)] at h
  exact if_neg h

/-- Two states differ at most in what a temperature changes. -/
def State.sameButHeat (s t : State) : Prop :=
  t = { s with pow := t.pow, acts := t.acts, nextAct := t.nextAct, regs := t.regs, occ := t.occ }

theorem State.sameButHeat.pending {s t : State} (h : s.sameButHeat t) : t.pending = s.pending := by rw [h]
theorem State.sameButHeat.id {s t : State} (h : s.sameButHeat t) : t.id = s.id := by rw [h]
theorem State.sameButHeat.mem {s t : State} (h : s.sameButHeat t) : t.mem = s.mem := by rw [h]
theorem State.sameButHeat.parts {s t : State} (h : s.sameButHeat t) : t.parts = s.parts := by rw [h]
theorem State.sameButHeat.pins {s t : State} (h : s.sameButHeat t) : t.pins = s.pins := by rw [h]

theorem State.sameButEvents.heat_trans {s t u : State} (h : s.sameButEvents t) (k : t.sameButWake u) : s.sameButHeat u := by
  rw [State.sameButHeat, k, h]

/-- A temperature shows; reaching the threshold raises source 355. -/
theorem State.heat_form (s : State) (x : Int) :
    (s.heat x).fld F.PWR_THERM_TEMP 0 = tempWord x
      ∧ (s.fld F.PWR_THERM_TEMP 0 < s.alertAt → s.alertAt ≤ tempWord x → 355 ∈ (s.heat x).occ) ∧ s.sameButHeat (s.heat x) := by
  have hset : (s.setFld F.PWR_THERM_TEMP 0 (tempWord x)).fld F.PWR_THERM_TEMP 0 = tempWord x :=
    State.fld_setFld_of_lt rfl rfl _ _ (tempWord_lt x)
  have hevents := State.sameButEvents_setFld (f := F.PWR_THERM_TEMP) rfl s 0 (tempWord x)
  by_cases h : s.fld F.PWR_THERM_TEMP 0 < s.alertAt ∧ s.alertAt ≤ tempWord x
  · rw [State.heat_reaches h]
    have hwake := State.sameButWake_wakeBy ((s.setFld F.PWR_THERM_TEMP 0 (tempWord x)).raise 355) 4 false
    refine ⟨?_, fun _ _ => ?_, (hevents.trans (State.sameButEvents_raise _ 355)).heat_trans hwake⟩
    · rw [State.fld_wakeBy rfl (by decide) (by decide), State.fld_raise, hset]
    · rw [hwake.occ]
      exact List.mem_append_right _ (List.mem_singleton.2 rfl)
  · rw [State.heat_stays h]
    exact ⟨hset, fun h1 h2 => absurd ⟨h1, h2⟩ h, hevents.heat_trans rfl⟩

theorem gives_thermalAlert {s : State} {x : Int} (h : s.alertAt ≤ tempWord x) : Gives (.thermalAlert x) s (s.heat x) := .of_done (if_pos h)

theorem gives_thermalAlertClear {s : State} {x : Int} (h : tempWord x < s.alertAt) : Gives (.thermalAlertClear x) s (s.heat x) :=
  .of_done (if_pos h)

theorem gives_thermalTrip {s : State} {x : Int} (h : 1250 ≤ tempWord x) (ht : s.pins.trip = false) :
    Gives (.thermalTrip x) s (s.thermTrip x) := .of_done (if_pos ⟨h, ht⟩)

/-! ## The statements -/

/-- Settles O43: a request is `State.beginTrans` or its status; a transition that ends is `State.reach`, and nothing follows. -/
theorem powerStates : Obligations.PowerStates := by
  unfold Obligations.PowerStates
  refine fun r s => ⟨fun k c hc => ?request, fun k h hk => gives_powerStateEntered h hk, fun ht hnext hl => ?entered, gives_wakeComplete,
    fun ht hp hports hflood => ?woken⟩
  case request =>
    obtain ⟨hk, hexec⟩ := exec_stateRequest hc s
    refine ⟨fun hp hcheck => ?_, fun hp hcheck => ?_, fun hp => by rw [hexec, State.stateCmd_dormant hp]; rfl⟩
    · rw [State.stateCmd_asked hk hp, State.askState_passed hcheck] at hexec
      dsimp only at hexec
      obtain ⟨hpow, hbusy⟩ := s.beginTrans_form k
      have hframe := (s.sameButWake_beginTrans k).trans (State.sameButWake_setFld (f := F.PWR_STATE_STATUS) rfl _ 0 stOK)
      refine (Gives.of_done hexec).completes hframe.pending hframe.id
        ⟨?_, ?_, State.fld_setFld_of_lt rfl rfl _ _ (by decide), ?_, hframe⟩
      · rw [State.setFld_pow, hpow]
      · rw [State.fld_setFld_beside rfl rfl rfl (.inr rfl), hbusy]
      · rw [State.power, State.fld_setFld_beside rfl rfl rfl (.inr rfl), State.fld_beginTrans rfl (by decide) (.inr rfl)]
        rfl
    · rw [State.stateCmd_asked hk hp, State.askState_failed hcheck] at hexec
      dsimp only at hexec
      exact (Gives.of_done hexec).completes (State.setFld_pending ..) (State.setFld_id ..)
        ⟨State.fld_setFld_of_lt rfl rfl _ _ (s.checkState_lt k), State.sameButRegs_setFld (f := F.PWR_STATE_STATUS) rfl s 0 _⟩
  case entered =>
    have hgives := gives_powerStateEntered ht (by decide)
    rw [State.entered_rest hnext hl] at hgives
    obtain ⟨hpower, hbusy, hpow, hocc, hform⟩ := s.reach_form (k := 1) (by decide)
    exact hgives.completes hform.pending hform.id ⟨hpower, by rw [hpow], hbusy, hocc, hform.mem, hform.parts⟩
  case woken =>
    have hgives := gives_wakeComplete ht
    rw [State.woken_rest hp hports hflood] at hgives
    obtain ⟨hpower, hbusy, hpow, -, hform⟩ := s.reach_form (k := 0) (by decide)
    exact hgives.completes hform.pending hform.id ⟨hpower, by rw [hpow], hbusy, hform.mem, hform.parts⟩

/-- Settles O44: a wake that begins is `State.beginWake`; a temperature is `State.heat`, and the trip faults every job. -/
theorem wakesAndHeat : Obligations.WakesAndHeat := by
  unfold Obligations.WakesAndHeat
  refine ⟨fun code n w s hrow => ⟨completes_wake (n := n) hrow, completes_wake_off (n := n) hrow, fun m hm => if_neg hm⟩,
    fun x s => ⟨fun h => ?alert, fun h => ?clear, fun h ht => ?trip⟩⟩
  case alert =>
    obtain ⟨htemp, hocc, hform⟩ := s.heat_form x
    exact (gives_thermalAlert h).completes hform.pending hform.id ⟨htemp, fun hlt => hocc hlt h, hform.mem, hform.parts⟩
  case clear =>
    have hgives := gives_thermalAlertClear h
    rw [State.heat_stays fun hr => Nat.not_le.2 h hr.2] at hgives
    exact hgives.completes (State.setFld_pending ..) (State.setFld_id ..)
      ⟨State.fld_setFld_of_lt rfl rfl _ _ (tempWord_lt x), State.sameButRegs_setFld (f := F.PWR_THERM_TEMP) rfl s 0 _⟩
  case trip =>
    obtain ⟨-, -, hform⟩ := s.heat_form x
    have hall := State.faultsAll_faultAll ((s.heat x).modPins fun p => { p with trip := true }) (cause := caTHERMAL) (by decide) stFAULTED
    refine (gives_thermalTrip h ht).completes (hall.frame.pending.trans hform.pending) (hall.frame.id.trans hform.id)
      ⟨hall.frame.pins.trans ?_, fun q hq hl => hall.jobs q hq ?_⟩
    · show { (s.heat x).pins with trip := true } = _
      rw [hform.pins]
    · show (State.part (s.heat x) q).jobLive = true
      rwa [State.part_of_parts hform.parts]

end Sys2Proof.Machine
end

section
/-! Resets (16_boot_firmware.md R510; 18_resets_faults_maintenance.md R555 to R558; 19_package_electrical.md R599): what each leaves and what
it loses. -/

namespace Sys2Proof.Machine

/-! ## What a reset outside the compute dies leaves -/

/-- Cores, partitions, ports, memory, GTC, the package, and the part itself stay. -/
structure State.KeepsUnits (s t : State) : Prop where
  pending : t.pending = s.pending
  id : t.id = s.id
  mem : t.mem = s.mem
  gtc : t.gtc = s.gtc
  pins : t.pins = s.pins
  parts : t.parts = s.parts
  cores : t.cores = s.cores
  ports : t.ports = s.ports

theorem State.KeepsUnits.refl (s : State) : s.KeepsUnits s := ⟨rfl, rfl, rfl, rfl, rfl, rfl, rfl, rfl⟩

theorem State.KeepsUnits.trans {s t u : State} (h : s.KeepsUnits t) (k : t.KeepsUnits u) : s.KeepsUnits u :=
  ⟨k.pending.trans h.pending, k.id.trans h.id, k.mem.trans h.mem, k.gtc.trans h.gtc, k.pins.trans h.pins, k.parts.trans h.parts,
    k.cores.trans h.cores, k.ports.trans h.ports⟩

theorem State.KeepsUnits.foldl {α : Type} {f : State → α → State} (hf : ∀ (t : State) a, t.KeepsUnits (f t a)) (l : List α) (s : State) :
    s.KeepsUnits (l.foldl f s) :=
  foldl_keeps (fun t => s.KeepsUnits t) f (fun t a h => h.trans (hf t a)) l s (.refl s)

section
variable (s : State)

theorem State.keepsUnits_setReg (r : RegName) (i : Nat) (w : Word) : s.KeepsUnits (s.setReg r i w) :=
  ⟨State.setReg_pending .., State.setReg_id .., State.setReg_mem .., State.setReg_gtc .., State.setReg_pins .., State.setReg_parts ..,
    State.setReg_cores .., State.setReg_ports ..⟩

theorem State.keepsUnits_setFld (f : Fld) (i v : Nat) : s.KeepsUnits (s.setFld f i v) := s.keepsUnits_setReg ..

theorem State.keepsUnits_modBoot (f : Boot → Boot) : s.KeepsUnits (s.modBoot f) := ⟨rfl, rfl, rfl, rfl, rfl, rfl, rfl, rfl⟩
theorem State.keepsUnits_modMbox (f : Mbox → Mbox) : s.KeepsUnits (s.modMbox f) := ⟨rfl, rfl, rfl, rfl, rfl, rfl, rfl, rfl⟩
theorem State.keepsUnits_modEvc (f : Evc → Evc) : s.KeepsUnits (s.modEvc f) := ⟨rfl, rfl, rfl, rfl, rfl, rfl, rfl, rfl⟩
theorem State.keepsUnits_modPow (f : PowSt → PowSt) : s.KeepsUnits (s.modPow f) := ⟨rfl, rfl, rfl, rfl, rfl, rfl, rfl, rfl⟩
theorem State.keepsUnits_modTm (f : TimeSt → TimeSt) : s.KeepsUnits (s.modTm f) := ⟨rfl, rfl, rfl, rfl, rfl, rfl, rfl, rfl⟩
theorem State.keepsUnits_modHost (f : HostIf → HostIf) : s.KeepsUnits (s.modHost f) := ⟨rfl, rfl, rfl, rfl, rfl, rfl, rfl, rfl⟩
theorem State.keepsUnits_defaultRegs (p : Nat → Bool) : s.KeepsUnits (s.defaultRegs p) := ⟨rfl, rfl, rfl, rfl, rfl, rfl, rfl, rfl⟩
theorem State.keepsUnits_loadTopo (cl : Nat) : s.KeepsUnits (s.loadTopo cl) := ⟨rfl, rfl, rfl, rfl, rfl, rfl, rfl, rfl⟩

theorem State.keepsUnits_closeStandby : s.KeepsUnits s.closeStandby := by
  unfold State.closeStandby
  split
  · exact (s.keepsUnits_setFld ..).trans (State.keepsUnits_modMbox ..)
  · exact .refl s

/-- R541, R547: a reset of the mailbox. -/
theorem State.keepsUnits_mboxReset : s.KeepsUnits s.mboxReset :=
  s.keepsUnits_closeStandby.trans ⟨rfl, rfl, rfl, rfl, rfl, rfl, rfl, rfl⟩

theorem State.keepsUnits_rebuilt (old : State) (d : Nat) : s.KeepsUnits (s.rebuilt old d) := by
  unfold State.rebuilt
  extract_lets cls
  split
  · exact .refl s
  · exact s.keepsUnits_setFld ..

theorem State.keepsUnits_rebuildAll : s.KeepsUnits s.rebuildAll :=
  (State.KeepsUnits.foldl State.keepsUnits_loadTopo _ s).trans (.foldl (fun t d => t.keepsUnits_rebuilt s d) _ _)

theorem State.keepsUnits_restartMc (m k : Nat) (a : Asker) : s.KeepsUnits (s.restartMc m k a) := by
  unfold State.restartMc
  exact ((s.keepsUnits_setFld ..).trans (State.keepsUnits_modBoot ..)).trans (State.keepsUnits_modBoot ..)

/-- R558: a MGMT reset. -/
theorem State.keepsUnits_mgmtReset : s.KeepsUnits s.mgmtReset := by
  unfold State.mgmtReset
  extract_lets a b cleared dropped restarted
  have hcleared : s.KeepsUnits cleared :=
    (s.keepsUnits_mboxReset.trans (State.keepsUnits_defaultRegs ..)).trans (State.keepsUnits_modEvc ..)
  have hdropped : s.KeepsUnits dropped := hcleared.trans (State.keepsUnits_modBoot ..)
  have hrestarted : s.KeepsUnits restarted := (hdropped.trans (State.keepsUnits_modBoot ..)).trans (State.keepsUnits_modBoot ..)
  exact ((hrestarted.trans (State.keepsUnits_restartMc ..)).trans (State.keepsUnits_restartMc ..)).trans (State.keepsUnits_setFld ..)

/-! ## Registers whose default is of the part (R364) -/

theorem State.sameButRegs_partDefaults : s.sameButRegs s.partDefaults := by
  refine State.sameButRegs.trans (.foldl (fun t i => ?_) ..) (.foldl (fun t n => State.sameButRegs_setFld rfl ..) ..)
  rw [State.sameButRegs, State.setReg_plain (r := .ROUTE_ROLE) rfl]

theorem PartId.ports_le (p : PartId) : p.ports ≤ 48 := by
  unfold PartId.ports
  split <;> decide

/-- Default roles and port enables lie in registers of their own. -/
theorem State.fld_partDefaults {f : Fld} (hrole : f.reg ≠ .ROUTE_ROLE) (hctl : f.reg ≠ .PORT_CTL) : s.partDefaults.fld f 0 = s.fld f 0 := by
  unfold State.partDefaults
  extract_lets t
  have ht : t.fld f 0 = s.fld f 0 := by
    refine List.foldlRecOn (motive := fun u : State => u.fld f 0 = s.fld f 0) _ _ rfl fun u hu i hi => ?_
    have hlt := List.mem_range.1 hi
    have hports := s.id.ports_le
    rw [← hu, State.fld, State.fld, State.reg_setReg_ne rfl u _ (by omega) (by decide) (.inl hrole)]
  refine List.foldlRecOn (motive := fun u : State => u.fld f 0 = s.fld f 0) _ _ ht fun u hu n hn => ?_
  have hlt := List.mem_range.1 hn
  have hports := s.id.ports_le
  have hid : t.id = s.id := foldl_component State.id (fun u i => State.setReg_id ..) ..
  rw [hid] at hlt
  rw [← hu, State.fld_setFld_ne rfl u _ (by omega) (by decide) (.inl hctl)]

/-! ## COLD and loss of power (R555, R599) -/

/-- R555: what a COLD reset leaves. -/
theorem State.coldReset_form (straps : List (Option Nat)) :
    (s.coldReset straps).fld F.ROOT_RESET_LAST 0 = 1 ∧ s.overCold.sameButRegs (s.coldReset straps) := by
  refine ⟨?_, ?_⟩
  · rw [State.coldReset]
    exact (State.fld_setFld_reg rfl (by decide) ..).trans (State.fld_setFld_of_lt rfl rfl _ _ (by decide))
  · have hstraps : s.overCold.sameButRegs (s.overCold.readStraps straps) :=
      (((State.sameButRegs_setFld rfl ..).trans (State.sameButRegs_setFld rfl ..)).trans (State.sameButRegs_setFld rfl ..)).trans
        ((State.sameButRegs_setFld rfl ..).trans (State.sameButRegs_setFld rfl ..))
    exact (hstraps.trans (State.sameButRegs_partDefaults _)).trans
      ((State.sameButRegs_setFld (f := F.ROOT_RESET_LAST) rfl _ 0 1).trans (State.sameButRegs_setFld (f := F.TIME_STAT_SYNC) rfl ..))

theorem gives_coldReset {s : State} (hg : s.pins.green = true) (hp : s.power ≠ 3) (straps : List (Option Nat)) :
    Gives (.coldReset straps) s (s.coldReset straps) :=
  .of_done ((if_neg (by rw [hg]; decide)).trans (if_neg hp))

theorem gives_coldReset_held {s : State} (hg : s.pins.green = false) (straps : List (Option Nat)) : Gives (.coldReset straps) s s :=
  .of_done (if_pos hg)

/-- R599, R528: the writes of persistent words that wait are made or lost. -/
theorem State.psLose_form : s.psLose.psQ = [] ∧ s.psLose.pins = s.pins := by
  refine ⟨rfl, ?_⟩
  unfold State.psLose
  extract_lets f k made lost
  have hmade : made.pins = f.1.pins := by
    refine foldl_component State.pins ?_ _ _
    intro _ _
    rfl
  have hlost : lost.pins = made.pins := by
    refine foldl_component State.pins ?_ _ _
    intro _ _
    rfl
  exact hlost.trans hmade

/-- R599: the part is in reset until the rails return. -/
theorem State.loseWork_form (veg33 : Bool) :
    (s.loseWork veg33).mem = [] ∧ (s.loseWork veg33).parts = [] ∧ (s.loseWork veg33).cores = [] ∧ (s.loseWork veg33).psQ = s.psQ
      ∧ (s.loseWork veg33).boot.due = none ∧ (s.loseWork veg33).pins.held = true ∧ (s.loseWork veg33).pins.trip = (s.pins.trip && !veg33)
      ∧ (s.loseWork veg33).pins.green = (s.pins.green && !veg33) := by
  have h := s.overCold.sameButRegs_partDefaults
  unfold State.loseWork
  rw [h]
  exact ⟨rfl, rfl, rfl, rfl, rfl, rfl, rfl, rfl⟩

theorem gives_powerLoss {s : State} {veg33 : Bool} (h : if veg33 then s.pins.green = true else s.power ≠ 3 ∧ s.pins.held = false) :
    Gives (.powerLoss veg33) s (s.psLose.loseWork veg33) := .of_done (if_pos h)

/-! ## WARM (R557) -/

/-- Cores after a WARM reset, one by one. -/
theorem State.core_foldr_warm (l : SMap Core) (t : State) (h : t.cores = []) (c : Nat) :
    (l.foldr (fun e u => u.setCore e.1 e.2.warm) t).core c = (SMap.get Core.init l c).warm := by
  induction l with
  | nil => rw [List.foldr_nil, State.core, h]; rfl
  | cons e l ih =>
    rw [List.foldr_cons, SMap.get]
    by_cases hc : e.1 = c
    · rw [if_pos hc, ← hc, State.core_setCore]
    · rw [if_neg hc, ← ih]
      exact SMap.get_put_ne _ _ _ _ (Ne.symm hc)

theorem State.foldr_setCore_form (l : SMap Core) (t : State) :
    l.foldr (fun e u => u.setCore e.1 e.2.warm) t = { t with cores := (l.foldr (fun e u => u.setCore e.1 e.2.warm) t).cores } := by
  induction l with
  | nil => rfl
  | cons e l ih => rw [List.foldr_cons, ih]; rfl

theorem State.foldr_setTag_form (l : SMap Tag) (t : State) :
    l.foldr (fun e u => u.setTag e.1 e.2.warm) t = { t with fab := (l.foldr (fun e u => u.setTag e.1 e.2.warm) t).fab } := by
  induction l with
  | nil => rfl
  | cons e l ih => rw [List.foldr_cons, ih]; rfl

/-- The units after a WARM reset: no partition, and cores with what they keep. -/
theorem State.warmUnits_form :
    s.warmUnits.pending = s.pending ∧ s.warmUnits.id = s.id ∧ s.warmUnits.mem = s.mem ∧ s.warmUnits.gtc = s.gtc ∧ s.warmUnits.pins = s.pins
      ∧ s.warmUnits.parts = [] ∧ ∀ c, s.warmUnits.core c = (s.core c).warm := by
  unfold State.warmUnits
  extract_lets old cleared kept tags
  have hkept := State.foldr_setCore_form old cleared
  have htags := State.foldr_setTag_form tags { kept with fab := Fabric.init }
  rw [htags]
  refine ⟨?_, ?_, ?_, ?_, ?_, ?_, State.core_foldr_warm old cleared rfl⟩ <;>
  · show _ = _
    simp only [kept]
    rw [hkept]

/-- R491: time and the host interface through a WARM reset, and the distance tables. -/
theorem State.keepsUnits_warmRest : s.KeepsUnits s.warmTime.warmHost.rebuildAll := by
  have htime : s.KeepsUnits s.warmTime :=
    (s.keepsUnits_modTm _).trans ((((State.keepsUnits_setFld ..).trans (State.keepsUnits_setFld ..)).trans (State.keepsUnits_setFld ..)).trans
      (State.keepsUnits_setFld ..))
  exact (htime.trans (State.keepsUnits_modHost ..)).trans (State.keepsUnits_rebuildAll _)

/-- R557: what a WARM reset leaves. -/
structure State.Warmed (s t : State) (cause : Nat) : Prop where
  pending : t.pending = s.pending
  id : t.id = s.id
  mem : t.mem = s.mem
  gtc : t.gtc = s.gtc
  pins : t.pins = s.pins
  parts : t.parts = []
  cores : ∀ c, t.core c = (s.core c).warm
  due : t.boot.due = some cause
  last : t.fld F.ROOT_RESET_LAST 0 = 2

theorem State.warmed_warmReset (cause : Nat) : s.Warmed (s.warmReset cause) cause := by
  unfold State.warmReset
  extract_lets dropped classed united evced powered init booted
  have hclassed : s.KeepsUnits classed := s.keepsUnits_mboxReset.trans (State.keepsUnits_defaultRegs ..)
  obtain ⟨hpending, hid, hmem, hgtc, hpins, hparts, hcores⟩ := classed.warmUnits_form
  have hset : booted.KeepsUnits ((booted.setFld F.PWR_STATE_BUSY 0 0).setFld F.ROOT_RESET_LAST 0 2) :=
    (State.keepsUnits_setFld ..).trans (State.keepsUnits_setFld ..)
  have hbooted : classed.warmUnits.KeepsUnits booted :=
    ((State.keepsUnits_warmRest _).trans (State.keepsUnits_modEvc _ fun _ => Evc.init)).trans
      ((State.keepsUnits_modPow ..).trans (State.keepsUnits_modBoot ..))
  have hdefaults := State.sameButRegs_partDefaults ((booted.setFld F.PWR_STATE_BUSY 0 0).setFld F.ROOT_RESET_LAST 0 2)
  have hfinal : ((booted.setFld F.PWR_STATE_BUSY 0 0).setFld F.ROOT_RESET_LAST 0 2).KeepsUnits
      ((booted.setFld F.PWR_STATE_BUSY 0 0).setFld F.ROOT_RESET_LAST 0 2).partDefaults := by
    constructor <;> rw [hdefaults]
  have hrest := (hbooted.trans hset).trans hfinal
  refine ⟨hrest.pending.trans (hpending.trans hclassed.pending), hrest.id.trans (hid.trans hclassed.id), hrest.mem.trans (hmem.trans hclassed.mem),
    hrest.gtc.trans (hgtc.trans hclassed.gtc), hrest.pins.trans (hpins.trans hclassed.pins), hrest.parts.trans hparts, fun c => ?_, ?_, ?_⟩
  · rw [State.core_of_cores hrest.cores, hcores, State.core_of_cores hclassed.cores]
  · rw [hdefaults]
    simp only [State.setFld_boot]
    rfl
  · rw [State.fld_partDefaults _ (by decide) (by decide)]
    exact State.fld_setFld_of_lt rfl rfl _ _ (by decide)

end

/-! ## Writes of ROOT_RESET (R556) -/

theorem State.byCore_core {r : Requester} {s : State} (hr : r ≠ .host) (ha : s.asleep = false) (eff : State) : s.byCore r eff = eff := by
  cases r with
  | host => exact absurd rfl hr
  | _ => exact if_neg (by rw [ha]; decide)

theorem gives_rootResetWarm {r : Requester} {s : State} (hr : r ≠ .host) (ha : s.asleep = false) :
    Gives (.rootResetWarm r) s (s.warmReset 3) := .of_done (congrArg (done s) (State.byCore_core hr ha _))

theorem gives_rootResetMgmt {r : Requester} {s : State} (hr : r ≠ .host) (ha : s.asleep = false) :
    Gives (.rootResetMgmt r) s s.mgmtReset := .of_done (congrArg (done s) (State.byCore_core hr ha _))

/-! ## PERST# (R429, R510) -/

/-- PERST# is asserted, and the PCI Express link is down: before a WARM reset. -/
def State.perstDown (s : State) : State := (s.modPins fun p => { p with perst := true }).pcieDown

theorem State.perst_eq (s : State) : s.perst = if s.perstDown.asleep || s.perstDown.coldStage0 then s.perstDown else s.perstDown.warmReset 2 := rfl

theorem State.perstDown_form (s : State) :
    s.perstDown = { s with pins := { s.pins with perst := true }, host := s.perstDown.host, occ := s.perstDown.occ } := by
  unfold State.perstDown State.pcieDown
  split <;> rfl

theorem State.perstDown_asleep (s : State) : s.perstDown.asleep = s.asleep ∧ s.perstDown.coldStage0 = s.coldStage0 := by
  have h := s.perstDown_form
  have hpower : s.perstDown.power = s.power := State.fld_congr (by rw [h]) (by rw [h]) (by rw [h]) ..
  have hpins : s.perstDown.pins.held = s.pins.held := by rw [h]
  have hboot : s.perstDown.boot = s.boot := by rw [h]
  exact ⟨by rw [State.asleep, State.asleep, hpower, hpins], by rw [State.coldStage0, State.coldStage0, hboot]⟩

theorem gives_perstAssert {s : State} (h : s.pins.perst = false) : Gives .perstAssert s s.perst := .of_done (if_neg (by rw [h]; decide))

theorem gives_perstRelease {s : State} (h : s.pins.perst = true) (hp : s.power ≠ 3) :
    Gives .perstRelease s (s.modPins fun p => { p with perst := false, drive := 0 }) :=
  .of_done ((if_pos h).trans (congrArg (done s) (if_neg hp)))

/-! ## The statement -/

/-- Settles O45: COLD and a loss of power start over from `State.overCold`; WARM is `State.Warmed`, MGMT `State.KeepsUnits`. -/
theorem resetsLeave : Obligations.ResetsLeave := by
  unfold Obligations.ResetsLeave
  refine fun r straps s => ⟨fun hp hg => ?cold, fun hg => gives_coldReset_held hg straps, fun hp hh => ?loss, fun hg => ?lossAll,
    fun hr ha => ⟨?warm, ?mgmt⟩, ⟨rfl, rfl⟩, fun hp ha hc => ?perst, fun hp hac => ?perstAsleep, fun hp hpow => ?release, ?green⟩
  case cold =>
    obtain ⟨hlast, hform⟩ := s.coldReset_form straps
    refine ⟨_, gives_coldReset hg hp straps, ?_, ?_, ?_, ?_, ?_, ?_, ?_⟩
    · show (s.coldReset straps).mem = []
      rw [hform]; rfl
    · show (s.coldReset straps).parts = []
      rw [hform]; rfl
    · show (s.coldReset straps).cores = []
      rw [hform]; rfl
    · show (s.coldReset straps).gtc = 0
      rw [hform]; rfl
    · show (s.coldReset straps).boot.due = some 1
      rw [hform]; rfl
    · rw [State.fld_done _ _ (by rw [hform]; rfl), hlast]
    · show (s.coldReset straps).ps = s.ps
      rw [hform]; rfl
  case loss =>
    obtain ⟨hpsQ, hpins⟩ := s.psLose_form
    obtain ⟨hmem, hparts, hcores, hq, hdue, hheld, htrip, hgreen⟩ := s.psLose.loseWork_form false
    refine ⟨_, gives_powerLoss ⟨hp, hh⟩, hmem, hparts, hcores, hheld, htrip.trans ?_, hgreen.trans ?_, hq.trans hpsQ, hdue⟩ <;>
    rw [hpins, Bool.not_false, Bool.and_true]
  case lossAll =>
    obtain ⟨hpsQ, -⟩ := s.psLose_form
    obtain ⟨hmem, hparts, hcores, hq, hdue, hheld, htrip, hgreen⟩ := s.psLose.loseWork_form true
    exact ⟨_, gives_powerLoss hg, hmem, hparts, hcores, hheld, htrip.trans (Bool.and_false _), hgreen.trans (Bool.and_false _), hq.trans hpsQ, hdue⟩
  case warm =>
    have hw := s.warmed_warmReset 3
    refine (gives_rootResetWarm hr ha).completes hw.pending hw.id ⟨hw.mem, hw.parts, hw.gtc, hw.due, hw.last, fun c => ?_⟩
    rw [hw.cores]
    exact ⟨rfl, rfl, rfl⟩
  case mgmt =>
    have hm := s.keepsUnits_mgmtReset
    exact (gives_rootResetMgmt hr ha).completes hm.pending hm.id
      ⟨hm.mem, hm.parts, hm.cores, hm.ports, hm.gtc, State.fld_setFld_of_lt rfl rfl _ _ (by decide)⟩
  case perst =>
    have hgives := gives_perstAssert hp
    obtain ⟨hasleep, hcold⟩ := s.perstDown_asleep
    rw [State.perst_eq, hasleep, hcold, ha, hc, Bool.or_false, if_neg Bool.false_ne_true] at hgives
    have hw := s.perstDown.warmed_warmReset 2
    have hform := s.perstDown_form
    refine hgives.completes (hw.pending.trans ?_) (hw.id.trans ?_) ⟨?_, hw.due, hw.mem.trans ?_, hw.parts⟩
    · rw [hform]
    · rw [hform]
    · rw [hw.pins, hform]
    · rw [hform]
  case perstAsleep =>
    have hgives := gives_perstAssert hp
    obtain ⟨hasleep, hcold⟩ := s.perstDown_asleep
    have hstays : (s.asleep || s.coldStage0) = true := by rcases hac with h | h <;> simp [h]
    rw [State.perst_eq, hasleep, hcold, if_pos hstays] at hgives
    have hform := s.perstDown_form
    refine hgives.completes ?_ ?_ ⟨?_, ?_, ?_, ?_⟩ <;> rw [hform]
  case release => exact (gives_perstRelease hp hpow).completes rfl rfl ⟨rfl, rfl⟩
  case green => exact ⟨_, rfl, rfl, rfl⟩

end Sys2Proof.Machine
end

section
/-! A PART reset by RESET (11_fabric.md R393; 18_resets_faults_maintenance.md R559): what it leaves of the partition and of its cores. -/

namespace Sys2Proof.Machine

/-! ## What leaves partitions and cores alone -/

/-- Partitions and cores, the topiary words in force, and the part itself stay. -/
structure State.SameJobs (s t : State) : Prop where
  pending : t.pending = s.pending
  id : t.id = s.id
  topo : t.topo = s.topo
  parts : t.parts = s.parts
  cores : t.cores = s.cores

theorem State.SameJobs.refl (s : State) : s.SameJobs s := ⟨rfl, rfl, rfl, rfl, rfl⟩

theorem State.SameJobs.trans {s t u : State} (h : s.SameJobs t) (k : t.SameJobs u) : s.SameJobs u :=
  ⟨k.pending.trans h.pending, k.id.trans h.id, k.topo.trans h.topo, k.parts.trans h.parts, k.cores.trans h.cores⟩

theorem State.SameJobs.foldl {α : Type} {f : State → α → State} (hf : ∀ (t : State) a, t.SameJobs (f t a)) (l : List α) (s : State) :
    s.SameJobs (l.foldl f s) :=
  foldl_keeps (fun t => s.SameJobs t) f (fun t a h => h.trans (hf t a)) l s (.refl s)

theorem State.SameJobs.ite {p : Prop} [Decidable p] {s t u : State} (ht : s.SameJobs t) (hu : s.SameJobs u) : s.SameJobs (if p then t else u) :=
  iteInduction (motive := fun v => s.SameJobs v) (fun _ => ht) fun _ => hu

/-- The cores of a partition are a matter of its clusters and of the topiary words. -/
theorem State.SameJobs.partCores {s t : State} (h : s.SameJobs t) (q : Nat) : t.partCores q = s.partCores q := by
  have hcore (c : Nat) : t.coreExists c = s.coreExists c := by
    rw [State.coreExists, State.coreExists, State.physSlot, State.physSlot, State.topiary, State.topiary, h.topo]
  have hclusters : t.partClusters q = s.partClusters q := by
    refine congrArg (List.filter · (List.range 64)) (funext fun cl => ?_)
    rw [State.inPart, State.inPart, h.parts]
  rw [State.partCores, State.partCores, hclusters]
  refine congrArg (List.flatMap · (s.partClusters q)) (funext fun cl => ?_)
  exact congrArg (List.filter · ((List.range 8).map fun j => cl * 8 + j)) (funext hcore)

section
variable (s : State)

theorem State.sameJobs_setFld (f : Fld) (i v : Nat) : s.SameJobs (s.setFld f i v) :=
  ⟨State.setFld_pending .., State.setFld_id .., State.setFld_topo .., State.setFld_parts .., State.setFld_cores ..⟩

theorem State.sameJobs_hwSet (f : Fld) (i v : Nat) : s.SameJobs (s.hwSet f i v) :=
  ⟨State.hwSet_pending .., State.hwSet_id .., State.hwSet_topo .., State.hwSet_parts .., State.hwSet_cores ..⟩

theorem State.sameJobs_modHost (f : HostIf → HostIf) : s.SameJobs (s.modHost f) := ⟨rfl, rfl, rfl, rfl, rfl⟩
theorem State.sameJobs_raise (n : Nat) : s.SameJobs (s.raise n) := ⟨rfl, rfl, rfl, rfl, rfl⟩
theorem State.sameJobs_modPort (n : Nat) (f : Port → Port) : s.SameJobs (s.modPort n f) := ⟨rfl, rfl, rfl, rfl, rfl⟩
theorem State.sameJobs_setCluster (k : Nat) (v : Cluster) : s.SameJobs (s.setCluster k v) := ⟨rfl, rfl, rfl, rfl, rfl⟩
theorem State.sameJobs_modCols (q : Nat) (f : TierCol → TierCol) : s.SameJobs (s.modCols q f) := by
  refine .foldl (fun t tc => ?_) ..
  exact ⟨rfl, rfl, rfl, rfl, rfl⟩
theorem State.sameJobs_setSrv (q : Nat) (v : Serve) : s.SameJobs (s.setSrv q v) := ⟨rfl, rfl, rfl, rfl, rfl⟩
theorem State.sameJobs_setGop (q : Nat) (g : Gop) : s.SameJobs (s.setGop q g) := ⟨rfl, rfl, rfl, rfl, rfl⟩
theorem State.sameJobs_clrReg (r : RegName) (i : Nat) : s.SameJobs (s.clrReg r i) := ⟨rfl, rfl, rfl, rfl, rfl⟩
theorem State.sameJobs_ownFlit (q typ : Nat) (body : List Byte) : s.SameJobs (s.ownFlit q typ body).1 := ⟨rfl, rfl, rfl, rfl, rfl⟩

theorem State.sameJobs_landLedger (q : Nat) : s.SameJobs (s.landLedger q) := by
  have h := s.sameButMemory_landLedger q
  constructor <;> rw [h]

theorem State.sameJobs_endAct (a : Act) (st : Nat) : s.SameJobs (s.endAct a st) := by
  obtain ⟨t, ht, hend⟩ := s.endAct_form a st
  rw [hend]
  constructor <;> rw [ht] <;> rfl

/-! ## Flits and records that a reset sends -/

/-- R389: a RESET that finds no port faults nothing. -/
theorem State.sameJobs_ctrlBy {f : CtrlFlit} (hf : f.typ = 8) (q r from_ : Nat) : s.SameJobs (s.ctrlBy q r f from_) := by
  unfold State.ctrlBy
  split
  · exact s.sameJobs_modPort ..
  · rw [State.ctrlLost, if_pos hf]
    exact .refl s

theorem State.sameJobs_toChildren {f : CtrlFlit} (hf : f.typ = 8) (q o from_ : Nat) : s.SameJobs (s.toChildren q o f from_) :=
  .ite (.ite (s.sameJobs_ctrlBy (by exact hf) ..) (.refl s)) (.foldl (fun t d => t.sameJobs_ctrlBy hf ..) ..)

theorem State.sameJobs_ethSend (k typ flags : Nat) (body : List Byte) : s.SameJobs (s.ethSend k typ flags body) := by
  unfold State.ethSend State.ethOut
  extract_lets
  split <;> exact ⟨rfl, rfl, rfl, rfl, rfl⟩

theorem State.sameJobs_ringPut (r : Nat) (bs : List Byte) : s.SameJobs (s.ringPut r bs) := by
  unfold State.ringPut
  extract_lets slot put
  have hput : s.SameJobs put := .ite ⟨rfl, rfl, rfl, rfl, rfl⟩ (s.sameJobs_ethSend ..)
  exact hput.trans (State.sameJobs_setFld ..)

theorem State.sameJobs_statusRecord (q ring reqid status : Nat) : s.SameJobs (s.statusRecord q ring reqid status) :=
  .ite (.refl s) (.ite (((s.sameJobs_hwSet ..).trans (State.sameJobs_raise ..)).trans (State.sameJobs_setSrv ..)) (s.sameJobs_ringPut ..))

/-! ## The steps of a PART reset (R559) -/

theorem State.sameJobs_resetServe (q : Nat) : s.SameJobs (s.resetServe q) :=
  (State.SameJobs.foldl (fun t _ => t.sameJobs_statusRecord ..) _ s).trans ⟨rfl, rfl, rfl, rfl, rfl⟩

theorem State.sameJobs_cancelOps (q : Nat) : s.SameJobs (s.cancelOps q) :=
  (s.sameJobs_setGop ..).trans (.foldl (fun t _ => .ite (t.sameJobs_endAct ..) (.refl t)) ..)

theorem State.sameJobs_clearJ (q : Nat) : s.SameJobs (s.clearJ q) :=
  (State.SameJobs.foldl (fun t r => .foldl (fun u i => u.sameJobs_clrReg r i) _ t) _ s).trans (.foldl (fun t _ => t.sameJobs_setFld ..) ..)

/-- What a core keeps through a PART reset. -/
def Core.reset (k : Core) : Core :=
  { Core.init with arrs := k.arrs, bufs := k.bufs, bufZero := k.bufZero, bufFill := k.bufFill, ks := k.ks, sync := [] }

/-- Every core of a list takes a change that done again changes nothing. -/
theorem State.core_foldl_modCore {f : Core → Core} (hf : ∀ k, f (f k) = f k) {c : Nat} (l : List Nat) (t : State)
    (h : c ∈ l ∨ t.core c = f (t.core c)) : (l.foldl (fun u d => u.modCore d f) t).core c = f (t.core c) := by
  induction l generalizing t with
  | nil => exact h.resolve_left (by simp)
  | cons d l ih =>
    rw [List.foldl_cons]
    by_cases hc : c = d
    · subst hc
      rw [ih _ (.inr (by rw [State.core_modCore, hf])), State.core_modCore, hf]
    · have hsame : (t.modCore d f).core c = t.core c := State.core_modCore_ne t f hc
      rw [ih _ (by rw [hsame]; exact h.imp_left fun hm => (List.mem_cons.1 hm).resolve_left hc), hsame]

theorem State.stopUnits_eq (q : Nat) : s.stopUnits q =
    (((s.modPartCores q Core.reset).partClusters q).foldl (fun t k => t.setCluster k Cluster.init) (s.modPartCores q Core.reset)).modCols q
      fun c => { c with pend := [] } := rfl

/-- R559, step 2: the units of the partition stop, and its cores keep what Table 18.2 says. -/
theorem State.stopUnits_form {q c : Nat} (hc : c ∈ s.partCores q) :
    (s.stopUnits q).core c = (s.core c).reset ∧ (s.stopUnits q).parts = s.parts ∧ (s.stopUnits q).pending = s.pending
      ∧ (s.stopUnits q).id = s.id := by
  have hcores : s.modPartCores q Core.reset = { s with cores := (s.modPartCores q Core.reset).cores } := by
    refine foldl_keeps (fun t => t = { s with cores := t.cores }) _ (fun t d ht => ?_) _ s rfl
    rw [ht]
    rfl
  have hrest : (s.modPartCores q Core.reset).SameJobs (s.stopUnits q) := by
    rw [State.stopUnits_eq]
    exact (State.SameJobs.foldl (fun t k => t.sameJobs_setCluster k Cluster.init) ..).trans (State.sameJobs_modCols ..)
  refine ⟨?_, hrest.parts.trans (by rw [hcores]), hrest.pending.trans (by rw [hcores]), hrest.id.trans (by rw [hcores])⟩
  rw [State.core_of_cores hrest.cores]
  exact State.core_foldl_modCore (f := Core.reset) (fun _ => rfl) _ s (.inl hc)

/-- The fabric after a PART reset. -/
def State.orphans (s : State) (q : Nat) : State :=
  { s with fab := { s.fab with
    tags := s.fab.tags.map fun (t : Nat × Tag) => (t.1, { t.2 with req := t.2.req.map (ReqSpec.orphan q) })
    nets := s.fab.nets.map fun (n : Nat × Net) => (n.1, { n.2 with held := n.2.held.map (ReqSpec.orphan q) })
    dones := s.fab.dones.filter fun d => d.req.q != some q } }

theorem State.sameJobs_orphans (q : Nat) : s.SameJobs (s.orphans q) := ⟨rfl, rfl, rfl, rfl, rfl⟩
theorem State.sameJobs_dropSched (q : Nat) : s.SameJobs (s.dropSched q) := ⟨rfl, rfl, rfl, rfl, rfl⟩

/-- The state of a PART reset before the partition itself starts over. -/
def State.quit (s : State) (q : Nat) : State := ((((s.landLedger q).dropSched q).stopUnits q).resetServe q).cancelOps q |>.orphans q

theorem State.partReset_eq (q : Nat) : s.partReset q =
    ((s.quit q).setPart q { Part.init with mask := ((s.quit q).part q).mask, step := (s.quit q).restStep q }).clearJ q := rfl

theorem State.quit_form {q c : Nat} (hc : c ∈ s.partCores q) :
    (s.quit q).core c = (s.core c).reset ∧ (s.quit q).parts = s.parts ∧ (s.quit q).pending = s.pending ∧ (s.quit q).id = s.id := by
  have hland : s.SameJobs ((s.landLedger q).dropSched q) := (s.sameJobs_landLedger q).trans (State.sameJobs_dropSched _ q)
  obtain ⟨hcore, hparts, hpending, hid⟩ := State.stopUnits_form ((s.landLedger q).dropSched q) (q := q) (by rwa [hland.partCores])
  have hrest : (((s.landLedger q).dropSched q).stopUnits q).SameJobs (s.quit q) :=
    ((State.sameJobs_resetServe _ q).trans (State.sameJobs_cancelOps _ q)).trans (State.sameJobs_orphans _ q)
  rw [State.core_of_cores hrest.cores, hcore, State.core_of_cores hland.cores, hrest.parts, hparts, hland.parts, hrest.pending, hpending,
    hland.pending, hrest.id, hid, hland.id]
  exact ⟨rfl, rfl, rfl, rfl⟩

/-- R559: what a PART reset leaves of its partition and of a core of it. -/
theorem State.partReset_form {q c : Nat} (hc : c ∈ s.partCores q) :
    (∃ step, (s.partReset q).part q = { Part.init with mask := (s.part q).mask, step := step }) ∧ (s.partReset q).core c = (s.core c).reset
      ∧ (s.partReset q).pending = s.pending ∧ (s.partReset q).id = s.id := by
  obtain ⟨hcore, hparts, hpending, hid⟩ := s.quit_form hc
  rw [State.partReset_eq, State.part_of_parts hparts]
  have hclear := State.sameJobs_clearJ ((s.quit q).setPart q { Part.init with mask := (s.part q).mask, step := (s.quit q).restStep q }) q
  refine ⟨⟨(s.quit q).restStep q, ?_⟩, ?_, ?_, ?_⟩
  · rw [State.part_of_parts hclear.parts, State.part_setPart]
  · rw [State.core_of_cores hclear.cores, State.core_of_cores (State.setPart_cores ..), hcore]
  · rw [hclear.pending, State.setPart_pending, hpending]
  · rw [hclear.id, State.setPart_id, hid]

end

/-! ## The statement -/

/-- Settles O27: RESET sends its flit and is then `State.partReset`; a core of the partition is `Core.reset` of what it was. -/
theorem partResets : Obligations.PartResets := by
  unfold Obligations.PartResets
  intro q c s hq hop hbox hc
  have hgives : Gives (.reset q) s (s.gopReset q) := gives_gopRow hq hop hbox (op := 4) (act := fun t => t.gopReset q) (by simp [gopRows])
  have hsent : s.SameJobs ((s.ownFlit q 8 []).1.toChildren q s.node (s.ownFlit q 8 []).2) :=
    (s.sameJobs_ownFlit q 8 []).trans (State.sameJobs_toChildren _ rfl ..)
  obtain ⟨⟨step, hpart⟩, hcore, hpending, hid⟩ := State.partReset_form _ (q := q) (c := c) (by rwa [hsent.partCores])
  rw [State.part_of_parts hsent.parts] at hpart
  rw [State.core_of_cores hsent.cores] at hcore
  refine hgives.completes (hpending.trans hsent.pending) (hid.trans hsent.id) ⟨?_, ?_, ?_, List.getLast?_concat .., fun qc => ?_, ?_, ?_, ?_⟩
  · exact (congrArg Part.job hpart).trans rfl
  · exact (congrArg Part.mask hpart).trans rfl
  · exact (congrArg Part.beat hpart).trans rfl
  · exact (congrArg (Core.queue · qc) hcore).trans (by unfold Core.queue; split <;> rfl)
  · exact (congrArg Core.chans hcore).trans rfl
  · exact (congrArg Core.arrs hcore).trans rfl
  · exact (congrArg Core.bufs hcore).trans rfl

end Sys2Proof.Machine
end

section
/-! DMA descriptors (13_host_interfaces.md R437 to R441): what a channel holds after each operation, and what the others keep. -/

namespace Sys2Proof.Machine

@[simp] theorem State.dma_setDma (s : State) (c : Nat) (v : DmaCh) : (s.setDma c v).dma c = v := SMap.get_put_self ..

theorem State.dma_setDma_ne (s : State) {c j : Nat} (v : DmaCh) (h : j ≠ c) : (s.setDma c v).dma j = s.dma j := SMap.get_put_ne _ _ _ _ h

theorem State.dma_of_host {s t : State} (h : t.host = s.host) (c : Nat) : t.dma c = s.dma c := by rw [State.dma, State.dma, h]

theorem State.linkUp_of_host {s t : State} (h : t.host = s.host) (l : Nat) : t.linkUp l = s.linkUp l := by rw [State.linkUp, State.linkUp, h]

@[simp] theorem State.fld_setDma (s : State) (c : Nat) (v : DmaCh) (f : Fld) (i : Nat) : (s.setDma c v).fld f i = s.fld f i := rfl

@[simp] theorem State.setDma_occ (s : State) (c : Nat) (v : DmaCh) : (s.setDma c v).occ = s.occ := rfl

/-! ## Reads of device memory -/

theorem State.sameButMemory_readCsWord (s : State) (who : Who) (a n : Nat) : s.sameButMemory (s.readCsWord who a n).1 := by
  unfold State.readCsWord
  extract_lets c us ce ue psn bytes counted warned logged
  have hcounted : s.sameButLog counted := State.sameButLog_ite _ s.sameButLog_refl (State.sameButLog_addFld rfl ..)
  have hwarned : s.sameButLog warned := State.sameButLog_ite _ (hcounted.trans (State.sameButLog_poisonEvent ..)) hcounted
  exact (State.sameButLog_ite _ (hwarned.trans (State.sameButLog_memLog ..)) hwarned).sameButMemory

theorem State.sameButMemory_readBulk (s : State) (who : Who) (a n : Nat) : s.sameButMemory (s.readBulk who a n).1 := by
  unfold State.readBulk
  extract_lets psn r
  have hr : s.sameButMemory r.1 := State.sameButMemory_readLine ..
  exact State.sameButMemory_ite _ (hr.trans (State.sameButLog_poisonEvent ..).sameButMemory) hr

theorem State.sameButMemory_readMem (s : State) (who : Who) (a n : Nat) : s.sameButMemory (s.readMem who a n).1 := by
  unfold State.readMem
  extract_lets cs
  refine foldl_keeps (fun (x : State × List Byte × Bool) => s.sameButMemory x.1) _ (fun x u hx => hx.trans ?_) _ _ s.sameButMemory_refl
  dsimp only
  split
  · exact State.sameButMemory_readCsWord ..
  · exact State.sameButMemory_readBulk ..

theorem State.sameButMemory_passedSlot {s t : State} {tc owner : Nat} (h : s.passedSlot tc owner = some t) : s.sameButMemory t := by
  unfold State.passedSlot at h
  split at h
  · cases h
  · split at h
    · split at h
      · split at h
        · rw [← Option.some.inj h]
          exact State.sameButMemory_setCol ..
        · cases h
      · cases h
    · cases h

theorem State.sameButMemory_passedSlots {tc owner k : Nat} {s t : State} (h : s.passedSlots tc owner k = some t) : s.sameButMemory t := by
  induction k generalizing s with
  | zero => rw [← Option.some.inj h]; exact s.sameButMemory_refl
  | succ k ih =>
    obtain ⟨u, hu, ht⟩ := Option.bind_eq_some_iff.1 h
    exact (State.sameButMemory_passedSlot hu).trans (ih ht)

theorem State.sameButMemory_pieceSlots {a n : Nat} {write : Bool} {s t : State} (h : s.pieceSlots a n write = some t) : s.sameButMemory t := by
  unfold State.pieceSlots at h
  split at h
  · exact State.sameButMemory_passedSlots h
  · rw [← Option.some.inj h]
    exact s.sameButMemory_refl

theorem State.sameButMemory_dmaRead (s : State) (a n : Nat) : s.sameButMemory (s.dmaRead a n).s := by
  unfold State.dmaRead
  refine foldl_keeps (fun (x : Moving) => s.sameButMemory x.s) _ (fun x p hx => ?_) _ _ s.sameButMemory_refl
  split
  · exact hx
  · split
    next => exact hx
    next t ht => exact hx.trans ((State.sameButMemory_pieceSlots ht).trans (State.sameButMemory_readMem ..))

theorem State.sameButMemory.host {s t : State} (h : s.sameButMemory t) : t.host = s.host := by rw [h]
theorem State.sameButMemory.pending {s t : State} (h : s.sameButMemory t) : t.pending = s.pending := by rw [h]
theorem State.sameButMemory.id {s t : State} (h : s.sameButMemory t) : t.id = s.id := by rw [h]

/-! ## A descriptor is taken -/

/-- Two states differ at most in the host interface and in registers. -/
def State.sameButHost (s t : State) : Prop := t = { s with host := t.host, regs := t.regs }

theorem State.sameButHost.trans {s t u : State} (h : s.sameButHost t) (k : t.sameButHost u) : s.sameButHost u := by
  unfold State.sameButHost at *
  rw [h] at k
  exact k

theorem State.sameButHost.pending {s t : State} (h : s.sameButHost t) : t.pending = s.pending := by rw [h]
theorem State.sameButHost.id {s t : State} (h : s.sameButHost t) : t.id = s.id := by rw [h]
theorem State.sameButHost.mem {s t : State} (h : s.sameButHost t) : t.mem = s.mem := by rw [h]
theorem State.sameButHost.cores {s t : State} (h : s.sameButHost t) : t.cores = s.cores := by rw [h]

theorem State.sameButHost_modHost (s : State) (f : HostIf → HostIf) : s.sameButHost (s.modHost f) := rfl

theorem State.sameButRegs.sameButHost {s t : State} (h : s.sameButRegs t) : s.sameButHost t := by
  rw [h]
  rfl

theorem State.sameButHost_ringTake (s : State) (r : Nat) : s.sameButHost (s.ringTake r) :=
  (s.sameButHost_modHost _).trans (State.sameButRegs_setFld (f := F.HQ_RSTAT_DPOS) rfl ..).sameButHost

theorem State.linkUp_ringTake (s : State) (r l : Nat) : (s.ringTake r).linkUp l = s.linkUp l := by
  have hdpos : (s.ringTake r).host = (s.setHring r { s.hring r with slots := (s.hring r).slots.tail }).host := State.setFld_host ..
  rw [State.linkUp_of_host hdpos]
  rfl

section
variable (s : State) (c : Nat) (d : List Byte) (status : Option Nat)

theorem State.sameButHost_dmaTake : s.sameButHost (s.dmaTake c d status) := by
  unfold State.dmaTake
  extract_lets v taken hash dig started
  have htaken : s.sameButHost taken := s.sameButHost_ringTake _
  have hstarted : s.sameButHost started :=
    iteInduction (motive := s.sameButHost)
      (fun _ => htaken.trans (State.sameButRegs_setFld (f := F.HQ_DCFG_DSTATE) rfl ..).sameButHost) fun _ => htaken
  exact hstarted.trans (State.sameButHost_modHost ..)

theorem State.dmaTake_desc : ((s.dmaTake c d status).dma c).desc = some d := by rw [State.dmaTake, State.dma_setDma]
theorem State.dmaTake_status : ((s.dmaTake c d status).dma c).status = status := by rw [State.dmaTake, State.dma_setDma]
theorem State.dmaTake_moved : ((s.dmaTake c d status).dma c).moved = 0 := by rw [State.dmaTake, State.dma_setDma]

theorem State.linkUp_dmaTake (l : Nat) : (s.dmaTake c d status).linkUp l = s.linkUp l := by
  unfold State.dmaTake
  extract_lets v taken hash dig started
  have hstarted : started.host = taken.host := by
    simp only [started]
    split
    · exact State.setFld_host ..
    · rfl
  calc (started.setDma c _).linkUp l = started.linkUp l := rfl
    _ = taken.linkUp l := State.linkUp_of_host hstarted l
    _ = s.linkUp l := s.linkUp_ringTake _ l

end

/-! ## The rows of the descriptors -/

/-- A channel that starts a descriptor has none in progress. -/
theorem State.dmaAt_of_dmaHead {s : State} {c : Nat} {d : List Byte} (h : s.dmaHead c = some d) : s.dmaAt c = none := by
  unfold State.dmaHead at h
  extract_lets r o at h
  split at h
  next hc =>
    obtain ⟨-, -, -, -, -, hnone⟩ := hc
    rw [State.dmaAt, Option.isNone_iff_eq_none.1 hnone, ite_self]
  next => cases h

theorem State.dmaHead_of_dmaAt {s : State} {c : Nat} {d : List Byte} (h : s.dmaAt c = some d) : s.dmaHead c = none := by
  rcases hh : s.dmaHead c with _ | e
  · rfl
  · rw [State.dmaAt_of_dmaHead hh] at h
    cases h

section
variable {s : State} {c : Nat} {d : List Byte}

section
variable (h : s.dmaHead c = some d)
include h

theorem gives_h2d_start (hop : dOP d ≠ 2 ∧ dOP d ≠ 3) (data : List Byte) (err : Bool) : Gives (.h2d c data err) s (s.h2d c d data err) := by
  refine .of_done (?_ : execH2d c data err s = _)
  rw [execH2d, h, State.dmaAt_of_dmaHead h]
  exact if_pos hop

theorem gives_d2h_start (hop : dOP d = 2) (err : Bool) : Gives (.d2h c err) s (s.d2h c d err) := by
  refine .of_done (?_ : execD2h c err s = _)
  rw [execD2h, h, State.dmaAt_of_dmaHead h]
  exact if_pos hop

theorem gives_h2l_start (hop : dOP d = 3) (data : List Byte) (err : Bool) : Gives (.h2l c data err) s (s.h2l c d data err) := by
  refine .of_done (?_ : execH2l c data err s = _)
  rw [execH2l, h]
  exact if_pos hop

end

section
variable (h : s.dmaAt c = some d)
include h

theorem gives_h2d_on (hop : dOP d = 1) (data : List Byte) (err : Bool) :
    Gives (.h2d c data err) s (s.h2dMove c d (s.dma c).rest false) := by
  refine .of_done (?_ : execH2d c data err s = _)
  rw [execH2d, State.dmaHead_of_dmaAt h, h]
  exact if_pos hop

theorem gives_d2h_on (hop : dOP d = 2) (err : Bool) : Gives (.d2h c err) s (s.d2hMove c d err) := by
  refine .of_done (?_ : execD2h c err s = _)
  rw [execD2h, State.dmaHead_of_dmaAt h, h]
  exact if_pos hop

theorem gives_h2l_on (hop : dOP d = 3) (hrest : (s.dma c).rest ≠ []) (data : List Byte) (err : Bool) :
    Gives (.h2l c data err) s (s.h2lMore c) := by
  refine .of_done (?_ : execH2l c data err s = _)
  rw [execH2l, State.dmaHead_of_dmaAt h, h]
  exact if_pos (by simp [hop, hrest])

end

/-- A descriptor that fails its checks: whichever row takes it, it has its status and nothing else changes. -/
theorem gives_dmaRefused (h : s.dmaHead c = some d) (hbad : s.dmaCheck c d ≠ stOK) {data : List Byte} {err : Bool} {w : Instr}
    (hw : (dOP d ≠ 2 ∧ dOP d ≠ 3 ∧ w = .h2d c data err) ∨ (dOP d = 2 ∧ w = .d2h c err) ∨ (dOP d = 3 ∧ w = .h2l c data err)) :
    Gives w s (s.dmaTake c d (some (s.dmaCheck c d))) := by
  obtain ⟨h2, h3, rfl⟩ | ⟨hop, rfl⟩ | ⟨hop, rfl⟩ := hw
  · have hgives := gives_h2d_start h ⟨h2, h3⟩ data err
    rwa [State.h2d, if_pos hbad] at hgives
  · have hgives := gives_d2h_start h hop err
    rwa [State.d2h, if_pos hbad] at hgives
  · have hgives := gives_h2l_start h hop data err
    rwa [State.h2l, if_pos hbad] at hgives

end

/-! ## D2H moves its bytes -/

/-- D2H whose pieces neither wait nor meet an error: the bytes read go to the host, and the descriptor has its status. -/
theorem State.d2h_whole {s : State} {c : Nat} {d : List Byte} (hok : s.dmaCheck c d = stOK) (hup : s.linkUp 0 = true) :
    let x := (s.dmaTake c d none).dmaRead (dDEV d) (dLEN d)
    x.ue = false → x.waits = false → s.d2h c d false = (x.s.hostWrite (dHOST d) x.got).dmaMoved c stOK x.got := by
  intro x hue hwaits
  rw [State.d2h, if_neg (not_not.2 hok), State.d2hMove]
  dsimp only
  rw [State.linkUp_dmaTake, hup, State.dmaTake_moved, Nat.add_zero, Nat.sub_zero, Nat.add_zero, if_neg (by decide)]
  change (if x.waits = true then _ else _) = _
  rw [hwaits, if_neg (by decide), hue, if_neg (by decide)]

theorem State.hostMoved_keeps (s : State) (a c st : Nat) (bs : List Byte) :
    let t := (s.hostWrite a bs).dmaMoved c st bs
    t.pending = s.pending ∧ t.id = s.id ∧ t.out = s.out ++ [.host a bs] ∧ t.mem = s.mem :=
  ⟨rfl, rfl, rfl, rfl⟩

theorem State.dmaMoved_status (s : State) (c st : Nat) (bs : List Byte) : ((s.dmaMoved c st bs).dma c).status = some st := by
  rw [State.dmaMoved, State.dma_setDma]

/-! ## The digest engine -/

theorem gives_digestSlice {s : State} {k : Nat} (h : s.digNext = some k) : Gives .digestSlice s (s.digSlice k) := by
  refine .of_done (?_ : execDigestSlice s = _)
  rw [execDigestSlice, h]

theorem State.unhashed_of_digNext {s : State} {k : Nat} (h : s.digNext = some k) : (s.dma k).unhashed ≠ [] := by
  have hk := List.find?_some h
  simpa using hk

theorem State.dma_digSlice (s : State) (k : Nat) : (s.digSlice k).dma k =
    { s.dma k with dig := (s.dma k).dig.absorb ((s.dma k).unhashed.take 1024), unhashed := (s.dma k).unhashed.drop 1024 } :=
  State.dma_setDma ..

theorem State.digSlice_keeps (s : State) (k : Nat) :
    (s.digSlice k).pending = s.pending ∧ (s.digSlice k).id = s.id ∧ s.digSlice k = { s with host := (s.digSlice k).host } :=
  ⟨rfl, rfl, rfl⟩

theorem State.dma_digSlice_ne (s : State) {k j : Nat} (h : j ≠ k) : (s.digSlice k).dma j = s.dma j := State.dma_setDma_ne _ _ h

/-! ## A descriptor completes (R437) -/

theorem gives_dmaComplete {s : State} {c : Nat} {d : List Byte} {st : Nat} (hd : (s.dma c).desc = some d) (hst : (s.dma c).status = some st)
    (hhash : (s.dma c).unhashed = []) (hroom : s.cplRoom c = true) : Gives (.dmaComplete c) s (s.dmaDone c (s.dma c) d st) := by
  refine .of_done (?_ : execDmaComplete c s = _)
  rw [execDmaComplete, hd, hst]
  exact if_pos ⟨by rw [hhash]; rfl, hroom⟩

theorem State.cplRing_lt {s : State} {c : Nat} (h : s.cplRoom c = true) : s.cplRing c < 64 := by
  unfold State.cplRoom at h
  simp only [Bool.and_eq_true, State.ringOn, decide_eq_true_eq] at h
  obtain ⟨⟨⟨⟨hlt, -⟩, -⟩, -⟩, -⟩ := h
  exact hlt

theorem State.ethSend_occ (s : State) (k typ flags : Nat) (body : List Byte) : (s.ethSend k typ flags body).occ = s.occ := by
  unfold State.ethSend State.ethOut
  extract_lets
  split <;> rfl

theorem State.ethSend_regs (s : State) (k typ flags : Nat) (body : List Byte) : (s.ethSend k typ flags body).regs = s.regs := by
  unfold State.ethSend State.ethOut
  extract_lets
  split <;> rfl

theorem State.ringPut_occ (s : State) (r : Nat) (bs : List Byte) : (s.ringPut r bs).occ = s.occ := by
  unfold State.ringPut
  extract_lets slot put
  have hput : put.occ = s.occ := iteInduction (motive := fun t : State => t.occ = s.occ) (fun _ => rfl) fun _ => State.ethSend_occ ..
  exact (State.setFld_occ rfl ..).trans hput

/-- A slot put into a ring changes no register but that ring's state. -/
theorem State.fld_ringPut (s : State) {r c : Nat} (hr : r < 64) (hc : c < 64) (bs : List Byte) {f : Fld} (hf : f.reg = .HQ_DCFG) :
    (s.ringPut r bs).fld f c = s.fld f c := by
  have hps : ∀ t : State, t.regs = s.regs → t.fld f c = s.fld f c := fun t ht => by
    rw [State.fld, State.fld, hf, State.reg_plain rfl, State.reg_plain rfl, ht]
  unfold State.ringPut
  extract_lets slot put
  have hput : put.regs = s.regs := iteInduction (motive := fun t : State => t.regs = s.regs) (fun _ => rfl) fun _ => State.ethSend_regs ..
  exact (State.fld_setFld_ne (f := F.HQ_RSTAT_DPOS) rfl _ _ (by omega) (by omega) (.inl (by rw [hf]; decide))).trans (hps put hput)

theorem State.dmaDigest_free (s : State) (v : DmaCh) (d : List Byte) (st : Nat) :
    ∃ n, (s.dmaDigest v d st).1 = { s with free := n } := by
  unfold State.dmaDigest
  split_ifs
  · exact ⟨s.free, rfl⟩
  · exact ⟨s.free, rfl⟩
  · exact ⟨s.free + 1, rfl⟩

/-- The state in which a completion record has been put. -/
def State.dmaRecorded (s : State) (c : Nat) (v : DmaCh) (d : List Byte) (status : Nat) : State :=
  let g := s.dmaDigest v d status
  g.1.ringPut (s.cplRing c)
    (toBytes 1 status ++ toBytes 1 (dFLAGS d) ++ toBytes 1 c ++ toBytes 1 0 ++ toBytes 4 v.moved ++ toBytes 8 (byF d 24 8) ++ List.replicate 16 0 ++ g.2)

/-- A channel that completes: it counts the descriptor, holds none, and has or has not an open digest. -/
def State.dmaIdle (s : State) (c : Nat) (dig : HashSt) (open_ : Nat) : State :=
  ((s.setFld F.HQ_DCFG_DONE c ((s.fld F.HQ_DCFG_DONE c + 1) % 2 ^ 32)).setDma c { DmaCh.init with dig := dig }).setFld F.HQ_DCFG_DSTATE c open_

theorem State.raise_keeps (s : State) (n : Nat) :
    (s.raise n).pending = s.pending ∧ (s.raise n).id = s.id ∧ (s.raise n).host = s.host ∧ (s.raise n).occ = s.occ ++ [n] :=
  ⟨rfl, rfl, rfl, rfl⟩

theorem State.dmaDone_form (s : State) (c : Nat) (v : DmaCh) (d : List Byte) (st : Nat) : ∃ dig open_,
    s.dmaDone c v d st =
      if st = stOK then (s.dmaRecorded c v d st).dmaIdle c dig open_ else ((s.dmaRecorded c v d st).dmaIdle c dig open_).raise 322 :=
  ⟨_, _, rfl⟩

section
variable (s : State) (c : Nat) (dig : HashSt) (open_ : Nat)

theorem State.dma_dmaIdle : ((s.dmaIdle c dig open_).dma c).desc = none ∧ ((s.dmaIdle c dig open_).dma c).status = none := by
  rw [State.dmaIdle, State.dma_of_host (State.setFld_host ..), State.dma_setDma]
  exact ⟨rfl, rfl⟩

theorem State.done_dmaIdle : (s.dmaIdle c dig open_).fld F.HQ_DCFG_DONE c = (s.fld F.HQ_DCFG_DONE c + 1) % 2 ^ 32 := by
  have hlt : (s.fld F.HQ_DCFG_DONE c + 1) % 2 ^ 32 < 2 ^ 32 := Nat.mod_lt _ (by decide)
  rw [State.dmaIdle, State.fld_setFld_beside rfl rfl rfl (.inr rfl), State.fld_setDma]
  exact State.fld_setFld_of_lt (f := F.HQ_DCFG_DONE) rfl rfl s c hlt

theorem State.occ_dmaIdle : (s.dmaIdle c dig open_).occ = s.occ := by
  rw [State.dmaIdle, State.setFld_occ rfl, State.setDma_occ, State.setFld_occ rfl]

theorem State.sameJobs_dmaIdle : s.SameJobs (s.dmaIdle c dig open_) :=
  ((s.sameJobs_setFld ..).trans (State.sameJobs_modHost ..)).trans (State.sameJobs_setFld ..)

end

theorem State.sameJobs_dmaRecorded (s : State) (c : Nat) (v : DmaCh) (d : List Byte) (st : Nat) : s.SameJobs (s.dmaRecorded c v d st) := by
  obtain ⟨n, hn⟩ := s.dmaDigest_free v d st
  have hdig : s.SameJobs (s.dmaDigest v d st).1 := by
    rw [hn]
    exact ⟨rfl, rfl, rfl, rfl, rfl⟩
  exact hdig.trans (State.sameJobs_ringPut ..)

theorem State.occ_dmaRecorded (s : State) (c : Nat) (v : DmaCh) (d : List Byte) (st : Nat) : (s.dmaRecorded c v d st).occ = s.occ := by
  obtain ⟨n, hn⟩ := s.dmaDigest_free v d st
  rw [State.dmaRecorded, State.ringPut_occ, hn]

theorem State.done_dmaRecorded {s : State} {c : Nat} (hr : s.cplRing c < 64) (hc : c < 64) (v : DmaCh) (d : List Byte) (st : Nat) :
    (s.dmaRecorded c v d st).fld F.HQ_DCFG_DONE c = s.fld F.HQ_DCFG_DONE c := by
  obtain ⟨n, hn⟩ := s.dmaDigest_free v d st
  rw [State.dmaRecorded, State.fld_ringPut _ hr hc _ rfl, hn]
  exact State.fld_congr rfl rfl rfl ..

/-- Settles O48: a descriptor is taken, moved, digested and completed by the rows of its channel. -/
theorem dmaRuns : Obligations.DmaRuns := by
  unfold Obligations.DmaRuns
  intro c data err s
  refine ⟨fun d hd => ⟨fun hbad w hw => ?refused, fun hop => ?h2d, (gives_d2h_start hd · err), (gives_h2l_start hd · data err),
      fun hop hok herr hup => ?moved⟩,
    fun d hd => ⟨(gives_h2d_on hd · data err), (gives_d2h_on hd · err), (gives_h2l_on hd · · data err)⟩, fun k hk => ?digest,
    fun d st hd hst hhash hroom hc => ?done⟩
  case refused =>
    have hframe := s.sameButHost_dmaTake c d (some (s.dmaCheck c d))
    exact (gives_dmaRefused hd hbad hw).completes hframe.pending hframe.id
      ⟨State.dmaTake_desc .., State.dmaTake_status .., State.dmaTake_moved .., hframe.mem, hframe.cores, hframe⟩
  case h2d => exact gives_h2d_start hd (by omega) data err
  case moved =>
    intro x hue hwaits
    have hgives := gives_d2h_start hd hop err
    rw [herr, State.d2h_whole hok hup hue hwaits] at hgives
    rw [herr]
    have hframe := s.sameButHost_dmaTake c d none
    have hread : (s.dmaTake c d none).sameButMemory x.s := State.sameButMemory_dmaRead ..
    obtain ⟨hpend, hid, hout, hmem⟩ := x.s.hostMoved_keeps (dHOST d + 0) c stOK x.got
    exact hgives.completes (hpend.trans (hread.pending.trans hframe.pending)) (hid.trans (hread.id.trans hframe.id))
      ⟨hout, State.dmaMoved_status .., hmem⟩
  case digest =>
    obtain ⟨hpend, hid, hframe⟩ := s.digSlice_keeps k
    refine (gives_digestSlice hk).completes hpend hid ⟨State.unhashed_of_digNext hk, ?_, ?_, fun j hj => s.dma_digSlice_ne hj, hframe⟩
    · rw [State.dma_digSlice]
    · rw [State.dma_digSlice]
  case done =>
    have hgives := gives_dmaComplete hd hst hhash hroom
    obtain ⟨dig, open_, hform⟩ := s.dmaDone_form c (s.dma c) d st
    rw [hform] at hgives
    have hkeeps := (s.sameJobs_dmaRecorded c (s.dma c) d st).trans (State.sameJobs_dmaIdle _ c dig open_)
    obtain ⟨hdesc, hstatus⟩ := (s.dmaRecorded c (s.dma c) d st).dma_dmaIdle c dig open_
    have hdone := (State.done_dmaIdle _ c dig open_).trans
      (congrArg (fun n => (n + 1) % 2 ^ 32) (State.done_dmaRecorded (State.cplRing_lt hroom) hc (s.dma c) d st))
    have hocc := (State.occ_dmaIdle _ c dig open_).trans (s.occ_dmaRecorded c (s.dma c) d st)
    by_cases hok : st = stOK
    · rw [if_pos hok] at hgives ⊢
      exact hgives.completes hkeeps.pending hkeeps.id ⟨hdesc, hstatus, hdone, by rw [hocc, List.append_nil]⟩
    · rw [if_neg hok] at hgives ⊢
      have hraise := State.raise_keeps ((s.dmaRecorded c (s.dma c) d st).dmaIdle c dig open_) 322
      obtain ⟨hpend, hid, hhost, hraised⟩ := hraise
      refine hgives.completes (hpend.trans hkeeps.pending) (hid.trans hkeeps.id) ⟨?_, ?_, (State.fld_raise ..).trans hdone, ?_⟩
      · rw [State.dma_of_host hhost, hdesc]
      · rw [State.dma_of_host hhost, hstatus]
      · rw [hraised, hocc]

end Sys2Proof.Machine
end

section
/-! The rows of the mailbox commands (17_mailbox.md R536 to R538, R541): every row is `State.mboxRow` of its command. -/

namespace Sys2Proof.Machine

theorem State.sameButRegs.besideMbox {s t : State} {f : Mbox → Mbox} (h : (s.modMbox f).sameButRegs t) :
    t = { s with mbox := t.mbox, regs := t.regs } := by
  rw [h]
  rfl

/-- The server takes a request: it stands alone as the one served, and channel 0 shows it. -/
theorem State.mboxTake_form (s : State) (ch : Nat) :
    let t := s.mboxTake ch
    t.mbox.busy = some ch ∧ t.mbox.posted = s.mbox.posted.tail ∧ (ch = 0 → t.fld F.MBOX_STAT_STATE 0 = 2)
    ∧ t = { s with mbox := t.mbox, regs := t.regs } := by
  intro t
  simp only [t, State.mboxTake]
  split
  next h0 =>
    refine ⟨by rw [State.setFld_mbox, State.setFld_mbox, h0]; rfl, by rw [State.setFld_mbox, State.setFld_mbox]; rfl, fun _ => ?_, ?_⟩
    · rw [State.fld_setFld_beside rfl rfl rfl (.inr rfl)]
      exact State.fld_setFld rfl rfl ..
    · exact ((State.sameButRegs_setFld rfl ..).trans (State.sameButRegs_setFld rfl ..)).besideMbox
  next h0 => exact ⟨rfl, rfl, fun h => absurd h h0, rfl⟩

section
variable {code : Nat} {row : Phase → Instr} {serve : State → Nat → List Byte → Ans} {s : State}
  (hrow : ∀ ph, Gives (row ph) s (s.mboxRow ph code serve))
include hrow

theorem gives_mboxTake {ch : Nat} (hnext : s.mboxNext = some ch) (htakes : rowTakes code (s.mboxReq ch) = true) :
    Gives (row .take) s (s.mboxTake ch) := by
  have h := hrow .take
  simpa only [State.mboxRow, hnext, if_pos htakes] using h

theorem exec_mboxTake_none (hnext : s.mboxNext = none) : exec (row .take) s = .next s := by
  have h := hrow .take
  rwa [State.mboxRow, hnext] at h

theorem exec_mboxServe_none (hbusy : s.mbox.busy = none) : exec (row .serve) s = .next s := by
  have h := hrow .serve
  rwa [State.mboxRow, hbusy] at h

theorem gives_mboxServe {ch : Nat} (hbusy : s.mbox.busy = some ch) (htakes : rowTakes code (s.mboxReq ch) = true) (hawake : s.asleep = false) :
    Gives (row .serve) s (s.mboxServe ch serve) := by
  have h := hrow .serve
  have hserves : rowTakes code (s.mboxReq ch) = true ∧ (!s.asleep) = true := ⟨htakes, by rw [hawake]; rfl⟩
  simpa only [State.mboxRow, hbusy, if_pos hserves] using h

end

/-- A request that fails a check of R538 is answered with that status. -/
theorem State.mboxServe_refused {s : State} {ch st d : Nat} (h : s.mboxCheck ch (s.mboxReq ch) = some (st, d))
    (serve : State → Nat → List Byte → Ans) : s.mboxServe ch serve = s.respond ch st d [] := by
  rw [State.mboxServe, h]

/-- Settles O52: each row of the table is the mailbox row of its command. -/
theorem mailboxRows : Obligations.MailboxRows := by
  unfold Obligations.MailboxRows
  intro code row serve s hmem
  have hrow : ∀ ph, Gives (row ph) s (s.mboxRow ph code serve) := by
    intro ph
    repeat
      rcases List.mem_cons.1 hmem with e | hmem
      · cases e
        rfl
    cases hmem
  refine ⟨fun ch hnext htakes => ?take, exec_mboxTake_none hrow, exec_mboxServe_none hrow, fun ch hbusy htakes hawake => ?serve⟩
  case take =>
    obtain ⟨hbusy, hposted, hstate, hframe⟩ := s.mboxTake_form ch
    exact (gives_mboxTake hrow hnext htakes).completes (by rw [hframe]) (by rw [hframe]) ⟨hbusy, hposted, hstate, hframe⟩
  case serve =>
    have hgives := gives_mboxServe hrow hbusy htakes hawake
    refine ⟨hgives, fun st d hcheck => ?_⟩
    rwa [State.mboxServe_refused hcheck] at hgives

end Sys2Proof.Machine
end

section
/-! The state right after reset (18_resets_faults_maintenance.md R555, R561). -/

namespace Sys2Proof.Machine

theorem SMap.get_of_unlisted {α : Type} {d : α} {m : SMap α} {k : Nat} (h : ∀ e ∈ m, e.1 ≠ k) : SMap.get d m k = d := by
  induction m with
  | nil => rfl
  | cons e r ih =>
    obtain ⟨he, hr⟩ := List.forall_mem_cons.1 h
    rw [SMap.get, if_neg he, ih hr]

/-- The registers listed at reset are those whose default is of the part. -/
theorem resetRegs_names : ∀ e ∈ resetRegs, e.1 / 2 ^ 24 ∈ [RegName.PORT_CTL.num, RegName.ROUTE_ROLE.num, RegName.ROOT_RESET.num] := by
  decide +kernel

theorem regKey_div {r : RegName} {i : Nat} (h : i < 2 ^ 24) : regKey r i / 2 ^ 24 = r.num := by
  rw [regKey]
  omega

theorem State.reg_reset {r : RegName} {i : Nat} (hi : i < 2 ^ 24) (hps : psReg r = none) (hport : r ≠ .PORT_CTL) (hrole : r ≠ .ROUTE_ROLE)
    (hroot : r ≠ .ROOT_RESET) : State.reset.reg r i = r.dflt := by
  rw [State.reg_plain hps]
  refine SMap.get_of_unlisted fun e he hkey => ?_
  have hname := resetRegs_names e he
  rw [hkey, regKey_div hi] at hname
  simp only [List.mem_cons, List.not_mem_nil, or_false] at hname
  obtain h | h | h := hname
  · exact hport (RegName.num_inj h)
  · exact hrole (RegName.num_inj h)
  · exact hroot (RegName.num_inj h)

/-- Settles O58: the state of reset lists no register but those of the part, and nothing else. -/
theorem resetLeaves : Obligations.ResetLeaves := by
  unfold Obligations.ResetLeaves
  refine ⟨fun r i hi hps hport hrole hroot => State.reg_reset hi hps hport hrole hroot, ?_, ?_, ?_, ?_, ?_, ?_, rfl, rfl, fun q => rfl, rfl, rfl⟩
  all_goals decide +kernel

end Sys2Proof.Machine
end

section
/-! PART_SET (17_mailbox.md R545): what an answer of the server keeps, and the partition that takes its clusters. -/

namespace Sys2Proof.Machine

/-- What an answer of the mailbox server keeps of the part. -/
structure State.AnswerKeeps (s t : State) : Prop where
  pending : t.pending = s.pending
  id : t.id = s.id
  parts : t.parts = s.parts
  cores : t.cores = s.cores
  mem : t.mem = s.mem

section
variable {s t u : State}

theorem State.AnswerKeeps.refl (s : State) : s.AnswerKeeps s := ⟨rfl, rfl, rfl, rfl, rfl⟩

theorem State.AnswerKeeps.trans (h : s.AnswerKeeps t) (k : t.AnswerKeeps u) : s.AnswerKeeps u :=
  ⟨k.pending.trans h.pending, k.id.trans h.id, k.parts.trans h.parts, k.cores.trans h.cores, k.mem.trans h.mem⟩

theorem State.AnswerKeeps.ite {p : Prop} [Decidable p] (ht : s.AnswerKeeps t) (hu : s.AnswerKeeps u) : s.AnswerKeeps (if p then t else u) :=
  iteInduction (motive := fun v => s.AnswerKeeps v) (fun _ => ht) fun _ => hu

end

section
variable (s : State)

theorem State.answerKeeps_setReg (r : RegName) (i : Nat) (w : Word) : s.AnswerKeeps (s.setReg r i w) :=
  ⟨State.setReg_pending .., State.setReg_id .., State.setReg_parts .., State.setReg_cores .., State.setReg_mem ..⟩

theorem State.answerKeeps_setFld (f : Fld) (i v : Nat) : s.AnswerKeeps (s.setFld f i v) := s.answerKeeps_setReg ..
theorem State.answerKeeps_addFld (f : Fld) (i k : Nat) : s.AnswerKeeps (s.addFld f i k) :=
  ⟨State.addFld_pending .., State.addFld_id .., State.addFld_parts .., State.addFld_cores .., State.addFld_mem ..⟩
theorem State.answerKeeps_raise (n : Nat) : s.AnswerKeeps (s.raise n) := ⟨rfl, rfl, rfl, rfl, rfl⟩
theorem State.answerKeeps_modMbox (f : Mbox → Mbox) : s.AnswerKeeps (s.modMbox f) := ⟨rfl, rfl, rfl, rfl, rfl⟩
theorem State.answerKeeps_modPort (n : Nat) (f : Port → Port) : s.AnswerKeeps (s.modPort n f) := ⟨rfl, rfl, rfl, rfl, rfl⟩

theorem State.answerKeeps_noRoute : s.AnswerKeeps s.noRoute := by
  have h : s.sameButLog s.noRoute := State.sameButLog_fabDisc rfl s
  constructor <;> rw [h]

theorem State.answerKeeps_sendFrame (f : Frame) : s.AnswerKeeps (s.sendFrame f) := by
  unfold State.sendFrame
  split
  · exact ⟨rfl, rfl, rfl, rfl, rfl⟩
  · exact s.answerKeeps_noRoute
  · exact .ite ((s.answerKeeps_addFld ..).trans (State.answerKeeps_raise ..)) (s.answerKeeps_modPort ..)

theorem State.answerKeeps_respond0 (f : List Byte) : s.AnswerKeeps (s.respond0 f) := by
  have hfold := foldl_keeps (fun t => s.AnswerKeeps t) (fun (t : State) i => t.setReg .MBOX_RSP i (BitVec.ofNat 64 (byF f (8 * i) 8)))
    (fun t i h => h.trans (t.answerKeeps_setReg ..)) (List.range 512) s (.refl s)
  exact (hfold.trans (State.answerKeeps_setFld ..)).trans (State.answerKeeps_raise ..)

/-- The channel's own part of an answer: registers, a message to management, or a frame. -/
theorem State.respond_form (ch status detail : Nat) (res : List Byte) :
    ∃ t, s.AnswerKeeps t ∧ s.respond ch status detail res = t.modMbox fun m => { m with busy := none } := by
  unfold State.respond
  extract_lets f t
  refine ⟨t, ?_, rfl⟩
  simp only [t]
  split
  · exact s.answerKeeps_respond0 f
  · split
    · exact ⟨rfl, rfl, rfl, rfl, rfl⟩
    · exact .refl s
  · split
    · exact (s.answerKeeps_modMbox _).trans (State.answerKeeps_sendFrame ..)
    · exact .refl s

theorem State.answerKeeps_respond (ch status detail : Nat) (res : List Byte) :
    s.AnswerKeeps (s.respond ch status detail res) ∧ (s.respond ch status detail res).mbox.busy = none := by
  obtain ⟨t, hkeeps, hform⟩ := s.respond_form ch status detail res
  rw [hform]
  exact ⟨hkeeps.trans (t.answerKeeps_modMbox _), rfl⟩

end

/-- A partition takes the clusters of a mask. -/
def State.partTakes (s : State) (q mask : Nat) : State := s.modPart q fun p => { p with mask := mask, step := s.newStep q mask }

section
variable {s : State} {ch : Nat} {b : List Byte} (hq : mqArg b 0 1 ≤ 7)
include hq

theorem servePartSet_taken (h : s.partSetStatus (mqArg b 0 1) (mqArg b 8 8) = stOK) :
    servePartSet s ch b = (s.partTakes (mqArg b 0 1) (mqArg b 8 8), stOK, 0, []) := by
  simp only [servePartSet, withQ, if_neg (Nat.not_lt.2 hq), h, if_true]
  rfl

theorem servePartSet_refused (h : s.partSetStatus (mqArg b 0 1) (mqArg b 8 8) ≠ stOK) :
    ∃ detail, servePartSet s ch b = (s, s.partSetStatus (mqArg b 0 1) (mqArg b 8 8), detail, []) := by
  simp only [servePartSet, withQ, if_neg (Nat.not_lt.2 hq), if_neg h, ansWith]
  exact ⟨_, rfl⟩

end

/-- A request that passes the checks of R538, whose command ends no standby write and leaves the request to be answered. -/
theorem State.mboxServe_answered {s u : State} {ch st detail : Nat} {res : List Byte} {serve : State → Nat → List Byte → Ans}
    (hcheck : s.mboxCheck ch (s.mboxReq ch) = none) (hkeeps : keepsStandby (mqCmd (s.mboxReq ch)) = true)
    (hserve : serve s ch (s.mboxReq ch) = (u, st, detail, res)) (hbusy : u.mbox.busy = some ch) :
    s.mboxServe ch serve = u.respond ch st detail res := by
  rw [State.mboxServe, hcheck]
  dsimp only
  rw [if_pos hkeeps, hserve]
  dsimp only
  rw [hbusy]
  rfl

/-- Settles O53: the server answers PART_SET, and where its status is OK the partition has the clusters of the mask. -/
theorem partitionsSet : Obligations.PartitionsSet := by
  unfold Obligations.PartitionsSet
  intro ch s hbusy hawake b q mask hcmd hcheck hq
  have hrow : ∀ ph, Gives (.partSet ph) s (s.mboxRow ph 0x200 servePartSet) := fun _ => rfl
  have htakes : rowTakes 0x200 b = true := by rw [rowTakes, hcmd]; rfl
  have hstandby : keepsStandby (mqCmd b) = true := by rw [hcmd]; rfl
  have hgives := gives_mboxServe hrow hbusy htakes hawake
  refine ⟨fun hok => ?taken, fun hbad => ?refused⟩
  case taken =>
    rw [State.mboxServe_answered hcheck hstandby (servePartSet_taken hq hok) hbusy] at hgives
    obtain ⟨hkeeps, hidle⟩ := (s.partTakes q mask).answerKeeps_respond ch stOK 0 []
    refine hgives.completes hkeeps.pending hkeeps.id ⟨?_, ?_, fun p hp => ?_, hidle, hkeeps.mem, hkeeps.cores⟩
    · rw [State.part_of_parts hkeeps.parts, State.partTakes, State.part_modPart]
    · rw [State.part_of_parts hkeeps.parts, State.partTakes, State.part_modPart]
    · rw [State.part_of_parts hkeeps.parts, State.partTakes, State.part_modPart_ne _ _ hp]
  case refused =>
    obtain ⟨detail, hserve⟩ := servePartSet_refused (ch := ch) hq hbad
    rw [State.mboxServe_answered hcheck hstandby hserve hbusy] at hgives
    obtain ⟨hkeeps, hidle⟩ := s.answerKeeps_respond ch (s.partSetStatus q mask) detail []
    exact hgives.completes hkeeps.pending hkeeps.id ⟨hkeeps.parts, hidle, hkeeps.mem, hkeeps.cores⟩

end Sys2Proof.Machine
end

section
/-! Start attempts, fetches and verifications (16_boot_firmware.md R509 to R512, R517, R520). -/

namespace Sys2Proof.Machine

/-! ## The boot record and its copies (R511, R532) -/

/-- Two states differ at most in registers, in persistent words and their queue, and in the occurrences. -/
def State.sameButPs (s t : State) : Prop := t = { s with regs := t.regs, ps := t.ps, psQ := t.psQ, occ := t.occ }

theorem State.sameButPs.trans {s t u : State} (h : s.sameButPs t) (k : t.sameButPs u) : s.sameButPs u := by
  unfold State.sameButPs at *
  rw [h] at k
  exact k

theorem State.sameButPs.pending {s t : State} (h : s.sameButPs t) : t.pending = s.pending := by rw [h]
theorem State.sameButPs.id {s t : State} (h : s.sameButPs t) : t.id = s.id := by rw [h]

theorem State.sameButPs_psSet (s : State) (w v : Nat) : s.sameButPs (s.psSet w v) := by
  obtain ⟨_, _, _, _, hform⟩ := State.psSet_form s w v
  unfold State.sameButPs
  rw [hform]

theorem State.sameButPs_setFld {f : Fld} (h : psReg f.reg = none) (s : State) (i v : Nat) : s.sameButPs (s.setFld f i v) := by
  unfold State.sameButPs
  rw [State.setFld, State.setReg_plain h]

theorem State.sameButPs_raise (s : State) (n : Nat) : s.sameButPs (s.raise n) := rfl

theorem State.fld_setPlain_reg {f g : Fld} (hg : psReg g.reg = none) (hne : g.reg ≠ f.reg) (s : State) (v : Nat) :
    (s.setPlain f v).fld g 0 = s.fld g 0 := by
  rw [State.fld, State.fld, State.reg_plain hg, State.reg_plain hg]
  refine congrArg g.get (SMap.get_put_ne _ _ _ _ fun e => hne ?_)
  exact (regKey_inj (by decide) (by decide) e).1

/-- A persistent write leaves the registers as they read, but for its own status. -/
theorem State.fld_psSet {g : Fld} (hg : psReg g.reg = none) (hne : g.reg ≠ .PS_STAT) (s : State) (w v : Nat) :
    (s.psSet w v).fld g 0 = s.fld g 0 := by
  have hocc : ∀ (t : State) l, State.fld { t with occ := l } g 0 = t.fld g 0 := fun t l => State.fld_congr rfl rfl rfl ..
  by_cases hsame : v % 2 ^ 32 = s.psWord w
  · rw [State.psSet, if_pos hsame]
  · by_cases hworn : psLimit ≤ SMap.get 0 s.psCount w + s.psWaiting w
    · rw [State.psSet, if_neg hsame, if_pos hworn]
      dsimp only
      rw [hocc, State.fld_setPlain_reg hg hne, State.fld_setPlain_reg hg hne]
    · rw [State.psSet, if_neg hsame, if_neg hworn, State.fld_setPlain_reg hg hne, State.fld, State.fld, State.reg_plain hg,
        State.reg_plain hg]

theorem State.sameButPs_setFail (s : State) (n : Nat) : s.sameButPs (s.setFail n) :=
  (s.sameButPs_psSet ..).trans (State.sameButPs_setFld rfl ..)

theorem State.sameButPs_setStage (s : State) (st : Nat) : s.sameButPs (s.setStage st) :=
  (State.sameButPs_setFld (f := F.ROOT_BOOT_STAGE) rfl s 0 st).trans (State.sameButPs_psSet ..)

theorem State.fld_setRec {g : Fld} (hg : psReg g.reg = none) (hne : g.reg ≠ .PS_STAT) (s : State) (hi lo v : Nat) :
    (s.setRec hi lo v).fld g 0 = s.fld g 0 := State.fld_psSet hg hne ..

/-! ## BOOT_OK (R512, R521) -/

theorem gives_bootOk {s : State} (h5 : s.fld F.ROOT_BOOT_STAGE 0 = 5) (h0 : s.mcState 0 = 3) (h1 : s.mcState 1 = 3) :
    Gives .bootOk s s.bootOk := .of_done (if_pos ⟨h5, h0, h1⟩)

theorem State.bootOk_form (s : State) :
    s.bootOk.fld F.ROOT_BOOT_BOOT_OK 0 = 1 ∧ s.bootOk.fld F.ROOT_BOOT_STAGE 0 = 6 ∧ s.bootOk.fld F.ROOT_BOOT_FAILCNT 0 = 0
    ∧ s.bootOk.occ.getLast? = some 5 ∧ s.sameButPs s.bootOk := by
  have hstage : ((s.setFail 0).setStage 6).fld F.ROOT_BOOT_STAGE 0 = 6 := by
    rw [State.setStage, State.fld_setRec rfl (by decide)]
    exact State.fld_setFld rfl rfl ..
  have hfail : ((s.setFail 0).setStage 6).fld F.ROOT_BOOT_FAILCNT 0 = 0 := by
    rw [State.setStage, State.fld_setRec rfl (by decide), State.fld_setFld_beside rfl rfl rfl (.inr rfl), State.setFail]
    exact State.fld_setFld rfl rfl ..
  refine ⟨?_, ?_, ?_, List.getLast?_concat, ?_⟩
  · rw [State.bootOk, State.fld_raise]
    exact State.fld_setFld rfl rfl ..
  · rw [State.bootOk, State.fld_raise, State.fld_setFld_beside rfl rfl rfl (.inr rfl), hstage]
  · rw [State.bootOk, State.fld_raise, State.fld_setFld_beside rfl rfl rfl (.inr rfl), hfail]
  · exact ((((s.sameButPs_setFail 0).trans (State.sameButPs_setStage ..)).trans (State.sameButPs_setFld rfl ..)).trans
      (State.sameButPs_raise ..))

/-! ## The fetch protocol (R520) -/

@[simp] theorem State.fwFetch_setFetch (s : State) (i : Nat) (f : Option Fetch) : (s.setFetch i f).fwFetch i = f := SMap.get_put_self ..

/-- Two states differ at most in boot and in what was sent. -/
def State.sameButFetch (s t : State) : Prop := t = { s with boot := t.boot, out := t.out }

theorem State.sameButFetch_refl (s : State) : s.sameButFetch s := rfl

theorem State.sameButFetch.trans {s t u : State} (h : s.sameButFetch t) (k : t.sameButFetch u) : s.sameButFetch u := by
  unfold State.sameButFetch at *
  rw [h] at k
  exact k

theorem State.sameButFetch.pending {s t : State} (h : s.sameButFetch t) : t.pending = s.pending := by rw [h]
theorem State.sameButFetch.id {s t : State} (h : s.sameButFetch t) : t.id = s.id := by rw [h]
theorem State.sameButFetch.refNs {s t : State} (h : s.sameButFetch t) : t.refNs = s.refNs := by rw [h]

theorem State.sameButFetch_setFetch (s : State) (i : Nat) (f : Option Fetch) : s.sameButFetch (s.setFetch i f) := rfl
theorem State.sameButFetch_fetchMsg (s : State) (to_ typ xid off : Nat) (body : List Byte) : s.sameButFetch (s.fetchMsg to_ typ xid off body) := rfl

theorem State.sameButFetch_sendRead (s : State) (f : Fetch) (b : Nat) : s.sameButFetch (s.sendRead f b) := by
  unfold State.sendRead
  split
  · exact s.sameButFetch_fetchMsg ..
  · exact s.sameButFetch_refl

theorem State.sameButFetch_foldl {α : Type} {f : State → α → State} (hf : ∀ (t : State) a, t.sameButFetch (f t a)) (l : List α) (s : State) :
    s.sameButFetch (l.foldl f s) :=
  foldl_keeps (fun t => s.sameButFetch t) f (fun t a h => h.trans (hf t a)) l s s.sameButFetch_refl

theorem gives_solicit {s : State} {i : Nat} {f : Fetch} (h : (s.fetchList.find? fun x => s.solicitDue x.2) = some (i, f))
    (hup : s.linkUp 3 = true) : Gives .solicit s (s.sendSolicit i f) := by
  refine .of_done (?_ : execSolicit s = _)
  rw [execSolicit, h]
  exact if_pos hup

theorem State.sameButFetch_sendSolicit (s : State) (i : Nat) (f : Fetch) : s.sameButFetch (s.sendSolicit i f) :=
  (s.sameButFetch_fetchMsg ..).trans (State.sameButFetch_setFetch ..)

theorem State.sendSolicit_form (s : State) (i : Nat) (f : Fetch) :
    (s.sendSolicit i f).fwFetch i = some { f with solicit := some s.refNs } ∧ (s.sendSolicit i f).out.length = s.out.length + 1 :=
  ⟨State.fwFetch_setFetch .., List.length_append⟩

theorem gives_offer {s : State} {srv xid size i : Nat} {f : Fetch} (h : s.fetchOf xid = some (i, f)) (hnone : f.offer = none) (hgot : f.got = [])
    (hlo : 704 ≤ size) (hhi : size ≤ 8388608) (hup : s.linkUp 3 = true) : Gives (.offer srv xid size) s (s.takeOffer i srv size f) := by
  refine .of_done (?_ : execOffer srv xid size s = _)
  rw [execOffer, h]
  exact if_pos ⟨by rw [hnone]; rfl, by rw [hgot]; rfl, hlo, hhi, hup⟩

theorem State.readAhead_form (s : State) (i : Nat) (f : Fetch) :
    ((s.readAhead i f).fwFetch i).map (·.offer) = some f.offer ∧ s.sameButFetch (s.readAhead i f) := by
  unfold State.readAhead
  split
  next h => exact ⟨by rw [State.fwFetch_setFetch, Option.map_some, h], s.sameButFetch_setFetch ..⟩
  next h =>
    refine ⟨by rw [State.fwFetch_setFetch, Option.map_some], ?_⟩
    exact (State.sameButFetch_foldl (fun t b => t.sameButFetch_sendRead f b) ..).trans (State.sameButFetch_setFetch ..)

theorem State.takeOffer_form (s : State) (i srv size : Nat) (f : Fetch) :
    ((s.takeOffer i srv size f).fwFetch i).map (·.offer) = some (some (srv, size)) ∧ s.sameButFetch (s.takeOffer i srv size f) :=
  s.readAhead_form i { f with offer := some (srv, size), heard := s.refNs }

theorem gives_data {s : State} {xid b i srv size : Nat} {f : Fetch} {data : List Byte} (h : s.fetchOf xid = some (i, f))
    (hoffer : f.offer = some (srv, size)) (hread : (f.reads.any fun r => r.1 == b) = true) (hlen : data.length = blockBytes size b)
    (hup : s.linkUp 3 = true) : Gives (.data xid (1024 * b) data) s (s.takeData i size b f data) := by
  have hb : 1024 * b / 1024 = b := Nat.mul_div_cancel_left b (by decide)
  refine .of_done (?_ : execData xid (1024 * b) data s = _)
  rw [execData, h]
  dsimp only
  rw [hoffer]
  dsimp only
  rw [hb]
  exact if_pos ⟨Nat.mul_mod_right .., hread, hlen, hup⟩

theorem gives_readResend {s : State} {i : Nat} {f : Fetch} (h : (s.fetchList.find? fun x => !(s.readsLate x.2).isEmpty) = some (i, f)) :
    Gives .readResend s (s.resendReads i f) := by
  refine .of_done (?_ : execReadResend s = _)
  rw [execReadResend, h]

/-- Reads that were sent again now are late no more. -/
theorem State.readsLate_resent (s : State) (f : Fetch) :
    s.readsLate { f with reads := f.reads.map fun r => if (s.readsLate f).contains r then (r.1, s.refNs) else r } = [] := by
  refine List.filter_eq_nil_iff.2 fun e he hlate => ?_
  obtain ⟨r, hr, rfl⟩ := List.mem_map.1 he
  simp only [decide_eq_true_eq] at hlate
  split at hlate
  next => omega
  next hkept =>
    refine hkept (List.contains_iff_mem.2 (List.mem_filter.2 ⟨hr, ?_⟩))
    exact decide_eq_true hlate

theorem State.resendReads_form (s : State) (i : Nat) (f : Fetch) :
    ((s.resendReads i f).fwFetch i).map (fun g => s.readsLate g) = some [] ∧ s.sameButFetch (s.resendReads i f) := by
  unfold State.resendReads
  extract_lets l sent
  have hsent : s.sameButFetch sent := State.sameButFetch_foldl (fun t (r : Nat × Nat) => t.sameButFetch_sendRead f r.1) ..
  refine ⟨?_, hsent.trans (State.sameButFetch_setFetch ..)⟩
  rw [State.fwFetch_setFetch, Option.map_some, hsent.refNs]
  exact congrArg some (s.readsLate_resent f)

theorem gives_serverLost {s : State} {i : Nat} {f : Fetch} (h : (s.fetchList.find? fun x => s.serverGone x.2) = some (i, f)) :
    Gives .serverLost s (s.refetch i f) := by
  refine .of_done (?_ : execServerLost s = _)
  rw [execServerLost, h]

theorem State.refetch_form (s : State) (i : Nat) (f : Fetch) :
    let t := s.refetch i f
    (t.fwFetch i).map (fun g => (g.offer, g.reads, g.got)) = some (none, [], []) ∧ t.free = s.free + 1 ∧ t.pending = s.pending ∧ t.id = s.id
    ∧ t = { s with boot := t.boot, free := t.free } := by
  refine ⟨?_, rfl, rfl, rfl, rfl⟩
  rw [State.refetch, State.fwFetch_setFetch]
  rfl

/-! ## The rows of attempts and verifications -/

theorem gives_startAttempt {s : State} {c : Nat} (hdue : s.boot.due = some c) (hheld : s.pins.held = false) :
    Gives (.startAttempt c) s (s.attempt c) := .of_done (if_pos ⟨hdue, hheld⟩)

theorem exec_startAttempt_idle {s : State} {c : Nat} (h : s.boot.due ≠ some c ∨ s.pins.held = true) : exec (.startAttempt c) s = .next s := by
  refine if_neg fun hboth => ?_
  obtain ⟨hdue, hheld⟩ := hboth
  rcases h with hother | hin
  · exact hother hdue
  · rw [hin] at hheld
    cases hheld

theorem gives_stageOverrun {s : State} {r : Nat} (h : s.overrun = some r) : Gives .stageOverrun s (s.failAttempt r) := by
  refine .of_done (?_ : execStageOverrun s = _)
  rw [execStageOverrun, h]

theorem gives_imageVerified {s : State} {k j : Nat} {a : Asker} (h : (s.boot.verifs.find? fun v => v.1 == k) = some (j, a)) :
    Gives (.imageVerified k) s (s.endVerify j a) := by
  refine .of_done (?_ : execImageVerified k s = _)
  rw [execImageVerified, h]

/-- A slot whose verification ends is VALID or INVALID. -/
theorem State.slotState_slotVerified (s : State) (k r : Nat) : (s.slotVerified k r).slotState k = if r = 0 then 2 else 3 := by
  have hlt : (if r = 0 then 2 else 3) < 2 ^ 2 := by split_ifs <;> decide
  rw [State.slotState, State.slotVerified, State.fld_setFld_beside rfl rfl rfl (.inr rfl), State.fld_setFld_beside rfl rfl rfl (.inr rfl)]
  exact State.fld_setFld_of_lt (f := F.ROOT_IMG_STATE) rfl rfl s k hlt

/-- Settles O54: each row of boot, and what it leaves of the record, the fetch and the slot. -/
theorem bootRuns : Obligations.BootRuns := by
  unfold Obligations.BootRuns
  intro s
  refine ⟨fun c => gives_startAttempt, fun c => exec_startAttempt_idle, fun r => gives_stageOverrun, fun h5 h0 h1 => ?bootOk,
    fun i f h hup => ?solicit, fun srv xid size i f h hnone hgot hlo hhi hup => ?offer,
    fun xid b data i f srv size h hoffer hread hlen hup => gives_data h hoffer hread hlen hup, fun i f h => ?resend, fun i f h => ?lost,
    fun k a h => gives_imageVerified h, fun k _ r => s.slotState_slotVerified k r⟩
  case bootOk =>
    obtain ⟨hok, hstage, hfail, hocc, hframe⟩ := s.bootOk_form
    exact (gives_bootOk h5 h0 h1).completes hframe.pending hframe.id ⟨hok, hstage, hfail, hocc, hframe⟩
  case solicit =>
    obtain ⟨hfetch, hout⟩ := s.sendSolicit_form i f
    have hframe := s.sameButFetch_sendSolicit i f
    exact (gives_solicit h hup).completes hframe.pending hframe.id ⟨hfetch, hout, hframe⟩
  case offer =>
    obtain ⟨hoffer, hframe⟩ := s.takeOffer_form i srv size f
    exact (gives_offer h hnone hgot hlo hhi hup).completes hframe.pending hframe.id ⟨hoffer, hframe⟩
  case resend =>
    obtain ⟨hlate, hframe⟩ := s.resendReads_form i f
    exact (gives_readResend h).completes hframe.pending hframe.id ⟨hlate, hframe⟩
  case lost =>
    obtain ⟨hfetch, hfree, hpend, hid, hframe⟩ := s.refetch_form i f
    exact (gives_serverLost h).completes hpend hid ⟨hfetch, hfree, hframe⟩

end Sys2Proof.Machine
end

section
/-! Watchdogs, management cores, persistent writes, posts and ends of maintenance (16_boot_firmware.md R521 to R531, 17_mailbox.md R534, R536,
18_resets_faults_maintenance.md R582). -/

namespace Sys2Proof.Machine

/-! ## Management cores (R521 to R524) -/

@[simp] theorem State.mc_setMc (s : State) (m : Nat) (v : Mc) : (s.setMc m v).mc m = v := SMap.get_put_self ..

theorem State.mc_of_boot {s t : State} (h : t.boot = s.boot) (m : Nat) : t.mc m = s.mc m := by rw [State.mc, State.mc, h]

theorem State.mcState_of_fld {s t : State} (h : ∀ f : Fld, f = F.ROOT_MGMT_MC0STATE ∨ f = F.ROOT_MGMT_MC1STATE → t.fld f 0 = s.fld f 0)
    (m : Nat) : t.mcState m = s.mcState m := by
  unfold State.mcState
  split
  · exact h _ (.inl rfl)
  · exact h _ (.inr rfl)

theorem State.mcState_setMcState (s : State) (m : Nat) {st : Nat} (h : st < 2 ^ 3) : (s.setMcState m st).mcState m = st := by
  unfold State.mcState State.setMcState
  split
  · exact State.fld_setFld_of_lt (f := F.ROOT_MGMT_MC0STATE) rfl rfl s 0 h
  · exact State.fld_setFld_of_lt (f := F.ROOT_MGMT_MC1STATE) rfl rfl s 0 h

theorem State.sameButRegs_setMcState (s : State) (m st : Nat) : s.sameButRegs (s.setMcState m st) := by
  unfold State.setMcState
  split
  · exact State.sameButRegs_setFld rfl ..
  · exact State.sameButRegs_setFld rfl ..

theorem State.mcState_setPrimary (s : State) (k m : Nat) : (s.setPrimary k).mcState m = s.mcState m := by
  refine State.mcState_of_fld (fun f hf => ?_) m
  unfold State.setPrimary
  split
  · rfl
  · rw [State.fld_raise]
    rcases hf with rfl | rfl
    · exact State.fld_setFld_beside rfl rfl rfl (.inr rfl) ..
    · exact State.fld_setFld_beside rfl rfl rfl (.inr rfl) ..

theorem State.sameButEvents_setPrimary (s : State) (k : Nat) : s.sameButEvents (s.setPrimary k) := by
  unfold State.setPrimary
  split
  · exact s.sameButEvents_refl
  · exact (State.sameButEvents_setFld rfl ..).trans (State.sameButEvents_raise ..)

theorem gives_watchdogKick {s : State} {m : Nat} (hm : m < 2) (h : s.mcState m = 2 ∨ s.mcState m = 3) (period : Nat) :
    Gives (.watchdogKick m period) s ((s.setFld F.ROOT_WDOG_PERIOD m (period % 65536)).setMc m { s.mc m with kickAt := some s.refNs }) :=
  .of_done (if_pos ⟨hm, h⟩)

theorem gives_watchdogExpire {s : State} {m : Nat} (hm : m < 2) (h : s.wdogOut m = true) : Gives (.watchdogExpire m) s (s.expire m) :=
  .of_done (if_pos ⟨hm, h⟩)

theorem gives_mcRunning {s : State} {m : Nat} (hm : m < 2) (h : s.mcState m = 2) : Gives (.mcRunning m) s (s.runMc m) :=
  .of_done (if_pos ⟨hm, h⟩)

theorem gives_mcRestartTimeout {s : State} {m t0 : Nat} (hm : m < 2) (h : (s.mc m).restartAt = some t0) (hlate : t0 + 120000000000 ≤ s.refNs) :
    Gives (.mcRestartTimeout m) s (s.restartFailed m) := by
  refine .of_done (?_ : execMcRestartTimeout m s = _)
  rw [execMcRestartTimeout, h]
  exact if_pos ⟨hm, hlate⟩

/-- A core that runs: its state, its restarts and failures. -/
def State.mcRuns (s : State) (m : Nat) : State := (s.setMcState m 3).setMc m { s.mc m with restartAt := none, fails := 0 }

theorem State.mcRuns_form (s : State) (m : Nat) :
    (s.mcRuns m).mcState m = 3 ∧ (s.mcRuns m).mc m = { s.mc m with restartAt := none, fails := 0 }
    ∧ (s.mcRuns m).boot.switchTo = s.boot.switchTo ∧ s.mcRuns m = { s with boot := (s.mcRuns m).boot, regs := (s.mcRuns m).regs } := by
  have hframe := s.sameButRegs_setMcState m 3
  refine ⟨?_, State.mc_setMc .., ?_, ?_⟩
  · exact (State.mcState_of_fld (s := s.setMcState m 3) (fun _ _ => rfl) m).trans (s.mcState_setMcState m (by decide))
  · exact (congrArg (fun t : State => t.boot.switchTo) hframe).trans rfl
  · rw [State.mcRuns, hframe]
    rfl

/-- What follows a core's start where no role switch waits for it: the primary role, and the mailbox that is served again. -/
theorem State.runMc_form {s : State} {m : Nat} (h : s.boot.switchTo = none) :
    (s.runMc m).mcState m = 3 ∧ (s.runMc m).boot = (s.mcRuns m).boot
    ∧ s.runMc m = { s.mcRuns m with regs := (s.runMc m).regs, mbox := (s.runMc m).mbox, occ := (s.runMc m).occ } := by
  obtain ⟨hstate, -, hswitch, -⟩ := s.mcRuns_form m
  have hother : (s.mcRuns m).boot.switchTo ≠ some m := by
    rw [hswitch, h]
    exact fun e => nomatch e
  have hrun : s.runMc m =
      if (s.mcRuns m).fld F.ROOT_BOOT_BOOT_OK 0 = 1 ∧ (s.mcRuns m).mcState (s.mcRuns m).primary ≠ 3 then
        ((s.mcRuns m).setPrimary m).modMbox fun b => { b with downUntil := none }
      else if m = (s.mcRuns m).primary then (s.mcRuns m).modMbox fun b => { b with downUntil := none }
      else s.mcRuns m := if_neg hother
  rw [hrun]
  split
  case isTrue =>
    have hframe := (s.mcRuns m).sameButEvents_setPrimary m
    refine ⟨?_, ?_, ?_⟩
    · exact (State.mcState_of_fld (s := (s.mcRuns m).setPrimary m) (fun _ _ => rfl) m).trans
        ((State.mcState_setPrimary ..).trans hstate)
    · exact (congrArg State.boot hframe).trans rfl
    · rw [hframe]
      rfl
  case isFalse =>
    split
    · exact ⟨(State.mcState_of_fld (s := s.mcRuns m) (fun _ _ => rfl) m).trans hstate, rfl, rfl⟩
    · exact ⟨hstate, rfl, rfl⟩

/-! ## Persistent writes (R528, R531) -/

theorem gives_psDataWrite (r : Requester) (v : Nat) (s : State) : Gives (.psDataWrite r v) s (s.writePsData r v) := rfl

theorem State.writePsData_refused {s : State} (h : psHost (s.fld F.PS_INDEX_WORD 0) = false) (v : Nat) :
    s.writePsData .host v = s.refuseWrite .PS_DATA 0 := by
  refine if_pos ?_
  show (!psHost (s.fld F.PS_INDEX_WORD 0)) = true
  rw [h]
  rfl

theorem State.writePsData_taken {s : State} (h : psHost (s.fld F.PS_INDEX_WORD 0) = true) (hroom : s.psQ.length < 64) (r : Requester)
    (v : Nat) : s.writePsData r v = s.psWrite (s.fld F.PS_INDEX_WORD 0) (v % 2 ^ 32) := by
  have hok : (match r with | .host => psHost (s.fld F.PS_INDEX_WORD 0) | _ => psOpen (s.fld F.PS_INDEX_WORD 0)) = true := by
    cases r
    all_goals simp only [psOpen, h, Bool.true_or]
  unfold State.writePsData
  extract_lets w ok
  have hok' : ok = true := hok
  rw [hok', if_neg (by decide), if_neg (Nat.not_le.2 hroom)]

theorem State.masterSet_form (s : State) (old : Word) :
    s.masterSet old = { s with regs := (s.masterSet old).regs, tm := (s.masterSet old).tm, occ := (s.masterSet old).occ } := by
  unfold State.masterSet
  split
  · rfl
  · refine State.sameButEvents.with_tm (m := { s.tm with srcAt := s.refNs, ptmOut := 0, ptmAt := s.refNs, good := 0 }) ?_
    exact (State.sameButEvents_setHoldover _ false).trans (iteInduction (motive := fun t => State.sameButEvents _ t)
      (fun _ => State.sameButEvents_masterSync _) fun _ => State.sameButEvents_setSync _ false)

theorem State.psWord_masterSet (s : State) (old : Word) (k : Nat) : (s.masterSet old).psWord k = s.psWord k := by
  have hform := s.masterSet_form old
  exact State.psWord_congr (by rw [hform]) (by rw [hform]) k

theorem State.psWord_psSet_ne (s : State) {w k : Nat} (hk : k ≠ w) (v : Nat) : (s.psSet w v).psWord k = s.psWord k := by
  by_cases hsame : v % 2 ^ 32 = s.psWord w
  · rw [State.psSet, if_pos hsame]
  · by_cases hworn : psLimit ≤ SMap.get 0 s.psCount w + s.psWaiting w
    · rw [State.psSet, if_neg hsame, if_pos hworn]
      exact State.psWord_congr (by rw [State.setPlain2_form]) (by rw [State.setPlain2_form]) k
    · rw [State.psSet, if_neg hsame, if_neg hworn, State.setPlain_form]
      exact SMap.get_put_ne _ _ _ _ hk

theorem gives_psWriteComplete {s : State} {w old v : Nat} {rest : List (Nat × Nat × Nat)} (h : s.psQ = (w, old, v) :: rest) :
    Gives .psWriteComplete s (s.psDone w) := by
  refine .of_done (?_ : execPsWriteComplete s = _)
  rw [execPsWriteComplete, h]

/-- The oldest write is counted and leaves the queue. -/
def State.psCounted (s : State) (w : Nat) : State :=
  { s with psQ := s.psQ.drop 1, psCount := SMap.put 0 s.psCount w (min 1000000 (SMap.get 0 s.psCount w + 1)) }

theorem State.psDone_form (s : State) (w : Nat) : (s.psCounted w).sameButLog (s.psDone w) := by
  unfold State.psDone
  extract_lets n t
  refine State.sameButLog_ite _ ?_ t.sameButLog_refl
  exact ((State.sameButLog_hwSet rfl ..).trans (State.sameButLog_setFld rfl ..)).trans (State.sameButLog_raise ..)

/-! ## Posts (R534, R536) -/

theorem gives_mboxPost {s : State} (h : s.asleep = false) (r : Requester) : Gives (.mboxPost r) s (s.mboxPost true) :=
  .of_done (if_neg (by rw [h]; decide))

theorem gives_mgmtMessage {s : State} (h : s.asleep = false) (who : Nat) (bytes : List Byte) :
    Gives (.mgmtMessage who bytes) s (s.mgmtIn who bytes) := .of_done (if_neg (by rw [h]; decide))

theorem State.mboxPost_busy {s : State} (h : s.fld F.MBOX_STAT_STATE 0 = 1 ∨ s.fld F.MBOX_STAT_STATE 0 = 2) (go : Bool) :
    s.mboxPost go = s.addFld F.MBOX_STAT_POSTERR 0 1 := if_pos h

theorem State.mboxPost_taken {s : State} (h1 : s.fld F.MBOX_STAT_STATE 0 ≠ 1) (h2 : s.fld F.MBOX_STAT_STATE 0 ≠ 2) :
    s.mboxPost true = ((s.setFld F.MBOX_STAT_STATE 0 1).raise 3).modMbox fun m => { m with posted := m.posted ++ [0] } :=
  (if_neg (not_or_intro h1 h2)).trans (if_pos rfl)

theorem State.fld_modMbox (s : State) (f : Mbox → Mbox) (g : Fld) (i : Nat) : (s.modMbox f).fld g i = s.fld g i := State.fld_congr rfl rfl rfl ..

/-- What a post leaves, after registers that differ at most. -/
theorem State.sameButRegs.posted {s u : State} (h : s.sameButRegs u) (f : Mbox → Mbox) :
    let t := (u.raise 3).modMbox f
    t.pending = s.pending ∧ t.id = s.id ∧ t.mbox = f s.mbox ∧ t.occ = s.occ ++ [3]
    ∧ t = { s with mbox := t.mbox, regs := t.regs, occ := t.occ } := by
  rw [h]
  exact ⟨rfl, rfl, rfl, rfl, rfl⟩

theorem State.mgmtIn_free {s : State} (h : s.mbox.ch1 = none) (who : Nat) (bytes : List Byte) :
    s.mgmtIn who bytes = s.modMbox fun m => { m with ch1 := some (who, bytes), posted := m.posted ++ [1] } :=
  if_neg (by rw [h]; decide)

/-! ## Ends of maintenance (R582) -/

theorem gives_maintActivityEnd {s : State} {id : Nat} {a : Act} (h : (s.acts.find? fun a => a.id == id) = some a) (ok : Bool) :
    Gives (.maintActivityEnd id ok) s (s.endMaint a ok) := by
  refine .of_done (?_ : execMaintActivityEnd id ok s = _)
  rw [execMaintActivityEnd, h]

/-- Settles O55: each row of management, and what it leaves of the core, the word, the mailbox and the activity. -/
theorem managementRuns : Obligations.ManagementRuns := by
  unfold Obligations.ManagementRuns
  intro m r s
  refine ⟨fun hm h period => ?kick, gives_watchdogExpire, fun hm h hswitch => ?running, gives_mcRunning, fun t0 => gives_mcRestartTimeout,
    fun v => ⟨fun hr h => ?refused, fun h hroom hv hcount => ?word⟩, fun w old v rest h => ?done,
    fun hawake => ⟨fun h => ?busy, fun h1 h2 => ?post, fun who bytes h => ?message⟩, fun id ok a h => gives_maintActivityEnd h ok⟩
  case kick =>
    have hframe := State.sameButRegs_setFld (f := F.ROOT_WDOG_PERIOD) rfl s m (period % 65536)
    have hlt : period % 65536 < 2 ^ 16 := Nat.mod_lt _ (by decide)
    refine (gives_watchdogKick hm h period).completes ?_ ?_ ⟨?_, State.mc_setMc .., ?_⟩
    · exact State.setFld_pending ..
    · exact State.setFld_id ..
    · exact State.fld_setFld_of_lt (f := F.ROOT_WDOG_PERIOD) rfl rfl s m hlt
    · rw [hframe]
      rfl
  case running =>
    obtain ⟨-, hmc, -, hruns⟩ := s.mcRuns_form m
    obtain ⟨hstate, hboot, hframe⟩ := State.runMc_form (m := m) hswitch
    refine (gives_mcRunning hm h).completes ?_ ?_ ⟨hstate, (State.mc_of_boot hboot m).trans hmc, ?_⟩
    · rw [hframe, hruns]
    · rw [hframe, hruns]
    · rw [hframe, hruns]
  case refused =>
    rw [hr, ← State.writePsData_refused h v]
    exact gives_psDataWrite ..
  case word =>
    have hgives := gives_psDataWrite r v s
    rw [State.writePsData_taken h hroom, Nat.mod_eq_of_lt hv] at hgives
    have hpend : (s.psWrite (s.fld F.PS_INDEX_WORD 0) v).pending = s.pending := by
      rw [State.psWrite, State.masterSet_form, State.psSet_pending]
    have hid : (s.psWrite (s.fld F.PS_INDEX_WORD 0) v).id = s.id := by
      rw [State.psWrite, State.masterSet_form, State.psSet_id]
    refine hgives.completes hpend hid ⟨?_, fun k hk => ?_⟩
    · rw [State.psWrite, State.psWord_masterSet, State.psWord_psSet hcount, Nat.mod_eq_of_lt hv]
    · rw [State.psWrite, State.psWord_masterSet, State.psWord_psSet_ne s hk]
  case done =>
    have hframe := s.psDone_form w
    refine (gives_psWriteComplete h).completes hframe.pending hframe.id ⟨?_, ?_, ?_, ?_⟩
    · rw [hframe, State.psCounted, h]
      rfl
    · rw [hframe]
      exact SMap.get_put_self ..
    · rw [hframe]
      rfl
    · rw [hframe]
      rfl
  case busy =>
    have hgives := gives_mboxPost hawake r
    rw [State.mboxPost_busy h] at hgives
    exact hgives.completes (State.addFld_pending ..) (State.addFld_id ..) ⟨State.fld_addFld rfl rfl .., State.sameButTally_addFld rfl ..⟩
  case post =>
    have hgives := gives_mboxPost hawake r
    rw [State.mboxPost_taken h1 h2] at hgives
    have hset := State.sameButRegs_setFld (f := F.MBOX_STAT_STATE) rfl s 0 1
    obtain ⟨hpend, hid, hmbox, hocc, hframe⟩ := hset.posted fun m => { m with posted := m.posted ++ [0] }
    refine hgives.completes hpend hid ⟨?_, by rw [hmbox], hocc, hframe⟩
    rw [State.fld_modMbox, State.fld_raise]
    exact State.fld_setFld rfl rfl ..
  case message =>
    have hgives := gives_mgmtMessage hawake who bytes
    rw [State.mgmtIn_free h] at hgives
    exact hgives.completes rfl rfl ⟨rfl, rfl, rfl⟩

end Sys2Proof.Machine
end

section
/-! Where its rule lets it act, a command is carried out with the operation of its row. -/

namespace Sys2Proof.Machine

/-! ## Tables -/

/-- A row of a table: under its condition the command makes of the state what stands beside it. -/
def State.Row (s : State) (x : Instr × Prop × State) : Prop := x.2.1 → Gives x.1 s x.2.2

theorem State.gives_of_rows {s u : State} {l : List (Instr × Prop × State)} {w : Instr} {g : Prop} (h : l.Forall s.Row)
    (hmem : (w, g, u) ∈ l) (hg : g) : Gives w s u := List.forall_iff_forall_mem.1 h _ hmem hg

/-! ## Cores and memory -/

theorem gives_dispatch_moves {s : State} {c q lc : Nat} {e : QEntry} (hl : s.seqLive c = some (q, lc)) (hh : s.seqHead c lc = some e)
    (hx : (s.core c).extWait e = false) (hf : (s.core c).queueFull e lc = false) (hr : s.headReason q c e = 0) (hq : W.QUEUE e.lead ≠ 0) :
    Gives (.dispatch c) s (s.moveHead c lc e) := by
  have hgives := gives_dispatch hl hh
  rwa [State.dispatch_ready hx hf, if_neg (not_not_intro hr), if_neg hq] at hgives

theorem gives_bulkSlotTransfer_slotted {s : State} {tc slot : Nat} {x : Xfer} (h : s.slotXfer tc slot = some x) (hx : x.slotted = true) :
    Gives (.bulkSlotTransfer tc slot) s (s.runXfer tc x) := by
  have hgives := gives_bulkSlotTransfer h
  rwa [if_pos hx] at hgives

theorem gives_scrubSlot_alone {s : State} {tc slot : Nat} (h : s.scrubTurn tc slot = true) (hx : s.slotXfer tc slot = none) :
    Gives (.scrubSlot tc slot) s ((s.scrub tc).setCol tc { (s.scrub tc).col tc with slot := max ((s.scrub tc).col tc).slot (slot + 1) }) := by
  have hgives := gives_scrubSlot h
  rwa [if_pos (.inr hx)] at hgives

/-! ## Beats and jobs -/

theorem gives_beatStart_onTime {s : State} {q : Nat} (hq : q < 8) (h : s.beatReady q = true) (hlate : s.startLate q = 0) :
    Gives (.beatStart q) s (s.beginBeat q) := (gives_beatStart hq h).of_eq (if_pos hlate)

theorem gives_lagFault_jobFault {s : State} {q : Nat} (hl : (s.part q).jobLive = true)
    (h : s.lagAbove q (s.fld F.TIME_BEAT_CFG_FAULTLIM q) = true) : Gives (.lagFault q) s (s.jobFault q caLAG stTIMEOUT 0 0) :=
  .of_done (if_pos ⟨hl, h⟩)

theorem gives_launch {q : Nat} (hq : q < 8) (spread : Bool) (s : State) : Gives (.launch q spread) s (s.launch q spread) :=
  .of_done (exec_launch hq spread s)

section
variable {s : State} {q : Nat} (hq : q < 8) (h0 : (s.gop q).op = 0) (hbox : s.hasBox q = true)
include hq h0 hbox

theorem gives_barrier : Gives (.barrier q) s (s.enterBarrier q) :=
  gives_gopRow hq h0 hbox (op := 1) (act := fun t => t.enterBarrier q) (.head _)

theorem gives_bcast : Gives (.bcast q) s (s.originateBcast q) :=
  gives_gopRow hq h0 hbox (op := 2) (act := fun t => t.originateBcast q) (.tail _ (.head _))

theorem gives_snap : Gives (.snap q) s (s.originateSnap q) :=
  gives_gopRow hq h0 hbox (op := 3) (act := fun t => t.originateSnap q) (.tail _ (.tail _ (.head _)))

theorem gives_reset : Gives (.reset q) s (s.gopReset q) :=
  gives_gopRow hq h0 hbox (op := 4) (act := fun t => t.gopReset q) (.tail _ (.tail _ (.tail _ (.head _))))

end

/-- A flit of a job that the part knows goes on to the children and acts for its partition. -/
theorem Gives.of_ctrlJob {w : Instr} {n q : Nat} {f : CtrlFlit} {s : State} {act : State → Nat → State} (h : Gives w s (s.ctrlJob n f act))
    (hq : s.jobPart f.jobid = some q) : Gives w s (act ((s.ctrlTake n f).toChildren q f.node f n) q) :=
  h.of_eq (State.ctrlJob_of_jobPart n act hq)

theorem gives_wakeReceive {s : State} {n : Nat} {f : CtrlFlit} (hport : s.wakePort n = true) (hp : s.power ≠ 3) :
    Gives (.wakeReceive n f) s ((s.ctrlTake n f).wakeBy 2 (f.flags.testBit 0)) := .of_done (if_pos ⟨hport, hp⟩)

/-! ## Ports -/

theorem gives_portLockLoss {s : State} {n : Nat} (hn : n < s.id.ports) (h0 : s.pstate n ≠ 0) (h7 : s.pstate n ≠ 7) :
    Gives (.portLockLoss n) s (s.portDown n 1) := .of_done (if_pos ⟨hn, h0, h7⟩)

theorem gives_trainTimeout {s : State} {n : Nat} (h : s.trainLate n = true) : Gives (.trainTimeout n) s (s.portDown n 3) := .of_done (if_pos h)

theorem gives_identTimeout {s : State} {n : Nat} (hp : s.pstate n = 2) (hh : (s.port n).heard = false)
    (hl : (s.port n).ident + 10000000 ≤ s.refNs) : Gives (.identTimeout n) s (s.portDown n (if s.trainLate n then 3 else 5)) :=
  .of_done (if_pos ⟨hp, hh, hl⟩)

theorem gives_portWinWrite_taken {s : State} {n v w : Nat} (hn : n < s.id.ports) (hb : s.schedBusy n = false)
    (hw : winAfter (s.reg .PORT_WIN n).toNat v = some w) (r : Requester) :
    Gives (.portWinWrite r n v) s (s.setReg .PORT_WIN n (BitVec.ofNat 64 w)) :=
  (gives_portWinWrite hn r v).of_eq (State.writeWin_taken hb hw)

/-! ## Frames and requests -/

/-- A request that has taken all its slots takes no more. -/
theorem State.takeUpTo_all (s : State) {need : List (Nat × Nat)} {got : Nat} (h : need.length ≤ got) : s.takeUpTo need got = (s, got) := by
  rw [State.takeUpTo, List.drop_eq_nil_of_le h]
  rfl

/-- The row of a request that has taken all its slots serves it. -/
theorem Gives.of_slotRow_all {c : Instr} {s : State} {need : List (Nat × Nat)} {got : Nat} {note : State → Nat → State} {serve : State → State}
    (hrow : exec c s = s.slotRow need got note serve) (h : need.length ≤ got) : Gives c s (serve (note s 0)) := by
  have hall := s.takeUpTo_all h
  have hgives := Gives.of_slotRow_serves hrow (by rw [hall]; exact h)
  rwa [hall] at hgives

section
variable {s : State} {e : Option Nat × Bool × Frame}

theorem gives_rd_served (he : s.firstReq 1 = some e) (h1 : 0 < frameLen e.2.2) (hmax : frameLen e.2.2 ≤ 4064)
    (hst : s.targetStatus e.2.2.addr (frameLen e.2.2) (frameJob e.2.2) = stOK) (hslots : s.frameSlots e.1 e.2.2.addr = true)
    (hgot : (s.slotNeed e.1 e.2.2.addr (frameLen e.2.2) false).length ≤ s.fab.rdGot) :
    Gives .rd s ({ s with fab := { s.fab with rdGot := 0 } }.serveRd e) :=
  Gives.of_slotRow_all (exec_rd_passes he ((State.rdStatus_goodLen h1 hmax).trans hst) hslots) hgot

theorem gives_wr_served (he : s.firstReq 2 = some e) (hst : s.targetStatus e.2.2.addr e.2.2.bytes (frameJob e.2.2) = stOK)
    (hslots : s.frameSlots e.1 e.2.2.addr = true) (hgot : (s.slotNeed e.1 e.2.2.addr e.2.2.bytes true).length ≤ s.fab.wrGot) :
    Gives .wr s ({ s with fab := { s.fab with wrGot := 0 } }.serveWr e) :=
  Gives.of_slotRow_all (exec_wr_passes he hst hslots) hgot

end

theorem gives_replyArrive_own {s : State} {f : Frame} (hnet : f.net = 1) (hop : opOk 1 f.op = true)
    (hd : f.dst = s.node ∨ s.fab.inRsp.contains f = true) : Gives (.replyArrive none f) s (s.takeReply f) :=
  .of_done ((if_pos ⟨hnet, hop⟩).trans (if_pos hd))

/-- R376: a command of ROUTE_CTL whose networks are all in the state it needs acts on each of them. -/
theorem gives_route_all {c : Instr} {nets st : Nat} {eff : State → Nat → State} {s : State} (hrow : (c, st, eff) ∈ routeRows nets)
    (h0 : (s.net 0).change = false) (h1 : (s.net 1).change = false) (hst : ∀ j ∈ netsOf nets, (s.net j).state = st) :
    Gives c s (((netsOf nets).foldl eff s).setFld F.ROUTE_STAT_STATUS 0 stOK) := by
  refine (gives_routeRow hrow s).of_eq ((if_neg (by simp [h0, h1])).trans (if_neg fun hany => ?_))
  obtain ⟨j, hj, hne⟩ := List.any_eq_true.1 hany
  exact bne_iff_ne.1 hne (hst j hj)

/-! ## Time and power -/

theorem gives_timeSetWrite {v : Nat} (hv : v < 2 ^ 64) (r : Requester) (s : State) : Gives (.timeSetWrite r v) s (s.writeTimeSet v) :=
  .of_done (congrArg (fun n => done s (s.writeTimeSet n)) (Nat.mod_eq_of_lt hv))

theorem gives_pllLockLoss {k : Nat} (hk : k < 32) (s : State) : Gives (.pllLockLoss k) s (s.pllLost k) := .of_done (if_pos hk)

theorem gives_pllRelock {s : State} (h : s.tm.refLost = false) (k : Nat) :
    Gives (.pllRelock k) s (s.modPow fun p => { p with unlocked := p.unlocked.filter fun y => y != k }) := .of_done (if_neg (by rw [h]; decide))

theorem gives_pwrPdeclWrite {q : Nat} (hq : q < 8) (r : Requester) (v : Nat) (s : State) : Gives (.pwrPdeclWrite r q v) s (s.writePdecl q v) :=
  .of_done (if_pos hq)

theorem gives_wakeFrame {s : State} {v : Nat} (h : v = s.id.serial) : Gives (.wakeFrame v) s (s.wakeBy 5 false) := .of_done (if_pos h)

theorem gives_denianWakeBeacon {s : State} {n : Nat} (hp : s.power = 3) (hport : s.wakePort n = true) :
    Gives (.denianWakeBeacon n) s (s.wakeBy 2 false) := .of_done (if_pos ⟨hp, hport⟩)

theorem gives_perstRelease_off {s : State} (h : s.pins.perst = true) : Gives .perstRelease s s.perstOff := .of_done (if_pos h)

/-! ## The host interface -/

theorem gives_bar2Read_served {s : State} {off n : Nat} (hm : s.minimal = false) (hk : s.bar2Refuse (s.bar2Addr off) n = 0)
    (hu : (s.readMem .other (s.bar2Addr off) n).2.2 = false) :
    Gives (.bar2Read off n) s ((s.readMem .other (s.bar2Addr off) n).1.answer (s.readMem .other (s.bar2Addr off) n).2.1) :=
  (gives_bar2Read off n s).of_eq (State.bar2Read_served ((if_neg (by rw [hm]; decide)).trans hk) hu)

theorem gives_bar2Write_served {s : State} {off : Nat} {bs : List Byte} (hm : s.minimal = false)
    (hk : s.bar2Refuse (s.bar2Addr off) bs.length = 0) (hu : (s.writeMem .other (s.bar2Addr off) bs).2 = false) :
    Gives (.bar2Write off bs) s (s.writeMem .other (s.bar2Addr off) bs).1 :=
  (gives_bar2Write off bs s).of_eq
    ((State.bar2Write_served ((if_neg (by rw [hm]; decide)).trans hk)).trans (if_neg (by rw [hu]; decide)))

theorem gives_submit {s : State} {k : Nat} {h : List Byte × List Byte} (hh : s.ringHead k = some h) (hu : s.ringUse k = 1) (data : List Byte) :
    Gives (.submit k data) s (s.submit k h.1 (if s.ringMedium k = 0 then data else h.2)) := by
  refine .of_done (?_ : execSubmit k data s = _)
  rw [execSubmit, hh]
  exact if_pos hu

theorem gives_serveAbortWrite {k : Nat} (hk : k < 8) (r : Requester) (v : Nat) (s : State) :
    Gives (.serveAbortWrite r k v) s (s.writeAbort k v) := .of_done (if_pos hk)

theorem gives_pcieLinkUp {s : State} (hl : s.linkUp 0 = false) (hp : s.pins.perst = false) :
    Gives .pcieLinkUp s ((s.setLink 0 true).raise 324).sendPending := .of_done (if_neg (by rw [hl, hp]; decide))

theorem gives_ethLinkUp {s : State} {k : Nat} (hk : k < 2) (hp : s.power < 2) : Gives (.ethLinkUp k) s (s.ethLink k true) :=
  .of_done (if_pos ⟨hk, hp⟩)

theorem gives_ethLinkDown {k : Nat} (hk : k < 2) (s : State) : Gives (.ethLinkDown k) s (s.ethLink k false) := .of_done (if_pos hk)

section
variable {s : State} {k : Nat} {data : List Byte} {m : EthIn} (hk : k < 2) (hup : s.linkUp (1 + k) = true) (hm : ethParse data = some m)
include hk hup hm

theorem gives_ethSlot (ht : m.typ = 1) : Gives (.ethSlot k data) s (s.ethSlot k m) := by
  refine .of_done ((if_pos ⟨hk, hup⟩ : execEthSlot k data s = _).trans ?_)
  rw [hm]
  exact if_pos ht

theorem gives_ethAck (ht : m.typ = 2) : Gives (.ethAck k data) s (s.ethAcked m.key (byF m.body 0 4)) := by
  refine .of_done ((if_pos ⟨hk, hup⟩ : execEthAck k data s = _).trans ?_)
  rw [hm]
  exact if_pos ht

theorem gives_parkd (ht : m.typ = 5) (hkey : m.key = 64) : Gives (.parkd k data) s (s.parkd k m) := by
  refine .of_done ((if_pos ⟨hk, hup⟩ : execParkd k data s = _).trans ?_)
  rw [hm]
  exact if_pos ⟨ht, hkey⟩

end

theorem gives_ethResend {s : State} {k : Nat} (hk : k ≤ 64) (hu : (s.ethStream k).unacked ≠ [])
    (hlate : (s.ethStream k).sent + 1000 * s.fld F.HQ_NETCFG_RTO 0 ≤ s.refNs) : Gives (.ethResend k) s (s.ethResend k) := by
  have hkey : (if k = 0xFFFF then 64 else k) = k := if_neg (by omega)
  refine .of_done (?_ : execEthResend k s = _)
  rw [execEthResend, hkey]
  exact if_pos ⟨hk, by simpa using hu, hlate⟩

theorem gives_telem {s : State} (hms : s.fld F.HQ_NETCFG_TELEMMS 0 ≠ 0)
    (hlate : s.host.telemAt + 1000000 * s.fld F.HQ_NETCFG_TELEMMS 0 ≤ s.refNs) :
    Gives .telem s ((s.modHost fun z => { z with telemAt := s.refNs }).ethSend 64 6 0 s.telemBody) := .of_done (if_pos ⟨hms, hlate⟩)

theorem gives_stagingComplete {s : State} {p : Nat × Sub} (h : s.stagingHead = some p) : Gives .stagingComplete s (s.staged p.1 p.2) := by
  refine .of_done (?_ : execStagingComplete s = _)
  rw [execStagingComplete, h]

theorem gives_psWriteComplete_head {s : State} {z : Nat × Nat × Nat} (h : s.psQ.head? = some z) : Gives .psWriteComplete s (s.psDone z.1) := by
  obtain ⟨rest, hq⟩ := List.head?_eq_some_iff.1 h
  exact gives_psWriteComplete hq

/-! ## The statement -/

/-- Settles O60: row by row, each table gives the operation of its command. -/
theorem commandsTakeEffect : Obligations.CommandsTakeEffect := by
  unfold Obligations.CommandsTakeEffect
  intro s r
  refine ⟨?cores, ?memory, ?jobs, ?ports, ?frames, ?power, ?host, ?boot⟩
  case cores =>
    intro c q lc e b x l w g u hl hmem
    refine State.gives_of_rows ?_ hmem
    simp only [List.Forall, State.Row]
    exact
      ⟨fun hf => gives_fetchRequest hl hf, fun ⟨hi, ha⟩ => gives_fetchInspect hl hi ha,
        fun ⟨hh, hx, hf, hr, hq⟩ => gives_dispatch_moves hl hh hx hf hr hq, fun hb => gives_tsubAccept hl hb⟩
  case memory =>
    intro q cl k tc slot word d p x a w g u hmem
    refine State.gives_of_rows ?_ hmem
    simp only [List.Forall, State.Row]
    exact
      ⟨fun ⟨hl, hidle, hp, hb⟩ => gives_untimedPick hl hidle hp hb, fun ⟨hl, hr, hran, hc⟩ => gives_untimedComplete hl hr hran hc,
        fun ⟨hl, hd, hg⟩ => gives_thktComplete hl hd hg, fun ⟨h, hx⟩ => gives_bulkSlotTransfer_slotted h hx,
        fun ⟨h, hx⟩ => gives_scrubSlot_alone h hx, fun ⟨hc, hu, hw, hp⟩ => gives_coreStoreScrub hc hu hw hp,
        fun ⟨hm, _⟩ => gives_rootSweepctlWrite hm r s, fun h => gives_sweepComplete h, fun h => gives_maintActivityEnd h true,
        fun h => gives_maintActivityEnd h false⟩
  case jobs =>
    intro q n f sp w g u hq hmem
    refine State.gives_of_rows ?_ hmem
    simp only [List.Forall, State.Row]
    exact
      ⟨fun ⟨hj, hf, he, hk, ht⟩ => gives_freezeEnd hj hf he hk ht, fun ⟨h, hlate⟩ => gives_beatStart_onTime hq h hlate,
        fun h => gives_beatStartStep h, fun ⟨hl, ha, h⟩ => gives_lagEvent hl ha h, fun ⟨hl, h⟩ => gives_lagFault_jobFault hl h,
        fun ⟨hr, he⟩ => gives_stepChangeRun hr he, fun _ => gives_launch hq sp s, fun _ => gives_load hq s,
        fun ⟨h0, hbox⟩ => gives_barrier hq h0 hbox, fun ⟨h0, hbox⟩ => gives_bcast hq h0 hbox, fun ⟨h0, hbox⟩ => gives_snap hq h0 hbox,
        fun ⟨h0, hbox⟩ => gives_reset hq h0 hbox, fun ⟨hroot, h⟩ => gives_barrierRootTimeout hroot h,
        fun ⟨hroot, h⟩ => gives_barrierTimeout hroot h,
        fun h => Gives.of_ctrlJob (act := fun t _ => (t.notice f.jobid (byF f.body 0 8) (byF f.body 8 1) (byF f.body 9 1)).1) rfl h,
        fun h => gives_arrive n h, fun h => Gives.of_ctrlJob (act := fun t q => t.takeRelease q f) rfl h,
        fun h => Gives.of_ctrlJob (act := fun t q => t.takeBcast q f) rfl h, fun h => Gives.of_ctrlJob (act := fun t q => t.takeSnap q f) rfl h,
        fun h => Gives.of_ctrlJob (act := fun t q => t.partReset q) rfl h, fun h => Gives.of_ctrlJob (act := fun t q => t.takeAdmit q f) rfl h,
        fun h => Gives.of_ctrlJob (act := fun t q => t.stepFlit q f) rfl h, fun ⟨hport, hp, _⟩ => gives_wakeReceive hport hp⟩
  case ports =>
    intro n t0 t1 t2 t3 t4 corr uncorr v raw rec l w g u hmem
    refine State.gives_of_rows ?_ hmem
    simp only [List.Forall, State.Row]
    exact
      ⟨fun h => gives_slotFill h, fun h => gives_groupReceive h raw corr uncorr, fun _ => gives_schedForward n s,
        fun ⟨hw, hs⟩ => gives_nakIssue hs hw, fun ⟨hw, hs⟩ => gives_replayStart hs hw, fun h => gives_replayTimeout h,
        fun ⟨hr, hp, hs⟩ => gives_probeExchange hp hs hr, fun ⟨hp, hh, hl⟩ => gives_identityResend hp hh hl,
        fun ⟨hp, hr⟩ => gives_neighbourRecord_good hp hr, fun ⟨hp, hs⟩ => gives_laneLock hp hs v,
        fun ⟨hn, h0, h7⟩ => gives_portLockLoss hn h0 h7, fun h => gives_trainTimeout h, fun ⟨hp, hh, hl⟩ => gives_identTimeout hp hh hl,
        fun ⟨hn, _⟩ => gives_portCtlEnable hn r true, fun ⟨hn, _⟩ => gives_portCtlEnable hn r false,
        fun ⟨hn, _⟩ => gives_portCtlReset hn r,
        fun ⟨hn, hb, hw⟩ => gives_portWinWrite_taken hn hb hw r⟩
  case frames =>
    intro n k f q e w g u hmem
    refine State.gives_of_rows ?_ hmem
    simp only [List.Forall, State.Row]
    exact
      ⟨fun hup => gives_frameArrive hup, fun _ => gives_requestInject q s,
        fun ⟨he, h1, hmax, hst, hslots, hgot⟩ => gives_rd_served he h1 hmax hst hslots hgot,
        fun ⟨he, hst, hslots, hgot⟩ => gives_wr_served he hst hslots hgot, fun ⟨he, _⟩ => gives_msg he,
        fun ⟨_, _, hnet, hop, hd⟩ => gives_replyArrive_own hnet hop hd, fun h => gives_requestTimeout h,
        fun ⟨hs, hu⟩ => gives_retireExpiry hs hu,
        fun ⟨h0, h1, hst⟩ => gives_route_all (st := 0) (eff := fun t j => t.setNet j { t.net j with state := 1 }) (.head _) h0 h1 hst,
        fun ⟨h0, h1, hst⟩ => gives_route_all (st := 0) (eff := fun t j => t.setNet j { t.net j with state := 1, change := true })
          (.tail _ (.head _)) h0 h1 hst,
        fun ⟨h0, h1, hst⟩ => gives_route_all (st := 2) (eff := State.swapNet) (.tail _ (.tail _ (.head _))) h0 h1 hst,
        fun ⟨h0, h1, hst⟩ => gives_route_all (st := 2) (eff := State.resumeNet) (.tail _ (.tail _ (.tail _ (.head _)))) h0 h1 hst,
        fun ⟨hk, hst, hout⟩ => gives_drained hk hst hout⟩
  case power =>
    intro n q k v x f l w g u hq hmem
    refine State.gives_of_rows ?_ hmem
    simp only [List.Forall, State.Row]
    exact
      ⟨fun ⟨hm, hg, hs⟩ => gives_beaconSend hm hg hs, fun _ => gives_beaconReceive n f s, fun ⟨hm, hp, h⟩ => gives_beaconTimeout hm hp h,
        fun ⟨hr, hd⟩ => gives_slewStep hr hd, fun h => gives_eventTick h k, fun ⟨hj, hn⟩ => gives_wirePulseLatch hj hn,
        fun _ => gives_refclkLoss s, fun h => gives_refclkReturn h, fun h => gives_timeBaseFailover h, fun ⟨hm, hs⟩ => gives_ppsInEdge hm hs,
        fun ⟨hg, h⟩ => gives_ppsOutEdge_high hg h, fun ⟨hg, h⟩ => gives_ppsOutEdge_low hg h, fun ⟨hm, hs, hl⟩ => gives_ptpSync hm hs hl x,
        fun ⟨hm, hs, h⟩ => gives_ptmRequest hm hs h, fun ⟨hm, hs, h⟩ => gives_ptmResponse hm hs h x, fun ⟨hm, h⟩ => gives_holdover hm h,
        fun ⟨hv, _⟩ => gives_timeSetWrite hv r s, fun ⟨ha, h⟩ => gives_timeAlarmFire ha h, fun hk => gives_pllLockLoss hk s,
        fun h => gives_pllRelock h k, fun _ => gives_pwrStepcmd hq r v s, fun ⟨hlo, hhi, hb⟩ => gives_pwrCapWrite_taken hlo hhi hb r,
        fun _ => gives_pwrPdeclWrite hq r v s, fun _ => .of_done rfl, fun _ => .of_done rfl, fun _ => .of_done rfl, fun _ => .of_done rfl,
        fun _ => .of_done rfl, fun ⟨h, hk⟩ => gives_powerStateEntered h hk, fun h => gives_wakeComplete h, fun _ => .of_done rfl,
        fun ⟨hv, _⟩ => gives_wakeFrame hv, fun ⟨hp, hport, _⟩ => gives_denianWakeBeacon hp hport, fun h => gives_thermalAlert h,
        fun h => gives_thermalAlertClear h, fun ⟨h, ht⟩ => gives_thermalTrip h ht, fun ⟨hg, hp⟩ => gives_coldReset hg hp l,
        fun hg => gives_powerLoss (veg33 := true) hg, fun h => gives_powerLoss (veg33 := false) ⟨h.1, h.2⟩, fun h => gives_perstAssert h,
        fun h => gives_perstRelease_off h, fun ⟨hr, ha⟩ => gives_rootResetWarm hr ha, fun ⟨hr, ha⟩ => gives_rootResetMgmt hr ha,
        fun _ => .of_done rfl⟩
  case host =>
    intro k v off size data err d h m w g u hmem
    refine State.gives_of_rows ?_ hmem
    simp only [List.Forall, State.Row]
    exact
      ⟨fun ⟨hm, hk, hu⟩ => gives_bar2Read_served hm hk hu, fun ⟨hm, hk, hu⟩ => gives_bar2Write_served hm hk hu,
        fun _ => gives_registerWrite r off size v s, fun ⟨ha, _⟩ => gives_lowHalfRead ha r off size,
        fun hk => gives_hqRhposWrite hk r v [data] s, fun hk => gives_hqRhposWrite hk r v [] s,
        fun ⟨hd, _, hop⟩ => gives_h2d_start hd (by omega) data err, fun ⟨hd, _, hop⟩ => gives_d2h_start hd hop err,
        fun ⟨hd, hop⟩ => gives_h2l_start hd hop data err, fun ⟨hd, hst, hhash, hroom⟩ => gives_dmaComplete hd hst hhash hroom,
        fun h => gives_digestSlice h, fun ⟨hh, hu⟩ => gives_submit hh hu data, fun ⟨hk, _⟩ => gives_serveAbortWrite hk r v s,
        fun _ => .of_done rfl, fun ⟨hl, hp⟩ => gives_pcieLinkUp hl hp, fun ⟨hk, hp, _⟩ => gives_ethLinkUp hk hp,
        fun ⟨hk, _⟩ => gives_ethLinkDown hk s, fun _ => .of_done rfl, fun _ => .of_done rfl,
        fun ⟨hk, hup, hm, ht⟩ => gives_ethSlot hk hup hm ht, fun ⟨hk, hup, hm, ht⟩ => gives_ethAck hk hup hm ht,
        fun ⟨hk, hup, hm, ht, hkey⟩ => gives_parkd hk hup hm ht hkey, fun ⟨hk, hu, hlate⟩ => gives_ethResend hk hu hlate,
        fun ⟨hms, hlate⟩ => gives_telem hms hlate, fun _ => .of_done rfl, fun _ => .of_done rfl, fun _ => .of_done rfl, fun _ => .of_done rfl,
        fun _ => .of_done rfl, fun _ => .of_done rfl⟩
  case boot =>
    intro k v b data p x y z a w g u hmem
    refine State.gives_of_rows ?_ hmem
    simp only [List.Forall, State.Row]
    exact
      ⟨fun h => gives_stagingComplete h, fun ⟨hdue, hheld⟩ => gives_startAttempt hdue hheld, fun h => gives_stageOverrun h,
        fun ⟨h, hup⟩ => gives_solicit h hup, fun ⟨h, hnone, hgot, hlo, hhi, hup⟩ => gives_offer h hnone hgot hlo hhi hup,
        fun ⟨h, hoffer, hread, hlen, hup⟩ => gives_data h hoffer hread hlen hup, fun h => gives_readResend h, fun h => gives_serverLost h,
        fun ⟨h5, h0, h1⟩ => gives_bootOk h5 h0 h1, fun ⟨hk, h⟩ => gives_watchdogExpire hk h, fun ⟨hk, h⟩ => gives_watchdogKick hk h v,
        fun ⟨hk, h⟩ => gives_mcRunning hk h, fun ⟨hk, h, hlate⟩ => gives_mcRestartTimeout hk h hlate,
        fun ⟨h, hroom⟩ => (gives_psDataWrite r v s).of_eq (State.writePsData_taken h hroom r v), fun h => gives_psWriteComplete_head h,
        fun ⟨ha, _⟩ => gives_mboxPost ha r, fun ⟨ha, _⟩ => gives_mgmtMessage ha k data, fun h => gives_imageVerified h⟩

end Sys2Proof.Machine
end
